-- ==== Sys2Proof/Word.lean ====
section
/-! DEFINITION. The word types of the W8 model and the two worlds. -/
namespace Sys2Proof

/-- One byte of a packet, a record or a memory. -/
abbrev Byte := BitVec 8

/-- A 16-bit word: an AGENT_ID (R40), a status field, a pixel half. -/
abbrev W16 := BitVec 16

/-- A 32-bit register or packet word. -/
abbrev W32 := BitVec 32

/-- A 64-bit register, result word or stamp. -/
abbrev W64 := BitVec 64

/-- The two worlds an agent can act in (R394). -/
inductive World where
  | sealed
  | opened
  deriving DecidableEq, Repr

end Sys2Proof
end

