-- ==== Sys2Proof/Syntax.lean ====
section
/-! DEFINITION. The commands the W8 takes: one constructor per row of the opcode table. An Orbel packet carries its whole
ring entry but the opcode, which the constructor gives; a register access carries its requester, address, width and value;
an event of the outside world carries what is measured or seen. -/
namespace Sys2Proof

/-- An Orbel packet as it stands in a command ring (R73, R78), without its opcode. `ring` is the ring index of R72. -/
structure Packet where
  ring : Fin 34
  version : Byte
  flags : Byte
  source : W16
  length : W16
  seq : W32
  caravan : W32
  target : W32
  reserved : List Byte
  payload : List Byte
  trailer : W32
  deriving DecidableEq, Repr

/-- Who makes an access: a control core in a world, a debug session, or a host through a function's BAR 0 (R40). -/
inductive Requester where
  | core (k : Fin 4) (w : World)
  | debug (session : Fin 4) (w : World)
  | host (f : Fin 32)
  deriving DecidableEq, Repr

/-- The width of a register access (R550). -/
inductive Width where
  | w8 | w16 | w32 | w64
  deriving DecidableEq, Repr

/-- A register access: an internal address, or an offset into BAR 0 for a host. -/
structure Access where
  who : Requester
  addr : BitVec 48
  width : Width
  deriving DecidableEq, Repr

/-- What the shaders and the binner do in a draw or a dispatch: pipeline objects and their machine code are no interface
(R214, R227), so the outside gives it. `writes` are the bytes written through descriptors, to the bin area and to attachments
before the pass ends; then primitives submitted and culled, samples shaded, the peak of bin bytes, bin flushes, and whether a
shader exception stopped it (R215, R238, R252). -/
structure Work where
  writes : List (W64 × List Byte)
  prims : W32
  culled : W32
  frags : W64
  bin : W32
  flushes : W16
  exception : Bool
  deriving DecidableEq, Repr

/-- The pixels of one screen tile of an attachment that the draws of a pass leave, in the attachment's format, 32 rows of 32
pixels. -/
structure TileData where
  attachment : Fin 5
  column : W16
  row : W16
  bytes : List Byte
  deriving DecidableEq, Repr


/-- The commands of the W8: one constructor per row of the opcode table, in its order. -/
inductive Instr where
  /-- MASTER_FRAME_START (R127). -/
  | masterFrameStart
  /-- HOUSE_SYNC_REFERENCE (R18). A reference point as measured: `detected` is the signal type seen (0 unrecognised); `pos16` its distance from the expected position, `phase16` the phase error (R22) and `freqErr` the frequency error of the raster, in 1/16 grain and 0.01 ppm; `period` the deviation of its period from nominal and `freq` its offset from the on-module reference, in 0.01 ppm. -/
  | houseSyncReference (detected : Fin 4) (pos16 : Int) (period : Int) (freq : Int) (freqErr : Int) (phase16 : Int)
  /-- SYNC_LOST (R20). -/
  | syncLost
  /-- HOLDOVER_LIMIT (R21). -/
  | holdoverLimit
  /-- RASTER_SET (R15). -/
  | rasterSet (p : Packet)
  /-- SYNC_SET (R34). -/
  | syncSet (p : Packet)
  /-- WALL_QUERY (R35). -/
  | wallQuery (p : Packet)
  /-- WALL_APPLY_WRITE (R31). -/
  | wallApplyWrite (who : Requester) (value : W32)
  /-- WALL_NOW_READ (R32). -/
  | wallNowRead (who : Requester)
  /-- AUD_NOW_READ (R550). -/
  | audNowRead (who : Requester)
  /-- REGISTER_WRITE (R4). -/
  | registerWrite (a : Access) (value : W64)
  /-- LINK_UP (R37). `speed` is the SPEED code and `width` the lanes of HPx_LINK. -/
  | linkUp (port : Fin 2) (speed : Fin 5) (width : Fin 5)
  /-- LINK_DOWN (R55). -/
  | linkDown (port : Fin 2)
  /-- HOT_RESET (R55). -/
  | hotReset (port : Fin 2)
  /-- FUNCTION_LEVEL_RESET (R55). -/
  | functionLevelReset (f : Fin 32)
  /-- VF_ENABLE_CHANGE (R55). -/
  | vfEnableChange (port : Fin 2) (enable : Bool) (numVfs : Fin 16)
  /-- FN_HEARTBEAT_WRITE (R66). -/
  | fnHeartbeatWrite (f : Fin 32) (value : W32)
  /-- PORT_LINK_LOSS_TIMEOUT (R66). -/
  | portLinkLossTimeout (port : Fin 2)
  /-- HEARTBEAT_TIMEOUT (R66). -/
  | heartbeatTimeout (port : Fin 2)
  /-- FN_DOORBELL_WRITE (R43). -/
  | fnDoorbellWrite (f : Fin 32) (tail : W32)
  /-- RING_READ_RESUME (R76). -/
  | ringReadResume (ring : Fin 34)
  /-- BAR2_ACCESS (R45). A read of `len` bytes, or a write of `data`, at a byte offset of the 64 MiB window; `ecc` is what the check bytes of the range show on a read: 0 good, 1 a single-bit error, 2 uncorrectable, 3 an address fault. -/
  | bar2Access (f : Fin 32) (offset : BitVec 26) (data : List Byte) (len : Fin 4097) (write : Bool) (ecc : Fin 4)
  /-- TAG_TIMEOUT (R57). -/
  | tagTimeout (f : Fin 32)
  /-- RESET_SPACING_END (R57). -/
  | resetSpacingEnd (f : Fin 32)
  /-- DRAIN_END (R60). -/
  | drainEnd (f : Fin 32)
  /-- FUNC_RESET_COMPLETE (R59). -/
  | funcResetComplete (f : Fin 32)
  /-- TENANT_CREATE (R48). -/
  | tenantCreate (p : Packet)
  /-- TENANT_DESTROY (R50). -/
  | tenantDestroy (p : Packet)
  /-- DRAM_CLEAR_COMPLETE (R50). -/
  | dramClearComplete (f : Fin 32)
  /-- TENANT_SHARE (R49). -/
  | tenantShare (p : Packet)
  /-- FUNC_RESET (R62). -/
  | funcReset (p : Packet)
  /-- TENANT_QUERY (R51). -/
  | tenantQuery (p : Packet)
  /-- HOME_SET (R65). -/
  | homeSet (p : Packet)
  /-- SYS_QUERY (R89). -/
  | sysQuery (p : Packet)
  /-- MODE_REQUEST (R477). -/
  | modeRequest (p : Packet)
  /-- NOP (R89). -/
  | nop (p : Packet)
  /-- SEQ_SYNC (R82). -/
  | seqSync (p : Packet)
  /-- MARGIN_SET (R89). -/
  | marginSet (p : Packet)
  /-- CARAVAN_TIME (R106). -/
  | caravanTime (p : Packet)
  /-- CARAVAN_FENCE (R103). -/
  | caravanFence (p : Packet)
  /-- CARAVAN_ABORT (R106). -/
  | caravanAbort (p : Packet)
  /-- CARAVAN_QUERY (R106). -/
  | caravanQuery (p : Packet)
  /-- CARAVAN_END (R105). -/
  | caravanEnd (p : Packet)
  /-- CARAVAN_VALIDATION_DONE (R98). -/
  | caravanValidationDone (ring : Fin 34) (id : W32)
  /-- CARAVAN_EXPIRED (R96). -/
  | caravanExpired (ring : Fin 34) (id : W32)
  /-- INTERNAL_RING_ENABLE_WRITE (R77). A write of the CMD_SIZE (or RPL_SIZE, `reply`) register of the world's internal ring. -/
  | internalRingEnableWrite (who : Requester) (world : World) (reply : Bool) (value : W32)
  /-- HPD_PLUG (R116). What the sink's DPCD reports. -/
  | hpdPlug (port : Fin 8) (maxRate : Fin 4) (lanes : Fin 5) (sinkCount : Fin 16)
  /-- HPD_UNPLUG (R117). -/
  | hpdUnplug (port : Fin 8)
  /-- HPD_IRQ (R117). The lane status that DPCD 0x00200 to 0x00205 reports. -/
  | hpdIrq (port : Fin 8) (cr eq sym : Bool)
  /-- LINK_TRAIN_ATTEMPT_END (R116). Clock recovery, equalisation and symbol lock on all lanes as the sink reports them. -/
  | linkTrainAttemptEnd (port : Fin 8) (cr eq sym : Bool)
  /-- AUX_READ_COMPLETE (R119). `result` is the SINK_READ detail. -/
  | auxReadComplete (port : Fin 8) (result : Fin 5) (data : List Byte)
  /-- TE_EDGE (R122). -/
  | teEdge (port : Fin 8)
  /-- TE_TIMEOUT (R123). -/
  | teTimeout (port : Fin 8)
  /-- DSI_ERR_POLL (R125). `report` is the panel's acknowledge and error report. -/
  | dsiErrPoll (port : Fin 8) (report : W32)
  /-- HEAD_LATCH (R128). -/
  | headLatch (head : Fin 8)
  /-- HEAD_FRAME_START (R114). -/
  | headFrameStart (head : Fin 8)
  /-- HEAD_EN_WRITE (R138). A write of HEAD_n_CTRL. -/
  | headEnWrite (who : Requester) (head : Fin 8) (value : W32)
  /-- HEAD_WALL_ARM_WRITE (R127). -/
  | headWallArmWrite (who : Requester) (value : W32)
  /-- ENGINE_DATAPATH_FAULT (R132). -/
  | engineDatapathFault (engine : Fin 9)
  /-- ENGINE_TIMING_WATCHDOG (R132). -/
  | engineTimingWatchdog (engine : Fin 9)
  /-- ENGINE_BIST_COMPLETE (R135). -/
  | engineBistComplete (engine : Fin 9) (pass : Bool)
  /-- SPARE_TEST_COMPLETE (R136). -/
  | spareTestComplete (pass : Bool)
  /-- HEAD_TIMING_SET (R140). -/
  | headTimingSet (p : Packet)
  /-- HEAD_ENABLE (R140). -/
  | headEnable (p : Packet)
  /-- HEAD_DISABLE (R140). -/
  | headDisable (p : Packet)
  /-- PORT_CONFIG (R140). -/
  | portConfig (p : Packet)
  /-- PORT_RETRAIN (R116). -/
  | portRetrain (p : Packet)
  /-- SINK_READ (R140). -/
  | sinkRead (p : Packet)
  /-- DSI_CONFIG (R124). -/
  | dsiConfig (p : Packet)
  /-- HEAD_SHOW (R126). -/
  | headShow (p : Packet)
  /-- HEAD_QUERY (R140). -/
  | headQuery (p : Packet)
  /-- SPARE_SET (R131). -/
  | spareSet (p : Packet)
  /-- SPARE_TAKEOVER (R133). -/
  | spareTakeover (p : Packet)
  /-- SPARE_RESTORE (R135). -/
  | spareRestore (p : Packet)
  /-- SPARE_TEST (R136). -/
  | spareTest (p : Packet)
  /-- LAYER_UNDERRUN (R165). The head line and pixel of the first pixel that is not ready. -/
  | layerUnderrun (pipe : Fin 48) (line pixel : W16)
  /-- LAYER_FIRST_LINE (R166). -/
  | layerFirstLine (pipe : Fin 48) (ready : Bool)
  /-- WB_CAPTURE_COMPLETE (R171). -/
  | wbCaptureComplete (unit : Fin 4)
  /-- WB_OVERFLOW (R172). `lines` head lines have been written whole. -/
  | wbOverflow (unit : Fin 4) (lines : W16)
  /-- LAYER_LIST (R176). -/
  | layerList (p : Packet)
  /-- LAYER_SET (R163). -/
  | layerSet (p : Packet)
  /-- LAYER_ADDR (R176). -/
  | layerAddr (p : Packet)
  /-- LAYER_COLOUR (R159). -/
  | layerColour (p : Packet)
  /-- LAYER_QUERY (R176). -/
  | layerQuery (p : Packet)
  /-- WB_SET (R171). -/
  | wbSet (p : Packet)
  /-- WB_QUERY (R176). -/
  | wbQuery (p : Packet)
  /-- HEAD_OUTPUT_SET (R161). -/
  | headOutputSet (p : Packet)
  /-- HEAD_GAMMA_SET (R176). -/
  | headGammaSet (p : Packet)
  /-- MIRAGE_EVALUATION (R181). -/
  | mirageEvaluation (pipe : Fin 48)
  /-- C0_CHECK_COMPLETE (R189). `err` is what a fault on the way to the pins changed in the plane's CRC, 0 for none. -/
  | c0CheckComplete (head : Fin 8) (plane : Fin 2) (err : W32)
  /-- HEAD_VERDICT (R199). What faults changed in the CRCs of rectangles 0 to 15 and, at index 16, of the frame, at the pins, at the tap and at engine 8's tap; an absent entry is 0. `lost`: the path in use gave no result. -/
  | headVerdict (head : Fin 8) (pin tap spare : List W32) (lost : Bool)
  /-- RB_SELFTEST_DUE (R197). -/
  | rbSelftestDue (port : Fin 8)
  /-- RB_SELFTEST_COMPLETE (R197). -/
  | rbSelftestComplete (port : Fin 8) (pass : Bool)
  /-- SINK_CRC_SAMPLE (R198). Whether the sink supports test CRCs, whether the AUX read succeeded, and the CRCs read. -/
  | sinkCrcSample (head : Fin 8) (supported ok : Bool) (crc : BitVec 48)
  /-- GUARD_SET (R178). -/
  | guardSet (p : Packet)
  /-- FRESH_TIME (R180). -/
  | freshTime (p : Packet)
  /-- RECT_SET (R191). -/
  | rectSet (p : Packet)
  /-- RECT_EXPECT (R191). -/
  | rectExpect (p : Packet)
  /-- EMBER_SET (R186). -/
  | emberSet (p : Packet)
  /-- EMBER_PALETTE (R187). -/
  | emberPalette (p : Packet)
  /-- EMBER_EXPECT (R189). -/
  | emberExpect (p : Packet)
  /-- EMBER_WRITE (R188). -/
  | emberWrite (p : Packet)
  /-- EMBER_LOAD (R188). -/
  | emberLoad (p : Packet)
  /-- EMBER_LOAD_COMPLETE (R188). -/
  | emberLoadComplete (ring : Fin 34)
  /-- INTEG_CFG (R200). -/
  | integCfg (p : Packet)
  /-- INTEG_RESUME (R201). -/
  | integResume (p : Packet)
  /-- RB_SELFTEST (R197). -/
  | rbSelftest (p : Packet)
  /-- INTEG_QUERY (R207). -/
  | integQuery (p : Packet)
  /-- AGE_QUERY (R207). -/
  | ageQuery (p : Packet)
  /-- CTX_SET (R211). -/
  | ctxSet (p : Packet)
  /-- GFX_KICK (R213). -/
  | gfxKick (p : Packet)
  /-- QTAIL_WRITE (R213). -/
  | qtailWrite (who : Requester) (ctx : Fin 64) (value : W32)
  /-- CTX_RESET (R228). -/
  | ctxReset (p : Packet)
  /-- CTX_QUERY (R231). -/
  | ctxQuery (p : Packet)
  /-- COMPILE (R227). -/
  | compile (p : Packet)
  /-- COMPILE_COMPLETE (R227). `detail` as in the completion record, 0 for success; the object made, or the size needed. -/
  | compileComplete (f : Fin 32) (job : W16) (detail : Fin 5) (size : W32) (object : List Byte)
  /-- DEADLINE_SET (R221). -/
  | deadlineSet (p : Packet)
  /-- COMP_SET (R220). -/
  | compSet (p : Packet)
  /-- COMP_TIME (R231). -/
  | compTime (p : Packet)
  /-- GFX_QUERY (R231). -/
  | gfxQuery (p : Packet)
  /-- PASS_QUERY (R253). -/
  | passQuery (p : Packet)
  /-- SCHED_SLICE_EXPIRY (R217). -/
  | schedSliceExpiry
  /-- CTX_HANG (R215). -/
  | ctxHang (ctx : Fin 64)
  /-- PREEMPTION_COMPLETE (R219). The time it took in 0.1 us, and the bytes written to the save area. -/
  | preemptionComplete (tenths : W16) (saved : List Byte)
  /-- COMMAND_BUFFER_COMPLETE (R213). -/
  | commandBufferComplete (ctx : Fin 64)
  /-- FENCE_COUNTER_UPDATE (R216). -/
  | fenceCounterUpdate (ctx : Fin 64)
  /-- FENCE_WAIT_SATISFIED (R216). -/
  | fenceWaitSatisfied (ctx : Fin 64)
  /-- COMP_JOB_READY (R222). -/
  | compJobReady (head : Fin 8)
  /-- COMP_WARN (R223). -/
  | compWarn (head : Fin 8)
  /-- COMP_JOB_COMPLETE (R224). -/
  | compJobComplete (head : Fin 8)
  /-- COMP_DEADLINE (R225). -/
  | compDeadline (head : Fin 8)
  /-- DRAW_PACKET_NOP (R214). The packet stands in the command buffer that the context runs. -/
  | drawPacketNop (ctx : Fin 64)
  /-- JUMP (R214). The packet stands in the command buffer that the context runs. -/
  | jump (ctx : Fin 64)
  /-- CALL (R214). The packet stands in the command buffer that the context runs. -/
  | callList (ctx : Fin 64)
  /-- SET_PIPELINE (R214). `good`: the object was made by COMPILE of the running firmware build and its check passes. -/
  | setPipeline (ctx : Fin 64) (good : Bool)
  /-- SET_DESCRIPTORS (R214). The packet stands in the command buffer that the context runs. -/
  | setDescriptors (ctx : Fin 64)
  /-- SET_BUFFERS (R214). The packet stands in the command buffer that the context runs. -/
  | setBuffers (ctx : Fin 64)
  /-- SET_DYNAMIC (R214). The packet stands in the command buffer that the context runs. -/
  | setDynamic (ctx : Fin 64)
  /-- BEGIN_PASS (R235). The packet stands in the command buffer that the context runs. -/
  | beginPass (ctx : Fin 64)
  /-- END_PASS (R248). The tiles that the draws of the pass left other than as loaded. -/
  | endPass (ctx : Fin 64) (tiles : List TileData)
  /-- DRAW (R214). The packet stands in the command buffer that the context runs. -/
  | draw (ctx : Fin 64) (work : Work)
  /-- DRAW_INDEXED (R214). The packet stands in the command buffer that the context runs. -/
  | drawIndexed (ctx : Fin 64) (work : Work)
  /-- DRAW_INDIRECT (R214). The packet stands in the command buffer that the context runs. -/
  | drawIndirect (ctx : Fin 64) (work : Work)
  /-- DISPATCH (R214). The packet stands in the command buffer that the context runs. -/
  | dispatch (ctx : Fin 64) (work : Work)
  /-- DISPATCH_INDIRECT (R214). The packet stands in the command buffer that the context runs. -/
  | dispatchIndirect (ctx : Fin 64) (work : Work)
  /-- BARRIER (R214). The packet stands in the command buffer that the context runs. -/
  | barrier (ctx : Fin 64)
  /-- FENCE_SIGNAL (R216). The packet stands in the command buffer that the context runs. -/
  | fenceSignal (ctx : Fin 64)
  /-- FENCE_WAIT (R216). The packet stands in the command buffer that the context runs. -/
  | fenceWait (ctx : Fin 64)
  /-- TIMESTAMP (R214). The packet stands in the command buffer that the context runs. -/
  | timestamp (ctx : Fin 64)
  /-- COPY (R214). The packet stands in the command buffer that the context runs. -/
  | copy (ctx : Fin 64)
  /-- FILL (R214). The packet stands in the command buffer that the context runs. -/
  | fill (ctx : Fin 64)
  /-- RAY_BATCH (R263). The packet stands in the command buffer that the context runs. -/
  | rayBatch (ctx : Fin 64)
  /-- PICK_COMPLETE (R268). `ended`: the budgets ended the traversal. -/
  | pickComplete (port : Fin 4) (contact : Fin 16) (ended : Bool)
  /-- PICK_SET (R264). -/
  | pickSet (p : Packet)
  /-- PICK_SCENE (R270). -/
  | pickScene (p : Packet)
  /-- PICK_CLASSES (R269). -/
  | pickClasses (p : Packet)
  /-- PICK_QUERY (R271). -/
  | pickQuery (p : Packet)
  /-- TOUCH_WINDOW_END (R280). Raw counts of the nodes (112d + s), the clipped converters, and the readings of the drive monitor, 64 tones for each of its 8 lines in mV; none when each line shows its own tone alone. -/
  | touchWindowEnd (port : Fin 4) (slot : Fin 8) (raw : List W16) (clipped : BitVec 112) (monitor : List W16)
  /-- LISTEN_WINDOW_END (R285). The noise of the four comb sets. -/
  | listenWindowEnd (port : Fin 4) (n0 n1 n2 n3 : W16)
  /-- LONG_TOUCH (R281). -/
  | longTouch (port : Fin 4) (contact : Fin 16)
  /-- TOUCH_SELFTEST_COMPLETE (R292). What the 23 windows measured: raw counts, clipped converters, 64 x 64 readings of the drive monitor in mV, and the pairs of sense lines on which a bias step shows at 10 % or more. -/
  | touchSelftestComplete (port : Fin 4) (raw : List W16) (clipped : BitVec 112) (monitor : List W16) (bias : List (Byte × Byte))
  /-- BASELINE_STORE_COMPLETE (R284). -/
  | baselineStoreComplete (port : Fin 4)
  /-- TOUCH_SET (R275). -/
  | touchSet (p : Packet)
  /-- ZONE_SET (R288). -/
  | zoneSet (p : Packet)
  /-- TOUCH_SELFTEST (R292). -/
  | touchSelftest (p : Packet)
  /-- BASELINE_STORE (R284). -/
  | baselineStore (p : Packet)
  /-- BASELINE_RESET (R296). -/
  | baselineReset (p : Packet)
  /-- TOUCH_QUERY (R296). -/
  | touchQuery (p : Packet)
  /-- HAP_DRIVE_END (R305). -/
  | hapDriveEnd (channel : Fin 8)
  /-- BRAKE_END (R305). -/
  | brakeEnd (channel : Fin 8)
  /-- REPEAT_GAP_END (R305). -/
  | repeatGapEnd (channel : Fin 8)
  /-- BACK_EMF_WINDOW (R300). Back-EMF in mV, the direction of motion, the measured half-period and the current in mA. -/
  | backEmfWindow (channel : Fin 8) (vb : W16) (forward : Bool) (tm : W32) (current : W16)
  /-- ACTUATOR_FAULT_DETECT (R310). -/
  | actuatorFaultDetect (channel : Fin 8) (code : Fin 6)
  /-- RESISTANCE_CHECK_COMPLETE (R311). The current of the check pulse in uA and the temperature of the bridge in 0.1 degrees C. -/
  | resistanceCheckComplete (channel : Fin 8) (microamps : W32) (tenths : W16)
  /-- HAP_CHANNEL_SET (R298). -/
  | hapChannelSet (p : Packet)
  /-- HAP_EFFECT_SET (R301). -/
  | hapEffectSet (p : Packet)
  /-- HAP_WAVE_WRITE (R302). -/
  | hapWaveWrite (p : Packet)
  /-- HAP_PLAY (R306). -/
  | hapPlay (p : Packet)
  /-- HAP_STOP (R316). -/
  | hapStop (p : Packet)
  /-- HAP_CLEAR (R311). -/
  | hapClear (p : Packet)
  /-- HAP_QUERY (R316). -/
  | hapQuery (p : Packet)
  /-- AUDIO_SAMPLE (R329). What the line inputs and the TDM input slots convert, and the haptic bridges whose current limit acts. -/
  | audioSample (line0 line1 : BitVec 24) (tdm : List (BitVec 24)) (limited : Byte)
  /-- ZC_TIMEOUT_EXPIRY (R327). The point whose step is pending: a crosspoint (16 x source + bus), the gain of a bus, its bypass change, a sink, or the stop of a tone. -/
  | zcTimeoutExpiry (kind : Fin 5) (index : Fin 800)
  /-- TONE_PART_END (R331). -/
  | tonePartEnd (t : Fin 8)
  /-- STREAM_POSITION_REPORT (R330). -/
  | streamPositionReport (stream : Fin 32)
  /-- SPEAKER_FAULT_DETECT (R335). -/
  | speakerFaultDetect (speaker : Fin 2) (code : Fin 4)
  /-- AUD_ASSIGN (R319). -/
  | audAssign (p : Packet)
  /-- ROUTE_SET (R321). -/
  | routeSet (p : Packet)
  /-- BUS_SET (R322). -/
  | busSet (p : Packet)
  /-- EQ_SET (R323). -/
  | eqSet (p : Packet)
  /-- SINK_SET (R328). -/
  | sinkSet (p : Packet)
  /-- STREAM_SET (R330). -/
  | streamSet (p : Packet)
  /-- STREAM_KICK (R330). -/
  | streamKick (p : Packet)
  /-- TONE_SET (R331). -/
  | toneSet (p : Packet)
  /-- TONE_PLAY_START (R331). -/
  | tonePlayStart (p : Packet)
  /-- TONE_PLAY_STOP (R331). -/
  | tonePlayStop (p : Packet)
  /-- TDM_SET (R333). -/
  | tdmSet (p : Packet)
  /-- AUD_QUERY (R340). -/
  | audQuery (p : Packet)
  /-- MAILBOX_POST (R345). A host posts through `window`; a core through its own send port. -/
  | mailboxPost (who : Requester) (window : Fin 8) (value : W32)
  /-- MAILBOX_POP (R347). `unit` is the mailbox, or the window of a host. -/
  | mailboxPop (who : Requester) (unit : Fin 64) (value : W32)
  /-- QUEUE_READ (R354). -/
  | queueRead (who : Requester) (q : Fin 32) (width : Width)
  /-- QUEUE_ITEM_WRITE (R351). -/
  | queueItemWrite (who : Requester) (q : Fin 32) (item : W64)
  /-- QUEUE_HOST_DELIVERY (R355). -/
  | queueHostDelivery (q : Fin 32)
  /-- LOCK_READ (R358). `unit` is the lock, or 8k + j for FN_LOCK_j in window k of a host. -/
  | lockRead (who : Requester) (unit : Fin 64)
  /-- LOCK_RELEASE_WRITE (R360). -/
  | lockReleaseWrite (who : Requester) (unit : Fin 64)
  /-- MB_ALLOW (R345). -/
  | mbAllow (p : Packet)
  /-- MB_QUERY (R364). -/
  | mbQuery (p : Packet)
  /-- Q_SET (R355). -/
  | qSet (p : Packet)
  /-- Q_QUERY (R364). -/
  | qQuery (p : Packet)
  /-- LOCK_TAKE (R364). -/
  | lockTake (p : Packet)
  /-- LOCK_GIVE (R364). -/
  | lockGive (p : Packet)
  /-- REFRESH_SLOT (R381). The channels on which RT requests wait. -/
  | refreshSlot (waiting : Byte)
  /-- MR4_TEMP_READ (R382). The temperature in degrees C, signed. -/
  | mr4TempRead (channel : Fin 8) (temp : Byte)
  /-- FREQ_CHANGE_LINE (R383). -/
  | freqChangeLine
  /-- FREQ_CHANGE_COMPLETE (R383). -/
  | freqChangeComplete
  /-- FCHG_GO_WRITE (R383). -/
  | fchgGoWrite (who : Requester) (value : W32)
  /-- PATROL_SCRUB (R377). Region 0 to 6 of the on-die SRAM, or 7 for the DRAM line whose internal address bits [47:6] are given; what the check bytes show: 0 good, 1 a single-bit error, 2 uncorrectable, 3 an address fault. -/
  | patrolScrub (region : Fin 8) (line : BitVec 42) (kind : Fin 4)
  /-- RT_LATE (R372). -/
  | rtLate (channel : Fin 8)
  /-- HOT_WINDOW_END (R373). The accesses of each channel in the window and in its last second, the channels of whose slots at least 80 % were in use, and the bytes each function read and wrote in that second. -/
  | hotWindowEnd (accesses last : List W32) (busy : Byte) (traffic : List (W64 × W64))
  /-- TRAINING_SET_POINT_DONE (R378). Per lane (2 x channel + lane) the first and last taps of the read run and of the write run. -/
  | trainingSetPointDone (runs : List ((Byte × Byte) × (Byte × Byte)))
  /-- DRAM_INIT_CLEAR_DONE (R389). -/
  | dramInitClearDone
  /-- MEM_FREQ_SET (R392). -/
  | memFreqSet (p : Packet)
  /-- MEM_RETRAIN (R379). -/
  | memRetrain (p : Packet)
  /-- MEM_REF_PLAN (R380). -/
  | memRefPlan (p : Packet)
  /-- MEM_CFG (R392). -/
  | memCfg (p : Packet)
  /-- MEM_QUERY (R392). -/
  | memQuery (p : Packet)
  /-- REGIME_SWITCH_END (R401). -/
  | regimeSwitchEnd
  /-- CPC_CLOCK_STOP (R407). The write of WORLD_CPC_REQ with this action. -/
  | cpcClockStop (who : Requester) (domain : Fin 64)
  /-- CPC_CLOCK_RUN (R407). The write of WORLD_CPC_REQ with this action. -/
  | cpcClockRun (who : Requester) (domain : Fin 64)
  /-- CPC_POWER_OFF (R407). The write of WORLD_CPC_REQ with this action. -/
  | cpcPowerOff (who : Requester) (domain : Fin 64)
  /-- CPC_POWER_ON (R407). The write of WORLD_CPC_REQ with this action. -/
  | cpcPowerOn (who : Requester) (domain : Fin 64)
  /-- DOMAIN_POWER_SLOT (R486). -/
  | domainPowerSlot (domain : Fin 64)
  /-- DEBUG_SESSION_ATTACH (R409). A session through the debug port asks for access of a kind to a world. -/
  | debugSessionAttach (session : Fin 4) (world : World) (invasive : Bool)
  /-- WMARK_SET (R397). -/
  | wmarkSet (p : Packet)
  /-- CLAIM_SET (R408). -/
  | claimSet (p : Packet)
  /-- DEBUG_SET (R410). -/
  | debugSet (p : Packet)
  /-- FUSE_BLOW (R411). -/
  | fuseBlow (p : Packet)
  /-- FUSE_BLOW_COMPLETE (R411). -/
  | fuseBlowComplete
  /-- WORLD_QUERY (R418). -/
  | worldQuery (p : Packet)
  /-- CU_JOB (R427). -/
  | cuJob (p : Packet)
  /-- CU_QUERY (R432). -/
  | cuQuery (p : Packet)
  /-- CU_DISPATCH (R427). -/
  | cuDispatch (unit : Fin 8)
  /-- CU_DIRECT_GO (R424). A write of CU_u_CTRL. -/
  | cuDirectGo (who : Requester) (unit : Fin 8) (value : W32)
  /-- CU_JOB_COMPLETE (R428). -/
  | cuJobComplete (unit : Fin 8)
  /-- PEAT_RECORD_COMMIT (R445). -/
  | peatRecordCommit
  /-- SUMMARY_RECORD (R440). -/
  | summaryRecord
  /-- PEAT_WRAP_WRITE (R442). -/
  | peatWrapWrite (who : Requester) (value : W32)
  /-- LOG_QUERY (R450). -/
  | logQuery (p : Packet)
  /-- LOG_EXPORT (R448). -/
  | logExport (p : Packet)
  /-- LOG_EXPORT_COMPLETE (R448). -/
  | logExportComplete (ring : Fin 34)
  /-- LOG_POLICY (R442). -/
  | logPolicy (p : Packet)
  /-- LOG_RELEASE (R444). -/
  | logRelease (p : Packet)
  /-- LOG_MARK (R446). -/
  | logMark (p : Packet)
  /-- EVT_RING_ENABLE_WRITE (R455). A write of the EVT_IRw_SIZE register of the ring of `world`. -/
  | evtRingEnableWrite (who : Requester) (world : World) (value : W32)
  /-- EVENT_HOST_DELIVERY (R457). -/
  | eventHostDelivery (f : Fin 32)
  /-- EVT_ROUTE (R456). -/
  | evtRoute (p : Packet)
  /-- EVT_RING_SET (R457). -/
  | evtRingSet (p : Packet)
  /-- EVT_QUERY (R473). -/
  | evtQuery (p : Packet)
  /-- SUPV_POLICY_SET (R464). -/
  | supvPolicySet (p : Packet)
  /-- SUPV_QUERY (R473). -/
  | supvQuery (p : Packet)
  /-- SUPV_KICK_WRITE (R461). -/
  | supvKickWrite (who : Requester) (value : W32)
  /-- SUPV_WD_EXPIRED (R461). -/
  | supvWdExpired
  /-- LOCKSTEP_MISMATCH (R460). -/
  | lockstepMismatch
  /-- LOCKSTEP_RESET_DELAY (R460). -/
  | lockstepResetDelay
  /-- RASTER_STALL (R462). -/
  | rasterStall
  /-- OSC_COMPARE (R463). `ppm` is the difference found. -/
  | oscCompare (ppm : Nat)
  /-- HEALTH_A_HALF_PERIOD (R466). -/
  | healthAHalfPeriod
  /-- HEALTH_B_FRAME (R467). -/
  | healthBFrame
  /-- POLICY_ALARM_EXPIRY (R464). -/
  | policyAlarmExpiry
  /-- POWER_SLOT_END (R483). The straps REC_N (low) and TAPSEL as they stand at the end of the slot. -/
  | powerSlotEnd (recLow tapSel : Bool)
  /-- RAIL_FAULT_TIMEOUT (R485). -/
  | railFaultTimeout
  /-- RAIL_FAULT_RETRY (R485). -/
  | railFaultRetry
  /-- BOOT_ROM_CHAIN (R414). The cause with which images 1 and 2 of slot A and of slot B fail (R413), 0 for a pass; whether the root hash is of an unblown fuse; the version of the image that runs. -/
  | bootRomChain (a1 a2 b1 b2 : Fin 6) (hash0 : Bool) (version : W32)
  /-- VMAIN_LOW_DETECT (R482). VMAIN as measured, in 10 mV. -/
  | vmainLowDetect (mv10 : BitVec 12)
  /-- VMAIN_RECOVERY (R482). VMAIN as measured, in 10 mV. -/
  | vmainRecovery (mv10 : BitVec 12)
  /-- BROWN_OUT (R482). Whether VMAIN itself is below 10.0 V, or an internal rail below its limit. -/
  | brownOut (vmainLost : Bool)
  /-- VSTBY_LOSS_DETECT (R482). -/
  | vstbyLossDetect
  /-- VSTBY_GOOD_DETECT (R482). -/
  | vstbyGoodDetect
  /-- THERMAL_TRIP (R492). -/
  | thermalTrip
  /-- THERMAL_RESTART (R492). -/
  | thermalRestart
  /-- DIE_TEMP_SAMPLE (R492). Die and plate temperature in degrees C, signed. -/
  | dieTempSample (die plate : Byte)
  /-- RESET_N_ASSERT (R489). -/
  | resetNAssert
  /-- WARM_N_ASSERT (R497). -/
  | warmNAssert
  /-- WARM_RESET_READY (R497). The cause with which the open image fails its check, 0 for a pass. -/
  | warmResetReady (k3 : Fin 6)
  /-- WARM_RESET_COMPLETE (R497). -/
  | warmResetComplete
  /-- WAKE_N_ASSERT (R488). -/
  | wakeNAssert
  /-- PERST_RISING_EDGE (R488). -/
  | perstRisingEdge (port : Fin 2)
  /-- VMAIN_WAKE (R488). -/
  | vmainWake
  /-- DORMANT_POWER_DOWN (R487). -/
  | dormantPowerDown
  /-- SYS_CC_KICK_WRITE (R493). -/
  | sysCcKickWrite (who : Requester) (value : W32)
  /-- CC_WATCHDOG_EXPIRY (R493). -/
  | ccWatchdogExpiry
  /-- RESET_CMD_WARM (R489). A write of SYS_RESET_CMD with this kind. -/
  | resetCmdWarm (who : Requester) (key : Byte)
  /-- RESET_CMD_COLD (R489). A write of SYS_RESET_CMD with this kind. -/
  | resetCmdCold (who : Requester) (key : Byte)
  /-- SWRST_WRITE (R500). -/
  | swrstWrite (who : Requester) (value : W64)
  /-- SWRST_RELEASE (R501). -/
  | swrstRelease (bit : Fin 40)
  /-- SWRST_STUCK (R501). -/
  | swrstStuck (bit : Fin 40)
  /-- MODULE_RESET_WARM (R489). -/
  | moduleResetWarm (p : Packet)
  /-- MODULE_RESET_COLD (R489). -/
  | moduleResetCold (p : Packet)
  /-- RECOVERY_LOAD (R504). -/
  | recoveryLoad (p : Packet)
  /-- RECOVERY_LOAD_COMPLETE (R504). The kind in the header of the image read, the cause with which it fails its check (0 for a pass), whether it reads back right, and its bytes. -/
  | recoveryLoadComplete (ring : Fin 34) (kind : Fin 5) (cause : Fin 6) (readBack : Bool) (image : List Byte)
  /-- WAKE_SET (R488). -/
  | wakeSet (p : Packet)
  /-- GPIO_SET (R502). -/
  | gpioSet (p : Packet)
  /-- GPIO_RELEASE (R502). An Orbel packet GPIO_SET whose byte [1] is 0. -/
  | gpioRelease (p : Packet)
  /-- POWER_QUERY (R507). -/
  | powerQuery (p : Packet)
  /-- REGISTER_READ (R552). -/
  | registerRead (a : Access)
  /-- REFRESH_DUE (R381). -/
  | refreshDue (channel : Fin 8)
  /-- EXPECTED_REFERENCE_MISSING (R20). -/
  | expectedReferenceMissing
  /-- CU_DESCRIPTOR_COMPLETE (R427). `ue`: an uncorrectable memory error met in the descriptor or its data. -/
  | cuDescriptorComplete (unit : Fin 8) (ue : Bool)
  /-- UNDEFINED_OPCODE (R79). -/
  | undefinedOpcode (opcode : W16) (p : Packet)
  /-- POWER_ON (R489). -/
  | powerOn
  /-- FIRMWARE_IMAGE_CHECK (R414). The cause with which the images of kinds 4 and 3 fail, 0 for a pass. -/
  | firmwareImageCheck (k4 k3 : Fin 6)
  deriving DecidableEq, Repr

end Sys2Proof
end

