-- ==== Sys2Proof/Decode.lean ====
section
/-! DEFINITION. The command that a word spells. The opcode table gives bits to none of its rows: a command reaches the W8 as a
packet in a ring, a register access, a DMA or an event on a contact, never as an instruction word. -/
namespace Sys2Proof

/-- The command a word of `nbits` bits spells: none, for every word. -/
def decodeTableWord (_nbits _w : Nat) : Option Instr := none

end Sys2Proof
end

