-- ==== Sys2Proof/Config.lean ====
section
/-! DEFINITION. What one W8 fixes for itself and the values the spec leaves free: opaque constants, so that nothing
can be proved of their value (log entries 1 and 2). -/
namespace Sys2Proof

/-- The value the spec leaves open at the `n`-th use of a free value; `State.freeCtr` counts the uses (log entry 1). -/
opaque Config.freeValue : Nat → BitVec 64

/-- SYS_ID.DIE_REV: the Totoyx revision, fixed per part (R505). -/
opaque Config.dieRev : Nat

/-- SYS_ID.MODULE_REV: the board revision, fixed per part (R505). -/
opaque Config.moduleRev : Nat

/-- The horizontal smooth-filter coefficient of a phase and a tap, whose numbers the spec does not list (R155). -/
opaque Config.coefHTap : Nat → Nat → BitVec 16

/-- The vertical smooth-filter coefficient of a phase and a tap (R155). -/
opaque Config.coefVTap : Nat → Nat → BitVec 16

/-- The horizontal coefficients (R155): phase 0 has 1,024 on the centre tap; each phase sums to 1,024, which fixes the last
tap. -/
def Config.coefH (phase tap : Nat) : BitVec 16 :=
  if phase = 0 then (if tap = 3 then 1024 else 0)
  else if tap < 7 then Config.coefHTap phase tap
  else (List.range 7).foldl (fun c t => c - Config.coefHTap phase t) 1024

/-- The vertical coefficients (R155). -/
def Config.coefV (phase tap : Nat) : BitVec 16 :=
  if phase = 0 then (if tap = 1 then 1024 else 0)
  else if tap < 3 then Config.coefVTap phase tap
  else (List.range 3).foldl (fun c t => c - Config.coefVTap phase t) 1024

/-- The unsigned integer that a half-float clear value gives in format 21, which the spec does not state (R241). -/
opaque Config.clearUint : BitVec 16 → BitVec 32

/-- Which way a quotient is rounded where the spec states no rounding, or no choice between two equally near integers. -/
opaque Config.roundsUp : Nat → Nat → Bool

/-- The unit in which a haptic channel holds its half-period, which the spec does not state, as counts per second (R304). -/
opaque Config.hapTicks : Nat

/-- The first quarter of a sine of full scale, at a phase in 1/48,000 of a cycle (R331); its rounding is not stated. -/
opaque Config.sineQuarter : Nat → BitVec 23

/-- The next value of a limiter gain in 1/2^24 that recovers at 1 dB per RELEASE / 10 ms (R324); its rounding is not stated. -/
opaque Config.releaseStep : Nat → Nat → Nat

/-- LAYER_COEF_H_i: the coefficients of index 2i and 2i + 1, the index being phase × 8 + tap (R155). -/
def Config.coefHWord (i : Nat) : Nat :=
  (Config.coefH (i / 4) (2 * i % 8)).toNat + 65536 * (Config.coefH (i / 4) (2 * i % 8 + 1)).toNat

/-- LAYER_COEF_V_i: the coefficients of index 2i and 2i + 1, the index being phase × 4 + tap (R155). -/
def Config.coefVWord (i : Nat) : Nat :=
  (Config.coefV (i / 2) (2 * i % 4)).toNat + 65536 * (Config.coefV (i / 2) (2 * i % 4 + 1)).toNat

end Sys2Proof
end

