-- ==== Sys2Proof/Machine/Regs.lean ====
section
/-! DEFINITION. The registers of the W8, by name: the address of each (R548, R549 and the register index of
22_address_map.md) with the value it reads at cold reset, and each named field of it. The functions' BAR 0 registers and
the banked views have no address in the internal space; the model keeps them beside it, from 2^48 (BAR 0) and 2^49
(banked views) upwards. -/
namespace Sys2Proof.Machine

/-- A register: its address and its Cold value (R6). -/
structure Reg where
  addr : Nat
  cold : Nat
  deriving DecidableEq, Repr

/-- A field of a register: its least significant bit and its width. -/
structure RF where
  reg : Reg
  lsb : Nat
  width : Nat
  deriving DecidableEq, Repr

/-- The register `off` bytes further on, with the same Cold value: an active copy (22_address_map.md). -/
def Reg.shift (r : Reg) (off : Nat) : Reg := { r with addr := r.addr + off }

/-- The same field of the register `off` bytes further on. -/
def RF.shift (f : RF) (off : Nat) : RF := { f with reg := f.reg.shift off }

/-- Where the BAR 0 registers of the functions stand in the register file. -/
def fnBank : Nat := 0x1000000000000

/-- Where banked views stand in the register file. -/
def bankedBank : Nat := 0x2000000000000

/-- FN_ID of function f: FUNC, PORT and PF (R39). -/
def fnIdCold (f : Nat) : Nat := f % 32 + (if f < 16 then 0 else 32) + (if f % 16 = 0 then 64 else 0)

/-- SUPV_POL_i at cold reset (18_supervision_events.md, policy entries at cold reset); entries 6 to 31 are disabled, and
hold event 0, action 0, COUNT 1 and WINDOW 1 (log entry 3). -/
def supvPolCold (i : Nat) : Nat :=
  let mk (ev en act cnt win : Nat) := ev + en * 0x200 + act * 0x400 + cnt * 0x2000 + win * 0x40000
  match i with
  | 0 => mk 385 1 1 1 1
  | 1 => mk 386 1 1 1 1
  | 2 => mk 394 1 1 1 1
  | 3 => mk 206 1 1 1 1
  | 4 => mk 67 1 1 2 10
  | 5 => mk 75 1 1 1 1
  | _ => mk 0 0 0 1 1

/-- SYS_ID (R505). -/
def sysId : Reg := ⟨0x40000000, 0⟩
def sysId_VARIANT : RF := ⟨sysId, 0, 2⟩
def sysId_DIE_REV : RF := ⟨sysId, 8, 8⟩
def sysId_MODULE_REV : RF := ⟨sysId, 16, 8⟩

/-- SYS_MODE (R505). -/
def sysMode : Reg := ⟨0x40000008, 1⟩
def sysMode_MODE : RF := ⟨sysMode, 0, 3⟩
def sysMode_FORCED : RF := ⟨sysMode, 3, 1⟩
def sysMode_PREV : RF := ⟨sysMode, 4, 3⟩

/-- SYS_RESET_CAUSE (R505). -/
def sysResetCause : Reg := ⟨0x4000000c, 1⟩
def sysResetCause_CODE : RF := ⟨sysResetCause, 0, 8⟩
def sysResetCause_WAKE : RF := ⟨sysResetCause, 8, 3⟩
def sysResetCause_SLOT : RF := ⟨sysResetCause, 11, 5⟩
def sysResetCause_MERGED : RF := ⟨sysResetCause, 16, 8⟩

/-- SYS_RESET_CMD (R505). -/
def sysResetCmd : Reg := ⟨0x40000010, 0⟩
def sysResetCmd_KEY : RF := ⟨sysResetCmd, 0, 8⟩
def sysResetCmd_KIND : RF := ⟨sysResetCmd, 8, 2⟩

/-- SYS_CC_WDOG (R505). -/
def sysCcWdog : Reg := ⟨0x40000014, 0x1f4⟩
def sysCcWdog_TIMEOUT_MS : RF := ⟨sysCcWdog, 0, 10⟩
def sysCcWdog_EN : RF := ⟨sysCcWdog, 10, 1⟩

/-- SYS_CC_KICK (R505). -/
def sysCcKick : Reg := ⟨0x40000018, 0⟩
def sysCcKick_KEY : RF := ⟨sysCcKick, 0, 8⟩

/-- SYS_SWRST (R500). -/
def sysSwrst : Reg := ⟨0x40000020, 0⟩
def sysSwrst_ENGINE : RF := ⟨sysSwrst, 0, 9⟩
def sysSwrst_CLUSTER : RF := ⟨sysSwrst, 9, 12⟩
def sysSwrst_TOUCH : RF := ⟨sysSwrst, 21, 4⟩
def sysSwrst_HAP : RF := ⟨sysSwrst, 25, 1⟩
def sysSwrst_STAGE : RF := ⟨sysSwrst, 26, 2⟩
def sysSwrst_AUDIO : RF := ⟨sysSwrst, 28, 1⟩
def sysSwrst_TDM : RF := ⟨sysSwrst, 29, 1⟩
def sysSwrst_HOST : RF := ⟨sysSwrst, 30, 2⟩
def sysSwrst_CU : RF := ⟨sysSwrst, 32, 8⟩

/-- SYS_SWRST_PEND (R501). -/
def sysSwrstPend : Reg := ⟨0x40000028, 0⟩
def sysSwrstPend_ENGINE : RF := ⟨sysSwrstPend, 0, 9⟩
def sysSwrstPend_CLUSTER : RF := ⟨sysSwrstPend, 9, 12⟩
def sysSwrstPend_TOUCH : RF := ⟨sysSwrstPend, 21, 4⟩
def sysSwrstPend_HAP : RF := ⟨sysSwrstPend, 25, 1⟩
def sysSwrstPend_STAGE : RF := ⟨sysSwrstPend, 26, 2⟩
def sysSwrstPend_AUDIO : RF := ⟨sysSwrstPend, 28, 1⟩
def sysSwrstPend_TDM : RF := ⟨sysSwrstPend, 29, 1⟩
def sysSwrstPend_HOST : RF := ⟨sysSwrstPend, 30, 2⟩
def sysSwrstPend_CU : RF := ⟨sysSwrstPend, 32, 8⟩

/-- SYS_POWER (R505). -/
def sysPower : Reg := ⟨0x40000030, 0⟩
def sysPower_VMAIN : RF := ⟨sysPower, 0, 12⟩
def sysPower_VMAIN_OK : RF := ⟨sysPower, 12, 1⟩
def sysPower_VSTBY_OK : RF := ⟨sysPower, 13, 1⟩
def sysPower_LOW : RF := ⟨sysPower, 14, 1⟩

/-- SYS_THERM (R505). -/
def sysTherm : Reg := ⟨0x40000034, 0x6e0000⟩
def sysTherm_DIE : RF := ⟨sysTherm, 0, 8⟩
def sysTherm_PLATE : RF := ⟨sysTherm, 8, 8⟩
def sysTherm_WARN_C : RF := ⟨sysTherm, 16, 8⟩
def sysTherm_WARN : RF := ⟨sysTherm, 24, 1⟩

/-- SYS_WAKE_CFG (R505). -/
def sysWakeCfg : Reg := ⟨0x40000038, 3⟩
def sysWakeCfg_ON_VMAIN : RF := ⟨sysWakeCfg, 0, 1⟩
def sysWakeCfg_ON_WAKE_N : RF := ⟨sysWakeCfg, 1, 1⟩
def sysWakeCfg_ON_PERST : RF := ⟨sysWakeCfg, 2, 1⟩

/-- SYS_GPIO (R505). -/
def sysGpio : Reg := ⟨0x40000040, 0⟩
def sysGpio_CLAIM : RF := ⟨sysGpio, 0, 8⟩
def sysGpio_DIR : RF := ⟨sysGpio, 8, 8⟩
def sysGpio_OUT : RF := ⟨sysGpio, 16, 8⟩
def sysGpio_IN : RF := ⟨sysGpio, 24, 8⟩

/-- SYS_STRAP (R505). -/
def sysStrap : Reg := ⟨0x40000048, 0⟩
def sysStrap_REC : RF := ⟨sysStrap, 0, 1⟩
def sysStrap_TAPSEL : RF := ⟨sysStrap, 1, 1⟩

/-- WALL_CTRL (R31). -/
def wallCtrl : Reg := ⟨0x40100000, 0⟩
def wallCtrl_APPLY : RF := ⟨wallCtrl, 0, 1⟩
def wallCtrl_RELOCK_MODE : RF := ⟨wallCtrl, 1, 1⟩

/-- WALL_SYNC_CFG (R31). -/
def wallSyncCfg : Reg := ⟨0x40100004, 0x300⟩
def wallSyncCfg_TYPE : RF := ⟨wallSyncCfg, 0, 2⟩
def wallSyncCfg_EDGE : RF := ⟨wallSyncCfg, 2, 1⟩
def wallSyncCfg_REF_MULT : RF := ⟨wallSyncCfg, 3, 2⟩
def wallSyncCfg_LOSS_COUNT : RF := ⟨wallSyncCfg, 8, 8⟩
def wallSyncCfg_SYNC_OFFSET : RF := ⟨wallSyncCfg, 16, 16⟩

/-- WALL_MR_RATE_NUM (R31). -/
def wallMrRateNum : Reg := ⟨0x40100008, 0xea60⟩
def wallMrRateNum_RATE_NUM : RF := ⟨wallMrRateNum, 0, 32⟩

/-- WALL_MR_RATE_DEN (R31). -/
def wallMrRateDen : Reg := ⟨0x4010000c, 0x3e8⟩
def wallMrRateDen_RATE_DEN : RF := ⟨wallMrRateDen, 0, 16⟩

/-- WALL_MR_LINES (R31). -/
def wallMrLines : Reg := ⟨0x40100010, 0x8ca⟩
def wallMrLines_MR_LINES : RF := ⟨wallMrLines, 0, 16⟩

/-- WALL_AUD_RATIO (R31). -/
def wallAudRatio : Reg := ⟨0x40100014, 0x2d0010⟩
def wallAudRatio_AUD_NUM : RF := ⟨wallAudRatio, 0, 16⟩
def wallAudRatio_AUD_DEN : RF := ⟨wallAudRatio, 16, 16⟩

/-- WALL_LOCK_CFG (R31). -/
def wallLockCfg : Reg := ⟨0x40100018, 0x3c64⟩
def wallLockCfg_SLEW_PPM : RF := ⟨wallLockCfg, 0, 8⟩
def wallLockCfg_HOLD_LIMIT : RF := ⟨wallLockCfg, 8, 8⟩

/-- WALL_STATUS (R31). -/
def wallStatus : Reg := ⟨0x40100020, 0⟩
def wallStatus_STATE : RF := ⟨wallStatus, 0, 2⟩
def wallStatus_HOLDOVER : RF := ⟨wallStatus, 2, 1⟩
def wallStatus_PENDING : RF := ⟨wallStatus, 3, 1⟩
def wallStatus_RANGE : RF := ⟨wallStatus, 4, 1⟩
def wallStatus_MISMATCH : RF := ⟨wallStatus, 5, 1⟩
def wallStatus_RASTER_GEN : RF := ⟨wallStatus, 8, 8⟩

/-- WALL_PHASE (R31). -/
def wallPhase : Reg := ⟨0x40100024, 0⟩
def wallPhase_PHASE_ERR : RF := ⟨wallPhase, 0, 16⟩
def wallPhase_FREQ_OFF : RF := ⟨wallPhase, 16, 16⟩

/-- WALL_HOLD_TIME (R31). -/
def wallHoldTime : Reg := ⟨0x40100028, 0⟩
def wallHoldTime_HOLD_SEC : RF := ⟨wallHoldTime, 0, 32⟩

/-- WALL_NOW (R31). -/
def wallNow : Reg := ⟨0x40100040, 0⟩
def wallNow_WALLTIME : RF := ⟨wallNow, 0, 64⟩

/-- EVT_PEND_k (R453). -/
def evtPend (i : Nat) : Reg := ⟨0x40200000 + 0x4 * i, 0⟩
def evtPend_PEND (i : Nat) : RF := ⟨(evtPend i), 0, 32⟩

/-- EVT_SEAL_k (R455). -/
def evtSeal (i : Nat) : Reg := ⟨0x40200040 + 0x4 * i, 0⟩
def evtSeal_ROUTE (i : Nat) : RF := ⟨(evtSeal i), 0, 32⟩

/-- EVT_OPEN_k (R455). -/
def evtOpen (i : Nat) : Reg := ⟨0x40200080 + 0x4 * i, 0⟩
def evtOpen_ROUTE (i : Nat) : RF := ⟨(evtOpen i), 0, 32⟩

/-- EVT_LOST (R455). -/
def evtLost : Reg := ⟨0x402000c0, 0⟩
def evtLost_COUNT : RF := ⟨evtLost, 0, 32⟩

/-- EVT_IRw_BASE (R455). -/
def evtIrBase (i : Nat) : Reg := ⟨0x40200100 + 0x40 * i, 0⟩
def evtIrBase_ADDR (i : Nat) : RF := ⟨(evtIrBase i), 12, 52⟩

/-- EVT_IRw_SIZE (R455). -/
def evtIrSize (i : Nat) : Reg := ⟨0x40200108 + 0x40 * i, 0xc⟩
def evtIrSize_LOG2 (i : Nat) : RF := ⟨(evtIrSize i), 0, 5⟩
def evtIrSize_EN (i : Nat) : RF := ⟨(evtIrSize i), 31, 1⟩

/-- EVT_IRw_TAIL (R455). -/
def evtIrTail (i : Nat) : Reg := ⟨0x4020010c + 0x40 * i, 0⟩
def evtIrTail_TAIL (i : Nat) : RF := ⟨(evtIrTail i), 0, 20⟩

/-- EVT_IRw_HEAD (R455). -/
def evtIrHead (i : Nat) : Reg := ⟨0x40200110 + 0x40 * i, 0⟩
def evtIrHead_HEAD (i : Nat) : RF := ⟨(evtIrHead i), 0, 20⟩

/-- EVT_SRC_e (R453). -/
def evtSrc (i : Nat) : Reg := ⟨0x40201000 + 0x4 * i, 0⟩
def evtSrc_OCC (i : Nat) : RF := ⟨(evtSrc i), 0, 16⟩
def evtSrc_COLL (i : Nat) : RF := ⟨(evtSrc i), 16, 16⟩

/-- EVT_FN_f_MASK_k (R456). -/
def evtFnMask (i : Nat) (j : Nat) : Reg := ⟨0x40202000 + 0x80 * i + 0x4 * j, 0⟩
def evtFnMask_ROUTE (i : Nat) (j : Nat) : RF := ⟨(evtFnMask i j), 0, 32⟩

/-- EVT_FN_f_VEC_j (R472). -/
def evtFnVec (i : Nat) (j : Nat) : Reg := ⟨0x40202040 + 0x80 * i + 0x4 * j, 0x4040404⟩
def evtFnVec_VEC_0 (i : Nat) (j : Nat) : RF := ⟨(evtFnVec i j), 0, 8⟩
def evtFnVec_VEC_1 (i : Nat) (j : Nat) : RF := ⟨(evtFnVec i j), 8, 8⟩
def evtFnVec_VEC_2 (i : Nat) (j : Nat) : RF := ⟨(evtFnVec i j), 16, 8⟩
def evtFnVec_VEC_3 (i : Nat) (j : Nat) : RF := ⟨(evtFnVec i j), 24, 8⟩

/-- EVT_FN_f_RING (R457). -/
def evtFnRing (i : Nat) : Reg := ⟨0x40202050 + 0x80 * i, 0⟩
def evtFnRing_ADDR (i : Nat) : RF := ⟨(evtFnRing i), 12, 52⟩

/-- EVT_FN_f_RCFG (R457). -/
def evtFnRcfg (i : Nat) : Reg := ⟨0x40202058 + 0x80 * i, 0x14⟩
def evtFnRcfg_EN (i : Nat) : RF := ⟨(evtFnRcfg i), 0, 1⟩
def evtFnRcfg_LOG2 (i : Nat) : RF := ⟨(evtFnRcfg i), 1, 5⟩

/-- EVT_FN_f_DELIV (R457). -/
def evtFnDeliv (i : Nat) : Reg := ⟨0x40202060 + 0x80 * i, 0⟩
def evtFnDeliv_COUNT (i : Nat) : RF := ⟨(evtFnDeliv i), 0, 64⟩

/-- HPx_LINK (R70). -/
def hpLink (i : Nat) : Reg := ⟨0x40300000 + 0x100000 * i, 0⟩
def hpLink_SPEED (i : Nat) : RF := ⟨(hpLink i), 0, 3⟩
def hpLink_WIDTH (i : Nat) : RF := ⟨(hpLink i), 3, 3⟩
def hpLink_DL_UP (i : Nat) : RF := ⟨(hpLink i), 6, 1⟩
def hpLink_LOST (i : Nat) : RF := ⟨(hpLink i), 7, 1⟩

/-- HPx_CFG (R70). -/
def hpCfg (i : Nat) : Reg := ⟨0x40300004 + 0x100000 * i, 0x7d019032⟩
def hpCfg_HOME_LOSS_MS (i : Nat) : RF := ⟨(hpCfg i), 0, 10⟩
def hpCfg_HEARTBEAT_MS (i : Nat) : RF := ⟨(hpCfg i), 10, 10⟩
def hpCfg_HB_EN (i : Nat) : RF := ⟨(hpCfg i), 20, 1⟩
def hpCfg_DRAIN_US (i : Nat) : RF := ⟨(hpCfg i), 21, 11⟩

/-- HPx_SPOOF_CNT (R70). -/
def hpSpoofCnt (i : Nat) : Reg := ⟨0x40300008 + 0x100000 * i, 0⟩
def hpSpoofCnt_COUNT (i : Nat) : RF := ⟨(hpSpoofCnt i), 0, 32⟩

/-- HPx_DISCARD_CNT (R70). -/
def hpDiscardCnt (i : Nat) : Reg := ⟨0x4030000c + 0x100000 * i, 0⟩
def hpDiscardCnt_COUNT (i : Nat) : RF := ⟨(hpDiscardCnt i), 0, 32⟩

/-- HPx_HOME_n (R70). -/
def hpHome (i : Nat) (j : Nat) : Reg := ⟨0x40300100 + 0x100000 * i + 0x4 * j, 0⟩
def hpHome_ALT (i : Nat) (j : Nat) : RF := ⟨(hpHome i j), 0, 5⟩
def hpHome_DUAL (i : Nat) (j : Nat) : RF := ⟨(hpHome i j), 5, 1⟩
def hpHome_MOVED (i : Nat) (j : Nat) : RF := ⟨(hpHome i j), 6, 1⟩

/-- PKT_CTRL (R107). -/
def pktCtrl : Reg := ⟨0x40500000, 0x3c060⟩
def pktCtrl_MARGIN : RF := ⟨pktCtrl, 0, 11⟩
def pktCtrl_OPEN_LIMIT : RF := ⟨pktCtrl, 11, 8⟩

/-- PKT_STATUS (R107). -/
def pktStatus : Reg := ⟨0x40500004, 0⟩
def pktStatus_OPEN : RF := ⟨pktStatus, 0, 8⟩
def pktStatus_COMMITTED : RF := ⟨pktStatus, 8, 8⟩

/-- PKT_LANDED_CNT (R107). -/
def pktLandedCnt : Reg := ⟨0x40500008, 0⟩
def pktLandedCnt_COUNT : RF := ⟨pktLandedCnt, 0, 32⟩

/-- PKT_REFUSED_CNT (R107). -/
def pktRefusedCnt : Reg := ⟨0x4050000c, 0⟩
def pktRefusedCnt_COUNT : RF := ⟨pktRefusedCnt, 0, 32⟩

/-- PKT_SLIDE_CNT (R107). -/
def pktSlideCnt : Reg := ⟨0x40500010, 0⟩
def pktSlideCnt_COUNT : RF := ⟨pktSlideCnt, 0, 32⟩

/-- PKT_FRAMING_CNT (R107). -/
def pktFramingCnt : Reg := ⟨0x40500014, 0⟩
def pktFramingCnt_COUNT : RF := ⟨pktFramingCnt, 0, 32⟩

/-- PKT_SEQ_n (R81). -/
def pktSeq (i : Nat) : Reg := ⟨0x40500100 + 0x4 * i, 0⟩
def pktSeq_EXPECT (i : Nat) : RF := ⟨(pktSeq i), 0, 32⟩

/-- PKT_SEQ_SET (R81). -/
def pktSeqSet : Reg := ⟨0x40500200, 0⟩
def pktSeqSet_SET : RF := ⟨pktSeqSet, 0, 34⟩

/-- PKT_IRx_CMD_BASE (R107). -/
def pktIrCmdBase (i : Nat) : Reg := ⟨0x40500300 + 0x40 * i, 0⟩
def pktIrCmdBase_ADDR (i : Nat) : RF := ⟨(pktIrCmdBase i), 12, 52⟩

/-- PKT_IRx_CMD_SIZE (R107). -/
def pktIrCmdSize (i : Nat) : Reg := ⟨0x40500308 + 0x40 * i, 0xc⟩
def pktIrCmdSize_LOG2 (i : Nat) : RF := ⟨(pktIrCmdSize i), 0, 5⟩
def pktIrCmdSize_EN (i : Nat) : RF := ⟨(pktIrCmdSize i), 31, 1⟩

/-- PKT_IRx_CMD_HEAD (R107). -/
def pktIrCmdHead (i : Nat) : Reg := ⟨0x4050030c + 0x40 * i, 0⟩
def pktIrCmdHead_HEAD (i : Nat) : RF := ⟨(pktIrCmdHead i), 0, 20⟩

/-- PKT_IRx_DOORBELL (R107). -/
def pktIrDoorbell (i : Nat) : Reg := ⟨0x40500310 + 0x40 * i, 0⟩
def pktIrDoorbell_TAIL (i : Nat) : RF := ⟨(pktIrDoorbell i), 0, 20⟩

/-- PKT_IRx_RPL_BASE (R107). -/
def pktIrRplBase (i : Nat) : Reg := ⟨0x40500318 + 0x40 * i, 0⟩
def pktIrRplBase_ADDR (i : Nat) : RF := ⟨(pktIrRplBase i), 12, 52⟩

/-- PKT_IRx_RPL_SIZE (R107). -/
def pktIrRplSize (i : Nat) : Reg := ⟨0x40500320 + 0x40 * i, 0xc⟩
def pktIrRplSize_LOG2 (i : Nat) : RF := ⟨(pktIrRplSize i), 0, 5⟩
def pktIrRplSize_EN (i : Nat) : RF := ⟨(pktIrRplSize i), 31, 1⟩

/-- PKT_IRx_RPL_TAIL (R107). -/
def pktIrRplTail (i : Nat) : Reg := ⟨0x40500324 + 0x40 * i, 0⟩
def pktIrRplTail_TAIL (i : Nat) : RF := ⟨(pktIrRplTail i), 0, 20⟩

/-- PKT_IRx_RPL_HEAD (R107). -/
def pktIrRplHead (i : Nat) : Reg := ⟨0x40500328 + 0x40 * i, 0⟩
def pktIrRplHead_HEAD (i : Nat) : RF := ⟨(pktIrRplHead i), 0, 20⟩

/-- FN_ID (R42). -/
def fnId (i : Nat) : Reg := ⟨0x1000000000000 + 0x10000 * i, fnIdCold i⟩
def fnId_FUNC (i : Nat) : RF := ⟨(fnId i), 0, 5⟩
def fnId_PORT (i : Nat) : RF := ⟨(fnId i), 5, 1⟩
def fnId_PF (i : Nat) : RF := ⟨(fnId i), 6, 1⟩

/-- FN_STATUS (R42). -/
def fnStatus (i : Nat) : Reg := ⟨0x1000000000004 + 0x10000 * i, 0⟩
def fnStatus_GEN (i : Nat) : RF := ⟨(fnStatus i), 0, 8⟩
def fnStatus_TENANT (i : Nat) : RF := ⟨(fnStatus i), 8, 1⟩
def fnStatus_CLASS (i : Nat) : RF := ⟨(fnStatus i), 9, 2⟩
def fnStatus_RST (i : Nat) : RF := ⟨(fnStatus i), 11, 1⟩
def fnStatus_ACTING (i : Nat) : RF := ⟨(fnStatus i), 12, 1⟩
def fnStatus_PORT_LOST (i : Nat) : RF := ⟨(fnStatus i), 13, 1⟩

/-- FN_HEARTBEAT (R42). -/
def fnHeartbeat (i : Nat) : Reg := ⟨0x1000000000008 + 0x10000 * i, 0⟩
def fnHeartbeat_BEAT (i : Nat) : RF := ⟨(fnHeartbeat i), 0, 32⟩

/-- FN_CMD_BASE (R42). -/
def fnCmdBase (i : Nat) : Reg := ⟨0x1000000000100 + 0x10000 * i, 0⟩
def fnCmdBase_ADDR (i : Nat) : RF := ⟨(fnCmdBase i), 12, 52⟩

/-- FN_CMD_SIZE (R42). -/
def fnCmdSize (i : Nat) : Reg := ⟨0x1000000000108 + 0x10000 * i, 0xc⟩
def fnCmdSize_LOG2 (i : Nat) : RF := ⟨(fnCmdSize i), 0, 5⟩
def fnCmdSize_EN (i : Nat) : RF := ⟨(fnCmdSize i), 31, 1⟩

/-- FN_CMD_HEAD (R42). -/
def fnCmdHead (i : Nat) : Reg := ⟨0x100000000010c + 0x10000 * i, 0⟩
def fnCmdHead_HEAD (i : Nat) : RF := ⟨(fnCmdHead i), 0, 20⟩

/-- FN_RPL_BASE (R42). -/
def fnRplBase (i : Nat) : Reg := ⟨0x1000000000180 + 0x10000 * i, 0⟩
def fnRplBase_ADDR (i : Nat) : RF := ⟨(fnRplBase i), 12, 52⟩

/-- FN_RPL_SIZE (R42). -/
def fnRplSize (i : Nat) : Reg := ⟨0x1000000000188 + 0x10000 * i, 0xc⟩
def fnRplSize_LOG2 (i : Nat) : RF := ⟨(fnRplSize i), 0, 5⟩
def fnRplSize_EN (i : Nat) : RF := ⟨(fnRplSize i), 31, 1⟩

/-- FN_RPL_TAIL (R42). -/
def fnRplTail (i : Nat) : Reg := ⟨0x100000000018c + 0x10000 * i, 0⟩
def fnRplTail_TAIL (i : Nat) : RF := ⟨(fnRplTail i), 0, 20⟩

/-- FN_RPL_HEAD (R42). -/
def fnRplHead (i : Nat) : Reg := ⟨0x1000000000190 + 0x10000 * i, 0⟩
def fnRplHead_HEAD (i : Nat) : RF := ⟨(fnRplHead i), 0, 20⟩

/-- FN_MIRROR_ADDR (R42). -/
def fnMirrorAddr (i : Nat) : Reg := ⟨0x1000000000200 + 0x10000 * i, 0⟩
def fnMirrorAddr_EN (i : Nat) : RF := ⟨(fnMirrorAddr i), 0, 1⟩
def fnMirrorAddr_ADDR (i : Nat) : RF := ⟨(fnMirrorAddr i), 6, 58⟩

/-- FN_BAR2_OFF (R42). -/
def fnBar2Off (i : Nat) : Reg := ⟨0x1000000000210 + 0x10000 * i, 0⟩
def fnBar2Off_OFF (i : Nat) : RF := ⟨(fnBar2Off i), 21, 11⟩

/-- FN_DOORBELL (R42). -/
def fnDoorbell (i : Nat) : Reg := ⟨0x1000000001000 + 0x10000 * i, 0⟩
def fnDoorbell_TAIL (i : Nat) : RF := ⟨(fnDoorbell i), 0, 20⟩

/-- MSI-X table address (R38). -/
def fnMsixAddr (i : Nat) (j : Nat) : Reg := ⟨0x1000000002000 + 0x10000 * i + 0x10 * j, 0⟩
def fnMsixAddr_ADDR (i : Nat) (j : Nat) : RF := ⟨(fnMsixAddr i j), 0, 64⟩

/-- MSI-X table data (R38). -/
def fnMsixData (i : Nat) (j : Nat) : Reg := ⟨0x1000000002008 + 0x10000 * i + 0x10 * j, 0⟩
def fnMsixData_DATA (i : Nat) (j : Nat) : RF := ⟨(fnMsixData i j), 0, 32⟩

/-- MSI-X vector control (R38). -/
def fnMsixCtrl (i : Nat) (j : Nat) : Reg := ⟨0x100000000200c + 0x10000 * i + 0x10 * j, 1⟩
def fnMsixCtrl_MASK (i : Nat) (j : Nat) : RF := ⟨(fnMsixCtrl i j), 0, 1⟩

/-- MSI-X pending bits (R38). -/
def fnPba (i : Nat) : Reg := ⟨0x1000000003000 + 0x10000 * i, 0⟩
def fnPba_PEND (i : Nat) : RF := ⟨(fnPba i), 0, 32⟩

/-- MBQ_MB_m_CFG (R362). -/
def mbqMbCfg (i : Nat) : Reg := ⟨0x40600000 + 0x100 * i, 0x3f⟩
def mbqMbCfg_RX (i : Nat) : RF := ⟨(mbqMbCfg i), 0, 6⟩

/-- MBQ_MB_m_ALLOW (R362). -/
def mbqMbAllow (i : Nat) : Reg := ⟨0x40600008 + 0x100 * i, 0x100000000⟩
def mbqMbAllow_FUNC (i : Nat) : RF := ⟨(mbqMbAllow i), 0, 32⟩
def mbqMbAllow_SEALED (i : Nat) : RF := ⟨(mbqMbAllow i), 32, 1⟩
def mbqMbAllow_OPEN (i : Nat) : RF := ⟨(mbqMbAllow i), 33, 1⟩

/-- MBQ_MB_m_FLAG (R362). -/
def mbqMbFlag (i : Nat) : Reg := ⟨0x40600080 + 0x100 * i, 0⟩
def mbqMbFlag_COUNT (i : Nat) : RF := ⟨(mbqMbFlag i), 0, 4⟩
def mbqMbFlag_FULL (i : Nat) : RF := ⟨(mbqMbFlag i), 4, 1⟩
def mbqMbFlag_EPOCH (i : Nat) : RF := ⟨(mbqMbFlag i), 8, 8⟩

/-- MBQ_MB_m_POP (R362). -/
def mbqMbPop (i : Nat) : Reg := ⟨0x40600084 + 0x100 * i, 0⟩
def mbqMbPop_POP (i : Nat) : RF := ⟨(mbqMbPop i), 0, 1⟩

/-- MBQ_MB_m_PEER (R362). -/
def mbqMbPeer (i : Nat) : Reg := ⟨0x40600088 + 0x100 * i, 0⟩
def mbqMbPeer_EPOCH (i : Nat) : RF := ⟨(mbqMbPeer i), 0, 8⟩
def mbqMbPeer_LAST_FLUSH (i : Nat) : RF := ⟨(mbqMbPeer i), 8, 4⟩
def mbqMbPeer_FLUSH_TOTAL (i : Nat) : RF := ⟨(mbqMbPeer i), 16, 32⟩

/-- MBQ_TX_DATA (R345). -/
def mbqTxData (i : Nat) (j : Nat) : Reg := ⟨0x2000000008000 + 0x10000 * i + 0x8 * j, 0⟩
def mbqTxData_DATA (i : Nat) (j : Nat) : RF := ⟨(mbqTxData i j), 0, 64⟩

/-- MBQ_TX_STATUS (R345). -/
def mbqTxStatus (i : Nat) : Reg := ⟨0x2000000008044 + 0x10000 * i, 0⟩
def mbqTxStatus_RESULT (i : Nat) : RF := ⟨(mbqTxStatus i), 0, 3⟩
def mbqTxStatus_MB (i : Nat) : RF := ⟨(mbqTxStatus i), 8, 6⟩

/-- MBQ_Q_q_CFG (R362). -/
def mbqQCfg (i : Nat) : Reg := ⟨0x40610000 + 0x100 * i, 0x453f⟩
def mbqQCfg_OWNER (i : Nat) : RF := ⟨(mbqQCfg i), 0, 6⟩
def mbqQCfg_HOST (i : Nat) : RF := ⟨(mbqQCfg i), 6, 1⟩
def mbqQCfg_LOG2 (i : Nat) : RF := ⟨(mbqQCfg i), 7, 5⟩
def mbqQCfg_CUT (i : Nat) : RF := ⟨(mbqQCfg i), 12, 5⟩

/-- MBQ_Q_q_HOST (R362). -/
def mbqQHost (i : Nat) : Reg := ⟨0x40610008 + 0x100 * i, 0⟩
def mbqQHost_ADDR (i : Nat) : RF := ⟨(mbqQHost i), 12, 52⟩

/-- MBQ_Q_q_STATUS (R362). -/
def mbqQStatus (i : Nat) : Reg := ⟨0x40610010 + 0x100 * i, 0⟩
def mbqQStatus_FILL (i : Nat) : RF := ⟨(mbqQStatus i), 0, 13⟩
def mbqQStatus_OPEN (i : Nat) : RF := ⟨(mbqQStatus i), 13, 1⟩
def mbqQStatus_BREAK (i : Nat) : RF := ⟨(mbqQStatus i), 14, 1⟩

/-- MBQ_Q_q_LOST (R362). -/
def mbqQLost (i : Nat) : Reg := ⟨0x40610014 + 0x100 * i, 0⟩
def mbqQLost_COUNT (i : Nat) : RF := ⟨(mbqQLost i), 0, 32⟩

/-- MBQ_Q_q_DELIV (R362). -/
def mbqQDeliv (i : Nat) : Reg := ⟨0x40610018 + 0x100 * i, 0⟩
def mbqQDeliv_COUNT (i : Nat) : RF := ⟨(mbqQDeliv i), 0, 64⟩

/-- MBQ_Q_q_READ (R362). -/
def mbqQRead (i : Nat) : Reg := ⟨0x40610020 + 0x100 * i, 0⟩
def mbqQRead_ITEM (i : Nat) : RF := ⟨(mbqQRead i), 0, 64⟩

/-- MBQ_Q_q_WRITE (R362). -/
def mbqQWrite (i : Nat) : Reg := ⟨0x40610028 + 0x100 * i, 0⟩
def mbqQWrite_ITEM (i : Nat) : RF := ⟨(mbqQWrite i), 0, 64⟩

/-- MBQ_LOCK_l (R358). -/
def mbqLock (i : Nat) : Reg := ⟨0x40620000 + 0x8 * i, 0⟩
def mbqLock_LOCK (i : Nat) : RF := ⟨(mbqLock i), 0, 32⟩

/-- MBQ_LOCK_l_PEEK (R358). -/
def mbqLockPeek (i : Nat) : Reg := ⟨0x40620004 + 0x8 * i, 0x7e000000⟩
def mbqLockPeek_HOLDER (i : Nat) : RF := ⟨(mbqLockPeek i), 0, 16⟩
def mbqLockPeek_GEN (i : Nat) : RF := ⟨(mbqLockPeek i), 16, 8⟩
def mbqLockPeek_HELD (i : Nat) : RF := ⟨(mbqLockPeek i), 24, 1⟩
def mbqLockPeek_OWNER (i : Nat) : RF := ⟨(mbqLockPeek i), 25, 6⟩

/-- HEAD_n_CTRL (R138). -/
def headCtrl (i : Nat) : Reg := ⟨0x41000000 + 0x10000 * i, 0⟩
def headCtrl_EN (i : Nat) : RF := ⟨(headCtrl i), 0, 1⟩
def headCtrl_K2 (i : Nat) : RF := ⟨(headCtrl i), 1, 1⟩

/-- HEAD_n_HTIME (R138). -/
def headHtime (i : Nat) : Reg := ⟨0x41000010 + 0x10000 * i, 0⟩
def headHtime_HACTIVE (i : Nat) : RF := ⟨(headHtime i), 0, 16⟩
def headHtime_HTOTAL (i : Nat) : RF := ⟨(headHtime i), 16, 16⟩

/-- HEAD_n_HSYNC (R138). -/
def headHsync (i : Nat) : Reg := ⟨0x41000014 + 0x10000 * i, 0⟩
def headHsync_HFP (i : Nat) : RF := ⟨(headHsync i), 0, 16⟩
def headHsync_HSW (i : Nat) : RF := ⟨(headHsync i), 16, 12⟩
def headHsync_HPOL (i : Nat) : RF := ⟨(headHsync i), 31, 1⟩

/-- HEAD_n_VTIME (R138). -/
def headVtime (i : Nat) : Reg := ⟨0x41000018 + 0x10000 * i, 0⟩
def headVtime_VACTIVE (i : Nat) : RF := ⟨(headVtime i), 0, 16⟩
def headVtime_HL (i : Nat) : RF := ⟨(headVtime i), 16, 16⟩

/-- HEAD_n_VSYNC (R138). -/
def headVsync (i : Nat) : Reg := ⟨0x4100001c + 0x10000 * i, 0⟩
def headVsync_VFP (i : Nat) : RF := ⟨(headVsync i), 0, 16⟩
def headVsync_VSW (i : Nat) : RF := ⟨(headVsync i), 16, 12⟩
def headVsync_VPOL (i : Nat) : RF := ⟨(headVsync i), 31, 1⟩

/-- HEAD_n_OFFSET (R138). -/
def headOffset (i : Nat) : Reg := ⟨0x41000020 + 0x10000 * i, 0⟩
def headOffset_O (i : Nat) : RF := ⟨(headOffset i), 0, 14⟩

/-- HEAD_n_LATCH (R138). -/
def headLatch (i : Nat) : Reg := ⟨0x41000024 + 0x10000 * i, 0⟩
def headLatch_LATCH_LINE (i : Nat) : RF := ⟨(headLatch i), 0, 16⟩

/-- HEAD_n_SHOW (R126). -/
def headShow (i : Nat) : Reg := ⟨0x41000030 + 0x10000 * i, 0⟩
def headShow_SHOW (i : Nat) : RF := ⟨(headShow i), 0, 2⟩

/-- HEAD_n_STATUS (R138). -/
def headStatus (i : Nat) : Reg := ⟨0x41000040 + 0x10000 * i, i⟩
def headStatus_ENGINE (i : Nat) : RF := ⟨(headStatus i), 0, 4⟩
def headStatus_ARMED (i : Nat) : RF := ⟨(headStatus i), 4, 1⟩
def headStatus_ASH (i : Nat) : RF := ⟨(headStatus i), 5, 1⟩
def headStatus_RUNNING (i : Nat) : RF := ⟨(headStatus i), 6, 1⟩
def headStatus_TE_LOST (i : Nat) : RF := ⟨(headStatus i), 7, 1⟩

/-- HEAD_n_POS (R138). -/
def headPos (i : Nat) : Reg := ⟨0x41000044 + 0x10000 * i, 0⟩
def headPos_LINE (i : Nat) : RF := ⟨(headPos i), 0, 16⟩
def headPos_KF (i : Nat) : RF := ⟨(headPos i), 16, 1⟩

/-- HEAD_n_PCLK (R138). -/
def headPclk (i : Nat) : Reg := ⟨0x41000048 + 0x10000 * i, 0⟩
def headPclk_PCLK_KHZ (i : Nat) : RF := ⟨(headPclk i), 0, 32⟩

/-- HEAD_n_LATCH_CNT (R138). -/
def headLatchCnt (i : Nat) : Reg := ⟨0x4100004c + 0x10000 * i, 0⟩
def headLatchCnt_COUNT (i : Nat) : RF := ⟨(headLatchCnt i), 0, 32⟩

/-- HEAD_n_OCTRL (R161). -/
def headOctrl (i : Nat) : Reg := ⟨0x41000100 + 0x10000 * i, 0⟩
def headOctrl_OM_EN (i : Nat) : RF := ⟨(headOctrl i), 0, 1⟩
def headOctrl_GAMMA_EN (i : Nat) : RF := ⟨(headOctrl i), 1, 1⟩

/-- HEAD_n_OCM_k (R161). -/
def headOcm (i : Nat) (j : Nat) : Reg := ⟨0x41000104 + 0x10000 * i + 0x4 * j, 0⟩
def headOcm_C_LO (i : Nat) (j : Nat) : RF := ⟨(headOcm i j), 0, 16⟩
def headOcm_C_HI (i : Nat) (j : Nat) : RF := ⟨(headOcm i j), 16, 16⟩

/-- HEAD_n_OCM_OFF_k (R161). -/
def headOcmOff (i : Nat) (j : Nat) : Reg := ⟨0x41000118 + 0x10000 * i + 0x4 * j, 0⟩
def headOcmOff_PRE (i : Nat) (j : Nat) : RF := ⟨(headOcmOff i j), 0, 11⟩
def headOcmOff_POST (i : Nat) (j : Nat) : RF := ⟨(headOcmOff i j), 16, 11⟩

/-- HEAD_n_BG (R161). -/
def headBg (i : Nat) : Reg := ⟨0x41000130 + 0x10000 * i, 0⟩
def headBg_B (i : Nat) : RF := ⟨(headBg i), 0, 10⟩
def headBg_G (i : Nat) : RF := ⟨(headBg i), 10, 10⟩
def headBg_RED (i : Nat) : RF := ⟨(headBg i), 20, 10⟩

/-- HEAD_n_GAMMA_i (R161). -/
def headGamma (i : Nat) (j : Nat) : Reg := ⟨0x41001000 + 0x10000 * i + 0x4 * j, j * 0x100401⟩
def headGamma_B (i : Nat) (j : Nat) : RF := ⟨(headGamma i j), 0, 10⟩
def headGamma_G (i : Nat) (j : Nat) : RF := ⟨(headGamma i j), 10, 10⟩
def headGamma_RED (i : Nat) (j : Nat) : RF := ⟨(headGamma i j), 20, 10⟩

/-- HEAD_WALL_ARM (R127). -/
def headWallArm : Reg := ⟨0x410f0000, 0⟩
def headWallArm_ARM : RF := ⟨headWallArm, 0, 8⟩

/-- YMX_ROUTE (R114). -/
def ymxRoute : Reg := ⟨0x41200000, 0x76543210⟩
def ymxRoute_PORT_0 : RF := ⟨ymxRoute, 0, 4⟩
def ymxRoute_PORT_1 : RF := ⟨ymxRoute, 4, 4⟩
def ymxRoute_PORT_2 : RF := ⟨ymxRoute, 8, 4⟩
def ymxRoute_PORT_3 : RF := ⟨ymxRoute, 12, 4⟩
def ymxRoute_PORT_4 : RF := ⟨ymxRoute, 16, 4⟩
def ymxRoute_PORT_5 : RF := ⟨ymxRoute, 20, 4⟩
def ymxRoute_PORT_6 : RF := ⟨ymxRoute, 24, 4⟩
def ymxRoute_PORT_7 : RF := ⟨ymxRoute, 28, 4⟩

/-- YMX_SPARE (R131). -/
def ymxSpare : Reg := ⟨0x41200004, 0⟩
def ymxSpare_NOMINATE : RF := ⟨ymxSpare, 0, 3⟩
def ymxSpare_AUTO : RF := ⟨ymxSpare, 3, 1⟩
def ymxSpare_STATE : RF := ⟨ymxSpare, 4, 3⟩
def ymxSpare_SERVING : RF := ⟨ymxSpare, 8, 3⟩

/-- YMX_PORT_p_CFG (R139). -/
def ymxPortCfg (i : Nat) : Reg := ⟨0x41200100 + 0x40 * i, 0x74c⟩
def ymxPortCfg_EN (i : Nat) : RF := ⟨(ymxPortCfg i), 0, 1⟩
def ymxPortCfg_TYPE (i : Nat) : RF := ⟨(ymxPortCfg i), 1, 1⟩
def ymxPortCfg_RATE (i : Nat) : RF := ⟨(ymxPortCfg i), 2, 2⟩
def ymxPortCfg_LANES (i : Nat) : RF := ⟨(ymxPortCfg i), 4, 3⟩
def ymxPortCfg_BPC (i : Nat) : RF := ⟨(ymxPortCfg i), 7, 2⟩
def ymxPortCfg_DITHER (i : Nat) : RF := ⟨(ymxPortCfg i), 9, 1⟩
def ymxPortCfg_AUTO_RETRAIN (i : Nat) : RF := ⟨(ymxPortCfg i), 10, 1⟩

/-- YMX_PORT_p_STATUS (R139). -/
def ymxPortStatus (i : Nat) : Reg := ⟨0x41200104 + 0x40 * i, 0⟩
def ymxPortStatus_HPD (i : Nat) : RF := ⟨(ymxPortStatus i), 0, 1⟩
def ymxPortStatus_TRAINED (i : Nat) : RF := ⟨(ymxPortStatus i), 1, 1⟩
def ymxPortStatus_RATE (i : Nat) : RF := ⟨(ymxPortStatus i), 2, 2⟩
def ymxPortStatus_LANES (i : Nat) : RF := ⟨(ymxPortStatus i), 4, 3⟩
def ymxPortStatus_CR_DONE (i : Nat) : RF := ⟨(ymxPortStatus i), 7, 1⟩
def ymxPortStatus_EQ_DONE (i : Nat) : RF := ⟨(ymxPortStatus i), 8, 1⟩
def ymxPortStatus_SYM_LOCK (i : Nat) : RF := ⟨(ymxPortStatus i), 9, 1⟩
def ymxPortStatus_ATTEMPTS (i : Nat) : RF := ⟨(ymxPortStatus i), 10, 2⟩
def ymxPortStatus_SINK_COUNT (i : Nat) : RF := ⟨(ymxPortStatus i), 12, 4⟩

/-- YMX_PORT_p_DSI (R139). -/
def ymxPortDsi (i : Nat) : Reg := ⟨0x41200108 + 0x40 * i, 0x80⟩
def ymxPortDsi_CMD (i : Nat) : RF := ⟨(ymxPortDsi i), 0, 1⟩
def ymxPortDsi_TE_EN (i : Nat) : RF := ⟨(ymxPortDsi i), 1, 1⟩
def ymxPortDsi_TE_EDGE (i : Nat) : RF := ⟨(ymxPortDsi i), 2, 1⟩
def ymxPortDsi_ERR_POLL (i : Nat) : RF := ⟨(ymxPortDsi i), 3, 1⟩
def ymxPortDsi_TE_FAIL_LIMIT (i : Nat) : RF := ⟨(ymxPortDsi i), 4, 8⟩
def ymxPortDsi_TE_WAIT (i : Nat) : RF := ⟨(ymxPortDsi i), 12, 13⟩

/-- YMX_PORT_p_DSIRATE (R139). -/
def ymxPortDsirate (i : Nat) : Reg := ⟨0x4120010c + 0x40 * i, 0x50⟩
def ymxPortDsirate_LANE_MBPS (i : Nat) : RF := ⟨(ymxPortDsirate i), 0, 12⟩

/-- YMX_PORT_p_TECNT (R139). -/
def ymxPortTecnt (i : Nat) : Reg := ⟨0x41200110 + 0x40 * i, 0⟩
def ymxPortTecnt_COUNT (i : Nat) : RF := ⟨(ymxPortTecnt i), 0, 32⟩

/-- LAYER_n_CTRL (R175). -/
def layerCtrl (i : Nat) : Reg := ⟨0x41400000 + 0x1000 * i, 0⟩
def layerCtrl_EN (i : Nat) : RF := ⟨(layerCtrl i), 0, 1⟩
def layerCtrl_FORMAT (i : Nat) : RF := ⟨(layerCtrl i), 1, 4⟩
def layerCtrl_TILED (i : Nat) : RF := ⟨(layerCtrl i), 5, 1⟩
def layerCtrl_HFLIP (i : Nat) : RF := ⟨(layerCtrl i), 6, 1⟩
def layerCtrl_VFLIP (i : Nat) : RF := ⟨(layerCtrl i), 7, 1⟩
def layerCtrl_FILTER (i : Nat) : RF := ⟨(layerCtrl i), 8, 2⟩
def layerCtrl_GANG (i : Nat) : RF := ⟨(layerCtrl i), 10, 2⟩
def layerCtrl_Z (i : Nat) : RF := ⟨(layerCtrl i), 12, 4⟩
def layerCtrl_PREMULT (i : Nat) : RF := ⟨(layerCtrl i), 16, 1⟩
def layerCtrl_TIE (i : Nat) : RF := ⟨(layerCtrl i), 17, 3⟩

/-- LAYER_n_BIND (R175). -/
def layerBind (i : Nat) : Reg := ⟨0x41400004 + 0x1000 * i, 0xf⟩
def layerBind_HEAD (i : Nat) : RF := ⟨(layerBind i), 0, 4⟩

/-- LAYER_n_STRIDE (R175). -/
def layerStride (i : Nat) : Reg := ⟨0x41400008 + 0x1000 * i, 0⟩
def layerStride_STRIDE (i : Nat) : RF := ⟨(layerStride i), 6, 12⟩

/-- LAYER_n_ADDRk (R175). -/
def layerAddr (i : Nat) (j : Nat) : Reg := ⟨0x41400010 + 0x1000 * i + 0x8 * j, 0⟩
def layerAddr_ADDR (i : Nat) (j : Nat) : RF := ⟨(layerAddr i j), 6, 42⟩

/-- LAYER_n_RECT_k (R175). -/
def layerRect (i : Nat) (j : Nat) : Reg := ⟨0x41400020 + 0x1000 * i + 0x4 * j, 0⟩
def layerRect_X_W (i : Nat) (j : Nat) : RF := ⟨(layerRect i j), 0, 16⟩
def layerRect_Y_H (i : Nat) (j : Nat) : RF := ⟨(layerRect i j), 16, 16⟩

/-- LAYER_n_BLEND (R175). -/
def layerBlend (i : Nat) : Reg := ⟨0x41400030 + 0x1000 * i, 0x3ff⟩
def layerBlend_PALPHA (i : Nat) : RF := ⟨(layerBlend i), 0, 10⟩

/-- LAYER_n_CSEL (R175). -/
def layerCsel (i : Nat) : Reg := ⟨0x41400040 + 0x1000 * i, 0⟩
def layerCsel_CSEL (i : Nat) : RF := ⟨(layerCsel i), 0, 3⟩

/-- LAYER_n_CM_k (R175). -/
def layerCm (i : Nat) (j : Nat) : Reg := ⟨0x41400044 + 0x1000 * i + 0x4 * j, 0⟩
def layerCm_C_LO (i : Nat) (j : Nat) : RF := ⟨(layerCm i j), 0, 16⟩
def layerCm_C_HI (i : Nat) (j : Nat) : RF := ⟨(layerCm i j), 16, 16⟩

/-- LAYER_n_CM_OFF_k (R175). -/
def layerCmOff (i : Nat) (j : Nat) : Reg := ⟨0x41400058 + 0x1000 * i + 0x4 * j, 0⟩
def layerCmOff_PRE (i : Nat) (j : Nat) : RF := ⟨(layerCmOff i j), 0, 11⟩
def layerCmOff_POST (i : Nat) (j : Nat) : RF := ⟨(layerCmOff i j), 16, 11⟩

/-- LAYER_n_GUARD (R206). -/
def layerGuard (i : Nat) : Reg := ⟨0x41400100 + 0x1000 * i, 0⟩
def layerGuard_CLASS (i : Nat) : RF := ⟨(layerGuard i), 0, 1⟩

/-- LAYER_n_CTIME (R206). -/
def layerCtime (i : Nat) : Reg := ⟨0x41400108 + 0x1000 * i, 0⟩
def layerCtime_WALLTIME (i : Nat) : RF := ⟨(layerCtime i), 0, 64⟩

/-- LAYER_n_BUDGET (R206). -/
def layerBudget (i : Nat) : Reg := ⟨0x41400110 + 0x1000 * i, 1⟩
def layerBudget_BUDGET (i : Nat) : RF := ⟨(layerBudget i), 0, 24⟩

/-- LAYER_n_STATUS (R175). -/
def layerStatus (i : Nat) : Reg := ⟨0x41400200 + 0x1000 * i, 0⟩
def layerStatus_ACTIVE (i : Nat) : RF := ⟨(layerStatus i), 0, 1⟩
def layerStatus_OFF_UR (i : Nat) : RF := ⟨(layerStatus i), 1, 1⟩
def layerStatus_OFF_TIE (i : Nat) : RF := ⟨(layerStatus i), 2, 1⟩
def layerStatus_CFG_FAULT (i : Nat) : RF := ⟨(layerStatus i), 3, 1⟩
def layerStatus_ROLE (i : Nat) : RF := ⟨(layerStatus i), 4, 2⟩

/-- LAYER_n_UR_CNT (R175). -/
def layerUrCnt (i : Nat) : Reg := ⟨0x41400204 + 0x1000 * i, 0⟩
def layerUrCnt_COUNT (i : Nat) : RF := ⟨(layerUrCnt i), 0, 32⟩

/-- LAYER_n_UR_POS (R175). -/
def layerUrPos (i : Nat) : Reg := ⟨0x41400208 + 0x1000 * i, 0⟩
def layerUrPos_LINE (i : Nat) : RF := ⟨(layerUrPos i), 0, 16⟩
def layerUrPos_PIXEL (i : Nat) : RF := ⟨(layerUrPos i), 16, 16⟩

/-- LAYER_COEF_H_i (R155). -/
def layerCoefH (i : Nat) : Reg := ⟨0x41430000 + 0x4 * i, Config.coefHWord i⟩
def layerCoefH_C_LO (i : Nat) : RF := ⟨(layerCoefH i), 0, 16⟩
def layerCoefH_C_HI (i : Nat) : RF := ⟨(layerCoefH i), 16, 16⟩

/-- LAYER_COEF_V_i (R155). -/
def layerCoefV (i : Nat) : Reg := ⟨0x41430400 + 0x4 * i, Config.coefVWord i⟩
def layerCoefV_C_LO (i : Nat) : RF := ⟨(layerCoefV i), 0, 16⟩
def layerCoefV_C_HI (i : Nat) : RF := ⟨(layerCoefV i), 16, 16⟩

/-- LAYER_WB_u_CTRL (R171). -/
def layerWbCtrl (i : Nat) : Reg := ⟨0x41431000 + 0x100 * i, 0x100⟩
def layerWbCtrl_MODE (i : Nat) : RF := ⟨(layerWbCtrl i), 0, 2⟩
def layerWbCtrl_FORMAT (i : Nat) : RF := ⟨(layerWbCtrl i), 2, 1⟩
def layerWbCtrl_HEAD (i : Nat) : RF := ⟨(layerWbCtrl i), 4, 3⟩
def layerWbCtrl_N (i : Nat) : RF := ⟨(layerWbCtrl i), 8, 8⟩

/-- LAYER_WB_u_ADDR (R171). -/
def layerWbAddr (i : Nat) : Reg := ⟨0x41431008 + 0x100 * i, 0⟩
def layerWbAddr_ADDR (i : Nat) : RF := ⟨(layerWbAddr i), 6, 42⟩

/-- LAYER_WB_u_STRIDE (R171). -/
def layerWbStride (i : Nat) : Reg := ⟨0x41431010 + 0x100 * i, 0⟩
def layerWbStride_STRIDE (i : Nat) : RF := ⟨(layerWbStride i), 6, 12⟩

/-- LAYER_WB_u_STATUS (R171). -/
def layerWbStatus (i : Nat) : Reg := ⟨0x41431018 + 0x100 * i, 0⟩
def layerWbStatus_BUSY (i : Nat) : RF := ⟨(layerWbStatus i), 0, 1⟩
def layerWbStatus_INCOMPLETE (i : Nat) : RF := ⟨(layerWbStatus i), 1, 1⟩

/-- LAYER_WB_u_STAMP (R171). -/
def layerWbStamp (i : Nat) : Reg := ⟨0x41431020 + 0x100 * i, 0⟩
def layerWbStamp_WALLTIME (i : Nat) : RF := ⟨(layerWbStamp i), 0, 64⟩

/-- LAYER_WB_u_CNT (R171). -/
def layerWbCnt (i : Nat) : Reg := ⟨0x41431028 + 0x100 * i, 0⟩
def layerWbCnt_COUNT (i : Nat) : RF := ⟨(layerWbCnt i), 0, 32⟩

/-- INTEG_n_CFG (R206). -/
def integCfg (i : Nat) : Reg := ⟨0x41800000 + 0x10000 * i, 0x3c00⟩
def integCfg_SUPERVISED (i : Nat) : RF := ⟨(integCfg i), 0, 1⟩
def integCfg_AUTO_RESUME (i : Nat) : RF := ⟨(integCfg i), 1, 1⟩
def integCfg_SINK_EN (i : Nat) : RF := ⟨(integCfg i), 2, 1⟩
def integCfg_SINK_EVERY (i : Nat) : RF := ⟨(integCfg i), 8, 8⟩

/-- INTEG_n_HATCH (R206). -/
def integHatch (i : Nat) : Reg := ⟨0x41800004 + 0x10000 * i, 0x3ffaf000⟩
def integHatch_B (i : Nat) : RF := ⟨(integHatch i), 0, 10⟩
def integHatch_G (i : Nat) : RF := ⟨(integHatch i), 10, 10⟩
def integHatch_RED (i : Nat) : RF := ⟨(integHatch i), 20, 10⟩

/-- INTEG_n_HATCH_A (R206). -/
def integHatchA (i : Nat) : Reg := ⟨0x41800008 + 0x10000 * i, 0x3ff⟩
def integHatchA_ALPHA (i : Nat) : RF := ⟨(integHatchA i), 0, 10⟩

/-- INTEG_n_RECT_r_POS (R206). -/
def integRectPos (i : Nat) (j : Nat) : Reg := ⟨0x41800100 + 0x10000 * i + 0x20 * j, 0⟩
def integRectPos_X_W (i : Nat) (j : Nat) : RF := ⟨(integRectPos i j), 0, 16⟩
def integRectPos_Y_H (i : Nat) (j : Nat) : RF := ⟨(integRectPos i j), 16, 16⟩

/-- INTEG_n_RECT_r_SIZE (R206). -/
def integRectSize (i : Nat) (j : Nat) : Reg := ⟨0x41800104 + 0x10000 * i + 0x20 * j, 0⟩
def integRectSize_X_W (i : Nat) (j : Nat) : RF := ⟨(integRectSize i j), 0, 16⟩
def integRectSize_Y_H (i : Nat) (j : Nat) : RF := ⟨(integRectSize i j), 16, 16⟩

/-- INTEG_n_RECT_r_CTRL (R206). -/
def integRectCtrl (i : Nat) (j : Nat) : Reg := ⟨0x41800108 + 0x10000 * i + 0x20 * j, 0⟩
def integRectCtrl_EN (i : Nat) (j : Nat) : RF := ⟨(integRectCtrl i j), 0, 1⟩
def integRectCtrl_BANKED (i : Nat) (j : Nat) : RF := ⟨(integRectCtrl i j), 1, 1⟩
def integRectCtrl_ESCALATE (i : Nat) (j : Nat) : RF := ⟨(integRectCtrl i j), 2, 1⟩

/-- INTEG_n_RECT_r_EXP (R206). -/
def integRectExp (i : Nat) (j : Nat) : Reg := ⟨0x4180010c + 0x10000 * i + 0x20 * j, 0⟩
def integRectExp_EXPECT (i : Nat) (j : Nat) : RF := ⟨(integRectExp i j), 0, 32⟩

/-- INTEG_n_RECT_r_EXP_B (R206). -/
def integRectExpB (i : Nat) (j : Nat) : Reg := ⟨0x41800110 + 0x10000 * i + 0x20 * j, 0⟩
def integRectExpB_EXPECT (i : Nat) (j : Nat) : RF := ⟨(integRectExpB i j), 0, 32⟩

/-- INTEG_n_EMB_p_CTRL (R206). -/
def integEmbCtrl (i : Nat) (j : Nat) : Reg := ⟨0x41800400 + 0x10000 * i + 0x20 * j, 2⟩
def integEmbCtrl_EN (i : Nat) (j : Nat) : RF := ⟨(integEmbCtrl i j), 0, 1⟩
def integEmbCtrl_SCALE (i : Nat) (j : Nat) : RF := ⟨(integEmbCtrl i j), 1, 2⟩

/-- INTEG_n_EMB_p_BASE (R206). -/
def integEmbBase (i : Nat) (j : Nat) : Reg := ⟨0x41800404 + 0x10000 * i + 0x20 * j, 0x1000000⟩
def integEmbBase_OFFSET (i : Nat) (j : Nat) : RF := ⟨(integEmbBase i j), 0, 17⟩
def integEmbBase_STRIDE (i : Nat) (j : Nat) : RF := ⟨(integEmbBase i j), 24, 5⟩

/-- INTEG_n_EMB_p_POS (R206). -/
def integEmbPos (i : Nat) (j : Nat) : Reg := ⟨0x41800408 + 0x10000 * i + 0x20 * j, 0⟩
def integEmbPos_X_W (i : Nat) (j : Nat) : RF := ⟨(integEmbPos i j), 0, 16⟩
def integEmbPos_Y_H (i : Nat) (j : Nat) : RF := ⟨(integEmbPos i j), 16, 16⟩

/-- INTEG_n_EMB_p_SIZE (R206). -/
def integEmbSize (i : Nat) (j : Nat) : Reg := ⟨0x4180040c + 0x10000 * i + 0x20 * j, 0⟩
def integEmbSize_X_W (i : Nat) (j : Nat) : RF := ⟨(integEmbSize i j), 0, 16⟩
def integEmbSize_Y_H (i : Nat) (j : Nat) : RF := ⟨(integEmbSize i j), 16, 16⟩

/-- INTEG_n_EMB_p_EXP (R206). -/
def integEmbExp (i : Nat) (j : Nat) : Reg := ⟨0x41800410 + 0x10000 * i + 0x20 * j, 0⟩
def integEmbExp_EXPECT (i : Nat) (j : Nat) : RF := ⟨(integEmbExp i j), 0, 32⟩

/-- INTEG_n_EMB_p_PAL_i (R187). -/
def integEmbPal (i : Nat) (j : Nat) (k : Nat) : Reg := ⟨0x41801000 + 0x10000 * i + 0x400 * j + 0x4 * k, 0⟩
def integEmbPal_B (i : Nat) (j : Nat) (k : Nat) : RF := ⟨(integEmbPal i j k), 0, 8⟩
def integEmbPal_G (i : Nat) (j : Nat) (k : Nat) : RF := ⟨(integEmbPal i j k), 8, 8⟩
def integEmbPal_RED (i : Nat) (j : Nat) (k : Nat) : RF := ⟨(integEmbPal i j k), 16, 8⟩
def integEmbPal_A (i : Nat) (j : Nat) (k : Nat) : RF := ⟨(integEmbPal i j k), 24, 8⟩

/-- INTEG_n_VSTATE (R199). -/
def integVstate (i : Nat) : Reg := ⟨0x41804000 + 0x10000 * i, 0⟩
def integVstate_VERIFIED (i : Nat) : RF := ⟨(integVstate i), 0, 1⟩
def integVstate_PATH (i : Nat) : RF := ⟨(integVstate i), 1, 2⟩
def integVstate_STALE (i : Nat) : RF := ⟨(integVstate i), 3, 1⟩
def integVstate_HOLD (i : Nat) : RF := ⟨(integVstate i), 4, 2⟩
def integVstate_TRANSIT (i : Nat) : RF := ⟨(integVstate i), 6, 1⟩
def integVstate_RB_FAIL (i : Nat) : RF := ⟨(integVstate i), 7, 1⟩
def integVstate_C0_RUN0 (i : Nat) : RF := ⟨(integVstate i), 8, 2⟩
def integVstate_C0_RUN1 (i : Nat) : RF := ⟨(integVstate i), 10, 2⟩
def integVstate_REASON (i : Nat) : RF := ⟨(integVstate i), 12, 4⟩

/-- INTEG_n_RES_PIN (R195). -/
def integResPin (i : Nat) : Reg := ⟨0x41804004 + 0x10000 * i, 0⟩
def integResPin_RES_0 (i : Nat) : RF := ⟨(integResPin i), 0, 2⟩
def integResPin_RES_1 (i : Nat) : RF := ⟨(integResPin i), 2, 2⟩
def integResPin_RES_2 (i : Nat) : RF := ⟨(integResPin i), 4, 2⟩
def integResPin_RES_3 (i : Nat) : RF := ⟨(integResPin i), 6, 2⟩
def integResPin_RES_4 (i : Nat) : RF := ⟨(integResPin i), 8, 2⟩
def integResPin_RES_5 (i : Nat) : RF := ⟨(integResPin i), 10, 2⟩
def integResPin_RES_6 (i : Nat) : RF := ⟨(integResPin i), 12, 2⟩
def integResPin_RES_7 (i : Nat) : RF := ⟨(integResPin i), 14, 2⟩
def integResPin_RES_8 (i : Nat) : RF := ⟨(integResPin i), 16, 2⟩
def integResPin_RES_9 (i : Nat) : RF := ⟨(integResPin i), 18, 2⟩
def integResPin_RES_10 (i : Nat) : RF := ⟨(integResPin i), 20, 2⟩
def integResPin_RES_11 (i : Nat) : RF := ⟨(integResPin i), 22, 2⟩
def integResPin_RES_12 (i : Nat) : RF := ⟨(integResPin i), 24, 2⟩
def integResPin_RES_13 (i : Nat) : RF := ⟨(integResPin i), 26, 2⟩
def integResPin_RES_14 (i : Nat) : RF := ⟨(integResPin i), 28, 2⟩
def integResPin_RES_15 (i : Nat) : RF := ⟨(integResPin i), 30, 2⟩

/-- INTEG_n_RES_TAP (R195). -/
def integResTap (i : Nat) : Reg := ⟨0x41804008 + 0x10000 * i, 0⟩
def integResTap_RES_0 (i : Nat) : RF := ⟨(integResTap i), 0, 2⟩
def integResTap_RES_1 (i : Nat) : RF := ⟨(integResTap i), 2, 2⟩
def integResTap_RES_2 (i : Nat) : RF := ⟨(integResTap i), 4, 2⟩
def integResTap_RES_3 (i : Nat) : RF := ⟨(integResTap i), 6, 2⟩
def integResTap_RES_4 (i : Nat) : RF := ⟨(integResTap i), 8, 2⟩
def integResTap_RES_5 (i : Nat) : RF := ⟨(integResTap i), 10, 2⟩
def integResTap_RES_6 (i : Nat) : RF := ⟨(integResTap i), 12, 2⟩
def integResTap_RES_7 (i : Nat) : RF := ⟨(integResTap i), 14, 2⟩
def integResTap_RES_8 (i : Nat) : RF := ⟨(integResTap i), 16, 2⟩
def integResTap_RES_9 (i : Nat) : RF := ⟨(integResTap i), 18, 2⟩
def integResTap_RES_10 (i : Nat) : RF := ⟨(integResTap i), 20, 2⟩
def integResTap_RES_11 (i : Nat) : RF := ⟨(integResTap i), 22, 2⟩
def integResTap_RES_12 (i : Nat) : RF := ⟨(integResTap i), 24, 2⟩
def integResTap_RES_13 (i : Nat) : RF := ⟨(integResTap i), 26, 2⟩
def integResTap_RES_14 (i : Nat) : RF := ⟨(integResTap i), 28, 2⟩
def integResTap_RES_15 (i : Nat) : RF := ⟨(integResTap i), 30, 2⟩

/-- INTEG_n_RECT_r_GOT (R195). -/
def integRectGot (i : Nat) (j : Nat) : Reg := ⟨0x41804100 + 0x10000 * i + 0x8 * j, 0⟩
def integRectGot_PIN (i : Nat) (j : Nat) : RF := ⟨(integRectGot i j), 0, 32⟩
def integRectGot_TAP (i : Nat) (j : Nat) : RF := ⟨(integRectGot i j), 32, 32⟩

/-- INTEG_n_EMB_p_GOT (R189). -/
def integEmbGot (i : Nat) (j : Nat) : Reg := ⟨0x41804200 + 0x10000 * i + 0x4 * j, 0⟩
def integEmbGot_CRC (i : Nat) (j : Nat) : RF := ⟨(integEmbGot i j), 0, 32⟩

/-- INTEG_n_FRAME_CRC (R198). -/
def integFrameCrc (i : Nat) : Reg := ⟨0x41804210 + 0x10000 * i, 0⟩
def integFrameCrc_CRC (i : Nat) : RF := ⟨(integFrameCrc i), 0, 32⟩

/-- INTEG_n_SINK_CRC (R198). -/
def integSinkCrc (i : Nat) : Reg := ⟨0x41804218 + 0x10000 * i, 0⟩
def integSinkCrc_RED_CR (i : Nat) : RF := ⟨(integSinkCrc i), 0, 16⟩
def integSinkCrc_G_Y (i : Nat) : RF := ⟨(integSinkCrc i), 16, 16⟩
def integSinkCrc_B_CB (i : Nat) : RF := ⟨(integSinkCrc i), 32, 16⟩

/-- INTEG_n_VCNT (R199). -/
def integVcnt (i : Nat) : Reg := ⟨0x41804220 + 0x10000 * i, 0⟩
def integVcnt_COUNT (i : Nat) : RF := ⟨(integVcnt i), 0, 32⟩

/-- INTEG_n_UCNT (R199). -/
def integUcnt (i : Nat) : Reg := ⟨0x41804224 + 0x10000 * i, 0⟩
def integUcnt_COUNT (i : Nat) : RF := ⟨(integUcnt i), 0, 32⟩

/-- INTEG_AGE_n (R181). -/
def integAge (i : Nat) : Reg := ⟨0x418e0000 + 0x8 * i, 0⟩
def integAge_AGE (i : Nat) : RF := ⟨(integAge i), 0, 24⟩
def integAge_STALE (i : Nat) : RF := ⟨(integAge i), 24, 1⟩
def integAge_CAUSE (i : Nat) : RF := ⟨(integAge i), 25, 2⟩

/-- INTEG_RB_CFG (R206). -/
def integRbCfg : Reg := ⟨0x418f0000, 0x3c⟩
def integRbCfg_SELFTEST_S : RF := ⟨integRbCfg, 0, 12⟩

/-- INTEG_RB_STATUS (R206). -/
def integRbStatus : Reg := ⟨0x418f0004, 0⟩
def integRbStatus_FAIL : RF := ⟨integRbStatus, 0, 8⟩
def integRbStatus_TESTING : RF := ⟨integRbStatus, 8, 8⟩

/-- INTEG_VERIFIED (R206). -/
def integVerified : Reg := ⟨0x418f0008, 0⟩
def integVerified_VERIFIED : RF := ⟨integVerified, 0, 8⟩
def integVerified_SUPERVISED : RF := ⟨integVerified, 8, 8⟩

/-- GFX_SCHED (R229). -/
def gfxSched : Reg := ⟨0x42000000, 0x1f4083e8⟩
def gfxSched_SLICE_US : RF := ⟨gfxSched, 0, 14⟩
def gfxSched_COMP_CL : RF := ⟨gfxSched, 14, 4⟩
def gfxSched_HANG_MS : RF := ⟨gfxSched, 18, 14⟩

/-- GFX_STATUS (R229). -/
def gfxStatus : Reg := ⟨0x42000004, 0⟩
def gfxStatus_RUNNING : RF := ⟨gfxStatus, 0, 6⟩
def gfxStatus_COMP_BUSY : RF := ⟨gfxStatus, 6, 1⟩
def gfxStatus_COMP_ALL : RF := ⟨gfxStatus, 7, 1⟩

/-- GFX_PREEMPT_MAX (R229). -/
def gfxPreemptMax : Reg := ⟨0x42000008, 0⟩
def gfxPreemptMax_MAX : RF := ⟨gfxPreemptMax, 0, 16⟩

/-- GFX_PREEMPT_CNT (R229). -/
def gfxPreemptCnt : Reg := ⟨0x4200000c, 0⟩
def gfxPreemptCnt_COUNT : RF := ⟨gfxPreemptCnt, 0, 32⟩

/-- GFX_TILE_CFG (R229). -/
def gfxTileCfg : Reg := ⟨0x42000010, 0x4001⟩
def gfxTileCfg_SKIP_EN : RF := ⟨gfxTileCfg, 0, 1⟩
def gfxTileCfg_TILED_MIN : RF := ⟨gfxTileCfg, 8, 14⟩

/-- GFX_STORE_CNT (R229). -/
def gfxStoreCnt : Reg := ⟨0x42000018, 0⟩
def gfxStoreCnt_COUNT : RF := ⟨gfxStoreCnt, 0, 32⟩

/-- GFX_SKIP_CNT (R229). -/
def gfxSkipCnt : Reg := ⟨0x4200001c, 0⟩
def gfxSkipCnt_COUNT : RF := ⟨gfxSkipCnt, 0, 32⟩

/-- GFX_DL_n (R221). -/
def gfxDl (i : Nat) : Reg := ⟨0x42000100 + 0x8 * i, 0⟩
def gfxDl_WARN (i : Nat) : RF := ⟨(gfxDl i), 0, 16⟩
def gfxDl_DEAD (i : Nat) : RF := ⟨(gfxDl i), 16, 16⟩

/-- GFX_COMP_n_CTRL (R220). -/
def gfxCompCtrl (i : Nat) : Reg := ⟨0x42000200 + 0x40 * i, 0⟩
def gfxCompCtrl_EN (i : Nat) : RF := ⟨(gfxCompCtrl i), 0, 1⟩
def gfxCompCtrl_PIPE (i : Nat) : RF := ⟨(gfxCompCtrl i), 1, 6⟩
def gfxCompCtrl_FENCE_CTX (i : Nat) : RF := ⟨(gfxCompCtrl i), 8, 6⟩

/-- GFX_COMP_n_SURF0 (R220). -/
def gfxCompSurf0 (i : Nat) : Reg := ⟨0x42000208 + 0x40 * i, 0⟩
def gfxCompSurf0_ADDR (i : Nat) : RF := ⟨(gfxCompSurf0 i), 6, 42⟩

/-- GFX_COMP_n_SURF1 (R220). -/
def gfxCompSurf1 (i : Nat) : Reg := ⟨0x42000210 + 0x40 * i, 0⟩
def gfxCompSurf1_ADDR (i : Nat) : RF := ⟨(gfxCompSurf1 i), 6, 42⟩

/-- GFX_COMP_n_LIST (R220). -/
def gfxCompList (i : Nat) : Reg := ⟨0x42000218 + 0x40 * i, 0⟩
def gfxCompList_ADDR (i : Nat) : RF := ⟨(gfxCompList i), 6, 42⟩

/-- GFX_COMP_n_LEN (R220). -/
def gfxCompLen (i : Nat) : Reg := ⟨0x42000220 + 0x40 * i, 0⟩
def gfxCompLen_LEN (i : Nat) : RF := ⟨(gfxCompLen i), 3, 22⟩

/-- GFX_COMP_n_FENCE (R220). -/
def gfxCompFence (i : Nat) : Reg := ⟨0x42000228 + 0x40 * i, 0⟩
def gfxCompFence_VALUE (i : Nat) : RF := ⟨(gfxCompFence i), 0, 64⟩

/-- GFX_COMP_n_CTIME (R220). -/
def gfxCompCtime (i : Nat) : Reg := ⟨0x42000230 + 0x40 * i, 0⟩
def gfxCompCtime_WALLTIME (i : Nat) : RF := ⟨(gfxCompCtime i), 0, 64⟩

/-- GFX_COMP_n_STATUS (R220). -/
def gfxCompStatus (i : Nat) : Reg := ⟨0x42000238 + 0x40 * i, 0⟩
def gfxCompStatus_SHOWN (i : Nat) : RF := ⟨(gfxCompStatus i), 0, 1⟩
def gfxCompStatus_JOB (i : Nat) : RF := ⟨(gfxCompStatus i), 1, 2⟩

/-- GFX_COMP_n_MISS (R225). -/
def gfxCompMiss (i : Nat) : Reg := ⟨0x4200023c + 0x40 * i, 0⟩
def gfxCompMiss_COUNT (i : Nat) : RF := ⟨(gfxCompMiss i), 0, 32⟩

/-- GFX_CTX_n_CTRL (R211). -/
def gfxCtxCtrl (i : Nat) : Reg := ⟨0x42001000 + 0x40 * i, 0xc00⟩
def gfxCtxCtrl_EN (i : Nat) : RF := ⟨(gfxCtxCtrl i), 0, 1⟩
def gfxCtxCtrl_PRIO (i : Nat) : RF := ⟨(gfxCtxCtrl i), 1, 2⟩
def gfxCtxCtrl_QLOG2 (i : Nat) : RF := ⟨(gfxCtxCtrl i), 8, 5⟩

/-- GFX_CTX_n_STATE (R211). -/
def gfxCtxState (i : Nat) : Reg := ⟨0x42001004 + 0x40 * i, 0⟩
def gfxCtxState_STATE (i : Nat) : RF := ⟨(gfxCtxState i), 0, 3⟩
def gfxCtxState_FAULT (i : Nat) : RF := ⟨(gfxCtxState i), 8, 8⟩

/-- GFX_CTX_n_QBASE (R211). -/
def gfxCtxQbase (i : Nat) : Reg := ⟨0x42001008 + 0x40 * i, 0⟩
def gfxCtxQbase_ADDR (i : Nat) : RF := ⟨(gfxCtxQbase i), 12, 36⟩

/-- GFX_CTX_n_QHEAD (R211). -/
def gfxCtxQhead (i : Nat) : Reg := ⟨0x42001010 + 0x40 * i, 0⟩
def gfxCtxQhead_POS (i : Nat) : RF := ⟨(gfxCtxQhead i), 0, 20⟩

/-- GFX_CTX_n_QTAIL (R211). -/
def gfxCtxQtail (i : Nat) : Reg := ⟨0x42001014 + 0x40 * i, 0⟩
def gfxCtxQtail_POS (i : Nat) : RF := ⟨(gfxCtxQtail i), 0, 20⟩

/-- GFX_CTX_n_SAVE (R211). -/
def gfxCtxSave (i : Nat) : Reg := ⟨0x42001018 + 0x40 * i, 0⟩
def gfxCtxSave_ADDR (i : Nat) : RF := ⟨(gfxCtxSave i), 21, 27⟩

/-- GFX_CTX_n_FENCE (R211). -/
def gfxCtxFence (i : Nat) : Reg := ⟨0x42001020 + 0x40 * i, 0⟩
def gfxCtxFence_COUNT (i : Nat) : RF := ⟨(gfxCtxFence i), 0, 64⟩

/-- GFX_CTX_n_FAULT_ADDR (R211). -/
def gfxCtxFaultAddr (i : Nat) : Reg := ⟨0x42001028 + 0x40 * i, 0⟩
def gfxCtxFaultAddr_ADDR (i : Nat) : RF := ⟨(gfxCtxFaultAddr i), 0, 48⟩

/-- GFX_CTX_n_USED (R211). -/
def gfxCtxUsed (i : Nat) : Reg := ⟨0x42001030 + 0x40 * i, 0⟩
def gfxCtxUsed_CLUSTER_US (i : Nat) : RF := ⟨(gfxCtxUsed i), 0, 32⟩

/-- GFX_PASS_n_MODE (R253). -/
def gfxPassMode (i : Nat) : Reg := ⟨0x42003000 + 0x40 * i, 0⟩
def gfxPassMode_MODE (i : Nat) : RF := ⟨(gfxPassMode i), 0, 1⟩
def gfxPassMode_STEP (i : Nat) : RF := ⟨(gfxPassMode i), 1, 3⟩
def gfxPassMode_FLUSHES (i : Nat) : RF := ⟨(gfxPassMode i), 16, 16⟩

/-- GFX_PASS_n_WRITTEN (R253). -/
def gfxPassWritten (i : Nat) : Reg := ⟨0x42003004 + 0x40 * i, 0⟩
def gfxPassWritten_VALUE (i : Nat) : RF := ⟨(gfxPassWritten i), 0, 32⟩

/-- GFX_PASS_n_SKIPPED (R253). -/
def gfxPassSkipped (i : Nat) : Reg := ⟨0x42003008 + 0x40 * i, 0⟩
def gfxPassSkipped_VALUE (i : Nat) : RF := ⟨(gfxPassSkipped i), 0, 32⟩

/-- GFX_PASS_n_PRIMS (R253). -/
def gfxPassPrims (i : Nat) : Reg := ⟨0x4200300c + 0x40 * i, 0⟩
def gfxPassPrims_VALUE (i : Nat) : RF := ⟨(gfxPassPrims i), 0, 32⟩

/-- GFX_PASS_n_BIN (R253). -/
def gfxPassBin (i : Nat) : Reg := ⟨0x42003010 + 0x40 * i, 0⟩
def gfxPassBin_VALUE (i : Nat) : RF := ⟨(gfxPassBin i), 0, 32⟩

/-- GFX_PASS_n_US (R253). -/
def gfxPassUs (i : Nat) : Reg := ⟨0x42003014 + 0x40 * i, 0⟩
def gfxPassUs_VALUE (i : Nat) : RF := ⟨(gfxPassUs i), 0, 32⟩

/-- GFX_PASS_n_FRAGS (R253). -/
def gfxPassFrags (i : Nat) : Reg := ⟨0x42003018 + 0x40 * i, 0⟩
def gfxPassFrags_COUNT (i : Nat) : RF := ⟨(gfxPassFrags i), 0, 64⟩

/-- GFX_PICK_p_CTRL (R264). -/
def gfxPickCtrl (i : Nat) : Reg := ⟨0x42005000 + 0x400 * i, 0⟩
def gfxPickCtrl_EN (i : Nat) : RF := ⟨(gfxPickCtrl i), 0, 1⟩
def gfxPickCtrl_QUEUE (i : Nat) : RF := ⟨(gfxPickCtrl i), 1, 5⟩

/-- GFX_PICK_p_SCENE (R264). -/
def gfxPickScene (i : Nat) : Reg := ⟨0x42005008 + 0x400 * i, 0⟩
def gfxPickScene_ADDR (i : Nat) : RF := ⟨(gfxPickScene i), 6, 42⟩

/-- GFX_PICK_p_MIN (R264). -/
def gfxPickMin (i : Nat) : Reg := ⟨0x42005010 + 0x400 * i, 0⟩
def gfxPickMin_X (i : Nat) : RF := ⟨(gfxPickMin i), 0, 16⟩
def gfxPickMin_Y (i : Nat) : RF := ⟨(gfxPickMin i), 16, 16⟩

/-- GFX_PICK_p_MAX (R264). -/
def gfxPickMax (i : Nat) : Reg := ⟨0x42005014 + 0x400 * i, 0⟩
def gfxPickMax_X (i : Nat) : RF := ⟨(gfxPickMax i), 0, 16⟩
def gfxPickMax_Y (i : Nat) : RF := ⟨(gfxPickMax i), 16, 16⟩

/-- GFX_PICK_p_XF_k (R264). -/
def gfxPickXf (i : Nat) (j : Nat) : Reg := ⟨0x42005020 + 0x400 * i + 0x4 * j, 0⟩
def gfxPickXf_VALUE (i : Nat) (j : Nat) : RF := ⟨(gfxPickXf i j), 0, 32⟩

/-- GFX_PICK_p_BUDGET (R264). -/
def gfxPickBudget (i : Nat) : Reg := ⟨0x42005070 + 0x400 * i, 0x2000100⟩
def gfxPickBudget_NODES (i : Nat) : RF := ⟨(gfxPickBudget i), 0, 9⟩
def gfxPickBudget_TRIS (i : Nat) : RF := ⟨(gfxPickBudget i), 16, 10⟩

/-- GFX_PICK_p_STATUS (R264). -/
def gfxPickStatus (i : Nat) : Reg := ⟨0x42005080 + 0x400 * i, 0⟩
def gfxPickStatus_IN_FLIGHT (i : Nat) : RF := ⟨(gfxPickStatus i), 0, 5⟩
def gfxPickStatus_LAST (i : Nat) : RF := ⟨(gfxPickStatus i), 8, 3⟩

/-- GFX_PICK_p_CNT (R264). -/
def gfxPickCnt (i : Nat) : Reg := ⟨0x42005084 + 0x400 * i, 0⟩
def gfxPickCnt_COUNT (i : Nat) : RF := ⟨(gfxPickCnt i), 0, 32⟩

/-- GFX_PICK_p_DROP_CNT (R264). -/
def gfxPickDropCnt (i : Nat) : Reg := ⟨0x42005088 + 0x400 * i, 0⟩
def gfxPickDropCnt_COUNT (i : Nat) : RF := ⟨(gfxPickDropCnt i), 0, 32⟩

/-- GFX_PICK_p_MAXLAT (R264). -/
def gfxPickMaxlat (i : Nat) : Reg := ⟨0x4200508c + 0x400 * i, 0⟩
def gfxPickMaxlat_MAX (i : Nat) : RF := ⟨(gfxPickMaxlat i), 0, 16⟩

/-- GFX_PICK_p_CLASS_i (R264). -/
def gfxPickClass (i : Nat) (j : Nat) : Reg := ⟨0x42005200 + 0x400 * i + 0x4 * j, 0⟩
def gfxPickClass_CH_LO (i : Nat) (j : Nat) : RF := ⟨(gfxPickClass i j), 0, 3⟩
def gfxPickClass_EN_LO (i : Nat) (j : Nat) : RF := ⟨(gfxPickClass i j), 3, 1⟩
def gfxPickClass_URG_LO (i : Nat) (j : Nat) : RF := ⟨(gfxPickClass i j), 4, 1⟩
def gfxPickClass_FX_LO (i : Nat) (j : Nat) : RF := ⟨(gfxPickClass i j), 8, 8⟩
def gfxPickClass_HI (i : Nat) (j : Nat) : RF := ⟨(gfxPickClass i j), 16, 16⟩

/-- TOUCH_n_CTRL (R294). -/
def touchCtrl (i : Nat) : Reg := ⟨0x43000000 + 0x40000 * i, 0x100⟩
def touchCtrl_EN (i : Nat) : RF := ⟨(touchCtrl i), 0, 1⟩
def touchCtrl_COMB (i : Nat) : RF := ⟨(touchCtrl i), 1, 2⟩
def touchCtrl_HOP_EN (i : Nat) : RF := ⟨(touchCtrl i), 3, 1⟩
def touchCtrl_REPORT_ALL (i : Nat) : RF := ⟨(touchCtrl i), 4, 1⟩
def touchCtrl_SWAP_XY (i : Nat) : RF := ⟨(touchCtrl i), 5, 1⟩
def touchCtrl_FLIP_X (i : Nat) : RF := ⟨(touchCtrl i), 6, 1⟩
def touchCtrl_FLIP_Y (i : Nat) : RF := ⟨(touchCtrl i), 7, 1⟩
def touchCtrl_ST_AT_START (i : Nat) : RF := ⟨(touchCtrl i), 8, 1⟩
def touchCtrl_QUEUE (i : Nat) : RF := ⟨(touchCtrl i), 9, 5⟩

/-- TOUCH_n_STATUS (R294). -/
def touchStatus (i : Nat) : Reg := ⟨0x43000004 + 0x40000 * i, 0⟩
def touchStatus_STATE (i : Nat) : RF := ⟨(touchStatus i), 0, 2⟩
def touchStatus_COMB_CUR (i : Nat) : RF := ⟨(touchStatus i), 2, 2⟩
def touchStatus_CONTACTS (i : Nat) : RF := ⟨(touchStatus i), 4, 4⟩
def touchStatus_BL_SRC (i : Nat) : RF := ⟨(touchStatus i), 8, 2⟩
def touchStatus_SUSPECT (i : Nat) : RF := ⟨(touchStatus i), 10, 1⟩
def touchStatus_FAULTED (i : Nat) : RF := ⟨(touchStatus i), 11, 1⟩
def touchStatus_NOISY (i : Nat) : RF := ⟨(touchStatus i), 12, 1⟩

/-- TOUCH_n_WIN_j (R294). -/
def touchWin (i : Nat) (j : Nat) : Reg := ⟨0x43000010 + 0x40000 * i + 0x4 * j, 0⟩
def touchWin_LINE (i : Nat) (j : Nat) : RF := ⟨(touchWin i j), 0, 14⟩
def touchWin_EN (i : Nat) (j : Nat) : RF := ⟨(touchWin i j), 15, 1⟩

/-- TOUCH_n_LISTEN (R294). -/
def touchListen (i : Nat) : Reg := ⟨0x43000030 + 0x40000 * i, 0⟩
def touchListen_LINE (i : Nat) : RF := ⟨(touchListen i), 0, 14⟩
def touchListen_EN (i : Nat) : RF := ⟨(touchListen i), 15, 1⟩

/-- TOUCH_n_THRESH (R294). -/
def touchThresh (i : Nat) : Reg := ⟨0x43000040 + 0x40000 * i, 0xfa190⟩
def touchThresh_CONTACT_THRESH (i : Nat) : RF := ⟨(touchThresh i), 0, 12⟩
def touchThresh_HOLD_THRESH (i : Nat) : RF := ⟨(touchThresh i), 12, 12⟩

/-- TOUCH_n_TRACK (R294). -/
def touchTrack (i : Nat) : Reg := ⟨0x43000044 + 0x40000 * i, 0x2200c8a⟩
def touchTrack_TRACK_SHIFT (i : Nat) : RF := ⟨(touchTrack i), 0, 4⟩
def touchTrack_NEG_THRESH (i : Nat) : RF := ⟨(touchTrack i), 4, 12⟩
def touchTrack_NEG_FRAMES (i : Nat) : RF := ⟨(touchTrack i), 16, 8⟩
def touchTrack_UP_FRAMES (i : Nat) : RF := ⟨(touchTrack i), 24, 4⟩

/-- TOUCH_n_SCALE (R294). -/
def touchScale (i : Nat) : Reg := ⟨0x43000048 + 0x40000 * i, 0xfc01bc0⟩
def touchScale_X_MAX (i : Nat) : RF := ⟨(touchScale i), 0, 16⟩
def touchScale_Y_MAX (i : Nat) : RF := ⟨(touchScale i), 16, 16⟩

/-- TOUCH_n_TIMING (R294). -/
def touchTiming (i : Nat) : Reg := ⟨0x4300004c + 0x40000 * i, 0x30003c⟩
def touchTiming_LONG_S (i : Nat) : RF := ⟨(touchTiming i), 0, 12⟩
def touchTiming_TRACK_DIST (i : Nat) : RF := ⟨(touchTiming i), 12, 12⟩

/-- TOUCH_n_HOP (R294). -/
def touchHop (i : Nat) : Reg := ⟨0x43000050 + 0x40000 * i, 0x4003c⟩
def touchHop_HOP_THRESH (i : Nat) : RF := ⟨(touchHop i), 0, 16⟩
def touchHop_HOP_FRAMES (i : Nat) : RF := ⟨(touchHop i), 16, 8⟩

/-- TOUCH_n_NOISE_k (R294). -/
def touchNoise (i : Nat) (j : Nat) : Reg := ⟨0x43000054 + 0x40000 * i + 0x4 * j, 0⟩
def touchNoise_N_LO (i : Nat) (j : Nat) : RF := ⟨(touchNoise i j), 0, 16⟩
def touchNoise_N_HI (i : Nat) (j : Nat) : RF := ⟨(touchNoise i j), 16, 16⟩

/-- TOUCH_n_FRAME_CNT (R294). -/
def touchFrameCnt (i : Nat) : Reg := ⟨0x43000060 + 0x40000 * i, 0⟩
def touchFrameCnt_COUNT (i : Nat) : RF := ⟨(touchFrameCnt i), 0, 32⟩

/-- TOUCH_n_LIMIT_CNT (R294). -/
def touchLimitCnt (i : Nat) : Reg := ⟨0x43000064 + 0x40000 * i, 0⟩
def touchLimitCnt_COUNT (i : Nat) : RF := ⟨(touchLimitCnt i), 0, 32⟩

/-- TOUCH_n_ST_DRV (R294). -/
def touchStDrv (i : Nat) : Reg := ⟨0x43000070 + 0x40000 * i, 0⟩
def touchStDrv_FAULT (i : Nat) : RF := ⟨(touchStDrv i), 0, 64⟩

/-- TOUCH_n_ST_SNS_k (R294). -/
def touchStSns (i : Nat) (j : Nat) : Reg := ⟨0x43000078 + 0x40000 * i + 0x8 * j, 0⟩
def touchStSns_FAULT (i : Nat) (j : Nat) : RF := ⟨(touchStSns i j), 0, 64⟩

/-- TOUCH_n_ST_LAST (R294). -/
def touchStLast (i : Nat) : Reg := ⟨0x43000088 + 0x40000 * i, 0⟩
def touchStLast_COUNT (i : Nat) : RF := ⟨(touchStLast i), 0, 8⟩
def touchStLast_CODE (i : Nat) : RF := ⟨(touchStLast i), 8, 4⟩
def touchStLast_INDEX (i : Nat) : RF := ⟨(touchStLast i), 12, 8⟩
def touchStLast_SENSE (i : Nat) : RF := ⟨(touchStLast i), 20, 1⟩

/-- TOUCH_n_SUSPECT (R294). -/
def touchSuspect (i : Nat) : Reg := ⟨0x4300008c + 0x40000 * i, 0⟩
def touchSuspect_COUNT (i : Nat) : RF := ⟨(touchSuspect i), 0, 13⟩

/-- TOUCH_n_RAW_i (R277). -/
def touchRaw (i : Nat) (j : Nat) : Reg := ⟨0x43010000 + 0x40000 * i + 0x2 * j, 0⟩
def touchRaw_RAW (i : Nat) (j : Nat) : RF := ⟨(touchRaw i j), 0, 16⟩

/-- TOUCH_n_BASE_i (R282). -/
def touchBase (i : Nat) (j : Nat) : Reg := ⟨0x43020000 + 0x40000 * i + 0x4 * j, 0⟩
def touchBase_BASE (i : Nat) (j : Nat) : RF := ⟨(touchBase i j), 0, 24⟩

/-- TOUCH_n_ZONE_z_MIN (R288). -/
def touchZoneMin (i : Nat) (j : Nat) : Reg := ⟨0x43030000 + 0x40000 * i + 0x10 * j, 0⟩
def touchZoneMin_X (i : Nat) (j : Nat) : RF := ⟨(touchZoneMin i j), 0, 16⟩
def touchZoneMin_Y (i : Nat) (j : Nat) : RF := ⟨(touchZoneMin i j), 16, 16⟩

/-- TOUCH_n_ZONE_z_MAX (R288). -/
def touchZoneMax (i : Nat) (j : Nat) : Reg := ⟨0x43030004 + 0x40000 * i + 0x10 * j, 0⟩
def touchZoneMax_X (i : Nat) (j : Nat) : RF := ⟨(touchZoneMax i j), 0, 16⟩
def touchZoneMax_Y (i : Nat) (j : Nat) : RF := ⟨(touchZoneMax i j), 16, 16⟩

/-- TOUCH_n_ZONE_z_FX (R288). -/
def touchZoneFx (i : Nat) (j : Nat) : Reg := ⟨0x43030008 + 0x40000 * i + 0x10 * j, 0⟩
def touchZoneFx_CH (i : Nat) (j : Nat) : RF := ⟨(touchZoneFx i j), 0, 3⟩
def touchZoneFx_EN (i : Nat) (j : Nat) : RF := ⟨(touchZoneFx i j), 3, 1⟩
def touchZoneFx_URG (i : Nat) (j : Nat) : RF := ⟨(touchZoneFx i j), 4, 1⟩
def touchZoneFx_FX (i : Nat) (j : Nat) : RF := ⟨(touchZoneFx i j), 8, 8⟩

/-- TOUCH_FACTORY (R284). -/
def touchFactory : Reg := ⟨0x43100000, 0⟩
def touchFactory_VALID : RF := ⟨touchFactory, 0, 16⟩

/-- HAP_n_CFG (R314). -/
def hapCfg (i : Nat) : Reg := ⟨0x43400000 + 0x100 * i, 0x6a404⟩
def hapCfg_TYPE (i : Nat) : RF := ⟨(hapCfg i), 0, 2⟩
def hapCfg_TRACK (i : Nat) : RF := ⟨(hapCfg i), 2, 1⟩
def hapCfg_F0 (i : Nat) : RF := ⟨(hapCfg i), 8, 13⟩

/-- HAP_n_LIMITS (R314). -/
def hapLimits (i : Nat) : Reg := ⟨0x43400004 + 0x100 * i, 0x1607d0⟩
def hapLimits_MAX_MV (i : Nat) : RF := ⟨(hapLimits i), 0, 14⟩
def hapLimits_BRAKE_MS (i : Nat) : RF := ⟨(hapLimits i), 14, 4⟩
def hapLimits_BRAKE_STOP (i : Nat) : RF := ⟨(hapLimits i), 18, 7⟩

/-- HAP_n_RES (R314). -/
def hapRes (i : Nat) : Reg := ⟨0x43400008 + 0x100 * i, 0x3e80014⟩
def hapRes_R_MIN (i : Nat) : RF := ⟨(hapRes i), 0, 16⟩
def hapRes_R_MAX (i : Nat) : RF := ⟨(hapRes i), 16, 16⟩

/-- HAP_n_STATUS (R314). -/
def hapStatus (i : Nat) : Reg := ⟨0x4340000c + 0x100 * i, 0⟩
def hapStatus_STATE (i : Nat) : RF := ⟨(hapStatus i), 0, 3⟩
def hapStatus_PENDING (i : Nat) : RF := ⟨(hapStatus i), 3, 1⟩
def hapStatus_URGENT (i : Nat) : RF := ⟨(hapStatus i), 4, 1⟩
def hapStatus_ILIM (i : Nat) : RF := ⟨(hapStatus i), 5, 1⟩
def hapStatus_EFFECT (i : Nat) : RF := ⟨(hapStatus i), 8, 6⟩
def hapStatus_PEND_FX (i : Nat) : RF := ⟨(hapStatus i), 16, 6⟩

/-- HAP_n_TRACK (R314). -/
def hapTrack (i : Nat) : Reg := ⟨0x43400010 + 0x100 * i, 0⟩
def hapTrack_F0_TRK (i : Nat) : RF := ⟨(hapTrack i), 0, 13⟩
def hapTrack_K (i : Nat) : RF := ⟨(hapTrack i), 16, 16⟩

/-- HAP_n_FAULT (R314). -/
def hapFault (i : Nat) : Reg := ⟨0x43400014 + 0x100 * i, 0⟩
def hapFault_CODE (i : Nat) : RF := ⟨(hapFault i), 0, 4⟩
def hapFault_R_MEAS (i : Nat) : RF := ⟨(hapFault i), 16, 16⟩

/-- HAP_n_PLAY_CNT (R314). -/
def hapPlayCnt (i : Nat) : Reg := ⟨0x43400018 + 0x100 * i, 0⟩
def hapPlayCnt_COUNT (i : Nat) : RF := ⟨(hapPlayCnt i), 0, 32⟩

/-- HAP_n_DROP_CNT (R314). -/
def hapDropCnt (i : Nat) : Reg := ⟨0x4340001c + 0x100 * i, 0⟩
def hapDropCnt_COUNT (i : Nat) : RF := ⟨(hapDropCnt i), 0, 32⟩

/-- HAP_STAGE (R312). -/
def hapStage : Reg := ⟨0x43400800, 0⟩
def hapStage_STAGE0 : RF := ⟨hapStage, 0, 2⟩
def hapStage_STAGE1 : RF := ⟨hapStage, 2, 2⟩

/-- HAP_n_FX_e (R301). -/
def hapFx (i : Nat) (j : Nat) (k : Nat) : Reg := ⟨0x43410000 + 0x1000 * i + 0x40 * j + 0x8 * k, 0⟩
def hapFx_BYTES (i : Nat) (j : Nat) (k : Nat) : RF := ⟨(hapFx i j k), 0, 64⟩

/-- HAP_n_WAVE_i (R302). -/
def hapWave (i : Nat) (j : Nat) : Reg := ⟨0x43420000 + 0x2000 * i + 0x2 * j, 0⟩
def hapWave_SAMPLE (i : Nat) (j : Nat) : RF := ⟨(hapWave i j), 0, 16⟩

/-- AUD_CTRL (R337). -/
def audCtrl : Reg := ⟨0x43500000, 0xf01e0⟩
def audCtrl_ZC_TIMEOUT : RF := ⟨audCtrl, 0, 12⟩
def audCtrl_DUCK_RAMP : RF := ⟨audCtrl, 12, 12⟩

/-- AUD_TDM (R337). -/
def audTdm : Reg := ⟨0x43500004, 0xc⟩
def audTdm_EN : RF := ⟨audTdm, 0, 1⟩
def audTdm_SLOTS : RF := ⟨audTdm, 1, 2⟩
def audTdm_FMT : RF := ⟨audTdm, 3, 1⟩

/-- AUD_NOW (R337). -/
def audNow : Reg := ⟨0x43500008, 0⟩
def audNow_SAMPLE : RF := ⟨audNow, 0, 64⟩

/-- AUD_ZC_TO_CNT (R337). -/
def audZcToCnt : Reg := ⟨0x43500010, 0⟩
def audZcToCnt_COUNT : RF := ⟨audZcToCnt, 0, 32⟩

/-- AUD_OWNER_r (R319). -/
def audOwner (i : Nat) : Reg := ⟨0x43500100 + 0x4 * i, 0x3f⟩
def audOwner_OWNER (i : Nat) : RF := ⟨(audOwner i), 0, 6⟩

/-- AUD_XP_s_b (R321). -/
def audXp (i : Nat) (j : Nat) : Reg := ⟨0x43501000 + 0x40 * i + 0x4 * j, 0⟩
def audXp_GAIN (i : Nat) (j : Nat) : RF := ⟨(audXp i j), 0, 8⟩

/-- AUD_BUS_b_CTRL (R322). -/
def audBusCtrl (i : Nat) : Reg := ⟨0x43502000 + 0x100 * i, 0xe70⟩
def audBusCtrl_BYPASS (i : Nat) : RF := ⟨(audBusCtrl i), 0, 1⟩
def audBusCtrl_RATE (i : Nat) : RF := ⟨(audBusCtrl i), 1, 3⟩
def audBusCtrl_GAIN (i : Nat) : RF := ⟨(audBusCtrl i), 4, 8⟩
def audBusCtrl_DUCK_PRIO (i : Nat) : RF := ⟨(audBusCtrl i), 12, 3⟩
def audBusCtrl_DUCK_DB (i : Nat) : RF := ⟨(audBusCtrl i), 15, 6⟩
def audBusCtrl_TONE_EXCL (i : Nat) : RF := ⟨(audBusCtrl i), 21, 1⟩
def audBusCtrl_LIM_EN (i : Nat) : RF := ⟨(audBusCtrl i), 22, 1⟩
def audBusCtrl_THRESH (i : Nat) : RF := ⟨(audBusCtrl i), 23, 7⟩

/-- AUD_BUS_b_DYN (R322). -/
def audBusDyn (i : Nat) : Reg := ⟨0x43502004 + 0x100 * i, 0x640000⟩
def audBusDyn_DELAY (i : Nat) : RF := ⟨(audBusDyn i), 0, 13⟩
def audBusDyn_RELEASE (i : Nat) : RF := ⟨(audBusDyn i), 16, 10⟩

/-- AUD_BUS_b_EQ_k_c (R323). -/
def audBusEq (i : Nat) (j : Nat) (k : Nat) : Reg := ⟨0x43502020 + 0x100 * i + 0x14 * j + 0x4 * k, if k = 0 then 0x10000000 else 0⟩
def audBusEq_COEF (i : Nat) (j : Nat) (k : Nat) : RF := ⟨(audBusEq i j k), 0, 32⟩

/-- AUD_BUS_b_STATUS (R322). -/
def audBusStatus (i : Nat) : Reg := ⟨0x43502090 + 0x100 * i, 0⟩
def audBusStatus_GR (i : Nat) : RF := ⟨(audBusStatus i), 0, 8⟩
def audBusStatus_DUCKED (i : Nat) : RF := ⟨(audBusStatus i), 8, 1⟩
def audBusStatus_PENDING (i : Nat) : RF := ⟨(audBusStatus i), 9, 1⟩

/-- AUD_SINK_k_CTRL (R328). -/
def audSinkCtrl (i : Nat) : Reg := ⟨0x43503000 + 0x10 * i, 0x1ce0⟩
def audSinkCtrl_EN (i : Nat) : RF := ⟨(audSinkCtrl i), 0, 1⟩
def audSinkCtrl_SINK_BUS (i : Nat) : RF := ⟨(audSinkCtrl i), 1, 4⟩
def audSinkCtrl_GAIN (i : Nat) : RF := ⟨(audSinkCtrl i), 5, 8⟩
def audSinkCtrl_FAULT (i : Nat) : RF := ⟨(audSinkCtrl i), 13, 3⟩

/-- AUD_STR_s_CTRL (R330). -/
def audStrCtrl (i : Nat) : Reg := ⟨0x43504000 + 0x40 * i, 0x30000000⟩
def audStrCtrl_EN (i : Nat) : RF := ⟨(audStrCtrl i), 0, 1⟩
def audStrCtrl_FMT (i : Nat) : RF := ⟨(audStrCtrl i), 1, 1⟩
def audStrCtrl_RATE (i : Nat) : RF := ⟨(audStrCtrl i), 2, 3⟩
def audStrCtrl_QUEUE (i : Nat) : RF := ⟨(audStrCtrl i), 5, 5⟩
def audStrCtrl_PERIOD (i : Nat) : RF := ⟨(audStrCtrl i), 10, 16⟩
def audStrCtrl_LOG2 (i : Nat) : RF := ⟨(audStrCtrl i), 26, 5⟩

/-- AUD_STR_s_BASE (R330). -/
def audStrBase (i : Nat) : Reg := ⟨0x43504008 + 0x40 * i, 0⟩
def audStrBase_ADDR (i : Nat) : RF := ⟨(audStrBase i), 6, 42⟩

/-- AUD_STR_s_START (R330). -/
def audStrStart (i : Nat) : Reg := ⟨0x43504010 + 0x40 * i, 0⟩
def audStrStart_START (i : Nat) : RF := ⟨(audStrStart i), 0, 64⟩

/-- AUD_STR_s_POS (R330). -/
def audStrPos (i : Nat) : Reg := ⟨0x43504018 + 0x40 * i, 0⟩
def audStrPos_WPOS (i : Nat) : RF := ⟨(audStrPos i), 0, 20⟩
def audStrPos_RPOS (i : Nat) : RF := ⟨(audStrPos i), 32, 20⟩

/-- AUD_TONE_t_CFG (R331). -/
def audToneCfg (i : Nat) : Reg := ⟨0x43505000 + 0x20 * i, 0x1ce0⟩
def audToneCfg_WAVE (i : Nat) : RF := ⟨(audToneCfg i), 0, 2⟩
def audToneCfg_PRIO (i : Nat) : RF := ⟨(audToneCfg i), 2, 3⟩
def audToneCfg_LEVEL (i : Nat) : RF := ⟨(audToneCfg i), 5, 8⟩
def audToneCfg_REPEATS (i : Nat) : RF := ⟨(audToneCfg i), 13, 8⟩
def audToneCfg_RUN (i : Nat) : RF := ⟨(audToneCfg i), 21, 1⟩

/-- AUD_TONE_t_FREQ (R331). -/
def audToneFreq (i : Nat) : Reg := ⟨0x43505004 + 0x20 * i, 0⟩
def audToneFreq_F1 (i : Nat) : RF := ⟨(audToneFreq i), 0, 16⟩
def audToneFreq_F2 (i : Nat) : RF := ⟨(audToneFreq i), 16, 16⟩

/-- AUD_TONE_t_TIME (R331). -/
def audToneTime (i : Nat) : Reg := ⟨0x43505008 + 0x20 * i, 0⟩
def audToneTime_T1 (i : Nat) : RF := ⟨(audToneTime i), 0, 16⟩
def audToneTime_T2 (i : Nat) : RF := ⟨(audToneTime i), 16, 16⟩

/-- AUD_TONE_t_OFF (R331). -/
def audToneOff (i : Nat) : Reg := ⟨0x4350500c + 0x20 * i, 0⟩
def audToneOff_TOFF (i : Nat) : RF := ⟨(audToneOff i), 0, 16⟩

/-- DRAMC_CFG (R390). -/
def dramcCfg : Reg := ⟨0x44000000, 0x478b⟩
def dramcCfg_GRAIN_LOG2 : RF := ⟨dramcCfg, 0, 5⟩
def dramcCfg_RT_CAP : RF := ⟨dramcCfg, 5, 7⟩
def dramcCfg_FCHG_EN : RF := ⟨dramcCfg, 12, 1⟩
def dramcCfg_SEALED_WAYS : RF := ⟨dramcCfg, 13, 4⟩

/-- DRAMC_STATUS (R390). -/
def dramcStatus : Reg := ⟨0x44000004, 3⟩
def dramcStatus_SETPOINT : RF := ⟨dramcStatus, 0, 2⟩
def dramcStatus_USABLE : RF := ⟨dramcStatus, 2, 4⟩
def dramcStatus_TRAINING : RF := ⟨dramcStatus, 6, 1⟩
def dramcStatus_FCHG_PENDING : RF := ⟨dramcStatus, 7, 1⟩
def dramcStatus_CH_LOST : RF := ⟨dramcStatus, 8, 8⟩
def dramcStatus_INIT_DONE : RF := ⟨dramcStatus, 16, 1⟩

/-- DRAMC_FCHG (R390). -/
def dramcFchg : Reg := ⟨0x44000008, 0⟩
def dramcFchg_LINE : RF := ⟨dramcFchg, 0, 14⟩
def dramcFchg_TARGET : RF := ⟨dramcFchg, 16, 2⟩
def dramcFchg_GO : RF := ⟨dramcFchg, 31, 1⟩

/-- DRAMC_REF_PLAN (R390). -/
def dramcRefPlan : Reg := ⟨0x44000010, 0xffffffff⟩
def dramcRefPlan_MASK : RF := ⟨dramcRefPlan, 0, 32⟩

/-- DRAMC_REF_CFG (R390). -/
def dramcRefCfg : Reg := ⟨0x44000014, 0x201⟩
def dramcRefCfg_PER_SLOT : RF := ⟨dramcRefCfg, 0, 3⟩
def dramcRefCfg_FORCE_AT : RF := ⟨dramcRefCfg, 3, 8⟩

/-- DRAMC_HOT_CFG (R390). -/
def dramcHotCfg : Reg := ⟨0x44000018, 0x528⟩
def dramcHotCfg_HOT_PCT : RF := ⟨dramcHotCfg, 0, 7⟩
def dramcHotCfg_HOT_S : RF := ⟨dramcHotCfg, 7, 8⟩

/-- DRAMC_SCRUB (R390). -/
def dramcScrub : Reg := ⟨0x4400001c, 0x18⟩
def dramcScrub_SCRUB_H : RF := ⟨dramcScrub, 0, 8⟩

/-- DRAMC_CH_c_STATUS (R390). -/
def dramcChStatus (i : Nat) : Reg := ⟨0x44001000 + 0x100 * i, 0⟩
def dramcChStatus_OWED (i : Nat) : RF := ⟨(dramcChStatus i), 0, 8⟩
def dramcChStatus_DERATE (i : Nat) : RF := ⟨(dramcChStatus i), 8, 1⟩
def dramcChStatus_HOT (i : Nat) : RF := ⟨(dramcChStatus i), 9, 1⟩
def dramcChStatus_LOST (i : Nat) : RF := ⟨(dramcChStatus i), 10, 1⟩
def dramcChStatus_TEMP (i : Nat) : RF := ⟨(dramcChStatus i), 16, 8⟩

/-- DRAMC_CH_c_RT (R390). -/
def dramcChRt (i : Nat) : Reg := ⟨0x44001004 + 0x100 * i, 0⟩
def dramcChRt_ADMITTED (i : Nat) : RF := ⟨(dramcChRt i), 0, 16⟩
def dramcChRt_CAP (i : Nat) : RF := ⟨(dramcChRt i), 16, 16⟩

/-- DRAMC_CH_c_CE_CNT (R390). -/
def dramcChCeCnt (i : Nat) : Reg := ⟨0x44001008 + 0x100 * i, 0⟩
def dramcChCeCnt_COUNT (i : Nat) : RF := ⟨(dramcChCeCnt i), 0, 32⟩

/-- DRAMC_CH_c_UE_CNT (R390). -/
def dramcChUeCnt (i : Nat) : Reg := ⟨0x4400100c + 0x100 * i, 0⟩
def dramcChUeCnt_COUNT (i : Nat) : RF := ⟨(dramcChUeCnt i), 0, 32⟩

/-- DRAMC_CH_c_ECC_LAST (R390). -/
def dramcChEccLast (i : Nat) : Reg := ⟨0x44001010 + 0x100 * i, 0⟩
def dramcChEccLast_LINE (i : Nat) : RF := ⟨(dramcChEccLast i), 0, 42⟩
def dramcChEccLast_UE (i : Nat) : RF := ⟨(dramcChEccLast i), 42, 1⟩
def dramcChEccLast_ADDR_FAULT (i : Nat) : RF := ⟨(dramcChEccLast i), 43, 1⟩
def dramcChEccLast_AGENT (i : Nat) : RF := ⟨(dramcChEccLast i), 48, 16⟩

/-- DRAMC_CH_c_ACC (R390). -/
def dramcChAcc (i : Nat) : Reg := ⟨0x44001018 + 0x100 * i, 0⟩
def dramcChAcc_COUNT (i : Nat) : RF := ⟨(dramcChAcc i), 0, 32⟩

/-- DRAMC_CH_c_LATE_CNT (R390). -/
def dramcChLateCnt (i : Nat) : Reg := ⟨0x4400101c + 0x100 * i, 0⟩
def dramcChLateCnt_COUNT (i : Nat) : RF := ⟨(dramcChLateCnt i), 0, 32⟩

/-- DRAMC_TRN_c_l_s (R378). -/
def dramcTrn (i : Nat) (j : Nat) (k : Nat) : Reg := ⟨0x44004000 + 0x80 * i + 0x40 * j + 0x10 * k, 0⟩
def dramcTrn_RD_LEFT (i : Nat) (j : Nat) (k : Nat) : RF := ⟨(dramcTrn i j k), 0, 8⟩
def dramcTrn_RD_RIGHT (i : Nat) (j : Nat) (k : Nat) : RF := ⟨(dramcTrn i j k), 8, 8⟩
def dramcTrn_RD_CENTRE (i : Nat) (j : Nat) (k : Nat) : RF := ⟨(dramcTrn i j k), 16, 8⟩
def dramcTrn_WR_LEFT (i : Nat) (j : Nat) (k : Nat) : RF := ⟨(dramcTrn i j k), 24, 8⟩
def dramcTrn_WR_RIGHT (i : Nat) (j : Nat) (k : Nat) : RF := ⟨(dramcTrn i j k), 32, 8⟩
def dramcTrn_WR_CENTRE (i : Nat) (j : Nat) (k : Nat) : RF := ⟨(dramcTrn i j k), 40, 8⟩
def dramcTrn_PASS (i : Nat) (j : Nat) (k : Nat) : RF := ⟨(dramcTrn i j k), 48, 1⟩

/-- WORLD_STATUS (R416). -/
def worldStatus : Reg := ⟨0x45000000, 0⟩
def worldStatus_REGIME : RF := ⟨worldStatus, 0, 1⟩
def worldStatus_SWITCHING : RF := ⟨worldStatus, 1, 1⟩

/-- WORLD_WMARK (R416). -/
def worldWmark : Reg := ⟨0x45000008, 0x100⟩
def worldWmark_W : RF := ⟨worldWmark, 0, 14⟩

/-- WORLD_CLAIM (R416). -/
def worldClaim : Reg := ⟨0x45000010, 0x1ffffffffffff⟩
def worldClaim_CLAIM : RF := ⟨worldClaim, 0, 49⟩

/-- WORLD_CPC_REQ (R416). -/
def worldCpcReq : Reg := ⟨0x45000020, 0⟩
def worldCpcReq_DOMAIN : RF := ⟨worldCpcReq, 0, 6⟩
def worldCpcReq_ACTION : RF := ⟨worldCpcReq, 6, 2⟩

/-- WORLD_CPC_STATUS (R416). -/
def worldCpcStatus : Reg := ⟨0x45000024, 0⟩
def worldCpcStatus_RESULT : RF := ⟨worldCpcStatus, 0, 3⟩
def worldCpcStatus_DOMAIN : RF := ⟨worldCpcStatus, 8, 6⟩
def worldCpcStatus_ACTION : RF := ⟨worldCpcStatus, 14, 2⟩
def worldCpcStatus_AGENT : RF := ⟨worldCpcStatus, 16, 16⟩

/-- WORLD_CPC_CLK (R416). -/
def worldCpcClk : Reg := ⟨0x45000028, 0x1ffffffffffff⟩
def worldCpcClk_ON : RF := ⟨worldCpcClk, 0, 49⟩

/-- WORLD_CPC_PWR (R416). -/
def worldCpcPwr : Reg := ⟨0x45000030, 0x1ffffffffffff⟩
def worldCpcPwr_ON : RF := ⟨worldCpcPwr, 0, 49⟩

/-- WORLD_CPC_UNLOGGED (R416). -/
def worldCpcUnlogged : Reg := ⟨0x45000038, 0⟩
def worldCpcUnlogged_COUNT : RF := ⟨worldCpcUnlogged, 0, 32⟩

/-- WORLD_VIOL_LAST (R416). -/
def worldViolLast : Reg := ⟨0x45000040, 0⟩
def worldViolLast_PAGE : RF := ⟨worldViolLast, 0, 32⟩
def worldViolLast_WRITE : RF := ⟨worldViolLast, 32, 1⟩
def worldViolLast_AGENT : RF := ⟨worldViolLast, 48, 16⟩

/-- WORLD_VIOL_CNT (R416). -/
def worldViolCnt : Reg := ⟨0x45000048, 0⟩
def worldViolCnt_COUNT : RF := ⟨worldViolCnt, 0, 32⟩

/-- WORLD_FN_f_RANGE (R398). -/
def worldFnRange (i : Nat) : Reg := ⟨0x45000100 + 0x4 * i, 0⟩
def worldFnRange_BASE (i : Nat) : RF := ⟨(worldFnRange i), 0, 14⟩
def worldFnRange_SIZE (i : Nat) : RF := ⟨(worldFnRange i), 16, 14⟩

/-- DEBUG_EN (R416). -/
def debugEn : Reg := ⟨0x45100000, 0⟩
def debugEn_OPEN_NI : RF := ⟨debugEn, 0, 1⟩
def debugEn_OPEN_INV : RF := ⟨debugEn, 1, 1⟩
def debugEn_SEALED_NI : RF := ⟨debugEn, 2, 1⟩
def debugEn_SEALED_INV : RF := ⟨debugEn, 3, 1⟩
def debugEn_EFFECTIVE : RF := ⟨debugEn, 8, 4⟩

/-- DEBUG_FUSE (R416). -/
def debugFuse : Reg := ⟨0x45100004, 0⟩
def debugFuse_SNI_CLOSED : RF := ⟨debugFuse, 0, 1⟩
def debugFuse_SI_CLOSED : RF := ⟨debugFuse, 1, 1⟩
def debugFuse_REVOKED_0 : RF := ⟨debugFuse, 2, 1⟩
def debugFuse_SVN : RF := ⟨debugFuse, 8, 7⟩

/-- DEBUG_SESS_s (R409). -/
def debugSess (i : Nat) : Reg := ⟨0x45100010 + 0x4 * i, 0⟩
def debugSess_AGENT (i : Nat) : RF := ⟨(debugSess i), 0, 16⟩
def debugSess_ACTIVE (i : Nat) : RF := ⟨(debugSess i), 16, 1⟩
def debugSess_INV (i : Nat) : RF := ⟨(debugSess i), 17, 1⟩

/-- CU_CTRL_n (R431). -/
def cuCtrl (i : Nat) : Reg := ⟨0x46000000 + 0x100 * i, 2⟩
def cuCtrl_GO (i : Nat) : RF := ⟨(cuCtrl i), 0, 1⟩
def cuCtrl_ALG (i : Nat) : RF := ⟨(cuCtrl i), 1, 2⟩
def cuCtrl_FOLD_EN (i : Nat) : RF := ⟨(cuCtrl i), 3, 1⟩
def cuCtrl_CONT (i : Nat) : RF := ⟨(cuCtrl i), 4, 1⟩
def cuCtrl_DIRECT (i : Nat) : RF := ⟨(cuCtrl i), 8, 1⟩

/-- CU_STATE_n (R431). -/
def cuState (i : Nat) : Reg := ⟨0x46000004 + 0x100 * i, 0⟩
def cuState_STATE (i : Nat) : RF := ⟨(cuState i), 0, 2⟩
def cuState_SOURCE (i : Nat) : RF := ⟨(cuState i), 8, 8⟩
def cuState_DETAIL (i : Nat) : RF := ⟨(cuState i), 16, 16⟩

/-- CU_DESC_n (R431). -/
def cuDesc (i : Nat) : Reg := ⟨0x46000008 + 0x100 * i, 0⟩
def cuDesc_ADDR (i : Nat) : RF := ⟨(cuDesc i), 4, 44⟩

/-- CU_COUNT_n (R431). -/
def cuCount (i : Nat) : Reg := ⟨0x46000010 + 0x100 * i, 1⟩
def cuCount_COUNT (i : Nat) : RF := ⟨(cuCount i), 0, 13⟩

/-- CU_FOLD_n (R431). -/
def cuFold (i : Nat) : Reg := ⟨0x46000018 + 0x100 * i, 0⟩
def cuFold_VALUE (i : Nat) : RF := ⟨(cuFold i), 0, 64⟩

/-- CU_RUN_n (R431). -/
def cuRun (i : Nat) : Reg := ⟨0x46000020 + 0x100 * i, 0⟩
def cuRun_VALUE (i : Nat) : RF := ⟨(cuRun i), 0, 64⟩

/-- CU_RESULT_n (R431). -/
def cuResult (i : Nat) : Reg := ⟨0x46000028 + 0x100 * i, 0⟩
def cuResult_VALUE (i : Nat) : RF := ⟨(cuResult i), 0, 64⟩

/-- CU_BYTES_n (R431). -/
def cuBytes (i : Nat) : Reg := ⟨0x46000030 + 0x100 * i, 0⟩
def cuBytes_COUNT (i : Nat) : RF := ⟨(cuBytes i), 0, 32⟩

/-- PEAT_CTRL (R449). -/
def peatCtrl : Reg := ⟨0x47000000, 0x3c00⟩
def peatCtrl_WRAP : RF := ⟨peatCtrl, 0, 1⟩
def peatCtrl_SUM_FRAMES : RF := ⟨peatCtrl, 8, 8⟩

/-- PEAT_STATUS (R449). -/
def peatStatus : Reg := ⟨0x47000004, 0⟩
def peatStatus_FULL : RF := ⟨peatStatus, 0, 1⟩
def peatStatus_RESERVE_OUT : RF := ⟨peatStatus, 1, 1⟩
def peatStatus_CHAIN_BAD : RF := ⟨peatStatus, 2, 1⟩

/-- PEAT_NEXT (R449). -/
def peatNext : Reg := ⟨0x47000008, 0⟩
def peatNext_VALUE : RF := ⟨peatNext, 0, 32⟩

/-- PEAT_OLDEST (R449). -/
def peatOldest : Reg := ⟨0x4700000c, 0⟩
def peatOldest_VALUE : RF := ⟨peatOldest, 0, 32⟩

/-- PEAT_LAST_CRC (R449). -/
def peatLastCrc : Reg := ⟨0x47000010, 0⟩
def peatLastCrc_VALUE : RF := ⟨peatLastCrc, 0, 32⟩

/-- PEAT_BOOT (R449). -/
def peatBoot : Reg := ⟨0x47000014, 0⟩
def peatBoot_VALUE : RF := ⟨peatBoot, 0, 32⟩

/-- PEAT_UNLOGGED (R449). -/
def peatUnlogged : Reg := ⟨0x47000018, 0⟩
def peatUnlogged_COUNT : RF := ⟨peatUnlogged, 0, 32⟩

/-- PEAT_REFUSED (R449). -/
def peatRefused : Reg := ⟨0x4700001c, 0⟩
def peatRefused_COUNT : RF := ⟨peatRefused, 0, 32⟩

/-- PEAT_SCOPE (R439). -/
def peatScope (i : Nat) : Reg := ⟨0x2001000000000 + 0x10000 * i, 0⟩
def peatScope_RING (i : Nat) : RF := ⟨(peatScope i), 0, 6⟩
def peatScope_ACTIVE (i : Nat) : RF := ⟨(peatScope i), 7, 1⟩

/-- PEAT_RD_IDX (R448). -/
def peatRdIdx : Reg := ⟨0x47000040, 0⟩
def peatRdIdx_INDEX : RF := ⟨peatRdIdx, 0, 32⟩

/-- PEAT_RD_REC (R448). -/
def peatRdRec (i : Nat) : Reg := ⟨0x47000080 + 0x8 * i, 0⟩
def peatRdRec_RECORD (i : Nat) : RF := ⟨(peatRdRec i), 0, 64⟩

/-- SUPV_CTRL (R471). -/
def supvCtrl : Reg := ⟨0x48000000, 0xc64⟩
def supvCtrl_WD_MS : RF := ⟨supvCtrl, 0, 10⟩
def supvCtrl_RESUME : RF := ⟨supvCtrl, 10, 4⟩

/-- SUPV_KICK (R471). -/
def supvKick : Reg := ⟨0x48000004, 0⟩
def supvKick_KEY : RF := ⟨supvKick, 0, 8⟩

/-- SUPV_STATUS (R471). -/
def supvStatus : Reg := ⟨0x48000008, 0⟩
def supvStatus_HEALTH_A : RF := ⟨supvStatus, 0, 1⟩
def supvStatus_STALL : RF := ⟨supvStatus, 1, 1⟩
def supvStatus_OSC_BAD : RF := ⟨supvStatus, 2, 1⟩
def supvStatus_ALARM : RF := ⟨supvStatus, 3, 1⟩
def supvStatus_LAST_ACTION : RF := ⟨supvStatus, 4, 3⟩
def supvStatus_WD_LEFT : RF := ⟨supvStatus, 8, 10⟩

/-- SUPV_WORD (R471). -/
def supvWord : Reg := ⟨0x4800000c, 0⟩
def supvWord_WORD : RF := ⟨supvWord, 0, 16⟩
def supvWord_CRC : RF := ⟨supvWord, 16, 16⟩

/-- SUPV_POL_i (R464). -/
def supvPol (i : Nat) : Reg := ⟨0x48000100 + 0x4 * i, supvPolCold i⟩
def supvPol_EVENT (i : Nat) : RF := ⟨(supvPol i), 0, 9⟩
def supvPol_EN (i : Nat) : RF := ⟨(supvPol i), 9, 1⟩
def supvPol_ACTION (i : Nat) : RF := ⟨(supvPol i), 10, 3⟩
def supvPol_COUNT (i : Nat) : RF := ⟨(supvPol i), 13, 5⟩
def supvPol_WINDOW (i : Nat) : RF := ⟨(supvPol i), 18, 8⟩

/-- SUPV_AVAIL_n (R469). -/
def supvAvail (i : Nat) : Reg := ⟨0x48000200 + 0x8 * i, 0⟩
def supvAvail_VER (i : Nat) : RF := ⟨(supvAvail i), 0, 32⟩
def supvAvail_UNVER (i : Nat) : RF := ⟨(supvAvail i), 32, 32⟩

end Sys2Proof.Machine
end

