-- ==== Sys2Proof/Machine/RegTable.lean ====
section
/-! DEFINITION. The register table: for every register of the register index (22_address_map.md) its block, its width and
the access type, range rule and Warm value of each of its fields (R4, R6), and the search that finds the register a bus
address names (R549). -/
namespace Sys2Proof.Machine

/-- Register access types (R4). Reserved fields are not listed; they read as the register's Cold value. -/
inductive Acc where
  | ro | rw | wo | w1c | w1s | rc
  deriving DecidableEq, Repr

/-- What a write outside a field's range stores, as the Meaning column of the field states. -/
inductive Lim where
  | any
  /-- the nearer limit -/
  | clamp (lo hi : Nat)
  /-- a value above `max` stores `repl` -/
  | over (max repl : Nat)
  /-- a value above `max` other than `keep` or 63 stores `repl` -/
  | overBut (max keep repl : Nat)
  /-- 1, 2 and 4 are stored; any other value stores 4 (YMX_PORT_p_CFG.LANES) -/
  | lanes
  deriving DecidableEq, Repr

/-- The Warm column (R6). -/
inductive Warm where
  | hold
  | runs
  | val (v : Nat)
  /-- as the block's own reset rule states -/
  | rule
  deriving DecidableEq, Repr

/-- The register blocks (R549), the functions' BAR 0 and the banked views. -/
inductive Block where
  | sys | wall | evt | hp | pkt | mbq | head | ymx | layer | integ | gfx | touch | hap | aud | dramc | world | debug
  | cu | peat | supv | fn | bank
  deriving DecidableEq, Repr

/-- One field of a register with its access type, range rule and Warm value. -/
structure FieldInfo where
  f : RF
  acc : Acc
  warm : Warm
  lim : Lim := .any
  deriving DecidableEq, Repr

/-- One register, as a bus access finds it. -/
structure RegInfo where
  block : Block
  reg : Reg
  width : Nat
  fields : List FieldInfo
  deriving DecidableEq, Repr

/-- One row of the register index: the first address, stride and count of each index, the distance to the active copy
(0 when the register is not shadowed) and the register at given indexes. -/
structure RegRow where
  base : Nat
  dims : List (Nat × Nat)
  act : Nat
  info : Nat → Nat → Nat → RegInfo

/-- The indexes that lead from the first address of a row to an offset, if any do. -/
def rowIndex : List (Nat × Nat) → Nat → Option (List Nat)
  | [], off => if off = 0 then some [] else none
  | (stride, count) :: rest, off =>
    let i := off / stride
    if i < count then (rowIndex rest (off % stride)).map (i :: ·) else none

/-- The register of one row that a bus address names. -/
def RegRow.find (r : RegRow) (addr : Nat) : Option RegInfo :=
  if addr < r.base then none
  else match rowIndex r.dims (addr - r.base) with
    | some ix => some (r.info (ix.getD 0 0) (ix.getD 1 0) (ix.getD 2 0))
    | none => none

/-- The registers of this block, in the order of the register index. -/
def sysRows : List RegRow := [
  ⟨0x40000000, [], 0x0, fun _ _ _ => ⟨.sys, sysId, 32, [⟨sysId_VARIANT, .ro, .hold, .any⟩,
    ⟨sysId_DIE_REV, .ro, .hold, .any⟩,
    ⟨sysId_MODULE_REV, .ro, .hold, .any⟩]⟩⟩,
  ⟨0x40000008, [], 0x0, fun _ _ _ => ⟨.sys, sysMode, 32, [⟨sysMode_MODE, .ro, .hold, .any⟩,
    ⟨sysMode_FORCED, .ro, .hold, .any⟩,
    ⟨sysMode_PREV, .ro, .hold, .any⟩]⟩⟩,
  ⟨0x4000000c, [], 0x0, fun _ _ _ => ⟨.sys, sysResetCause, 32, [⟨sysResetCause_CODE, .ro, .rule, .any⟩,
    ⟨sysResetCause_WAKE, .ro, .hold, .any⟩,
    ⟨sysResetCause_SLOT, .ro, .hold, .any⟩,
    ⟨sysResetCause_MERGED, .ro, .rule, .any⟩]⟩⟩,
  ⟨0x40000010, [], 0x0, fun _ _ _ => ⟨.sys, sysResetCmd, 32, [⟨sysResetCmd_KEY, .wo, (.val 0), .any⟩,
    ⟨sysResetCmd_KIND, .wo, (.val 0), .any⟩]⟩⟩,
  ⟨0x40000014, [], 0x0, fun _ _ _ => ⟨.sys, sysCcWdog, 32, [⟨sysCcWdog_TIMEOUT_MS, .rw, .hold, .clamp 10 1000⟩,
    ⟨sysCcWdog_EN, .w1s, .hold, .any⟩]⟩⟩,
  ⟨0x40000018, [], 0x0, fun _ _ _ => ⟨.sys, sysCcKick, 32, [⟨sysCcKick_KEY, .wo, (.val 0), .any⟩]⟩⟩,
  ⟨0x40000020, [], 0x0, fun _ _ _ => ⟨.sys, sysSwrst, 64, [⟨sysSwrst_ENGINE, .rw, (.val 0), .any⟩,
    ⟨sysSwrst_CLUSTER, .rw, (.val 0), .any⟩,
    ⟨sysSwrst_TOUCH, .rw, (.val 0), .any⟩,
    ⟨sysSwrst_HAP, .rw, (.val 0), .any⟩,
    ⟨sysSwrst_STAGE, .rw, (.val 0), .any⟩,
    ⟨sysSwrst_AUDIO, .rw, (.val 0), .any⟩,
    ⟨sysSwrst_TDM, .rw, (.val 0), .any⟩,
    ⟨sysSwrst_HOST, .rw, (.val 0), .any⟩,
    ⟨sysSwrst_CU, .rw, (.val 0), .any⟩]⟩⟩,
  ⟨0x40000028, [], 0x0, fun _ _ _ => ⟨.sys, sysSwrstPend, 64, [⟨sysSwrstPend_ENGINE, .ro, (.val 0), .any⟩,
    ⟨sysSwrstPend_CLUSTER, .ro, (.val 0), .any⟩,
    ⟨sysSwrstPend_TOUCH, .ro, (.val 0), .any⟩,
    ⟨sysSwrstPend_HAP, .ro, (.val 0), .any⟩,
    ⟨sysSwrstPend_STAGE, .ro, (.val 0), .any⟩,
    ⟨sysSwrstPend_AUDIO, .ro, (.val 0), .any⟩,
    ⟨sysSwrstPend_TDM, .ro, (.val 0), .any⟩,
    ⟨sysSwrstPend_HOST, .ro, (.val 0), .any⟩,
    ⟨sysSwrstPend_CU, .ro, (.val 0), .any⟩]⟩⟩,
  ⟨0x40000030, [], 0x0, fun _ _ _ => ⟨.sys, sysPower, 32, [⟨sysPower_VMAIN, .ro, .runs, .any⟩,
    ⟨sysPower_VMAIN_OK, .ro, .runs, .any⟩,
    ⟨sysPower_VSTBY_OK, .ro, .runs, .any⟩,
    ⟨sysPower_LOW, .ro, .runs, .any⟩]⟩⟩,
  ⟨0x40000034, [], 0x0, fun _ _ _ => ⟨.sys, sysTherm, 32, [⟨sysTherm_DIE, .ro, .runs, .any⟩,
    ⟨sysTherm_PLATE, .ro, .runs, .any⟩,
    ⟨sysTherm_WARN_C, .rw, .hold, .clamp 70 120⟩,
    ⟨sysTherm_WARN, .ro, .runs, .any⟩]⟩⟩,
  ⟨0x40000038, [], 0x0, fun _ _ _ => ⟨.sys, sysWakeCfg, 32, [⟨sysWakeCfg_ON_VMAIN, .rw, .hold, .any⟩,
    ⟨sysWakeCfg_ON_WAKE_N, .rw, .hold, .any⟩,
    ⟨sysWakeCfg_ON_PERST, .rw, .hold, .any⟩]⟩⟩,
  ⟨0x40000040, [], 0x0, fun _ _ _ => ⟨.sys, sysGpio, 32, [⟨sysGpio_CLAIM, .rw, .hold, .any⟩,
    ⟨sysGpio_DIR, .rw, .hold, .any⟩,
    ⟨sysGpio_OUT, .rw, .hold, .any⟩,
    ⟨sysGpio_IN, .ro, .runs, .any⟩]⟩⟩,
  ⟨0x40000048, [], 0x0, fun _ _ _ => ⟨.sys, sysStrap, 32, [⟨sysStrap_REC, .ro, .hold, .any⟩,
    ⟨sysStrap_TAPSEL, .ro, .hold, .any⟩]⟩⟩]

/-- The registers of this block, in the order of the register index. -/
def wallRows : List RegRow := [
  ⟨0x40100000, [], 0x0, fun _ _ _ => ⟨.wall, wallCtrl, 32, [⟨wallCtrl_APPLY, .wo, (.val 0), .any⟩,
    ⟨wallCtrl_RELOCK_MODE, .rw, .hold, .any⟩]⟩⟩,
  ⟨0x40100004, [], 0x0, fun _ _ _ => ⟨.wall, wallSyncCfg, 32, [⟨wallSyncCfg_TYPE, .rw, .hold, .any⟩,
    ⟨wallSyncCfg_EDGE, .rw, .hold, .any⟩,
    ⟨wallSyncCfg_REF_MULT, .rw, .hold, .any⟩,
    ⟨wallSyncCfg_LOSS_COUNT, .rw, .hold, .clamp 1 255⟩,
    ⟨wallSyncCfg_SYNC_OFFSET, .rw, .hold, .any⟩]⟩⟩,
  ⟨0x40100008, [], 0x0, fun _ _ _ => ⟨.wall, wallMrRateNum, 32, [⟨wallMrRateNum_RATE_NUM, .rw, .hold, .any⟩]⟩⟩,
  ⟨0x4010000c, [], 0x0, fun _ _ _ => ⟨.wall, wallMrRateDen, 32, [⟨wallMrRateDen_RATE_DEN, .rw, .hold, .any⟩]⟩⟩,
  ⟨0x40100010, [], 0x0, fun _ _ _ => ⟨.wall, wallMrLines, 32, [⟨wallMrLines_MR_LINES, .rw, .hold, .any⟩]⟩⟩,
  ⟨0x40100014, [], 0x0, fun _ _ _ => ⟨.wall, wallAudRatio, 32, [⟨wallAudRatio_AUD_NUM, .rw, .hold, .any⟩,
    ⟨wallAudRatio_AUD_DEN, .rw, .hold, .any⟩]⟩⟩,
  ⟨0x40100018, [], 0x0, fun _ _ _ => ⟨.wall, wallLockCfg, 32, [⟨wallLockCfg_SLEW_PPM, .rw, .hold, .clamp 10 200⟩,
    ⟨wallLockCfg_HOLD_LIMIT, .rw, .hold, .clamp 1 255⟩]⟩⟩,
  ⟨0x40100020, [], 0x0, fun _ _ _ => ⟨.wall, wallStatus, 32, [⟨wallStatus_STATE, .ro, .runs, .any⟩,
    ⟨wallStatus_HOLDOVER, .ro, .runs, .any⟩,
    ⟨wallStatus_PENDING, .ro, .runs, .any⟩,
    ⟨wallStatus_RANGE, .ro, .runs, .any⟩,
    ⟨wallStatus_MISMATCH, .ro, .runs, .any⟩,
    ⟨wallStatus_RASTER_GEN, .ro, .runs, .any⟩]⟩⟩,
  ⟨0x40100024, [], 0x0, fun _ _ _ => ⟨.wall, wallPhase, 32, [⟨wallPhase_PHASE_ERR, .ro, .runs, .any⟩,
    ⟨wallPhase_FREQ_OFF, .ro, .runs, .any⟩]⟩⟩,
  ⟨0x40100028, [], 0x0, fun _ _ _ => ⟨.wall, wallHoldTime, 32, [⟨wallHoldTime_HOLD_SEC, .ro, .runs, .any⟩]⟩⟩,
  ⟨0x40100040, [], 0x0, fun _ _ _ => ⟨.wall, wallNow, 64, [⟨wallNow_WALLTIME, .ro, .runs, .any⟩]⟩⟩]

/-- The registers of this block, in the order of the register index. -/
def evtRows : List RegRow := [
  ⟨0x40200000, [(0x4, 16)], 0x0, fun i _ _ => ⟨.evt, (evtPend i), 32, [⟨(evtPend_PEND i), .w1c, .hold, .any⟩]⟩⟩,
  ⟨0x40200040, [(0x4, 16)], 0x0, fun i _ _ => ⟨.evt, (evtSeal i), 32, [⟨(evtSeal_ROUTE i), .rw, .hold, .any⟩]⟩⟩,
  ⟨0x40200080, [(0x4, 16)], 0x0, fun i _ _ => ⟨.evt, (evtOpen i), 32, [⟨(evtOpen_ROUTE i), .rw, .hold, .any⟩]⟩⟩,
  ⟨0x402000c0, [], 0x0, fun _ _ _ => ⟨.evt, evtLost, 32, [⟨evtLost_COUNT, .rc, .hold, .any⟩]⟩⟩,
  ⟨0x40200100, [(0x40, 2)], 0x0, fun i _ _ => ⟨.evt, (evtIrBase i), 64, [⟨(evtIrBase_ADDR i), .rw, (.val 0), .any⟩]⟩⟩,
  ⟨0x40200108, [(0x40, 2)], 0x0, fun i _ _ => ⟨.evt, (evtIrSize i), 32, [⟨(evtIrSize_LOG2 i), .rw, (.val 12), .clamp 12 20⟩,
    ⟨(evtIrSize_EN i), .rw, (.val 0), .any⟩]⟩⟩,
  ⟨0x4020010c, [(0x40, 2)], 0x0, fun i _ _ => ⟨.evt, (evtIrTail i), 32, [⟨(evtIrTail_TAIL i), .ro, (.val 0), .any⟩]⟩⟩,
  ⟨0x40200110, [(0x40, 2)], 0x0, fun i _ _ => ⟨.evt, (evtIrHead i), 32, [⟨(evtIrHead_HEAD i), .rw, (.val 0), .any⟩]⟩⟩,
  ⟨0x40201000, [(0x4, 512)], 0x0, fun i _ _ => ⟨.evt, (evtSrc i), 32, [⟨(evtSrc_OCC i), .rc, .hold, .any⟩,
    ⟨(evtSrc_COLL i), .rc, .hold, .any⟩]⟩⟩,
  ⟨0x40202000, [(0x80, 32), (0x4, 16)], 0x0, fun i j _ => ⟨.evt, (evtFnMask i j), 32, [⟨(evtFnMask_ROUTE i j), .rw, .hold, .any⟩]⟩⟩,
  ⟨0x40202040, [(0x80, 32), (0x4, 4)], 0x0, fun i j _ => ⟨.evt, (evtFnVec i j), 32, [⟨(evtFnVec_VEC_0 i j), .rw, .hold, .clamp 4 255⟩,
    ⟨(evtFnVec_VEC_1 i j), .rw, .hold, .clamp 4 255⟩,
    ⟨(evtFnVec_VEC_2 i j), .rw, .hold, .clamp 4 255⟩,
    ⟨(evtFnVec_VEC_3 i j), .rw, .hold, .clamp 4 255⟩]⟩⟩,
  ⟨0x40202050, [(0x80, 32)], 0x0, fun i _ _ => ⟨.evt, (evtFnRing i), 64, [⟨(evtFnRing_ADDR i), .rw, .hold, .any⟩]⟩⟩,
  ⟨0x40202058, [(0x80, 32)], 0x0, fun i _ _ => ⟨.evt, (evtFnRcfg i), 32, [⟨(evtFnRcfg_EN i), .rw, (.val 0), .any⟩,
    ⟨(evtFnRcfg_LOG2 i), .rw, .hold, .clamp 6 16⟩]⟩⟩,
  ⟨0x40202060, [(0x80, 32)], 0x0, fun i _ _ => ⟨.evt, (evtFnDeliv i), 64, [⟨(evtFnDeliv_COUNT i), .ro, .hold, .any⟩]⟩⟩]

/-- The registers of this block, in the order of the register index. -/
def hpRows : List RegRow := [
  ⟨0x40300000, [(0x100000, 2)], 0x0, fun i _ _ => ⟨.hp, (hpLink i), 32, [⟨(hpLink_SPEED i), .ro, .runs, .any⟩,
    ⟨(hpLink_WIDTH i), .ro, .runs, .any⟩,
    ⟨(hpLink_DL_UP i), .ro, .runs, .any⟩,
    ⟨(hpLink_LOST i), .ro, .hold, .any⟩]⟩⟩,
  ⟨0x40300004, [(0x100000, 2)], 0x0, fun i _ _ => ⟨.hp, (hpCfg i), 32, [⟨(hpCfg_HOME_LOSS_MS i), .rw, .hold, .clamp 10 1000⟩,
    ⟨(hpCfg_HEARTBEAT_MS i), .rw, .hold, .clamp 10 1000⟩,
    ⟨(hpCfg_HB_EN i), .rw, .hold, .any⟩,
    ⟨(hpCfg_DRAIN_US i), .rw, .hold, .clamp 100 1500⟩]⟩⟩,
  ⟨0x40300008, [(0x100000, 2)], 0x0, fun i _ _ => ⟨.hp, (hpSpoofCnt i), 32, [⟨(hpSpoofCnt_COUNT i), .rc, .hold, .any⟩]⟩⟩,
  ⟨0x4030000c, [(0x100000, 2)], 0x0, fun i _ _ => ⟨.hp, (hpDiscardCnt i), 32, [⟨(hpDiscardCnt_COUNT i), .rc, .hold, .any⟩]⟩⟩,
  ⟨0x40300100, [(0x100000, 2), (0x4, 16)], 0x0, fun i j _ => ⟨.hp, (hpHome i j), 32, [⟨(hpHome_ALT i j), .ro, .hold, .any⟩,
    ⟨(hpHome_DUAL i j), .ro, .hold, .any⟩,
    ⟨(hpHome_MOVED i j), .ro, .hold, .any⟩]⟩⟩]

/-- The registers of this block, in the order of the register index. -/
def pktRows : List RegRow := [
  ⟨0x40500000, [], 0x0, fun _ _ _ => ⟨.pkt, pktCtrl, 32, [⟨pktCtrl_MARGIN, .rw, .hold, .clamp 16 1024⟩,
    ⟨pktCtrl_OPEN_LIMIT, .rw, .hold, .clamp 1 255⟩]⟩⟩,
  ⟨0x40500004, [], 0x0, fun _ _ _ => ⟨.pkt, pktStatus, 32, [⟨pktStatus_OPEN, .ro, (.val 0), .any⟩,
    ⟨pktStatus_COMMITTED, .ro, .runs, .any⟩]⟩⟩,
  ⟨0x40500008, [], 0x0, fun _ _ _ => ⟨.pkt, pktLandedCnt, 32, [⟨pktLandedCnt_COUNT, .rc, .hold, .any⟩]⟩⟩,
  ⟨0x4050000c, [], 0x0, fun _ _ _ => ⟨.pkt, pktRefusedCnt, 32, [⟨pktRefusedCnt_COUNT, .rc, .hold, .any⟩]⟩⟩,
  ⟨0x40500010, [], 0x0, fun _ _ _ => ⟨.pkt, pktSlideCnt, 32, [⟨pktSlideCnt_COUNT, .rc, .hold, .any⟩]⟩⟩,
  ⟨0x40500014, [], 0x0, fun _ _ _ => ⟨.pkt, pktFramingCnt, 32, [⟨pktFramingCnt_COUNT, .rc, .hold, .any⟩]⟩⟩,
  ⟨0x40500100, [(0x4, 34)], 0x0, fun i _ _ => ⟨.pkt, (pktSeq i), 32, [⟨(pktSeq_EXPECT i), .ro, (.val 0), .any⟩]⟩⟩,
  ⟨0x40500200, [], 0x0, fun _ _ _ => ⟨.pkt, pktSeqSet, 64, [⟨pktSeqSet_SET, .ro, (.val 0), .any⟩]⟩⟩,
  ⟨0x40500300, [(0x40, 2)], 0x0, fun i _ _ => ⟨.pkt, (pktIrCmdBase i), 64, [⟨(pktIrCmdBase_ADDR i), .rw, (.val 0), .any⟩]⟩⟩,
  ⟨0x40500308, [(0x40, 2)], 0x0, fun i _ _ => ⟨.pkt, (pktIrCmdSize i), 32, [⟨(pktIrCmdSize_LOG2 i), .rw, (.val 12), .clamp 12 20⟩,
    ⟨(pktIrCmdSize_EN i), .rw, (.val 0), .any⟩]⟩⟩,
  ⟨0x4050030c, [(0x40, 2)], 0x0, fun i _ _ => ⟨.pkt, (pktIrCmdHead i), 32, [⟨(pktIrCmdHead_HEAD i), .ro, (.val 0), .any⟩]⟩⟩,
  ⟨0x40500310, [(0x40, 2)], 0x0, fun i _ _ => ⟨.pkt, (pktIrDoorbell i), 32, [⟨(pktIrDoorbell_TAIL i), .wo, (.val 0), .any⟩]⟩⟩,
  ⟨0x40500318, [(0x40, 2)], 0x0, fun i _ _ => ⟨.pkt, (pktIrRplBase i), 64, [⟨(pktIrRplBase_ADDR i), .rw, (.val 0), .any⟩]⟩⟩,
  ⟨0x40500320, [(0x40, 2)], 0x0, fun i _ _ => ⟨.pkt, (pktIrRplSize i), 32, [⟨(pktIrRplSize_LOG2 i), .rw, (.val 12), .clamp 12 20⟩,
    ⟨(pktIrRplSize_EN i), .rw, (.val 0), .any⟩]⟩⟩,
  ⟨0x40500324, [(0x40, 2)], 0x0, fun i _ _ => ⟨.pkt, (pktIrRplTail i), 32, [⟨(pktIrRplTail_TAIL i), .ro, (.val 0), .any⟩]⟩⟩,
  ⟨0x40500328, [(0x40, 2)], 0x0, fun i _ _ => ⟨.pkt, (pktIrRplHead i), 32, [⟨(pktIrRplHead_HEAD i), .rw, (.val 0), .any⟩]⟩⟩]

/-- The registers of this block, in the order of the register index. -/
def fnRows : List RegRow := [
  ⟨0x1000000000000, [(0x10000, 32)], 0x0, fun i _ _ => ⟨.fn, (fnId i), 32, [⟨(fnId_FUNC i), .ro, .hold, .any⟩,
    ⟨(fnId_PORT i), .ro, .hold, .any⟩,
    ⟨(fnId_PF i), .ro, .hold, .any⟩]⟩⟩,
  ⟨0x1000000000004, [(0x10000, 32)], 0x0, fun i _ _ => ⟨.fn, (fnStatus i), 32, [⟨(fnStatus_GEN i), .ro, .rule, .any⟩,
    ⟨(fnStatus_TENANT i), .ro, .hold, .any⟩,
    ⟨(fnStatus_CLASS i), .ro, .hold, .any⟩,
    ⟨(fnStatus_RST i), .ro, (.val 1), .any⟩,
    ⟨(fnStatus_ACTING i), .ro, .hold, .any⟩,
    ⟨(fnStatus_PORT_LOST i), .ro, .hold, .any⟩]⟩⟩,
  ⟨0x1000000000008, [(0x10000, 32)], 0x0, fun i _ _ => ⟨.fn, (fnHeartbeat i), 32, [⟨(fnHeartbeat_BEAT i), .wo, (.val 0), .any⟩]⟩⟩,
  ⟨0x1000000000100, [(0x10000, 32)], 0x0, fun i _ _ => ⟨.fn, (fnCmdBase i), 64, [⟨(fnCmdBase_ADDR i), .rw, (.val 0), .any⟩]⟩⟩,
  ⟨0x1000000000108, [(0x10000, 32)], 0x0, fun i _ _ => ⟨.fn, (fnCmdSize i), 32, [⟨(fnCmdSize_LOG2 i), .rw, (.val 12), .clamp 12 20⟩,
    ⟨(fnCmdSize_EN i), .rw, (.val 0), .any⟩]⟩⟩,
  ⟨0x100000000010c, [(0x10000, 32)], 0x0, fun i _ _ => ⟨.fn, (fnCmdHead i), 32, [⟨(fnCmdHead_HEAD i), .ro, (.val 0), .any⟩]⟩⟩,
  ⟨0x1000000000180, [(0x10000, 32)], 0x0, fun i _ _ => ⟨.fn, (fnRplBase i), 64, [⟨(fnRplBase_ADDR i), .rw, (.val 0), .any⟩]⟩⟩,
  ⟨0x1000000000188, [(0x10000, 32)], 0x0, fun i _ _ => ⟨.fn, (fnRplSize i), 32, [⟨(fnRplSize_LOG2 i), .rw, (.val 12), .clamp 12 20⟩,
    ⟨(fnRplSize_EN i), .rw, (.val 0), .any⟩]⟩⟩,
  ⟨0x100000000018c, [(0x10000, 32)], 0x0, fun i _ _ => ⟨.fn, (fnRplTail i), 32, [⟨(fnRplTail_TAIL i), .ro, (.val 0), .any⟩]⟩⟩,
  ⟨0x1000000000190, [(0x10000, 32)], 0x0, fun i _ _ => ⟨.fn, (fnRplHead i), 32, [⟨(fnRplHead_HEAD i), .rw, (.val 0), .any⟩]⟩⟩,
  ⟨0x1000000000200, [(0x10000, 32)], 0x0, fun i _ _ => ⟨.fn, (fnMirrorAddr i), 64, [⟨(fnMirrorAddr_EN i), .rw, (.val 0), .any⟩,
    ⟨(fnMirrorAddr_ADDR i), .rw, (.val 0), .any⟩]⟩⟩,
  ⟨0x1000000000210, [(0x10000, 32)], 0x0, fun i _ _ => ⟨.fn, (fnBar2Off i), 32, [⟨(fnBar2Off_OFF i), .rw, (.val 0), .any⟩]⟩⟩,
  ⟨0x1000000001000, [(0x10000, 32)], 0x0, fun i _ _ => ⟨.fn, (fnDoorbell i), 32, [⟨(fnDoorbell_TAIL i), .wo, (.val 0), .any⟩]⟩⟩,
  ⟨0x1000000002000, [(0x10000, 32), (0x10, 32)], 0x0, fun i j _ => ⟨.fn, (fnMsixAddr i j), 64, [⟨(fnMsixAddr_ADDR i j), .rw, .hold, .any⟩]⟩⟩,
  ⟨0x1000000002008, [(0x10000, 32), (0x10, 32)], 0x0, fun i j _ => ⟨.fn, (fnMsixData i j), 32, [⟨(fnMsixData_DATA i j), .rw, .hold, .any⟩]⟩⟩,
  ⟨0x100000000200c, [(0x10000, 32), (0x10, 32)], 0x0, fun i j _ => ⟨.fn, (fnMsixCtrl i j), 32, [⟨(fnMsixCtrl_MASK i j), .rw, .hold, .any⟩]⟩⟩,
  ⟨0x1000000003000, [(0x10000, 32)], 0x0, fun i _ _ => ⟨.fn, (fnPba i), 64, [⟨(fnPba_PEND i), .ro, .hold, .any⟩]⟩⟩]

/-- The registers of this block, in the order of the register index. -/
def mbqRows : List RegRow := [
  ⟨0x40600000, [(0x100, 64)], 0x0, fun i _ _ => ⟨.mbq, (mbqMbCfg i), 32, [⟨(mbqMbCfg_RX i), .rw, .hold, .overBut 31 62 63⟩]⟩⟩,
  ⟨0x40600008, [(0x100, 64)], 0x0, fun i _ _ => ⟨.mbq, (mbqMbAllow i), 64, [⟨(mbqMbAllow_FUNC i), .rw, .hold, .any⟩,
    ⟨(mbqMbAllow_SEALED i), .rw, .hold, .any⟩,
    ⟨(mbqMbAllow_OPEN i), .rw, .hold, .any⟩]⟩⟩,
  ⟨0x40600080, [(0x100, 64)], 0x0, fun i _ _ => ⟨.mbq, (mbqMbFlag i), 32, [⟨(mbqMbFlag_COUNT i), .ro, (.val 0), .any⟩,
    ⟨(mbqMbFlag_FULL i), .ro, (.val 0), .any⟩,
    ⟨(mbqMbFlag_EPOCH i), .ro, .rule, .any⟩]⟩⟩,
  ⟨0x40600084, [(0x100, 64)], 0x0, fun i _ _ => ⟨.mbq, (mbqMbPop i), 32, [⟨(mbqMbPop_POP i), .wo, (.val 0), .any⟩]⟩⟩,
  ⟨0x40600088, [(0x100, 64)], 0x0, fun i _ _ => ⟨.mbq, (mbqMbPeer i), 64, [⟨(mbqMbPeer_EPOCH i), .ro, .rule, .any⟩,
    ⟨(mbqMbPeer_LAST_FLUSH i), .ro, .runs, .any⟩,
    ⟨(mbqMbPeer_FLUSH_TOTAL i), .ro, .runs, .any⟩]⟩⟩,
  ⟨0x40610000, [(0x100, 32)], 0x0, fun i _ _ => ⟨.mbq, (mbqQCfg i), 32, [⟨(mbqQCfg_OWNER i), .rw, .hold, .any⟩,
    ⟨(mbqQCfg_HOST i), .rw, (.val 0), .any⟩,
    ⟨(mbqQCfg_LOG2 i), .rw, .hold, .clamp 6 16⟩,
    ⟨(mbqQCfg_CUT i), .rw, .hold, .clamp 1 16⟩]⟩⟩,
  ⟨0x40610008, [(0x100, 32)], 0x0, fun i _ _ => ⟨.mbq, (mbqQHost i), 64, [⟨(mbqQHost_ADDR i), .rw, .hold, .any⟩]⟩⟩,
  ⟨0x40610010, [(0x100, 32)], 0x0, fun i _ _ => ⟨.mbq, (mbqQStatus i), 32, [⟨(mbqQStatus_FILL i), .ro, .runs, .any⟩,
    ⟨(mbqQStatus_OPEN i), .ro, .runs, .any⟩,
    ⟨(mbqQStatus_BREAK i), .ro, .runs, .any⟩]⟩⟩,
  ⟨0x40610014, [(0x100, 32)], 0x0, fun i _ _ => ⟨.mbq, (mbqQLost i), 32, [⟨(mbqQLost_COUNT i), .rc, .hold, .any⟩]⟩⟩,
  ⟨0x40610018, [(0x100, 32)], 0x0, fun i _ _ => ⟨.mbq, (mbqQDeliv i), 64, [⟨(mbqQDeliv_COUNT i), .ro, .hold, .any⟩]⟩⟩,
  ⟨0x40610020, [(0x100, 32)], 0x0, fun i _ _ => ⟨.mbq, (mbqQRead i), 64, [⟨(mbqQRead_ITEM i), .rc, .runs, .any⟩]⟩⟩,
  ⟨0x40610028, [(0x100, 32)], 0x0, fun i _ _ => ⟨.mbq, (mbqQWrite i), 64, [⟨(mbqQWrite_ITEM i), .wo, (.val 0), .any⟩]⟩⟩,
  ⟨0x40620000, [(0x8, 64)], 0x0, fun i _ _ => ⟨.mbq, (mbqLock i), 32, [⟨(mbqLock_LOCK i), .rc, .rule, .any⟩]⟩⟩,
  ⟨0x40620004, [(0x8, 64)], 0x0, fun i _ _ => ⟨.mbq, (mbqLockPeek i), 32, [⟨(mbqLockPeek_HOLDER i), .ro, .rule, .any⟩,
    ⟨(mbqLockPeek_GEN i), .ro, .rule, .any⟩,
    ⟨(mbqLockPeek_HELD i), .ro, .rule, .any⟩,
    ⟨(mbqLockPeek_OWNER i), .rw, .hold, .any⟩]⟩⟩]

/-- The registers of this block, in the order of the register index. -/
def bankRows : List RegRow := [
  ⟨0x2000000008000, [(0x10000, 264), (0x8, 6)], 0x0, fun i j _ => ⟨.bank, (mbqTxData i j), 64, [⟨(mbqTxData_DATA i j), .rw, (.val 0), .any⟩]⟩⟩,
  ⟨0x2000000008044, [(0x10000, 264)], 0x0, fun i _ _ => ⟨.bank, (mbqTxStatus i), 32, [⟨(mbqTxStatus_RESULT i), .ro, (.val 0), .any⟩,
    ⟨(mbqTxStatus_MB i), .ro, (.val 0), .any⟩]⟩⟩,
  ⟨0x2001000000000, [(0x10000, 8)], 0x0, fun i _ _ => ⟨.bank, (peatScope i), 32, [⟨(peatScope_RING i), .rw, (.val 0), .any⟩,
    ⟨(peatScope_ACTIVE i), .rw, (.val 0), .any⟩]⟩⟩]

/-- The registers of this block, in the order of the register index. -/
def headRows : List RegRow := [
  ⟨0x41000000, [(0x10000, 8)], 0x0, fun i _ _ => ⟨.head, (headCtrl i), 32, [⟨(headCtrl_EN i), .rw, .hold, .any⟩,
    ⟨(headCtrl_K2 i), .rw, .hold, .any⟩]⟩⟩,
  ⟨0x41000010, [(0x10000, 8)], 0x0, fun i _ _ => ⟨.head, (headHtime i), 32, [⟨(headHtime_HACTIVE i), .rw, .hold, .any⟩,
    ⟨(headHtime_HTOTAL i), .rw, .hold, .any⟩]⟩⟩,
  ⟨0x41000014, [(0x10000, 8)], 0x0, fun i _ _ => ⟨.head, (headHsync i), 32, [⟨(headHsync_HFP i), .rw, .hold, .any⟩,
    ⟨(headHsync_HSW i), .rw, .hold, .any⟩,
    ⟨(headHsync_HPOL i), .rw, .hold, .any⟩]⟩⟩,
  ⟨0x41000018, [(0x10000, 8)], 0x0, fun i _ _ => ⟨.head, (headVtime i), 32, [⟨(headVtime_VACTIVE i), .rw, .hold, .any⟩,
    ⟨(headVtime_HL i), .rw, .hold, .any⟩]⟩⟩,
  ⟨0x4100001c, [(0x10000, 8)], 0x0, fun i _ _ => ⟨.head, (headVsync i), 32, [⟨(headVsync_VFP i), .rw, .hold, .any⟩,
    ⟨(headVsync_VSW i), .rw, .hold, .any⟩,
    ⟨(headVsync_VPOL i), .rw, .hold, .any⟩]⟩⟩,
  ⟨0x41000020, [(0x10000, 8)], 0x0, fun i _ _ => ⟨.head, (headOffset i), 32, [⟨(headOffset_O i), .rw, .hold, .any⟩]⟩⟩,
  ⟨0x41000024, [(0x10000, 8)], 0x0, fun i _ _ => ⟨.head, (headLatch i), 32, [⟨(headLatch_LATCH_LINE i), .rw, .hold, .any⟩]⟩⟩,
  ⟨0x41000030, [(0x10000, 8)], 0x8000, fun i _ _ => ⟨.head, (headShow i), 32, [⟨(headShow_SHOW i), .rw, .hold, .over 2 2⟩]⟩⟩,
  ⟨0x41000040, [(0x10000, 8)], 0x0, fun i _ _ => ⟨.head, (headStatus i), 32, [⟨(headStatus_ENGINE i), .ro, .hold, .any⟩,
    ⟨(headStatus_ARMED i), .ro, .hold, .any⟩,
    ⟨(headStatus_ASH i), .ro, (.val 1), .any⟩,
    ⟨(headStatus_RUNNING i), .ro, .hold, .any⟩,
    ⟨(headStatus_TE_LOST i), .ro, .hold, .any⟩]⟩⟩,
  ⟨0x41000044, [(0x10000, 8)], 0x0, fun i _ _ => ⟨.head, (headPos i), 32, [⟨(headPos_LINE i), .ro, .runs, .any⟩,
    ⟨(headPos_KF i), .ro, .runs, .any⟩]⟩⟩,
  ⟨0x41000048, [(0x10000, 8)], 0x0, fun i _ _ => ⟨.head, (headPclk i), 32, [⟨(headPclk_PCLK_KHZ i), .ro, .hold, .any⟩]⟩⟩,
  ⟨0x4100004c, [(0x10000, 8)], 0x0, fun i _ _ => ⟨.head, (headLatchCnt i), 32, [⟨(headLatchCnt_COUNT i), .rc, .hold, .any⟩]⟩⟩,
  ⟨0x41000100, [(0x10000, 8)], 0x8000, fun i _ _ => ⟨.head, (headOctrl i), 32, [⟨(headOctrl_OM_EN i), .rw, .hold, .any⟩,
    ⟨(headOctrl_GAMMA_EN i), .rw, .hold, .any⟩]⟩⟩,
  ⟨0x41000104, [(0x10000, 8), (0x4, 5)], 0x8000, fun i j _ => ⟨.head, (headOcm i j), 32, [⟨(headOcm_C_LO i j), .rw, .hold, .any⟩,
    ⟨(headOcm_C_HI i j), .rw, .hold, .any⟩]⟩⟩,
  ⟨0x41000118, [(0x10000, 8), (0x4, 3)], 0x8000, fun i j _ => ⟨.head, (headOcmOff i j), 32, [⟨(headOcmOff_PRE i j), .rw, .hold, .any⟩,
    ⟨(headOcmOff_POST i j), .rw, .hold, .any⟩]⟩⟩,
  ⟨0x41000130, [(0x10000, 8)], 0x8000, fun i _ _ => ⟨.head, (headBg i), 32, [⟨(headBg_B i), .rw, .hold, .any⟩,
    ⟨(headBg_G i), .rw, .hold, .any⟩,
    ⟨(headBg_RED i), .rw, .hold, .any⟩]⟩⟩,
  ⟨0x41001000, [(0x10000, 8), (0x4, 1024)], 0x8000, fun i j _ => ⟨.head, (headGamma i j), 32, [⟨(headGamma_B i j), .rw, .hold, .any⟩,
    ⟨(headGamma_G i j), .rw, .hold, .any⟩,
    ⟨(headGamma_RED i j), .rw, .hold, .any⟩]⟩⟩,
  ⟨0x410f0000, [], 0x0, fun _ _ _ => ⟨.head, headWallArm, 32, [⟨headWallArm_ARM, .w1s, .hold, .any⟩]⟩⟩]

/-- The registers of this block, in the order of the register index. -/
def ymxRows : List RegRow := [
  ⟨0x41200000, [], 0x0, fun _ _ _ => ⟨.ymx, ymxRoute, 32, [⟨ymxRoute_PORT_0, .ro, .hold, .any⟩,
    ⟨ymxRoute_PORT_1, .ro, .hold, .any⟩,
    ⟨ymxRoute_PORT_2, .ro, .hold, .any⟩,
    ⟨ymxRoute_PORT_3, .ro, .hold, .any⟩,
    ⟨ymxRoute_PORT_4, .ro, .hold, .any⟩,
    ⟨ymxRoute_PORT_5, .ro, .hold, .any⟩,
    ⟨ymxRoute_PORT_6, .ro, .hold, .any⟩,
    ⟨ymxRoute_PORT_7, .ro, .hold, .any⟩]⟩⟩,
  ⟨0x41200004, [], 0x0, fun _ _ _ => ⟨.ymx, ymxSpare, 32, [⟨ymxSpare_NOMINATE, .rw, .hold, .any⟩,
    ⟨ymxSpare_AUTO, .rw, .hold, .any⟩,
    ⟨ymxSpare_STATE, .ro, .hold, .any⟩,
    ⟨ymxSpare_SERVING, .ro, .hold, .any⟩]⟩⟩,
  ⟨0x41200100, [(0x40, 8)], 0x0, fun i _ _ => ⟨.ymx, (ymxPortCfg i), 32, [⟨(ymxPortCfg_EN i), .rw, .hold, .any⟩,
    ⟨(ymxPortCfg_TYPE i), .rw, .hold, .any⟩,
    ⟨(ymxPortCfg_RATE i), .rw, .hold, .any⟩,
    ⟨(ymxPortCfg_LANES i), .rw, .hold, .lanes⟩,
    ⟨(ymxPortCfg_BPC i), .rw, .hold, .over 2 2⟩,
    ⟨(ymxPortCfg_DITHER i), .rw, .hold, .any⟩,
    ⟨(ymxPortCfg_AUTO_RETRAIN i), .rw, .hold, .any⟩]⟩⟩,
  ⟨0x41200104, [(0x40, 8)], 0x0, fun i _ _ => ⟨.ymx, (ymxPortStatus i), 32, [⟨(ymxPortStatus_HPD i), .ro, .runs, .any⟩,
    ⟨(ymxPortStatus_TRAINED i), .ro, .runs, .any⟩,
    ⟨(ymxPortStatus_RATE i), .ro, .runs, .any⟩,
    ⟨(ymxPortStatus_LANES i), .ro, .runs, .any⟩,
    ⟨(ymxPortStatus_CR_DONE i), .ro, .runs, .any⟩,
    ⟨(ymxPortStatus_EQ_DONE i), .ro, .runs, .any⟩,
    ⟨(ymxPortStatus_SYM_LOCK i), .ro, .runs, .any⟩,
    ⟨(ymxPortStatus_ATTEMPTS i), .ro, .runs, .any⟩,
    ⟨(ymxPortStatus_SINK_COUNT i), .ro, .runs, .any⟩]⟩⟩,
  ⟨0x41200108, [(0x40, 8)], 0x0, fun i _ _ => ⟨.ymx, (ymxPortDsi i), 32, [⟨(ymxPortDsi_CMD i), .rw, .hold, .any⟩,
    ⟨(ymxPortDsi_TE_EN i), .rw, .hold, .any⟩,
    ⟨(ymxPortDsi_TE_EDGE i), .rw, .hold, .any⟩,
    ⟨(ymxPortDsi_ERR_POLL i), .rw, .hold, .any⟩,
    ⟨(ymxPortDsi_TE_FAIL_LIMIT i), .rw, .hold, .clamp 1 255⟩,
    ⟨(ymxPortDsi_TE_WAIT i), .rw, .hold, .any⟩]⟩⟩,
  ⟨0x4120010c, [(0x40, 8)], 0x0, fun i _ _ => ⟨.ymx, (ymxPortDsirate i), 32, [⟨(ymxPortDsirate_LANE_MBPS i), .rw, .hold, .clamp 80 2500⟩]⟩⟩,
  ⟨0x41200110, [(0x40, 8)], 0x0, fun i _ _ => ⟨.ymx, (ymxPortTecnt i), 32, [⟨(ymxPortTecnt_COUNT i), .rc, .hold, .any⟩]⟩⟩]

/-- The registers of this block, in the order of the register index. -/
def layerRows : List RegRow := [
  ⟨0x41400000, [(0x1000, 48)], 0x800, fun i _ _ => ⟨.layer, (layerCtrl i), 32, [⟨(layerCtrl_EN i), .rw, .hold, .any⟩,
    ⟨(layerCtrl_FORMAT i), .rw, .hold, .any⟩,
    ⟨(layerCtrl_TILED i), .rw, .hold, .any⟩,
    ⟨(layerCtrl_HFLIP i), .rw, .hold, .any⟩,
    ⟨(layerCtrl_VFLIP i), .rw, .hold, .any⟩,
    ⟨(layerCtrl_FILTER i), .rw, .hold, .over 2 2⟩,
    ⟨(layerCtrl_GANG i), .rw, .hold, .over 2 0⟩,
    ⟨(layerCtrl_Z i), .rw, .hold, .any⟩,
    ⟨(layerCtrl_PREMULT i), .rw, .hold, .any⟩,
    ⟨(layerCtrl_TIE i), .rw, .hold, .any⟩]⟩⟩,
  ⟨0x41400004, [(0x1000, 48)], 0x800, fun i _ _ => ⟨.layer, (layerBind i), 32, [⟨(layerBind_HEAD i), .rw, .hold, .over 7 15⟩]⟩⟩,
  ⟨0x41400008, [(0x1000, 48)], 0x800, fun i _ _ => ⟨.layer, (layerStride i), 32, [⟨(layerStride_STRIDE i), .rw, .hold, .any⟩]⟩⟩,
  ⟨0x41400010, [(0x1000, 48), (0x8, 2)], 0x800, fun i j _ => ⟨.layer, (layerAddr i j), 64, [⟨(layerAddr_ADDR i j), .rw, .hold, .any⟩]⟩⟩,
  ⟨0x41400020, [(0x1000, 48), (0x4, 4)], 0x800, fun i j _ => ⟨.layer, (layerRect i j), 32, [⟨(layerRect_X_W i j), .rw, .hold, .any⟩,
    ⟨(layerRect_Y_H i j), .rw, .hold, .any⟩]⟩⟩,
  ⟨0x41400030, [(0x1000, 48)], 0x800, fun i _ _ => ⟨.layer, (layerBlend i), 32, [⟨(layerBlend_PALPHA i), .rw, .hold, .any⟩]⟩⟩,
  ⟨0x41400040, [(0x1000, 48)], 0x800, fun i _ _ => ⟨.layer, (layerCsel i), 32, [⟨(layerCsel_CSEL i), .rw, .hold, .over 4 0⟩]⟩⟩,
  ⟨0x41400044, [(0x1000, 48), (0x4, 5)], 0x800, fun i j _ => ⟨.layer, (layerCm i j), 32, [⟨(layerCm_C_LO i j), .rw, .hold, .any⟩,
    ⟨(layerCm_C_HI i j), .rw, .hold, .any⟩]⟩⟩,
  ⟨0x41400058, [(0x1000, 48), (0x4, 3)], 0x800, fun i j _ => ⟨.layer, (layerCmOff i j), 32, [⟨(layerCmOff_PRE i j), .rw, .hold, .any⟩,
    ⟨(layerCmOff_POST i j), .rw, .hold, .any⟩]⟩⟩,
  ⟨0x41400100, [(0x1000, 48)], 0x800, fun i _ _ => ⟨.layer, (layerGuard i), 32, [⟨(layerGuard_CLASS i), .rw, .hold, .any⟩]⟩⟩,
  ⟨0x41400108, [(0x1000, 48)], 0x800, fun i _ _ => ⟨.layer, (layerCtime i), 64, [⟨(layerCtime_WALLTIME i), .rw, .hold, .any⟩]⟩⟩,
  ⟨0x41400110, [(0x1000, 48)], 0x800, fun i _ _ => ⟨.layer, (layerBudget i), 32, [⟨(layerBudget_BUDGET i), .rw, .hold, .clamp 1 0xFFFFFF⟩]⟩⟩,
  ⟨0x41400200, [(0x1000, 48)], 0x0, fun i _ _ => ⟨.layer, (layerStatus i), 32, [⟨(layerStatus_ACTIVE i), .ro, .runs, .any⟩,
    ⟨(layerStatus_OFF_UR i), .ro, .runs, .any⟩,
    ⟨(layerStatus_OFF_TIE i), .ro, .runs, .any⟩,
    ⟨(layerStatus_CFG_FAULT i), .ro, .hold, .any⟩,
    ⟨(layerStatus_ROLE i), .ro, .hold, .any⟩]⟩⟩,
  ⟨0x41400204, [(0x1000, 48)], 0x0, fun i _ _ => ⟨.layer, (layerUrCnt i), 32, [⟨(layerUrCnt_COUNT i), .rc, .hold, .any⟩]⟩⟩,
  ⟨0x41400208, [(0x1000, 48)], 0x0, fun i _ _ => ⟨.layer, (layerUrPos i), 32, [⟨(layerUrPos_LINE i), .ro, .hold, .any⟩,
    ⟨(layerUrPos_PIXEL i), .ro, .hold, .any⟩]⟩⟩,
  ⟨0x41430000, [(0x4, 256)], 0x0, fun i _ _ => ⟨.layer, (layerCoefH i), 32, [⟨(layerCoefH_C_LO i), .ro, .hold, .any⟩,
    ⟨(layerCoefH_C_HI i), .ro, .hold, .any⟩]⟩⟩,
  ⟨0x41430400, [(0x4, 128)], 0x0, fun i _ _ => ⟨.layer, (layerCoefV i), 32, [⟨(layerCoefV_C_LO i), .ro, .hold, .any⟩,
    ⟨(layerCoefV_C_HI i), .ro, .hold, .any⟩]⟩⟩,
  ⟨0x41431000, [(0x100, 4)], 0x80, fun i _ _ => ⟨.layer, (layerWbCtrl i), 32, [⟨(layerWbCtrl_MODE i), .rw, .hold, .any⟩,
    ⟨(layerWbCtrl_FORMAT i), .rw, .hold, .any⟩,
    ⟨(layerWbCtrl_HEAD i), .rw, .hold, .any⟩,
    ⟨(layerWbCtrl_N i), .rw, .hold, .clamp 1 255⟩]⟩⟩,
  ⟨0x41431008, [(0x100, 4)], 0x80, fun i _ _ => ⟨.layer, (layerWbAddr i), 64, [⟨(layerWbAddr_ADDR i), .rw, .hold, .any⟩]⟩⟩,
  ⟨0x41431010, [(0x100, 4)], 0x80, fun i _ _ => ⟨.layer, (layerWbStride i), 32, [⟨(layerWbStride_STRIDE i), .rw, .hold, .any⟩]⟩⟩,
  ⟨0x41431018, [(0x100, 4)], 0x0, fun i _ _ => ⟨.layer, (layerWbStatus i), 32, [⟨(layerWbStatus_BUSY i), .ro, .runs, .any⟩,
    ⟨(layerWbStatus_INCOMPLETE i), .ro, .hold, .any⟩]⟩⟩,
  ⟨0x41431020, [(0x100, 4)], 0x0, fun i _ _ => ⟨.layer, (layerWbStamp i), 64, [⟨(layerWbStamp_WALLTIME i), .ro, .hold, .any⟩]⟩⟩,
  ⟨0x41431028, [(0x100, 4)], 0x0, fun i _ _ => ⟨.layer, (layerWbCnt i), 32, [⟨(layerWbCnt_COUNT i), .rc, .hold, .any⟩]⟩⟩]

/-- The registers of this block, in the order of the register index. -/
def integRows : List RegRow := [
  ⟨0x41800000, [(0x10000, 8)], 0x8000, fun i _ _ => ⟨.integ, (integCfg i), 32, [⟨(integCfg_SUPERVISED i), .rw, .hold, .any⟩,
    ⟨(integCfg_AUTO_RESUME i), .rw, .hold, .any⟩,
    ⟨(integCfg_SINK_EN i), .rw, .hold, .any⟩,
    ⟨(integCfg_SINK_EVERY i), .rw, .hold, .clamp 1 255⟩]⟩⟩,
  ⟨0x41800004, [(0x10000, 8)], 0x8000, fun i _ _ => ⟨.integ, (integHatch i), 32, [⟨(integHatch_B i), .rw, .hold, .any⟩,
    ⟨(integHatch_G i), .rw, .hold, .any⟩,
    ⟨(integHatch_RED i), .rw, .hold, .any⟩]⟩⟩,
  ⟨0x41800008, [(0x10000, 8)], 0x8000, fun i _ _ => ⟨.integ, (integHatchA i), 32, [⟨(integHatchA_ALPHA i), .rw, .hold, .any⟩]⟩⟩,
  ⟨0x41800100, [(0x10000, 8), (0x20, 16)], 0x8000, fun i j _ => ⟨.integ, (integRectPos i j), 32, [⟨(integRectPos_X_W i j), .rw, .hold, .any⟩,
    ⟨(integRectPos_Y_H i j), .rw, .hold, .any⟩]⟩⟩,
  ⟨0x41800104, [(0x10000, 8), (0x20, 16)], 0x8000, fun i j _ => ⟨.integ, (integRectSize i j), 32, [⟨(integRectSize_X_W i j), .rw, .hold, .any⟩,
    ⟨(integRectSize_Y_H i j), .rw, .hold, .any⟩]⟩⟩,
  ⟨0x41800108, [(0x10000, 8), (0x20, 16)], 0x8000, fun i j _ => ⟨.integ, (integRectCtrl i j), 32, [⟨(integRectCtrl_EN i j), .rw, .hold, .any⟩,
    ⟨(integRectCtrl_BANKED i j), .rw, .hold, .any⟩,
    ⟨(integRectCtrl_ESCALATE i j), .rw, .hold, .any⟩]⟩⟩,
  ⟨0x4180010c, [(0x10000, 8), (0x20, 16)], 0x8000, fun i j _ => ⟨.integ, (integRectExp i j), 32, [⟨(integRectExp_EXPECT i j), .rw, .hold, .any⟩]⟩⟩,
  ⟨0x41800110, [(0x10000, 8), (0x20, 16)], 0x8000, fun i j _ => ⟨.integ, (integRectExpB i j), 32, [⟨(integRectExpB_EXPECT i j), .rw, .hold, .any⟩]⟩⟩,
  ⟨0x41800400, [(0x10000, 8), (0x20, 2)], 0x8000, fun i j _ => ⟨.integ, (integEmbCtrl i j), 32, [⟨(integEmbCtrl_EN i j), .rw, .hold, .any⟩,
    ⟨(integEmbCtrl_SCALE i j), .rw, .hold, .clamp 1 3⟩]⟩⟩,
  ⟨0x41800404, [(0x10000, 8), (0x20, 2)], 0x8000, fun i j _ => ⟨.integ, (integEmbBase i j), 32, [⟨(integEmbBase_OFFSET i j), .rw, .hold, .any⟩,
    ⟨(integEmbBase_STRIDE i j), .rw, .hold, .any⟩]⟩⟩,
  ⟨0x41800408, [(0x10000, 8), (0x20, 2)], 0x8000, fun i j _ => ⟨.integ, (integEmbPos i j), 32, [⟨(integEmbPos_X_W i j), .rw, .hold, .any⟩,
    ⟨(integEmbPos_Y_H i j), .rw, .hold, .any⟩]⟩⟩,
  ⟨0x4180040c, [(0x10000, 8), (0x20, 2)], 0x8000, fun i j _ => ⟨.integ, (integEmbSize i j), 32, [⟨(integEmbSize_X_W i j), .rw, .hold, .any⟩,
    ⟨(integEmbSize_Y_H i j), .rw, .hold, .any⟩]⟩⟩,
  ⟨0x41800410, [(0x10000, 8), (0x20, 2)], 0x8000, fun i j _ => ⟨.integ, (integEmbExp i j), 32, [⟨(integEmbExp_EXPECT i j), .rw, .hold, .any⟩]⟩⟩,
  ⟨0x41801000, [(0x10000, 8), (0x400, 2), (0x4, 256)], 0x8000, fun i j k => ⟨.integ, (integEmbPal i j k), 32, [⟨(integEmbPal_B i j k), .rw, .hold, .any⟩,
    ⟨(integEmbPal_G i j k), .rw, .hold, .any⟩,
    ⟨(integEmbPal_RED i j k), .rw, .hold, .any⟩,
    ⟨(integEmbPal_A i j k), .rw, .hold, .any⟩]⟩⟩,
  ⟨0x41804000, [(0x10000, 8)], 0x0, fun i _ _ => ⟨.integ, (integVstate i), 32, [⟨(integVstate_VERIFIED i), .ro, (.val 0), .any⟩,
    ⟨(integVstate_PATH i), .ro, .runs, .any⟩,
    ⟨(integVstate_STALE i), .ro, .runs, .any⟩,
    ⟨(integVstate_HOLD i), .ro, (.val 0), .any⟩,
    ⟨(integVstate_TRANSIT i), .ro, .runs, .any⟩,
    ⟨(integVstate_RB_FAIL i), .ro, .runs, .any⟩,
    ⟨(integVstate_C0_RUN0 i), .ro, (.val 0), .any⟩,
    ⟨(integVstate_C0_RUN1 i), .ro, (.val 0), .any⟩,
    ⟨(integVstate_REASON i), .ro, .hold, .any⟩]⟩⟩,
  ⟨0x41804004, [(0x10000, 8)], 0x0, fun i _ _ => ⟨.integ, (integResPin i), 32, [⟨(integResPin_RES_0 i), .ro, .runs, .any⟩,
    ⟨(integResPin_RES_1 i), .ro, .runs, .any⟩,
    ⟨(integResPin_RES_2 i), .ro, .runs, .any⟩,
    ⟨(integResPin_RES_3 i), .ro, .runs, .any⟩,
    ⟨(integResPin_RES_4 i), .ro, .runs, .any⟩,
    ⟨(integResPin_RES_5 i), .ro, .runs, .any⟩,
    ⟨(integResPin_RES_6 i), .ro, .runs, .any⟩,
    ⟨(integResPin_RES_7 i), .ro, .runs, .any⟩,
    ⟨(integResPin_RES_8 i), .ro, .runs, .any⟩,
    ⟨(integResPin_RES_9 i), .ro, .runs, .any⟩,
    ⟨(integResPin_RES_10 i), .ro, .runs, .any⟩,
    ⟨(integResPin_RES_11 i), .ro, .runs, .any⟩,
    ⟨(integResPin_RES_12 i), .ro, .runs, .any⟩,
    ⟨(integResPin_RES_13 i), .ro, .runs, .any⟩,
    ⟨(integResPin_RES_14 i), .ro, .runs, .any⟩,
    ⟨(integResPin_RES_15 i), .ro, .runs, .any⟩]⟩⟩,
  ⟨0x41804008, [(0x10000, 8)], 0x0, fun i _ _ => ⟨.integ, (integResTap i), 32, [⟨(integResTap_RES_0 i), .ro, .runs, .any⟩,
    ⟨(integResTap_RES_1 i), .ro, .runs, .any⟩,
    ⟨(integResTap_RES_2 i), .ro, .runs, .any⟩,
    ⟨(integResTap_RES_3 i), .ro, .runs, .any⟩,
    ⟨(integResTap_RES_4 i), .ro, .runs, .any⟩,
    ⟨(integResTap_RES_5 i), .ro, .runs, .any⟩,
    ⟨(integResTap_RES_6 i), .ro, .runs, .any⟩,
    ⟨(integResTap_RES_7 i), .ro, .runs, .any⟩,
    ⟨(integResTap_RES_8 i), .ro, .runs, .any⟩,
    ⟨(integResTap_RES_9 i), .ro, .runs, .any⟩,
    ⟨(integResTap_RES_10 i), .ro, .runs, .any⟩,
    ⟨(integResTap_RES_11 i), .ro, .runs, .any⟩,
    ⟨(integResTap_RES_12 i), .ro, .runs, .any⟩,
    ⟨(integResTap_RES_13 i), .ro, .runs, .any⟩,
    ⟨(integResTap_RES_14 i), .ro, .runs, .any⟩,
    ⟨(integResTap_RES_15 i), .ro, .runs, .any⟩]⟩⟩,
  ⟨0x41804100, [(0x10000, 8), (0x8, 16)], 0x0, fun i j _ => ⟨.integ, (integRectGot i j), 64, [⟨(integRectGot_PIN i j), .ro, .runs, .any⟩,
    ⟨(integRectGot_TAP i j), .ro, .runs, .any⟩]⟩⟩,
  ⟨0x41804200, [(0x10000, 8), (0x4, 2)], 0x0, fun i j _ => ⟨.integ, (integEmbGot i j), 32, [⟨(integEmbGot_CRC i j), .ro, .runs, .any⟩]⟩⟩,
  ⟨0x41804210, [(0x10000, 8)], 0x0, fun i _ _ => ⟨.integ, (integFrameCrc i), 32, [⟨(integFrameCrc_CRC i), .ro, .runs, .any⟩]⟩⟩,
  ⟨0x41804218, [(0x10000, 8)], 0x0, fun i _ _ => ⟨.integ, (integSinkCrc i), 64, [⟨(integSinkCrc_RED_CR i), .ro, .hold, .any⟩,
    ⟨(integSinkCrc_G_Y i), .ro, .hold, .any⟩,
    ⟨(integSinkCrc_B_CB i), .ro, .hold, .any⟩]⟩⟩,
  ⟨0x41804220, [(0x10000, 8)], 0x0, fun i _ _ => ⟨.integ, (integVcnt i), 32, [⟨(integVcnt_COUNT i), .rc, .hold, .any⟩]⟩⟩,
  ⟨0x41804224, [(0x10000, 8)], 0x0, fun i _ _ => ⟨.integ, (integUcnt i), 32, [⟨(integUcnt_COUNT i), .rc, .hold, .any⟩]⟩⟩,
  ⟨0x418e0000, [(0x8, 48)], 0x0, fun i _ _ => ⟨.integ, (integAge i), 32, [⟨(integAge_AGE i), .ro, .hold, .any⟩,
    ⟨(integAge_STALE i), .ro, .hold, .any⟩,
    ⟨(integAge_CAUSE i), .ro, .hold, .any⟩]⟩⟩,
  ⟨0x418f0000, [], 0x0, fun _ _ _ => ⟨.integ, integRbCfg, 32, [⟨integRbCfg_SELFTEST_S, .rw, .hold, .clamp 1 3600⟩]⟩⟩,
  ⟨0x418f0004, [], 0x0, fun _ _ _ => ⟨.integ, integRbStatus, 32, [⟨integRbStatus_FAIL, .ro, .hold, .any⟩,
    ⟨integRbStatus_TESTING, .ro, .runs, .any⟩]⟩⟩,
  ⟨0x418f0008, [], 0x0, fun _ _ _ => ⟨.integ, integVerified, 32, [⟨integVerified_VERIFIED, .ro, (.val 0), .any⟩,
    ⟨integVerified_SUPERVISED, .ro, .hold, .any⟩]⟩⟩]

/-- The registers of this block, in the order of the register index. -/
def gfxRows : List RegRow := [
  ⟨0x42000000, [], 0x0, fun _ _ _ => ⟨.gfx, gfxSched, 32, [⟨gfxSched_SLICE_US, .rw, .hold, .clamp 100 16000⟩,
    ⟨gfxSched_COMP_CL, .rw, .hold, .clamp 1 12⟩,
    ⟨gfxSched_HANG_MS, .rw, .hold, .clamp 100 16000⟩]⟩⟩,
  ⟨0x42000004, [], 0x0, fun _ _ _ => ⟨.gfx, gfxStatus, 32, [⟨gfxStatus_RUNNING, .ro, (.val 0), .any⟩,
    ⟨gfxStatus_COMP_BUSY, .ro, (.val 0), .any⟩,
    ⟨gfxStatus_COMP_ALL, .ro, (.val 0), .any⟩]⟩⟩,
  ⟨0x42000008, [], 0x0, fun _ _ _ => ⟨.gfx, gfxPreemptMax, 32, [⟨gfxPreemptMax_MAX, .rc, .hold, .any⟩]⟩⟩,
  ⟨0x4200000c, [], 0x0, fun _ _ _ => ⟨.gfx, gfxPreemptCnt, 32, [⟨gfxPreemptCnt_COUNT, .rc, .hold, .any⟩]⟩⟩,
  ⟨0x42000010, [], 0x0, fun _ _ _ => ⟨.gfx, gfxTileCfg, 32, [⟨gfxTileCfg_SKIP_EN, .rw, .hold, .any⟩,
    ⟨gfxTileCfg_TILED_MIN, .rw, .hold, .clamp 0 8192⟩]⟩⟩,
  ⟨0x42000018, [], 0x0, fun _ _ _ => ⟨.gfx, gfxStoreCnt, 32, [⟨gfxStoreCnt_COUNT, .rc, .hold, .any⟩]⟩⟩,
  ⟨0x4200001c, [], 0x0, fun _ _ _ => ⟨.gfx, gfxSkipCnt, 32, [⟨gfxSkipCnt_COUNT, .rc, .hold, .any⟩]⟩⟩,
  ⟨0x42000100, [(0x8, 8)], 0x0, fun i _ _ => ⟨.gfx, (gfxDl i), 32, [⟨(gfxDl_WARN i), .rw, .hold, .any⟩,
    ⟨(gfxDl_DEAD i), .rw, .hold, .any⟩]⟩⟩,
  ⟨0x42000200, [(0x40, 8)], 0x4000, fun i _ _ => ⟨.gfx, (gfxCompCtrl i), 32, [⟨(gfxCompCtrl_EN i), .rw, .hold, .any⟩,
    ⟨(gfxCompCtrl_PIPE i), .rw, .hold, .any⟩,
    ⟨(gfxCompCtrl_FENCE_CTX i), .rw, .hold, .any⟩]⟩⟩,
  ⟨0x42000208, [(0x40, 8)], 0x4000, fun i _ _ => ⟨.gfx, (gfxCompSurf0 i), 64, [⟨(gfxCompSurf0_ADDR i), .rw, .hold, .any⟩]⟩⟩,
  ⟨0x42000210, [(0x40, 8)], 0x4000, fun i _ _ => ⟨.gfx, (gfxCompSurf1 i), 64, [⟨(gfxCompSurf1_ADDR i), .rw, .hold, .any⟩]⟩⟩,
  ⟨0x42000218, [(0x40, 8)], 0x4000, fun i _ _ => ⟨.gfx, (gfxCompList i), 64, [⟨(gfxCompList_ADDR i), .rw, .hold, .any⟩]⟩⟩,
  ⟨0x42000220, [(0x40, 8)], 0x4000, fun i _ _ => ⟨.gfx, (gfxCompLen i), 32, [⟨(gfxCompLen_LEN i), .rw, .hold, .any⟩]⟩⟩,
  ⟨0x42000228, [(0x40, 8)], 0x4000, fun i _ _ => ⟨.gfx, (gfxCompFence i), 64, [⟨(gfxCompFence_VALUE i), .rw, .hold, .any⟩]⟩⟩,
  ⟨0x42000230, [(0x40, 8)], 0x4000, fun i _ _ => ⟨.gfx, (gfxCompCtime i), 64, [⟨(gfxCompCtime_WALLTIME i), .rw, .hold, .any⟩]⟩⟩,
  ⟨0x42000238, [(0x40, 8)], 0x0, fun i _ _ => ⟨.gfx, (gfxCompStatus i), 32, [⟨(gfxCompStatus_SHOWN i), .ro, .hold, .any⟩,
    ⟨(gfxCompStatus_JOB i), .ro, (.val 0), .any⟩]⟩⟩,
  ⟨0x4200023c, [(0x40, 8)], 0x0, fun i _ _ => ⟨.gfx, (gfxCompMiss i), 32, [⟨(gfxCompMiss_COUNT i), .rc, .hold, .any⟩]⟩⟩,
  ⟨0x42001000, [(0x40, 64)], 0x0, fun i _ _ => ⟨.gfx, (gfxCtxCtrl i), 32, [⟨(gfxCtxCtrl_EN i), .rw, .hold, .any⟩,
    ⟨(gfxCtxCtrl_PRIO i), .rw, .hold, .over 2 2⟩,
    ⟨(gfxCtxCtrl_QLOG2 i), .rw, .hold, .clamp 12 20⟩]⟩⟩,
  ⟨0x42001004, [(0x40, 64)], 0x0, fun i _ _ => ⟨.gfx, (gfxCtxState i), 32, [⟨(gfxCtxState_STATE i), .ro, .rule, .any⟩,
    ⟨(gfxCtxState_FAULT i), .ro, (.val 0), .any⟩]⟩⟩,
  ⟨0x42001008, [(0x40, 64)], 0x0, fun i _ _ => ⟨.gfx, (gfxCtxQbase i), 64, [⟨(gfxCtxQbase_ADDR i), .rw, (.val 0), .any⟩]⟩⟩,
  ⟨0x42001010, [(0x40, 64)], 0x0, fun i _ _ => ⟨.gfx, (gfxCtxQhead i), 32, [⟨(gfxCtxQhead_POS i), .ro, (.val 0), .any⟩]⟩⟩,
  ⟨0x42001014, [(0x40, 64)], 0x0, fun i _ _ => ⟨.gfx, (gfxCtxQtail i), 32, [⟨(gfxCtxQtail_POS i), .rw, (.val 0), .any⟩]⟩⟩,
  ⟨0x42001018, [(0x40, 64)], 0x0, fun i _ _ => ⟨.gfx, (gfxCtxSave i), 64, [⟨(gfxCtxSave_ADDR i), .rw, .hold, .any⟩]⟩⟩,
  ⟨0x42001020, [(0x40, 64)], 0x0, fun i _ _ => ⟨.gfx, (gfxCtxFence i), 64, [⟨(gfxCtxFence_COUNT i), .ro, .hold, .any⟩]⟩⟩,
  ⟨0x42001028, [(0x40, 64)], 0x0, fun i _ _ => ⟨.gfx, (gfxCtxFaultAddr i), 64, [⟨(gfxCtxFaultAddr_ADDR i), .ro, .hold, .any⟩]⟩⟩,
  ⟨0x42001030, [(0x40, 64)], 0x0, fun i _ _ => ⟨.gfx, (gfxCtxUsed i), 32, [⟨(gfxCtxUsed_CLUSTER_US i), .ro, (.val 0), .any⟩]⟩⟩,
  ⟨0x42003000, [(0x40, 64)], 0x0, fun i _ _ => ⟨.gfx, (gfxPassMode i), 32, [⟨(gfxPassMode_MODE i), .ro, .hold, .any⟩,
    ⟨(gfxPassMode_STEP i), .ro, .hold, .any⟩,
    ⟨(gfxPassMode_FLUSHES i), .ro, .hold, .any⟩]⟩⟩,
  ⟨0x42003004, [(0x40, 64)], 0x0, fun i _ _ => ⟨.gfx, (gfxPassWritten i), 32, [⟨(gfxPassWritten_VALUE i), .ro, .hold, .any⟩]⟩⟩,
  ⟨0x42003008, [(0x40, 64)], 0x0, fun i _ _ => ⟨.gfx, (gfxPassSkipped i), 32, [⟨(gfxPassSkipped_VALUE i), .ro, .hold, .any⟩]⟩⟩,
  ⟨0x4200300c, [(0x40, 64)], 0x0, fun i _ _ => ⟨.gfx, (gfxPassPrims i), 32, [⟨(gfxPassPrims_VALUE i), .ro, .hold, .any⟩]⟩⟩,
  ⟨0x42003010, [(0x40, 64)], 0x0, fun i _ _ => ⟨.gfx, (gfxPassBin i), 32, [⟨(gfxPassBin_VALUE i), .ro, .hold, .any⟩]⟩⟩,
  ⟨0x42003014, [(0x40, 64)], 0x0, fun i _ _ => ⟨.gfx, (gfxPassUs i), 32, [⟨(gfxPassUs_VALUE i), .ro, .hold, .any⟩]⟩⟩,
  ⟨0x42003018, [(0x40, 64)], 0x0, fun i _ _ => ⟨.gfx, (gfxPassFrags i), 64, [⟨(gfxPassFrags_COUNT i), .ro, .hold, .any⟩]⟩⟩,
  ⟨0x42005000, [(0x400, 4)], 0x0, fun i _ _ => ⟨.gfx, (gfxPickCtrl i), 32, [⟨(gfxPickCtrl_EN i), .rw, .hold, .any⟩,
    ⟨(gfxPickCtrl_QUEUE i), .rw, .hold, .any⟩]⟩⟩,
  ⟨0x42005008, [(0x400, 4)], 0x0, fun i _ _ => ⟨.gfx, (gfxPickScene i), 64, [⟨(gfxPickScene_ADDR i), .rw, .hold, .any⟩]⟩⟩,
  ⟨0x42005010, [(0x400, 4)], 0x0, fun i _ _ => ⟨.gfx, (gfxPickMin i), 32, [⟨(gfxPickMin_X i), .rw, .hold, .any⟩,
    ⟨(gfxPickMin_Y i), .rw, .hold, .any⟩]⟩⟩,
  ⟨0x42005014, [(0x400, 4)], 0x0, fun i _ _ => ⟨.gfx, (gfxPickMax i), 32, [⟨(gfxPickMax_X i), .rw, .hold, .any⟩,
    ⟨(gfxPickMax_Y i), .rw, .hold, .any⟩]⟩⟩,
  ⟨0x42005020, [(0x400, 4), (0x4, 20)], 0x0, fun i j _ => ⟨.gfx, (gfxPickXf i j), 32, [⟨(gfxPickXf_VALUE i j), .rw, .hold, .any⟩]⟩⟩,
  ⟨0x42005070, [(0x400, 4)], 0x0, fun i _ _ => ⟨.gfx, (gfxPickBudget i), 32, [⟨(gfxPickBudget_NODES i), .rw, .hold, .clamp 1 256⟩,
    ⟨(gfxPickBudget_TRIS i), .rw, .hold, .clamp 1 512⟩]⟩⟩,
  ⟨0x42005080, [(0x400, 4)], 0x0, fun i _ _ => ⟨.gfx, (gfxPickStatus i), 32, [⟨(gfxPickStatus_IN_FLIGHT i), .ro, (.val 0), .any⟩,
    ⟨(gfxPickStatus_LAST i), .ro, .hold, .any⟩]⟩⟩,
  ⟨0x42005084, [(0x400, 4)], 0x0, fun i _ _ => ⟨.gfx, (gfxPickCnt i), 32, [⟨(gfxPickCnt_COUNT i), .rc, .hold, .any⟩]⟩⟩,
  ⟨0x42005088, [(0x400, 4)], 0x0, fun i _ _ => ⟨.gfx, (gfxPickDropCnt i), 32, [⟨(gfxPickDropCnt_COUNT i), .rc, .hold, .any⟩]⟩⟩,
  ⟨0x4200508c, [(0x400, 4)], 0x0, fun i _ _ => ⟨.gfx, (gfxPickMaxlat i), 32, [⟨(gfxPickMaxlat_MAX i), .rc, .hold, .any⟩]⟩⟩,
  ⟨0x42005200, [(0x400, 4), (0x4, 128)], 0x0, fun i j _ => ⟨.gfx, (gfxPickClass i j), 32, [⟨(gfxPickClass_CH_LO i j), .rw, .hold, .any⟩,
    ⟨(gfxPickClass_EN_LO i j), .rw, .hold, .any⟩,
    ⟨(gfxPickClass_URG_LO i j), .rw, .hold, .any⟩,
    ⟨(gfxPickClass_FX_LO i j), .rw, .hold, .any⟩,
    ⟨(gfxPickClass_HI i j), .rw, .hold, .any⟩]⟩⟩]

/-- The registers of this block, in the order of the register index. -/
def touchRows : List RegRow := [
  ⟨0x43000000, [(0x40000, 4)], 0x0, fun i _ _ => ⟨.touch, (touchCtrl i), 32, [⟨(touchCtrl_EN i), .rw, .hold, .any⟩,
    ⟨(touchCtrl_COMB i), .rw, .hold, .any⟩,
    ⟨(touchCtrl_HOP_EN i), .rw, .hold, .any⟩,
    ⟨(touchCtrl_REPORT_ALL i), .rw, .hold, .any⟩,
    ⟨(touchCtrl_SWAP_XY i), .rw, .hold, .any⟩,
    ⟨(touchCtrl_FLIP_X i), .rw, .hold, .any⟩,
    ⟨(touchCtrl_FLIP_Y i), .rw, .hold, .any⟩,
    ⟨(touchCtrl_ST_AT_START i), .rw, .hold, .any⟩,
    ⟨(touchCtrl_QUEUE i), .rw, .hold, .any⟩]⟩⟩,
  ⟨0x43000004, [(0x40000, 4)], 0x0, fun i _ _ => ⟨.touch, (touchStatus i), 32, [⟨(touchStatus_STATE i), .ro, .runs, .any⟩,
    ⟨(touchStatus_COMB_CUR i), .ro, .hold, .any⟩,
    ⟨(touchStatus_CONTACTS i), .ro, (.val 0), .any⟩,
    ⟨(touchStatus_BL_SRC i), .ro, .hold, .any⟩,
    ⟨(touchStatus_SUSPECT i), .ro, (.val 0), .any⟩,
    ⟨(touchStatus_FAULTED i), .ro, .hold, .any⟩,
    ⟨(touchStatus_NOISY i), .ro, .hold, .any⟩]⟩⟩,
  ⟨0x43000010, [(0x40000, 4), (0x4, 8)], 0x0, fun i j _ => ⟨.touch, (touchWin i j), 32, [⟨(touchWin_LINE i j), .rw, .hold, .any⟩,
    ⟨(touchWin_EN i j), .rw, .hold, .any⟩]⟩⟩,
  ⟨0x43000030, [(0x40000, 4)], 0x0, fun i _ _ => ⟨.touch, (touchListen i), 32, [⟨(touchListen_LINE i), .rw, .hold, .any⟩,
    ⟨(touchListen_EN i), .rw, .hold, .any⟩]⟩⟩,
  ⟨0x43000040, [(0x40000, 4)], 0x0, fun i _ _ => ⟨.touch, (touchThresh i), 32, [⟨(touchThresh_CONTACT_THRESH i), .rw, .hold, .any⟩,
    ⟨(touchThresh_HOLD_THRESH i), .rw, .hold, .any⟩]⟩⟩,
  ⟨0x43000044, [(0x40000, 4)], 0x0, fun i _ _ => ⟨.touch, (touchTrack i), 32, [⟨(touchTrack_TRACK_SHIFT i), .rw, .hold, .clamp 4 14⟩,
    ⟨(touchTrack_NEG_THRESH i), .rw, .hold, .any⟩,
    ⟨(touchTrack_NEG_FRAMES i), .rw, .hold, .clamp 1 255⟩,
    ⟨(touchTrack_UP_FRAMES i), .rw, .hold, .clamp 1 15⟩]⟩⟩,
  ⟨0x43000048, [(0x40000, 4)], 0x0, fun i _ _ => ⟨.touch, (touchScale i), 32, [⟨(touchScale_X_MAX i), .rw, .hold, .clamp 1 65535⟩,
    ⟨(touchScale_Y_MAX i), .rw, .hold, .clamp 1 65535⟩]⟩⟩,
  ⟨0x4300004c, [(0x40000, 4)], 0x0, fun i _ _ => ⟨.touch, (touchTiming i), 32, [⟨(touchTiming_LONG_S i), .rw, .hold, .clamp 1 4095⟩,
    ⟨(touchTiming_TRACK_DIST i), .rw, .hold, .any⟩]⟩⟩,
  ⟨0x43000050, [(0x40000, 4)], 0x0, fun i _ _ => ⟨.touch, (touchHop i), 32, [⟨(touchHop_HOP_THRESH i), .rw, .hold, .any⟩,
    ⟨(touchHop_HOP_FRAMES i), .rw, .hold, .clamp 1 255⟩]⟩⟩,
  ⟨0x43000054, [(0x40000, 4), (0x4, 2)], 0x0, fun i j _ => ⟨.touch, (touchNoise i j), 32, [⟨(touchNoise_N_LO i j), .ro, .hold, .any⟩,
    ⟨(touchNoise_N_HI i j), .ro, .hold, .any⟩]⟩⟩,
  ⟨0x43000060, [(0x40000, 4)], 0x0, fun i _ _ => ⟨.touch, (touchFrameCnt i), 32, [⟨(touchFrameCnt_COUNT i), .ro, .hold, .any⟩]⟩⟩,
  ⟨0x43000064, [(0x40000, 4)], 0x0, fun i _ _ => ⟨.touch, (touchLimitCnt i), 32, [⟨(touchLimitCnt_COUNT i), .rc, .hold, .any⟩]⟩⟩,
  ⟨0x43000070, [(0x40000, 4)], 0x0, fun i _ _ => ⟨.touch, (touchStDrv i), 64, [⟨(touchStDrv_FAULT i), .ro, .hold, .any⟩]⟩⟩,
  ⟨0x43000078, [(0x40000, 4), (0x8, 2)], 0x0, fun i j _ => ⟨.touch, (touchStSns i j), 64, [⟨(touchStSns_FAULT i j), .ro, .hold, .any⟩]⟩⟩,
  ⟨0x43000088, [(0x40000, 4)], 0x0, fun i _ _ => ⟨.touch, (touchStLast i), 32, [⟨(touchStLast_COUNT i), .ro, .hold, .any⟩,
    ⟨(touchStLast_CODE i), .ro, .hold, .any⟩,
    ⟨(touchStLast_INDEX i), .ro, .hold, .any⟩,
    ⟨(touchStLast_SENSE i), .ro, .hold, .any⟩]⟩⟩,
  ⟨0x4300008c, [(0x40000, 4)], 0x0, fun i _ _ => ⟨.touch, (touchSuspect i), 32, [⟨(touchSuspect_COUNT i), .ro, (.val 0), .any⟩]⟩⟩,
  ⟨0x43010000, [(0x40000, 4), (0x2, 7168)], 0x0, fun i j _ => ⟨.touch, (touchRaw i j), 16, [⟨(touchRaw_RAW i j), .ro, .runs, .any⟩]⟩⟩,
  ⟨0x43020000, [(0x40000, 4), (0x4, 7168)], 0x0, fun i j _ => ⟨.touch, (touchBase i j), 32, [⟨(touchBase_BASE i j), .rw, .hold, .any⟩]⟩⟩,
  ⟨0x43030000, [(0x40000, 4), (0x10, 64)], 0x0, fun i j _ => ⟨.touch, (touchZoneMin i j), 32, [⟨(touchZoneMin_X i j), .rw, .hold, .any⟩,
    ⟨(touchZoneMin_Y i j), .rw, .hold, .any⟩]⟩⟩,
  ⟨0x43030004, [(0x40000, 4), (0x10, 64)], 0x0, fun i j _ => ⟨.touch, (touchZoneMax i j), 32, [⟨(touchZoneMax_X i j), .rw, .hold, .any⟩,
    ⟨(touchZoneMax_Y i j), .rw, .hold, .any⟩]⟩⟩,
  ⟨0x43030008, [(0x40000, 4), (0x10, 64)], 0x0, fun i j _ => ⟨.touch, (touchZoneFx i j), 32, [⟨(touchZoneFx_CH i j), .rw, .hold, .any⟩,
    ⟨(touchZoneFx_EN i j), .rw, .hold, .any⟩,
    ⟨(touchZoneFx_URG i j), .rw, .hold, .any⟩,
    ⟨(touchZoneFx_FX i j), .rw, .hold, .any⟩]⟩⟩,
  ⟨0x43100000, [], 0x0, fun _ _ _ => ⟨.touch, touchFactory, 32, [⟨touchFactory_VALID, .ro, .hold, .any⟩]⟩⟩]

/-- The registers of this block, in the order of the register index. -/
def hapRows : List RegRow := [
  ⟨0x43400000, [(0x100, 8)], 0x0, fun i _ _ => ⟨.hap, (hapCfg i), 32, [⟨(hapCfg_TYPE i), .rw, .hold, .over 2 0⟩,
    ⟨(hapCfg_TRACK i), .rw, .hold, .any⟩,
    ⟨(hapCfg_F0 i), .rw, .hold, .clamp 500 5000⟩]⟩⟩,
  ⟨0x43400004, [(0x100, 8)], 0x0, fun i _ _ => ⟨.hap, (hapLimits i), 32, [⟨(hapLimits_MAX_MV i), .rw, .hold, .clamp 100 12000⟩,
    ⟨(hapLimits_BRAKE_MS i), .rw, .hold, .clamp 1 8⟩,
    ⟨(hapLimits_BRAKE_STOP i), .rw, .hold, .clamp 1 50⟩]⟩⟩,
  ⟨0x43400008, [(0x100, 8)], 0x0, fun i _ _ => ⟨.hap, (hapRes i), 32, [⟨(hapRes_R_MIN i), .rw, .hold, .any⟩,
    ⟨(hapRes_R_MAX i), .rw, .hold, .any⟩]⟩⟩,
  ⟨0x4340000c, [(0x100, 8)], 0x0, fun i _ _ => ⟨.hap, (hapStatus i), 32, [⟨(hapStatus_STATE i), .ro, .rule, .any⟩,
    ⟨(hapStatus_PENDING i), .ro, (.val 0), .any⟩,
    ⟨(hapStatus_URGENT i), .ro, (.val 0), .any⟩,
    ⟨(hapStatus_ILIM i), .ro, (.val 0), .any⟩,
    ⟨(hapStatus_EFFECT i), .ro, .hold, .any⟩,
    ⟨(hapStatus_PEND_FX i), .ro, (.val 0), .any⟩]⟩⟩,
  ⟨0x43400010, [(0x100, 8)], 0x0, fun i _ _ => ⟨.hap, (hapTrack i), 32, [⟨(hapTrack_F0_TRK i), .ro, .hold, .any⟩,
    ⟨(hapTrack_K i), .ro, .hold, .any⟩]⟩⟩,
  ⟨0x43400014, [(0x100, 8)], 0x0, fun i _ _ => ⟨.hap, (hapFault i), 32, [⟨(hapFault_CODE i), .ro, .hold, .any⟩,
    ⟨(hapFault_R_MEAS i), .ro, .hold, .any⟩]⟩⟩,
  ⟨0x43400018, [(0x100, 8)], 0x0, fun i _ _ => ⟨.hap, (hapPlayCnt i), 32, [⟨(hapPlayCnt_COUNT i), .rc, .hold, .any⟩]⟩⟩,
  ⟨0x4340001c, [(0x100, 8)], 0x0, fun i _ _ => ⟨.hap, (hapDropCnt i), 32, [⟨(hapDropCnt_COUNT i), .rc, .hold, .any⟩]⟩⟩,
  ⟨0x43400800, [], 0x0, fun _ _ _ => ⟨.hap, hapStage, 32, [⟨hapStage_STAGE0, .ro, .hold, .any⟩,
    ⟨hapStage_STAGE1, .ro, .hold, .any⟩]⟩⟩,
  ⟨0x43410000, [(0x1000, 8), (0x40, 64), (0x8, 8)], 0x0, fun i j k => ⟨.hap, (hapFx i j k), 64, [⟨(hapFx_BYTES i j k), .rw, .hold, .any⟩]⟩⟩,
  ⟨0x43420000, [(0x2000, 8), (0x2, 4096)], 0x0, fun i j _ => ⟨.hap, (hapWave i j), 16, [⟨(hapWave_SAMPLE i j), .rw, .hold, .any⟩]⟩⟩]

/-- The registers of this block, in the order of the register index. -/
def audRows : List RegRow := [
  ⟨0x43500000, [], 0x0, fun _ _ _ => ⟨.aud, audCtrl, 32, [⟨audCtrl_ZC_TIMEOUT, .rw, .hold, .clamp 16 4095⟩,
    ⟨audCtrl_DUCK_RAMP, .rw, .hold, .clamp 16 4095⟩]⟩⟩,
  ⟨0x43500004, [], 0x0, fun _ _ _ => ⟨.aud, audTdm, 32, [⟨audTdm_EN, .rw, .hold, .any⟩,
    ⟨audTdm_SLOTS, .rw, .hold, .over 2 2⟩,
    ⟨audTdm_FMT, .rw, .hold, .any⟩]⟩⟩,
  ⟨0x43500008, [], 0x0, fun _ _ _ => ⟨.aud, audNow, 64, [⟨audNow_SAMPLE, .ro, .runs, .any⟩]⟩⟩,
  ⟨0x43500010, [], 0x0, fun _ _ _ => ⟨.aud, audZcToCnt, 32, [⟨audZcToCnt_COUNT, .rc, .hold, .any⟩]⟩⟩,
  ⟨0x43500100, [(0x4, 110)], 0x0, fun i _ _ => ⟨.aud, (audOwner i), 32, [⟨(audOwner_OWNER i), .rw, .hold, .overBut 31 63 63⟩]⟩⟩,
  ⟨0x43501000, [(0x40, 50), (0x4, 16)], 0x0, fun i j _ => ⟨.aud, (audXp i j), 32, [⟨(audXp_GAIN i j), .rw, .hold, .any⟩]⟩⟩,
  ⟨0x43502000, [(0x100, 16)], 0x0, fun i _ _ => ⟨.aud, (audBusCtrl i), 32, [⟨(audBusCtrl_BYPASS i), .rw, .hold, .any⟩,
    ⟨(audBusCtrl_RATE i), .rw, .hold, .over 4 0⟩,
    ⟨(audBusCtrl_GAIN i), .rw, .hold, .any⟩,
    ⟨(audBusCtrl_DUCK_PRIO i), .rw, .hold, .any⟩,
    ⟨(audBusCtrl_DUCK_DB i), .rw, .hold, .over 60 60⟩,
    ⟨(audBusCtrl_TONE_EXCL i), .rw, .hold, .any⟩,
    ⟨(audBusCtrl_LIM_EN i), .rw, .hold, .any⟩,
    ⟨(audBusCtrl_THRESH i), .rw, .hold, .over 80 80⟩]⟩⟩,
  ⟨0x43502004, [(0x100, 16)], 0x0, fun i _ _ => ⟨.aud, (audBusDyn i), 32, [⟨(audBusDyn_DELAY i), .rw, .hold, .over 4800 4800⟩,
    ⟨(audBusDyn_RELEASE i), .rw, .hold, .clamp 10 1000⟩]⟩⟩,
  ⟨0x43502020, [(0x100, 16), (0x14, 5), (0x4, 5)], 0x0, fun i j k => ⟨.aud, (audBusEq i j k), 32, [⟨(audBusEq_COEF i j k), .rw, .hold, .any⟩]⟩⟩,
  ⟨0x43502090, [(0x100, 16)], 0x0, fun i _ _ => ⟨.aud, (audBusStatus i), 32, [⟨(audBusStatus_GR i), .ro, .runs, .any⟩,
    ⟨(audBusStatus_DUCKED i), .ro, .runs, .any⟩,
    ⟨(audBusStatus_PENDING i), .ro, .runs, .any⟩]⟩⟩,
  ⟨0x43503000, [(0x10, 14)], 0x0, fun i _ _ => ⟨.aud, (audSinkCtrl i), 32, [⟨(audSinkCtrl_EN i), .rw, .hold, .any⟩,
    ⟨(audSinkCtrl_SINK_BUS i), .rw, .hold, .any⟩,
    ⟨(audSinkCtrl_GAIN i), .rw, .hold, .any⟩,
    ⟨(audSinkCtrl_FAULT i), .ro, .hold, .any⟩]⟩⟩,
  ⟨0x43504000, [(0x40, 32)], 0x0, fun i _ _ => ⟨.aud, (audStrCtrl i), 32, [⟨(audStrCtrl_EN i), .rw, (.val 0), .any⟩,
    ⟨(audStrCtrl_FMT i), .rw, .hold, .any⟩,
    ⟨(audStrCtrl_RATE i), .rw, .hold, .over 4 0⟩,
    ⟨(audStrCtrl_QUEUE i), .rw, .hold, .any⟩,
    ⟨(audStrCtrl_PERIOD i), .rw, .hold, .any⟩,
    ⟨(audStrCtrl_LOG2 i), .rw, .hold, .clamp 12 20⟩]⟩⟩,
  ⟨0x43504008, [(0x40, 32)], 0x0, fun i _ _ => ⟨.aud, (audStrBase i), 64, [⟨(audStrBase_ADDR i), .rw, .hold, .any⟩]⟩⟩,
  ⟨0x43504010, [(0x40, 32)], 0x0, fun i _ _ => ⟨.aud, (audStrStart i), 64, [⟨(audStrStart_START i), .rw, .hold, .any⟩]⟩⟩,
  ⟨0x43504018, [(0x40, 32)], 0x0, fun i _ _ => ⟨.aud, (audStrPos i), 64, [⟨(audStrPos_WPOS i), .rw, (.val 0), .any⟩,
    ⟨(audStrPos_RPOS i), .ro, (.val 0), .any⟩]⟩⟩,
  ⟨0x43505000, [(0x20, 8)], 0x0, fun i _ _ => ⟨.aud, (audToneCfg i), 32, [⟨(audToneCfg_WAVE i), .rw, .hold, .over 2 0⟩,
    ⟨(audToneCfg_PRIO i), .rw, .hold, .any⟩,
    ⟨(audToneCfg_LEVEL i), .rw, .hold, .any⟩,
    ⟨(audToneCfg_REPEATS i), .rw, .hold, .any⟩,
    ⟨(audToneCfg_RUN i), .ro, .runs, .any⟩]⟩⟩,
  ⟨0x43505004, [(0x20, 8)], 0x0, fun i _ _ => ⟨.aud, (audToneFreq i), 32, [⟨(audToneFreq_F1 i), .rw, .hold, .clamp 20 12000⟩,
    ⟨(audToneFreq_F2 i), .rw, .hold, .clamp 20 12000⟩]⟩⟩,
  ⟨0x43505008, [(0x20, 8)], 0x0, fun i _ _ => ⟨.aud, (audToneTime i), 32, [⟨(audToneTime_T1 i), .rw, .hold, .any⟩,
    ⟨(audToneTime_T2 i), .rw, .hold, .any⟩]⟩⟩,
  ⟨0x4350500c, [(0x20, 8)], 0x0, fun i _ _ => ⟨.aud, (audToneOff i), 32, [⟨(audToneOff_TOFF i), .rw, .hold, .any⟩]⟩⟩]

/-- The registers of this block, in the order of the register index. -/
def dramcRows : List RegRow := [
  ⟨0x44000000, [], 0x0, fun _ _ _ => ⟨.dramc, dramcCfg, 32, [⟨dramcCfg_GRAIN_LOG2, .rw, .hold, .any⟩,
    ⟨dramcCfg_RT_CAP, .rw, .hold, .any⟩,
    ⟨dramcCfg_FCHG_EN, .rw, .hold, .any⟩,
    ⟨dramcCfg_SEALED_WAYS, .rw, .hold, .any⟩]⟩⟩,
  ⟨0x44000004, [], 0x0, fun _ _ _ => ⟨.dramc, dramcStatus, 32, [⟨dramcStatus_SETPOINT, .ro, .runs, .any⟩,
    ⟨dramcStatus_USABLE, .ro, .hold, .any⟩,
    ⟨dramcStatus_TRAINING, .ro, .runs, .any⟩,
    ⟨dramcStatus_FCHG_PENDING, .ro, .runs, .any⟩,
    ⟨dramcStatus_CH_LOST, .ro, .hold, .any⟩,
    ⟨dramcStatus_INIT_DONE, .ro, .hold, .any⟩]⟩⟩,
  ⟨0x44000008, [], 0x0, fun _ _ _ => ⟨.dramc, dramcFchg, 32, [⟨dramcFchg_LINE, .rw, .hold, .any⟩,
    ⟨dramcFchg_TARGET, .rw, .hold, .any⟩,
    ⟨dramcFchg_GO, .wo, (.val 0), .any⟩]⟩⟩,
  ⟨0x44000010, [], 0x0, fun _ _ _ => ⟨.dramc, dramcRefPlan, 32, [⟨dramcRefPlan_MASK, .rw, .hold, .any⟩]⟩⟩,
  ⟨0x44000014, [], 0x0, fun _ _ _ => ⟨.dramc, dramcRefCfg, 32, [⟨dramcRefCfg_PER_SLOT, .rw, .hold, .clamp 1 4⟩,
    ⟨dramcRefCfg_FORCE_AT, .rw, .hold, .clamp 16 112⟩]⟩⟩,
  ⟨0x44000018, [], 0x0, fun _ _ _ => ⟨.dramc, dramcHotCfg, 32, [⟨dramcHotCfg_HOT_PCT, .rw, .hold, .clamp 20 100⟩,
    ⟨dramcHotCfg_HOT_S, .rw, .hold, .clamp 1 255⟩]⟩⟩,
  ⟨0x4400001c, [], 0x0, fun _ _ _ => ⟨.dramc, dramcScrub, 32, [⟨dramcScrub_SCRUB_H, .rw, .hold, .any⟩]⟩⟩,
  ⟨0x44001000, [(0x100, 8)], 0x0, fun i _ _ => ⟨.dramc, (dramcChStatus i), 32, [⟨(dramcChStatus_OWED i), .ro, .runs, .any⟩,
    ⟨(dramcChStatus_DERATE i), .ro, .runs, .any⟩,
    ⟨(dramcChStatus_HOT i), .ro, .runs, .any⟩,
    ⟨(dramcChStatus_LOST i), .ro, .hold, .any⟩,
    ⟨(dramcChStatus_TEMP i), .ro, .runs, .any⟩]⟩⟩,
  ⟨0x44001004, [(0x100, 8)], 0x0, fun i _ _ => ⟨.dramc, (dramcChRt i), 32, [⟨(dramcChRt_ADMITTED i), .ro, .hold, .any⟩,
    ⟨(dramcChRt_CAP i), .ro, .runs, .any⟩]⟩⟩,
  ⟨0x44001008, [(0x100, 8)], 0x0, fun i _ _ => ⟨.dramc, (dramcChCeCnt i), 32, [⟨(dramcChCeCnt_COUNT i), .rc, .hold, .any⟩]⟩⟩,
  ⟨0x4400100c, [(0x100, 8)], 0x0, fun i _ _ => ⟨.dramc, (dramcChUeCnt i), 32, [⟨(dramcChUeCnt_COUNT i), .rc, .hold, .any⟩]⟩⟩,
  ⟨0x44001010, [(0x100, 8)], 0x0, fun i _ _ => ⟨.dramc, (dramcChEccLast i), 64, [⟨(dramcChEccLast_LINE i), .ro, .hold, .any⟩,
    ⟨(dramcChEccLast_UE i), .ro, .hold, .any⟩,
    ⟨(dramcChEccLast_ADDR_FAULT i), .ro, .hold, .any⟩,
    ⟨(dramcChEccLast_AGENT i), .ro, .hold, .any⟩]⟩⟩,
  ⟨0x44001018, [(0x100, 8)], 0x0, fun i _ _ => ⟨.dramc, (dramcChAcc i), 32, [⟨(dramcChAcc_COUNT i), .ro, .runs, .any⟩]⟩⟩,
  ⟨0x4400101c, [(0x100, 8)], 0x0, fun i _ _ => ⟨.dramc, (dramcChLateCnt i), 32, [⟨(dramcChLateCnt_COUNT i), .rc, .hold, .any⟩]⟩⟩,
  ⟨0x44004000, [(0x80, 8), (0x40, 2), (0x10, 4)], 0x0, fun i j k => ⟨.dramc, (dramcTrn i j k), 64, [⟨(dramcTrn_RD_LEFT i j k), .ro, .hold, .any⟩,
    ⟨(dramcTrn_RD_RIGHT i j k), .ro, .hold, .any⟩,
    ⟨(dramcTrn_RD_CENTRE i j k), .ro, .hold, .any⟩,
    ⟨(dramcTrn_WR_LEFT i j k), .ro, .hold, .any⟩,
    ⟨(dramcTrn_WR_RIGHT i j k), .ro, .hold, .any⟩,
    ⟨(dramcTrn_WR_CENTRE i j k), .ro, .hold, .any⟩,
    ⟨(dramcTrn_PASS i j k), .ro, .hold, .any⟩]⟩⟩]

/-- The registers of this block, in the order of the register index. -/
def worldRows : List RegRow := [
  ⟨0x45000000, [], 0x0, fun _ _ _ => ⟨.world, worldStatus, 32, [⟨worldStatus_REGIME, .ro, .hold, .any⟩,
    ⟨worldStatus_SWITCHING, .ro, (.val 0), .any⟩]⟩⟩,
  ⟨0x45000008, [], 0x0, fun _ _ _ => ⟨.world, worldWmark, 32, [⟨worldWmark_W, .rw, .hold, .any⟩]⟩⟩,
  ⟨0x45000010, [], 0x0, fun _ _ _ => ⟨.world, worldClaim, 64, [⟨worldClaim_CLAIM, .rw, .hold, .any⟩]⟩⟩,
  ⟨0x45000020, [], 0x0, fun _ _ _ => ⟨.world, worldCpcReq, 32, [⟨worldCpcReq_DOMAIN, .wo, (.val 0), .any⟩,
    ⟨worldCpcReq_ACTION, .wo, (.val 0), .any⟩]⟩⟩,
  ⟨0x45000024, [], 0x0, fun _ _ _ => ⟨.world, worldCpcStatus, 32, [⟨worldCpcStatus_RESULT, .ro, .hold, .any⟩,
    ⟨worldCpcStatus_DOMAIN, .ro, .hold, .any⟩,
    ⟨worldCpcStatus_ACTION, .ro, .hold, .any⟩,
    ⟨worldCpcStatus_AGENT, .ro, .hold, .any⟩]⟩⟩,
  ⟨0x45000028, [], 0x0, fun _ _ _ => ⟨.world, worldCpcClk, 64, [⟨worldCpcClk_ON, .ro, .hold, .any⟩]⟩⟩,
  ⟨0x45000030, [], 0x0, fun _ _ _ => ⟨.world, worldCpcPwr, 64, [⟨worldCpcPwr_ON, .ro, .hold, .any⟩]⟩⟩,
  ⟨0x45000038, [], 0x0, fun _ _ _ => ⟨.world, worldCpcUnlogged, 32, [⟨worldCpcUnlogged_COUNT, .rc, .hold, .any⟩]⟩⟩,
  ⟨0x45000040, [], 0x0, fun _ _ _ => ⟨.world, worldViolLast, 64, [⟨worldViolLast_PAGE, .ro, .hold, .any⟩,
    ⟨worldViolLast_WRITE, .ro, .hold, .any⟩,
    ⟨worldViolLast_AGENT, .ro, .hold, .any⟩]⟩⟩,
  ⟨0x45000048, [], 0x0, fun _ _ _ => ⟨.world, worldViolCnt, 32, [⟨worldViolCnt_COUNT, .rc, .hold, .any⟩]⟩⟩,
  ⟨0x45000100, [(0x4, 32)], 0x0, fun i _ _ => ⟨.world, (worldFnRange i), 32, [⟨(worldFnRange_BASE i), .rw, .hold, .any⟩,
    ⟨(worldFnRange_SIZE i), .rw, .hold, .any⟩]⟩⟩]

/-- The registers of this block, in the order of the register index. -/
def debugRows : List RegRow := [
  ⟨0x45100000, [], 0x0, fun _ _ _ => ⟨.debug, debugEn, 32, [⟨debugEn_OPEN_NI, .rw, .hold, .any⟩,
    ⟨debugEn_OPEN_INV, .rw, .hold, .any⟩,
    ⟨debugEn_SEALED_NI, .rw, .hold, .any⟩,
    ⟨debugEn_SEALED_INV, .rw, .hold, .any⟩,
    ⟨debugEn_EFFECTIVE, .ro, .hold, .any⟩]⟩⟩,
  ⟨0x45100004, [], 0x0, fun _ _ _ => ⟨.debug, debugFuse, 32, [⟨debugFuse_SNI_CLOSED, .ro, .hold, .any⟩,
    ⟨debugFuse_SI_CLOSED, .ro, .hold, .any⟩,
    ⟨debugFuse_REVOKED_0, .ro, .hold, .any⟩,
    ⟨debugFuse_SVN, .ro, .hold, .any⟩]⟩⟩,
  ⟨0x45100010, [(0x4, 4)], 0x0, fun i _ _ => ⟨.debug, (debugSess i), 32, [⟨(debugSess_AGENT i), .ro, (.val 0), .any⟩,
    ⟨(debugSess_ACTIVE i), .ro, (.val 0), .any⟩,
    ⟨(debugSess_INV i), .ro, (.val 0), .any⟩]⟩⟩]

/-- The registers of this block, in the order of the register index. -/
def cuRows : List RegRow := [
  ⟨0x46000000, [(0x100, 8)], 0x0, fun i _ _ => ⟨.cu, (cuCtrl i), 32, [⟨(cuCtrl_GO i), .wo, (.val 0), .any⟩,
    ⟨(cuCtrl_ALG i), .rw, .hold, .any⟩,
    ⟨(cuCtrl_FOLD_EN i), .rw, .hold, .any⟩,
    ⟨(cuCtrl_CONT i), .rw, .hold, .any⟩,
    ⟨(cuCtrl_DIRECT i), .rw, .hold, .any⟩]⟩⟩,
  ⟨0x46000004, [(0x100, 8)], 0x0, fun i _ _ => ⟨.cu, (cuState i), 32, [⟨(cuState_STATE i), .ro, (.val 0), .any⟩,
    ⟨(cuState_SOURCE i), .ro, .hold, .any⟩,
    ⟨(cuState_DETAIL i), .ro, .hold, .any⟩]⟩⟩,
  ⟨0x46000008, [(0x100, 8)], 0x0, fun i _ _ => ⟨.cu, (cuDesc i), 64, [⟨(cuDesc_ADDR i), .rw, .hold, .any⟩]⟩⟩,
  ⟨0x46000010, [(0x100, 8)], 0x0, fun i _ _ => ⟨.cu, (cuCount i), 32, [⟨(cuCount_COUNT i), .rw, .hold, .clamp 1 4096⟩]⟩⟩,
  ⟨0x46000018, [(0x100, 8)], 0x0, fun i _ _ => ⟨.cu, (cuFold i), 64, [⟨(cuFold_VALUE i), .rw, .hold, .any⟩]⟩⟩,
  ⟨0x46000020, [(0x100, 8)], 0x0, fun i _ _ => ⟨.cu, (cuRun i), 64, [⟨(cuRun_VALUE i), .rw, .hold, .any⟩]⟩⟩,
  ⟨0x46000028, [(0x100, 8)], 0x0, fun i _ _ => ⟨.cu, (cuResult i), 64, [⟨(cuResult_VALUE i), .ro, .hold, .any⟩]⟩⟩,
  ⟨0x46000030, [(0x100, 8)], 0x0, fun i _ _ => ⟨.cu, (cuBytes i), 32, [⟨(cuBytes_COUNT i), .ro, .hold, .any⟩]⟩⟩]

/-- The registers of this block, in the order of the register index. -/
def peatRows : List RegRow := [
  ⟨0x47000000, [], 0x0, fun _ _ _ => ⟨.peat, peatCtrl, 32, [⟨peatCtrl_WRAP, .rw, .hold, .any⟩,
    ⟨peatCtrl_SUM_FRAMES, .ro, .hold, .any⟩]⟩⟩,
  ⟨0x47000004, [], 0x0, fun _ _ _ => ⟨.peat, peatStatus, 32, [⟨peatStatus_FULL, .ro, .runs, .any⟩,
    ⟨peatStatus_RESERVE_OUT, .ro, .runs, .any⟩,
    ⟨peatStatus_CHAIN_BAD, .ro, .hold, .any⟩]⟩⟩,
  ⟨0x47000008, [], 0x0, fun _ _ _ => ⟨.peat, peatNext, 32, [⟨peatNext_VALUE, .ro, .runs, .any⟩]⟩⟩,
  ⟨0x4700000c, [], 0x0, fun _ _ _ => ⟨.peat, peatOldest, 32, [⟨peatOldest_VALUE, .ro, .runs, .any⟩]⟩⟩,
  ⟨0x47000010, [], 0x0, fun _ _ _ => ⟨.peat, peatLastCrc, 32, [⟨peatLastCrc_VALUE, .ro, .runs, .any⟩]⟩⟩,
  ⟨0x47000014, [], 0x0, fun _ _ _ => ⟨.peat, peatBoot, 32, [⟨peatBoot_VALUE, .ro, .runs, .any⟩]⟩⟩,
  ⟨0x47000018, [], 0x0, fun _ _ _ => ⟨.peat, peatUnlogged, 32, [⟨peatUnlogged_COUNT, .rc, .hold, .any⟩]⟩⟩,
  ⟨0x4700001c, [], 0x0, fun _ _ _ => ⟨.peat, peatRefused, 32, [⟨peatRefused_COUNT, .rc, .hold, .any⟩]⟩⟩,
  ⟨0x47000040, [], 0x0, fun _ _ _ => ⟨.peat, peatRdIdx, 32, [⟨peatRdIdx_INDEX, .rw, .hold, .any⟩]⟩⟩,
  ⟨0x47000080, [(0x8, 8)], 0x0, fun i _ _ => ⟨.peat, (peatRdRec i), 64, [⟨(peatRdRec_RECORD i), .ro, .runs, .any⟩]⟩⟩]

/-- The registers of this block, in the order of the register index. -/
def supvRows : List RegRow := [
  ⟨0x48000000, [], 0x0, fun _ _ _ => ⟨.supv, supvCtrl, 32, [⟨supvCtrl_WD_MS, .rw, .hold, .clamp 10 1000⟩,
    ⟨supvCtrl_RESUME, .rw, .hold, .clamp 1 15⟩]⟩⟩,
  ⟨0x48000004, [], 0x0, fun _ _ _ => ⟨.supv, supvKick, 32, [⟨supvKick_KEY, .wo, (.val 0), .any⟩]⟩⟩,
  ⟨0x48000008, [], 0x0, fun _ _ _ => ⟨.supv, supvStatus, 32, [⟨supvStatus_HEALTH_A, .ro, .runs, .any⟩,
    ⟨supvStatus_STALL, .ro, .runs, .any⟩,
    ⟨supvStatus_OSC_BAD, .ro, .runs, .any⟩,
    ⟨supvStatus_ALARM, .ro, .runs, .any⟩,
    ⟨supvStatus_LAST_ACTION, .ro, .hold, .any⟩,
    ⟨supvStatus_WD_LEFT, .ro, .runs, .any⟩]⟩⟩,
  ⟨0x4800000c, [], 0x0, fun _ _ _ => ⟨.supv, supvWord, 32, [⟨supvWord_WORD, .ro, .runs, .any⟩,
    ⟨supvWord_CRC, .ro, .runs, .any⟩]⟩⟩,
  ⟨0x48000100, [(0x4, 32)], 0x0, fun i _ _ => ⟨.supv, (supvPol i), 32, [⟨(supvPol_EVENT i), .rw, .hold, .any⟩,
    ⟨(supvPol_EN i), .rw, .hold, .any⟩,
    ⟨(supvPol_ACTION i), .rw, .hold, .over 5 0⟩,
    ⟨(supvPol_COUNT i), .rw, .hold, .clamp 1 31⟩,
    ⟨(supvPol_WINDOW i), .rw, .hold, .clamp 1 255⟩]⟩⟩,
  ⟨0x48000200, [(0x8, 8)], 0x0, fun i _ _ => ⟨.supv, (supvAvail i), 64, [⟨(supvAvail_VER i), .ro, .hold, .any⟩,
    ⟨(supvAvail_UNVER i), .ro, .hold, .any⟩]⟩⟩]

/-- The rows of the block whose window holds an internal address (R549), or of the model's own banks. -/
def rowsAt (addr : Nat) : List RegRow :=
  if addr ≥ bankedBank then bankRows
  else if addr ≥ fnBank then fnRows
  else if addr < 0x40000000 then []
  else if addr < 0x40100000 then sysRows
  else if addr < 0x40200000 then wallRows
  else if addr < 0x40300000 then evtRows
  else if addr < 0x40500000 then hpRows
  else if addr < 0x40600000 then pktRows
  else if addr < 0x41000000 then mbqRows
  else if addr < 0x41200000 then headRows
  else if addr < 0x41400000 then ymxRows
  else if addr < 0x41800000 then layerRows
  else if addr < 0x42000000 then integRows
  else if addr < 0x43000000 then gfxRows
  else if addr < 0x43400000 then touchRows
  else if addr < 0x43500000 then hapRows
  else if addr < 0x44000000 then audRows
  else if addr < 0x45000000 then dramcRows
  else if addr < 0x45100000 then worldRows
  else if addr < 0x46000000 then debugRows
  else if addr < 0x47000000 then cuRows
  else if addr < 0x48000000 then peatRows
  else if addr < 0x48100000 then supvRows
  else []

/-- The register an address names, and the distance at which its active copy stands (R549). -/
def regAt (addr : Nat) : Option (RegInfo × Nat) :=
  (rowsAt addr).findSome? fun r => (r.find addr).map fun i => (i, r.act)

/-- The register whose active copy an address names (22_address_map.md, active copies). -/
def regActiveAt (addr : Nat) : Option RegInfo :=
  (rowsAt addr).findSome? fun r => if r.act = 0 ∨ addr < r.act then none else r.find (addr - r.act)

/-- The active copies of the HEAD and INTEG windows stand 0x8000 above their shadows. -/
def actWin : Nat := 0x8000
/-- The active copies of the pipe registers stand 0x800 above their shadows. -/
def actPipe : Nat := 0x800
/-- The active copies of the write-back registers stand 0x80 above their shadows. -/
def actWb : Nat := 0x80
/-- The active copies of the composition registers stand 0x4000 above their shadows. -/
def actComp : Nat := 0x4000

end Sys2Proof.Machine
end

