-- ==== Sys2Proof/Machine/Crc.lean ====
section
/-! DEFINITION. The four check-value algorithms of R420, the fold word of R421, and byte-string helpers: little-endian
reading and writing (R7). -/
namespace Sys2Proof.Machine

/-- The value of a little-endian byte string (R7). -/
def leNat : List Byte → Nat
  | [] => 0
  | b :: rest => b.toNat + 256 * leNat rest

/-- The `n` low bytes of a number, little-endian (R7). -/
def leBytes : Nat → Nat → List Byte
  | 0, _ => []
  | n + 1, v => BitVec.ofNat 8 v :: leBytes n (v / 256)

/-- Bytes `off` to `off + len − 1` of a byte string; bytes past its end read zero. -/
def bytesAt (p : List Byte) (off len : Nat) : List Byte :=
  let s := (p.drop off).take len
  s ++ List.replicate (len - s.length) 0

/-- The little-endian number in bytes `off` to `off + len − 1`. -/
def leAt (p : List Byte) (off len : Nat) : Nat := leNat (bytesAt p off len)

/-- A number of `bits` bits read as two's complement. -/
def toSigned (bits v : Nat) : Int :=
  if v % 2 ^ bits < 2 ^ (bits - 1) then (v % 2 ^ bits : Nat) else (v % 2 ^ bits : Nat) - (2 ^ bits : Nat)

/-- The two's complement of an integer in `bits` bits. -/
def ofSigned (bits : Nat) (i : Int) : Nat := (i % (2 ^ bits : Nat)).toNat

/-- The parameters of one algorithm (R420): width, polynomial in the register's own bit order, Init, reflection, XorOut. -/
structure CrcAlg where
  width : Nat
  poly : Nat
  init : Nat
  refl : Bool
  xorOut : Nat
  deriving DecidableEq, Repr

/-- ALG 0, CRC-32/ISO-HDLC; its polynomial 0x04C1_1DB7 reflected. -/
def crc32Iso : CrcAlg := ⟨32, 0xEDB88320, 0xFFFFFFFF, true, 0xFFFFFFFF⟩
/-- ALG 1, CRC-32C; its polynomial 0x1EDC_6F41 reflected. -/
def crc32c : CrcAlg := ⟨32, 0x82F63B78, 0xFFFFFFFF, true, 0xFFFFFFFF⟩
/-- ALG 2, CRC-64/ECMA-182. -/
def crc64 : CrcAlg := ⟨64, 0x42F0E1EBA9EA3693, 0, false, 0⟩
/-- ALG 3, CRC-16/CCITT-FALSE. -/
def crc16 : CrcAlg := ⟨16, 0x1021, 0xFFFF, false, 0⟩

/-- The algorithm an ALG code names (R420). -/
def crcAlg (alg : Nat) : CrcAlg :=
  match alg with
  | 0 => crc32Iso
  | 1 => crc32c
  | 2 => crc64
  | _ => crc16

/-- `n` single-bit steps of the shift register. -/
def crcSteps (a : CrcAlg) : Nat → Nat → Nat
  | 0, r => r
  | n + 1, r =>
    crcSteps a n (if a.refl then (if r % 2 = 1 then (r / 2) ^^^ a.poly else r / 2)
      else (if r / 2 ^ (a.width - 1) % 2 = 1 then (r * 2 % 2 ^ a.width) ^^^ a.poly else r * 2 % 2 ^ a.width))

/-- One byte enters the running value RUN (R420). -/
def crcByte (a : CrcAlg) (run : Nat) (b : Byte) : Nat :=
  crcSteps a 8 (if a.refl then run ^^^ b.toNat else run ^^^ (b.toNat * 2 ^ (a.width - 8)))

/-- A byte string enters RUN in ascending order (R420). -/
def crcRun (a : CrcAlg) (run : Nat) (bytes : List Byte) : Nat := bytes.foldl (crcByte a) run

/-- The check value of a byte string from Init: RUN XOR XorOut (R420). -/
def crcOf (a : CrcAlg) (bytes : List Byte) : Nat := crcRun a a.init bytes ^^^ a.xorOut

/-- CRC-32C with a fold word processed first (R421). -/
def crc32cFold (fold : List Byte) (bytes : List Byte) : Nat := crcOf crc32c (fold ++ bytes)

end Sys2Proof.Machine
end

