-- ==== Sys2Proof/Machine/Sparse.lean ====
section
/-! DEFINITION. Sparse storage: a list of key and value pairs in one canonical form. Keys rise strictly and no entry
holds zero, which is what an unlisted key reads as; so equal contents are equal lists. Memory, the register file and the
model's internal arrays are all held so. -/
namespace Sys2Proof.Machine

/-- What key `k` reads as: its entry, or zero. -/
def sget {w : Nat} : List (Nat × BitVec w) → Nat → BitVec w
  | [], _ => 0
  | (a, v) :: rest, k => if k = a then v else if k < a then 0 else sget rest k

/-- Key `k` now reads as `v`; writing zero removes the entry, so the canonical form is kept. -/
def sset {w : Nat} : List (Nat × BitVec w) → Nat → BitVec w → List (Nat × BitVec w)
  | [], k, v => if v = 0 then [] else [(k, v)]
  | (a, u) :: rest, k, v =>
    if k = a then (if v = 0 then rest else (k, v) :: rest)
    else if k < a then (if v = 0 then (a, u) :: rest else (k, v) :: (a, u) :: rest)
    else (a, u) :: sset rest k v

/-- The canonical form: keys strictly rising, no zero entry. -/
def swf {w : Nat} : List (Nat × BitVec w) → Bool
  | [] => true
  | [(_, v)] => v != 0
  | (a, v) :: (b, u) :: rest => v != 0 && decide (a < b) && swf ((b, u) :: rest)

/-- The entries with a key from `lo` up to but not including `hi` read as zero. -/
def sclear {w : Nat} (l : List (Nat × BitVec w)) (lo hi : Nat) : List (Nat × BitVec w) :=
  l.filter fun e => !(decide (lo ≤ e.1) && decide (e.1 < hi))

/-- The entries with a key from `lo` up to but not including `hi`. -/
def sslice {w : Nat} (l : List (Nat × BitVec w)) (lo hi : Nat) : List (Nat × BitVec w) :=
  l.filter fun e => decide (lo ≤ e.1) && decide (e.1 < hi)

/-- Keys `dst` to `dst + len − 1` take what keys `src` to `src + len − 1` read as. -/
def scopy {w : Nat} (l : List (Nat × BitVec w)) (src dst len : Nat) : List (Nat × BitVec w) :=
  (sslice l src (src + len)).foldl (fun acc e => sset acc (dst + (e.1 - src)) e.2) (sclear l dst (dst + len))

/-- The entries of a run of values from key `k` upwards. -/
def entriesFrom {w : Nat} : Nat → List (BitVec w) → List (Nat × BitVec w)
  | _, [] => []
  | k, v :: rest => if v = 0 then entriesFrom (k + 1) rest else (k, v) :: entriesFrom (k + 1) rest

/-- Keys from `lo` upwards take a run of values. -/
def sput {w : Nat} (l : List (Nat × BitVec w)) (lo : Nat) (vs : List (BitVec w)) : List (Nat × BitVec w) :=
  (l.filter fun e => decide (e.1 < lo)) ++ entriesFrom lo vs ++ l.filter fun e => decide (lo + vs.length ≤ e.1)

/-- The entries of a run of values whose keys are `stride` apart. -/
def entriesBy {w : Nat} (stride : Nat) : Nat → List (BitVec w) → List (Nat × BitVec w)
  | _, [] => []
  | k, v :: rest => if v = 0 then entriesBy stride (k + stride) rest else (k, v) :: entriesBy stride (k + stride) rest

/-- Keys `lo`, `lo + stride` and so on take a run of values; no other key of their range is in use. -/
def sputBy {w : Nat} (l : List (Nat × BitVec w)) (stride lo : Nat) (vs : List (BitVec w)) : List (Nat × BitVec w) :=
  (l.filter fun e => decide (e.1 < lo)) ++ entriesBy stride lo vs
    ++ l.filter fun e => decide (lo + stride * vs.length ≤ e.1)

/-- The values of `n` keys `stride` apart from key `k`, read off a list whose first keys are not below `k`. -/
def sreadBy {w : Nat} (stride : Nat) : Nat → Nat → List (Nat × BitVec w) → List (BitVec w)
  | 0, _, _ => []
  | n + 1, k, [] => 0 :: sreadBy stride n (k + stride) []
  | n + 1, k, (a, v) :: rest =>
    if a = k then v :: sreadBy stride n (k + stride) rest else 0 :: sreadBy stride n (k + stride) ((a, v) :: rest)

end Sys2Proof.Machine
end

