-- ==== Sys2Proof/Machine/State.lean ====
section
/-! DEFINITION. The state of the W8: the register file, the memories, everything the spec gives the module beside its
registers, what it has put out, and the queue of waiting commands. Plain data throughout. -/
namespace Sys2Proof.Machine

/-- Why the machine stops. The W8 gives every command an effect, so no meaning raises a fault; the constructor stands for
the closed type the host's interface asks for (safe: it is never answered). -/
inductive Fault where
  | none
  deriving DecidableEq, Repr

/-- Why a command has no meaning. -/
inductive Refusal where
  /-- raised by the dispatch alone, for a command whose meaning is not written; safe -/
  | notModelled (mnemonic : String)
  deriving DecidableEq, Repr

/-- A position of the master raster: master frame, master line and grain (R14, R23). -/
structure Stamp where
  frame : Nat
  line : Nat
  grain : Nat
  deriving DecidableEq, Repr

/-! ### What the module puts out -/

/-- What the module puts out, oldest first: reply records (R83), mirror blocks (R44), other posted writes to host memory,
MSI-X messages (R54), the results of register reads and of BAR 2 reads, a BAR 2 read whose data is poisoned (R376) with its
length, bus errors, completer aborts. -/
inductive Output where
  | reply (ring : Nat) (addr : Nat) (seq : W32) (status : Nat) (gen : Nat) (detail : Nat) (time : W64) (word0 word1 : W64)
  | mirror (f : Nat) (addr : Nat) (block : List Byte)
  | hostWrite (f : Nat) (addr : Nat) (bytes : List Byte)
  | msix (f : Nat) (vector : Nat)
  | readValue (agent : Nat) (addr : Nat) (value : W64)
  | readData (f : Nat) (bytes : List Byte)
  | poisoned (f : Nat) (len : Nat)
  | busError (agent : Nat) (addr : Nat)
  | completerAbort (f : Nat)
  | contact (name : String) (level : Nat)
  deriving DecidableEq, Repr

/-! ### Packets, caravans and replies -/

/-- A packet that has passed its framing checks, kept while it waits or its reply is owed: its ring, sequence number,
opcode, target, caravan ID, the MSI-X flag, the function's generation when it was read (R58, R83), how many resets its ring
had seen then (R59), whether a log record is due for it and whether that record may use the reserve (R438, R441), and its
payload. -/
structure Origin where
  ring : Nat
  seq : W32
  opcode : Nat
  target : W32
  caravan : W32
  msix : Bool
  gen : Nat
  epoch : Nat
  logged : Bool
  reserve : Bool
  payload : List Byte
  deriving DecidableEq, Repr

/-- The words of a reply (R83). -/
structure Answer where
  status : Nat
  detail : Nat
  word0 : W64
  word1 : W64
  deriving DecidableEq, Repr

/-- Where a caravan stands (R92 to R106). -/
inductive CarState where
  | opened | poisoned | stub | committed | ready | landed
  deriving DecidableEq, Repr

/-- A caravan, or an immediate packet carried as one of a single member (R93). `members` are in member order; `fail` is the
status, detail and index of the first failed member (R95). -/
structure Caravan where
  ring : Nat
  id : W32
  state : CarState
  members : List Origin
  count : Nat
  fail : Option (Nat × Nat × Nat)
  lastFrame : Nat
  commit : Stamp
  frame : Nat
  named : Option Nat
  slides : Nat
  limit : Nat
  fences : List (Nat × Nat)
  last : Option Origin
  landedAt : Stamp
  awaits : List Nat
  deriving DecidableEq, Repr

/-- Packet service: per ring the doorbell tail, the doorbells not yet read up to with their stamps (R97), whether reading
stopped for reply space (R76), the deferred replies it owes and the resets it has seen; the caravans, committed ones in order of commit; a pending
PKT_CTRL (R107) and a pending margin (R89). -/
structure PktState where
  tails : List Nat
  stopped : List Bool
  owed : List Nat
  epochs : List Nat
  bells : List (List (Nat × Stamp))
  caravans : List Caravan
  ctrl : Option Nat
  margin : Option Nat
  deriving DecidableEq, Repr

/-! ### Wall time -/

/-- A raster asked for and not yet in effect (R15); `origin` is the RASTER_SET it answers, none for an APPLY. -/
structure RasterReq where
  num : Nat
  den : Nat
  lines : Nat
  audNum : Nat
  audDen : Nat
  origin : Option Origin
  deriving DecidableEq, Repr

/-- The WALL block beside its registers: staged register values (R31), the pending raster and sync settings, the latched
upper words of R32, and the lock loop (R18 to R22): whether a last reference point is known, the run of references that
meet the lock criterion, the run of missing or invalid ones, whether the first acquisition is done, the last 64 frequency
offsets, the phase error still to be slewed (in 1/16,000,000 grain), the phase error by which the next master frame is cut
or extended and that by which the current one is (grains, R22), the start of the last holdover and whether HOLDOVER_LIMIT has been raised in it. -/
structure WallState where
  staged : List (Nat × Nat)
  raster : Option RasterReq
  sync : Option (List (Nat × Nat))
  nowUpper : W32
  audUpper : W32
  anchor : Bool
  goodRun : Nat
  missRun : Nat
  acquired : Bool
  freqs : List Int
  slew : Int
  jump : Int
  jumping : Int
  holdSince : Stamp
  limitRaised : Bool
  deriving DecidableEq, Repr

/-! ### Guest ports and functions -/

/-- What a tenant holds (R47): its class, the BAR 2 option, the numbers of the units granted to it, its Ember store bytes,
MSI-X vectors, shares and the shares taking effect at the next master frame start (R49). -/
structure Tenant where
  cls : Nat
  bar2 : Bool
  contexts : List Nat
  heads : List Nat
  embers : Nat
  pipes : List Nat
  wbs : List Nat
  queues : List Nat
  mailboxes : List Nat
  locks : List Nat
  touches : List Nat
  haptics : List Nat
  streams : List Nat
  tones : List Nat
  emberBase : Nat
  emberBytes : Nat
  vectors : Nat
  shares : List Nat
  nextShares : List Nat
  deriving DecidableEq, Repr

/-- A function reset (R55 to R60): waiting for its 16 µs spacing, draining (class L) or past the drain; the source, the
requests merged into it (R58), and the replies and the TENANT_DESTROY that follow it. -/
inductive ResetPhase where
  | waiting | draining | running
  deriving DecidableEq, Repr

structure FnReset where
  phase : ResetPhase
  source : Nat
  merged : Nat
  replies : List Origin
  destroy : Option Origin
  deriving DecidableEq, Repr

/-- A function beside its BAR 0 registers: its tenant, a reset in progress, whether the 16 µs after its last reset still
run (R57), a DRAM clear under way for a destroyed tenant (R50: base and size in 2 MiB units), whether a mirrored field has
changed in this grain (R44), the vectors to be signalled after the mirror block (R54, R83), and whether the tenant that acts on
its alternate is to return at the next master frame start (R68). -/
structure FnState where
  tenant : Option Tenant
  reset : Option FnReset
  spacing : Bool
  clearing : Option (Nat × Nat × Option Origin)
  mirrorDue : Bool
  vectors : List Nat
  returning : Bool
  deriving DecidableEq, Repr

/-- A host port: VF Enable and NumVFs (R39), whether its link is out of L0, and whether no heartbeat has reached it since it
was lost (R66, R69). -/
structure PortState where
  vfEnable : Bool
  numVfs : Nat
  linkOut : Bool
  heartbeatOut : Bool
  deriving DecidableEq, Repr

/-! ### Mailboxes and report queues -/

/-- A report queue beside its registers (R350 to R356): its packets, oldest first, the first of them perhaps partly taken;
the items lost since the last break item; and the items lost since cold reset. -/
structure QueueState where
  packets : List (List W64)
  broken : Nat
  lostTotal : Nat
  deriving DecidableEq, Repr

/-- The MBQ block beside its registers: the unread messages of each mailbox, oldest first (R344), the report queues, and
the items each core in each world has staged for a queue (R351). -/
structure MbqState where
  boxes : List (List (List Byte))
  queues : List QueueState
  staged : List (Nat × List W64)
  deriving DecidableEq, Repr

/-! ### Peat log, events and supervision -/

/-- A reply that waits for its record (R438), with the WALLTIME it carries (R83). -/
structure DueReply where
  origin : Origin
  answer : Answer
  time : W64
  deriving DecidableEq, Repr

/-- A log record decided and not yet written (R434, R445): all but its number, boot count and CRC. -/
structure PeatRec where
  time : W64
  origin : Nat
  kind : Nat
  gen : Nat
  status : Nat
  aux : Nat
  caravan : W32
  target : W32
  data : List Byte
  order : Nat
  reserve : Bool
  reply : Option DueReply
  deriving DecidableEq, Repr

/-- The peat log beside its registers: the MRAM bank (R434), the records queued (R445), the room held for decided packets
(R438), the register writes counted in scope per ring (R439), the counts of the next summary (R440) and the once-only
marks of R441 to R443. `elapsed` is the nominal time since the last summary in ps (R440). An export in progress is its first
record, count, destination and the packet it answers. -/
structure PeatState where
  bank : List Host.Cell
  queue : List PeatRec
  held : Nat
  inScope : List Nat
  flips : List Nat
  violations : Nat
  flipFns : Nat
  unwritten : Nat
  elapsed : Nat
  raised75 : Bool
  raised90 : Bool
  raisedFull : Bool
  raisedOut : Bool
  raisedWrap : Bool
  exports : List (Nat × Nat × Nat × Origin)
  deriving DecidableEq, Repr

/-- An event of the current grain: its number, its occurrences so far and the detail of the first (R453), and whether the
supervisor has judged it and its record has been routed. -/
structure EventNow where
  event : Nat
  count : Nat
  detail : Nat
  judged : Bool
  routed : Bool
  deriving DecidableEq, Repr

/-- An event record (R454). -/
structure EventRec where
  time : W64
  event : Nat
  count : Nat
  detail : Nat
  deriving DecidableEq, Repr

/-- The events raised in the current grain, the route registers as they stood before writes of this grain (R458), the
records that wait for delivery to each function (R457), whether EVT_RING_LOST has been raised for each internal ring since it
last had space (R455), and the records of a warm reset's own events, which are routed at its completion (R499). -/
structure EvtState where
  grain : List EventNow
  oldRoutes : List (Nat × W64)
  outbound : List (List EventRec)
  lostRaised : List Bool
  held : List EventRec
  deriving DecidableEq, Repr

/-- The supervisor beside its registers (R459 to R469): the grains in which each policy entry's event occurred, actions 4
and 5 that wait to be carried out (a reset code), HEALTH_A's output level, whether it is to stop, the verified frames in a row, whether this frame has been counted among them, the verdicts of each head in this frame and whether all were 1, HEALTH_B's sequence number, the
lockstep halt, the grains at which the policy alarm was last set and the watchdog interval began, and the highest rank
of the actions applied in this grain (R465). -/
structure SupvState where
  history : List (List Stamp)
  reset : Option Nat
  levelA : Bool
  stopA : Bool
  cleanFrames : Nat
  cleanNow : Bool
  frameVerdicts : List (Nat × Bool)
  seqB : Nat
  halted : Bool
  alarmAt : Stamp
  kickAt : Stamp
  grainRank : Nat
  deriving DecidableEq, Repr

/-! ### Worlds, check units, power and modes -/

/-- A regime switch under way (R401, R402): to the watermark regime (check) or to the owner table (write). -/
structure WorldState where
  wInForce : Nat
  switching : Option Bool
  cpcDue : List (Nat × Nat)
  cpcSlots : List Nat
  fuseBlow : List (Nat × Nat × Origin)
  rootHash0 : Bool
  deriving DecidableEq, Repr

/-- A check-unit job (R423 to R428). `owner` is a function, 32 the sealed ring, 33 the open ring, 34 direct use; `index` the
descriptors completed, `stop` the completion detail of the descriptor it stopped at, `arrived` its place in the queue. -/
structure CuJob where
  number : Nat
  owner : Nat
  gen : Nat
  alg : Nat
  fold : Bool
  cont : Bool
  foldWord : Nat
  desc : Nat
  count : Nat
  index : Nat
  run : Nat
  bytes : Nat
  record : Nat
  ue : Bool
  stop : Option Nat
  arrived : Nat
  deriving DecidableEq, Repr

/-- The check units: queued jobs, the job of each unit, the next job number and arrival number, the function served last,
and each function's pool time used in this and in the last complete master frame, in 1/8 ns (R425, R427, R432). -/
structure CuState where
  queue : List CuJob
  units : List (Option CuJob)
  nextNumber : Nat
  arrivals : Nat
  lastServed : Nat
  used : List Nat
  usedLast : List Nat
  deriving DecidableEq, Repr

/-- The power sequence (R483 to R492): the module at work; a slot of a start running (0 to 16); the boot ROM at work after
them; the rails off and waiting for the 1 s retry; off until RESET_N, WAKE_N or a return of VMAIN; without any supply; off
after a thermal trip; Dormant; or on its way into Dormant after the durable reply (R487). -/
inductive PowerStage where
  | working
  | slot (n : Nat) (cycled : Bool)
  | boot
  | retry
  | lockout
  | unpowered
  | tripped
  | dormant
  | entering
  deriving DecidableEq, Repr

/-- A mode change decided and not yet in effect (R476, R477): the mode, the packet it answers and whether its regime
switch, if it needs one, is over. -/
structure PendingMode where
  mode : Nat
  origin : Option Origin
  switching : Bool
  deriving DecidableEq, Repr

/-- A forced mode change that waits (R479): the mode, the policy entry and action, or none for lost channels, and whether it
came while a regime switch ran, so that it follows the requested mode by one master frame. -/
structure ForcedMode where
  mode : Nat
  entry : Option (Nat × Nat)
  after : Bool
  deriving DecidableEq, Repr

/-- A warm reset in progress (R497): its code, whether firmware is ready, and whether Recovery is the mode at completion. -/
structure WarmReset where
  code : Nat
  ready : Bool
  recovery : Bool
  deriving DecidableEq, Repr

/-- A RECOVERY_LOAD at work (R504): the slot, its length, the source address and the packet it answers. -/
structure RecoveryJob where
  slot : Nat
  length : Nat
  source : Nat
  origin : Origin
  deriving DecidableEq, Repr

/-- Power, reset and modes beside the SYS registers (R482 to R507): the stage of the power sequence; whether VMAIN and VSTBY
are good; consecutive rail faults, and the slot of one still to be reported (R485); a latched wake (R488); the mode change
pending, the forced change that waits and the warm reset in progress; the straps as sampled; whether Recovery is the boot
ROM's, and the cause with which Recovery is entered next; whether slot B was used; whether images of kinds 3 and 4 have
passed; the version of the running firmware (R89); when the watchdog of R493 was last restarted; the blocks whose pending
release has been reported stuck (R501); the boot flash (R414); GPIO releases that take effect at the next master frame start,
with the packets they answer (R502); and the RECOVERY_LOADs at work. -/
structure PowerState where
  stage : PowerStage
  vmainGood : Bool
  vstbyGood : Bool
  railFaults : Nat
  railFaultSlot : Option Nat
  wake : Option Nat
  pending : Option PendingMode
  forced : Option ForcedMode
  warm : Option WarmReset
  recN : Bool
  bootRom : Bool
  cause : Nat
  slotB : Bool
  imagesPassed : Bool
  firmware : W32
  ccKick : Stamp
  stuck : Nat
  flash : List Host.Cell
  gpioDue : List (Nat × Option Origin)
  loads : List RecoveryJob
  deriving DecidableEq, Repr

/-! ### Display -/

/-- The timing of a head (R112). -/
structure Timing where
  hactive : Nat
  htotal : Nat
  hfp : Nat
  hsw : Nat
  vactive : Nat
  hl : Nat
  vfp : Nat
  vsw : Nat
  k : Nat
  o : Nat
  latch : Nat
  deriving DecidableEq, Repr

/-- What the checks of one rectangle saw in a head frame: whether it is to be compared (R191), whether it meets a hatch pixel
(R196), the CRC of the composed picture in it (R192) and the expected value. -/
structure RectSeen where
  on : Bool
  hatched : Bool
  crc : Nat
  expected : Nat
  deriving DecidableEq, Repr

/-- A head frame: the stamp R25 gives its head line 0 and its number k; what it shows (HEAD_n_SHOW) and the head line from which it
carries the Ash card; the path in use (R194); whether it is a takeover transit frame, a receiver's self-test frame, a frame
in Banked, cut short (R115), the priming frame of a takeover (R133), one in which a layer underran (R165) or was stale
(R181), and one whose path gave no result (R199); the results of the C0 checks; whether its verdict has been made; and what
its rectangles saw with its frame CRC, once measured. -/
structure FrameFacts where
  start : Stamp
  kf : Nat
  show_ : Nat
  ashFrom : Option Nat
  path : Nat
  transit : Bool
  testing : Bool
  banked : Bool
  cut : Bool
  prime : Bool
  off : Bool
  stale : Bool
  lost : Bool
  planes : List (Option Bool)
  judged : Bool
  seen : Option (List RectSeen × Nat)
  deriving DecidableEq, Repr

/-- A head beside its registers: the timing it runs with; whether it stops at the end of its frame; the arm instant since EN
was set (R138); the HEAD_ENABLE packets that wait for its first frame; its current frame and an earlier one whose verdict is
still to come (R199); the relock step it has yet to absorb (grains by which its lines come early) and whether it absorbs that
step in the next frame only (R115); the head line at which a DSI command-mode
transfer began (R122); whether its next frame is the first that a newly connected engine sends (R133); the run of mismatches of each rectangle (R201), the run of matches of each plane and the plane that
caused the hold; whether a hold has ended and the picture returns, and the INTEG_RESUME packets that wait for it; and the
sink opinion (R198): whether the sink supports it, the head frames since its last sample, the frame CRC of the frame before
and the last steady sample. -/
structure HeadState where
  tm : Timing
  ending : Bool
  armSeen : Option Stamp
  waiters : List Origin
  frame : FrameFacts
  last : Option FrameFacts
  shift : Int
  carry : Bool
  xfer : Option Nat
  transitNext : Bool
  rectRuns : List Nat
  matchRuns : List Nat
  holdPlane : Nat
  resuming : Bool
  resumers : List Origin
  sinkCrcs : Option Bool
  sinceSample : Nat
  prevCrc : Option Nat
  sample : Option (Nat × W64)
  deriving DecidableEq, Repr

/-- A port beside its registers: whether a plug has been decided (R116), the sink's highest rate and lane count, the rate and
lanes of a training in progress, whether training has failed at every rate, the SINK_READ packets that wait (R119), the
consecutive TE timeouts and head frames with an edge in the wait window, and whether this frame has had one (R123), whether its GPIO contact is held as TE (R124), and whether a receiver self-test is
due with the RB_SELFTEST packets that wait for it (R197). -/
structure LinkState where
  plugged : Bool
  sinkRate : Nat
  sinkLanes : Nat
  training : Option (Nat × Nat)
  failed : Bool
  aux : List Origin
  teMisses : Nat
  teHits : Nat
  teSeen : Bool
  teHeld : Bool
  rbDue : Bool
  rbWaiters : List Origin
  deriving DecidableEq, Repr

/-- Where a restore stands (R135): self-test; waiting to load at an arm instant; waiting for its priming frame; in it. -/
inductive RestorePhase where
  | test | load | prime | primed
  deriving DecidableEq, Repr

/-- The spare engine beside YMX_SPARE (R131 to R136): whether the head taken over was mirrored, so that no priming is needed;
whether the arm instant that loads it has passed; whether the priming frame has begun; the SPARE_ACTION that waits; a
restore; a spare test; the runs of frames in which the live engine alone, and engine 8 alone, failed (R132). -/
structure SpareState where
  nominated : Bool
  loaded : Bool
  primed : Bool
  origin : Option Origin
  restore : Option (Nat × RestorePhase × Origin)
  test : Option Origin
  liveRun : Nat
  spareRun : Nat
  deriving DecidableEq, Repr

/-- A layer pipe beside its registers: the head line and pixel from which its layer is transparent in this head frame (R142,
R165, R167), whether it is hatched in this frame (R183), whether it was stale when last evaluated in a row of evaluated
frames (R184), whether it has been evaluated in this frame, and the RASTER_GEN recorded with its content time (R181). -/
structure PipeState where
  offAt : Option (Nat × Nat)
  hatched : Bool
  stale : Bool
  evaluated : Bool
  rasterGen : Nat
  deriving DecidableEq, Repr

/-- A write-back unit beside its registers (R171): whether a one-shot capture is due, and whether its shadow was written
since the latch that set it; the head frames since the latch; the stamp of a capture in progress. -/
structure WbState where
  shot : Bool
  touched : Bool
  frames : Nat
  capture : Option Stamp
  deriving DecidableEq, Repr

/-- The display: heads, ports, the spare, the pipes, the write-back units, the Ember loads in progress (offset, length,
source, packet), and HPD events held back by a warm reset (R137). -/
structure DisplayState where
  heads : List HeadState
  links : List LinkState
  spare : SpareState
  pipes : List PipeState
  wbs : List WbState
  emberLoads : List (Nat × Nat × Nat × Origin)
  lateEvents : List (Nat × Nat)
  deriving DecidableEq, Repr

/-! ### Graphics -/

/-- A rendering pass that runs (R233 to R252): its descriptor's address and bytes, whether it is tiled, its selection step,
whether the signature table of each colour attachment is usable, and what its statistics count: flushes, primitives
submitted and culled, samples shaded, the peak of bin bytes, the stamp of BEGIN_PASS and the cluster time used, in
cluster-grains. -/
structure PassRun where
  desc : Nat
  bytes : List Byte
  tiled : Bool
  step : Nat
  usable : List Bool
  flushes : Nat
  prims : Nat
  culled : Nat
  frags : Nat
  bin : Nat
  begun : Stamp
  used : Nat
  deriving DecidableEq, Repr

/-- A graphics context beside its registers: the command buffers it runs, innermost first, each as the address of its next
packet and its end (R214), and whether a queue entry is loaded; the objects bound by SET_PIPELINE, SET_BUFFERS, SET_DYNAMIC
and SET_DESCRIPTORS 0 to 7; its open pass; the pass history, most recent first, each with the runs left to which step 6
applies (R236); fence signals not yet made; the fence it waits for; when it was last chosen; and the cluster-grains it has
used in this master frame (R218). -/
structure GfxCtx where
  stack : List (Nat × Nat)
  loaded : Bool
  bound : List Nat
  pass : Option PassRun
  history : List (Nat × Nat)
  signals : List (Nat × Bool)
  waiting : Option (Nat × Nat)
  chosenAt : Stamp
  used : Nat
  deriving DecidableEq, Repr

/-- Where the composition job of a head stands in a master frame (R222 to R225). -/
inductive JobPhase where
  | none | awaiting | ready | swapped
  deriving DecidableEq, Repr

/-- The composition job of a head: its phase, whether it needs all clusters (R223), the surface it writes (0 or 1), its
content time, and whether its tenant's reset keeps it from starting until a master frame start (R226). -/
structure CompJob where
  phase : JobPhase
  full : Bool
  target : Nat
  ctime : W64
  barred : Bool
  deriving DecidableEq, Repr

/-- A shader compilation (R227). -/
structure CompileJob where
  f : Nat
  number : Nat
  out : Nat
  capacity : Nat
  record : Nat
  deriving DecidableEq, Repr

/-- A touch pick in flight (R264 to R268): port, contact, whether the contact has triggered a zone (R288), function, launch stamp and position, and the registration's
scene, transform, budgets and queue as they stood at its launch. -/
structure Pick where
  port : Nat
  contact : Nat
  zoned : Bool
  f : Nat
  at_ : Stamp
  px : Nat
  py : Nat
  scene : Nat
  xf : List W32
  nodes : Nat
  tris : Nat
  queue : Nat
  deriving DecidableEq, Repr

/-- The graphics engine beside its registers: contexts 0 to 63; the context last chosen at each guest priority (R217); a
preemption under way, whole or partial (R219, R222); the clusters the running guest context holds and the stamp up to which
cluster time has been counted; the heads' jobs and the one in progress; compilations and the next job number; picks in
flight. -/
structure GfxState where
  ctxs : List GfxCtx
  last : List Nat
  preempting : Option Bool
  clusters : Nat
  countedTo : Stamp
  jobs : List CompJob
  current : Option Nat
  compiles : List CompileJob
  nextCompile : Nat
  picks : List Pick
  deriving DecidableEq, Repr

/-! ### Haptics -/

/-- A play of an effect (R303 to R307): the copy of its record and its number; whether it started urgent; the amplitude of its
overdrive; the direction of the half-cycle driven now; half-cycles ended and audio samples passed since the drive began; the
repeats left; the back-EMF of its last four half-cycles, newest first; the runs of stalled and of clamped half-cycles (R310);
and whether HAP_ILIM has been raised for it (R299). -/
structure HapPlay where
  effect : Nat
  record : List Byte
  urgent : Bool
  od : Nat
  positive : Bool
  half : Nat
  pos : Nat
  left : Nat
  vbs : List Nat
  stalled : Nat
  clamped : Nat
  limited : Bool
  deriving DecidableEq, Repr

/-- A haptic channel beside its registers: its play; the pending effect with the copy of its record; the amplitude and the
direction of motion of the last float window (R300); the tracked half-period in units of the module's own (R304), 0 while
none is tracked; the drive level in mV (R299); whether a resistance check runs, and the HAP_CLEAR packets that wait for it
(R311). -/
structure HapChan where
  play : Option HapPlay
  pending : Option (Nat × List Byte)
  vb : Nat
  motion : Bool
  period : Nat
  level : Int
  checking : Bool
  clears : List Origin
  deriving DecidableEq, Repr

/-- A trigger of the current grain (R308): its channel, effect and urgency; its source (0 zone, 1 pick, 2 packet), the touch
port and the zone or contact; and the HAP_PLAY that waits for its outcome. -/
structure HapTrigger where
  channel : Nat
  effect : Nat
  urgent : Bool
  source : Nat
  port : Nat
  key : Nat
  origin : Option Origin
  deriving DecidableEq, Repr

/-- The haptic channels and the triggers of the current grain. -/
structure HapState where
  chans : List HapChan
  due : List HapTrigger
  deriving DecidableEq, Repr

/-! ### Touch -/

/-- A contact (R280, R281): its identifier; its last centroid in 1/256 electrode; its last panel position and peak delta; its
consecutive misses; the electrodes of its peak node; whether it is in its first touch frame, whether LONG_TOUCH has been raised
since the last one, and whether it has triggered a zone. -/
structure Contact where
  id : Nat
  cx : Nat
  cy : Nat
  x : Nat
  y : Nat
  strength : Nat
  misses : Nat
  drive : Nat
  sense : Nat
  fresh : Bool
  long : Bool
  zoned : Bool
  deriving DecidableEq, Repr

/-- From what the next window takes the baseline when a port has started (R283): the factory baseline if one is stored, a
snapshot, or the baseline held through a warm reset. -/
inductive TouchStart where
  | factory | snapshot | held
  deriving DecidableEq, Repr

/-- A baseline store at work (R284): the windows run, the sums of the set now run, the means of the sets done, the active set
to return to and the packets it answers. -/
structure BaselineStore where
  windows : Nat
  sums : List Nat
  means : List Nat
  home : Nat
  origins : List Origin
  deriving DecidableEq, Repr

/-- A touch port beside its registers: its contacts; those to be reported up in the next report (R296); per node the
consecutive negative windows (R278), the windows of recovery left (R282) and, for a suspect node, one more than its consecutive
quiet windows (R283); the excluded electrodes; the consecutive windows in which each drive line (0 to 63) and sense line (from
64) read open, and the drive monitor's readings of the pass under way (R290); the start that the next window completes, whether
the first report is still to come, and whether a warm reset keeps the port from scanning (R293); a hop decided and not yet in
effect, the set a hop left until the first window on the new one, whether the next report is the first after it, and the
consecutive noisy listen windows (R285, R286); the self-tests that wait for their result, and a baseline store. -/
structure TouchPort where
  contacts : List Contact
  ups : List Contact
  negative : List (Nat × BitVec 8)
  recovering : List (Nat × BitVec 8)
  suspect : List (Nat × BitVec 8)
  exDrive : Nat
  exSense : Nat
  openRuns : List (Nat × BitVec 8)
  monitor : List Nat
  start : Option TouchStart
  firstReport : Bool
  paused : Bool
  hop : Option Nat
  hopFrom : Option Nat
  hopped : Bool
  noisyRun : Nat
  tests : List Origin
  store : Option BaselineStore
  deriving DecidableEq, Repr

/-- The touch ports, and the factory baselines in flash: node i of set c of port n under key (4n + c) × 7,168 + i (R284). -/
structure TouchState where
  ports : List TouchPort
  factory : List (Nat × W16)
  deriving DecidableEq, Repr

/-! ### Audio -/

/-- A mix bus beside its registers: the gain code in force and the samples a new one has waited for a crossing (R327); the
bypass mode in force, the step of a change of it (0 none, 1 muting, 2 to switch, 3 returning) and the samples it has waited
(R328); the last samples of the processing block (8), the delay history, newest first, the equaliser states (x1, x2, y1, y2 of
each band) and the look-ahead (32); the limiter's gain for each sample of the look-ahead in 1/2^24, and whether it reduces; the
position of the duck ramp and whether the bus is ducked (R332); the signals ahead of the gain and
ahead of a switching mute, one sample back, and the output; and the sample at which BUS_CLIP was last raised. -/
structure AudBus where
  gain : Nat
  gainWait : Nat
  bypass : Bool
  phase : Nat
  wait : Nat
  block : List Int
  hist : List Int
  eq : List (List Int)
  look : List Int
  plan : List Nat
  reducing : Bool
  duck : Nat
  ducked : Bool
  pre : Int
  last : Int
  out : Int
  clipAt : Option Nat
  deriving DecidableEq, Repr

/-- A sink beside its register: the bus and gain code in force, the step of a move to another bus (as for a bus), the samples
waited, the signal one sample back, and the samples on their way to the contact (R326). -/
structure AudSink where
  bus : Nat
  gain : Nat
  phase : Nat
  wait : Nat
  last : Int
  path : List Int
  deriving DecidableEq, Repr

/-- A guest stream beside its registers (R330): whether it has begun; the sample at which its sample 0 is due and the number of
its next sample; the bytes written ahead of its read position and the WPOS they were counted to; whether a run of missing
samples is under way; the samples since the last position report, and whether an underrun occurred since it. -/
structure AudStream where
  on : Bool
  start : Nat
  next : Nat
  ahead : Int
  wpos : Nat
  missing : Bool
  period : Nat
  underrun : Bool
  deriving DecidableEq, Repr

/-- A tone generator beside its registers (R331): the sample at which a start is due; the part it plays (0, 1, 2), the samples
left in it and the cadences left (0 for no end); its phase in 1/48,000 of a cycle; the samples that a stop has waited for a
crossing; and its last sample. -/
structure AudTone where
  due : Option Nat
  part : Nat
  left : Nat
  repeats : Option Nat
  phase : Nat
  stopping : Option Nat
  last : Int
  deriving DecidableEq, Repr

/-- The audio engine beside its registers: the number of the last sample mixed; buses, sinks, streams, tones; per crosspoint
(16 × source + bus) the gain code in force, and the samples a new one has waited; per bus and tone (8 × bus + tone) the
position of the exclusive-tone ramp; the sources one sample back; the line and TDM inputs on their way to the matrix; and the
sample at which LINE_CLIP was last raised for each line input. -/
structure AudState where
  sample : Nat
  buses : List AudBus
  sinks : List AudSink
  streams : List AudStream
  tones : List AudTone
  gains : List (Nat × BitVec 8)
  waits : List (Nat × BitVec 16)
  exclusive : List (Nat × BitVec 16)
  sources : List Int
  lines : List (List Int)
  tdm : List (List Int)
  clips : List (Option Nat)
  deriving DecidableEq, Repr

/-! ### Memory system -/

/-- Where a pending change of set point stands (R383): it waits; line L − 6 has passed with it pending; issue has stopped at
line L. -/
inductive ChangePhase where
  | waiting | armed | stopped
  deriving DecidableEq, Repr

/-- A pending change of set point (R383): where it stands, the stamp of line L at which issue stopped, and the packet it
answers. -/
structure SetPointChange where
  phase : ChangePhase
  line : Stamp
  origin : Option Origin
  deriving DecidableEq, Repr

/-- The DRAM controller beside its registers: a pending change; the set points still to be trained, each with the MEM_RETRAIN
it answers, none for boot training (R378, R379); the channels in a period of forced refresh (R381); whether a slice expiry waits
for the end of the change (R383); and the bytes each function read and wrote in the last complete second (R392). -/
structure DramcState where
  change : Option SetPointChange
  training : List (Nat × Option Origin)
  forced : Byte
  slice : Bool
  traffic : List (W64 × W64)
  deriving DecidableEq, Repr

/-! ### The whole -/

/-- The state of the W8. `regs` holds, for each register that differs from its Cold value, the bits in which it differs
(so that an unlisted register reads its Cold value); `mem` the DRAM, the Ember store, the sealed SRAM and the local SRAM
by internal address (an unlisted byte reads zero); `staged` the sealed writes of TOUCH, HAP and pick registers that take
effect at the next master frame start, as entries of the register file (R264, R294, R314). -/
structure State where
  variant : Nat
  now : Stamp
  regs : List (Nat × W64)
  mem : List Host.Cell
  wall : WallState
  fns : List FnState
  ports : List PortState
  pkt : PktState
  mbq : MbqState
  peat : PeatState
  evt : EvtState
  supv : SupvState
  world : WorldState
  cu : CuState
  power : PowerState
  display : DisplayState
  gfx : GfxState
  hap : HapState
  touch : TouchState
  aud : AudState
  dramc : DramcState
  staged : List (Nat × W64)
  out : List Output
  freeCtr : Nat
  pending : List Instr
  deriving DecidableEq, Repr

/-! ### The module after reset -/

/-- The empty function state, for numbers that name no function. -/
def FnState.blank : FnState := ⟨none, none, false, none, false, [], false⟩

/-- The timing of a head never configured. -/
def Timing.zero : Timing := ⟨0, 0, 0, 0, 0, 0, 0, 0, 1, 0, 0⟩

/-- No head frame. -/
def FrameFacts.blank : FrameFacts :=
  { start := ⟨0, 0, 0⟩, kf := 0, show_ := 0, ashFrom := none, path := 0, transit := false, testing := false, banked := false,
    cut := false, prime := false, off := false, stale := false, lost := false, planes := [], judged := true, seen := none }

/-- A head at cold reset, beside its registers. -/
def HeadState.cold : HeadState :=
  { tm := Timing.zero, ending := false, armSeen := none, waiters := [], frame := FrameFacts.blank, last := none, shift := 0, carry := false,
    xfer := none, transitNext := false, rectRuns := List.replicate 16 0, matchRuns := [0, 0], holdPlane := 0, resuming := false, resumers := [],
    sinkCrcs := none, sinceSample := 0, prevCrc := none, sample := none }

/-- A port at cold reset, beside its registers. -/
def LinkState.cold : LinkState :=
  { plugged := false, sinkRate := 0, sinkLanes := 0, training := none, failed := false, aux := [], teMisses := 0, teHits := 0, teSeen := false,
    teHeld := false, rbDue := false, rbWaiters := [] }

/-- The spare at cold reset. -/
def SpareState.cold : SpareState :=
  { nominated := false, loaded := false, primed := false, origin := none, restore := none, test := none, liveRun := 0,
    spareRun := 0 }

/-- A pipe at cold reset, beside its registers. -/
def PipeState.cold : PipeState := ⟨none, false, false, false, 0⟩

/-- A write-back unit at cold reset, beside its registers. -/
def WbState.cold : WbState := ⟨false, false, 0, none⟩

/-- The display at cold reset. -/
def DisplayState.cold : DisplayState :=
  { heads := List.replicate 8 HeadState.cold, links := List.replicate 8 LinkState.cold, spare := SpareState.cold,
    pipes := List.replicate 48 PipeState.cold, wbs := List.replicate 4 WbState.cold, emberLoads := [], lateEvents := [] }

/-- A context at cold reset, beside its registers. -/
def GfxCtx.cold : GfxCtx :=
  { stack := [], loaded := false, bound := List.replicate 11 0, pass := none, history := [], signals := [], waiting := none,
    chosenAt := ⟨0, 0, 0⟩, used := 0 }

/-- No job. -/
def CompJob.cold : CompJob := ⟨.none, false, 0, 0, false⟩

/-- The graphics engine at cold reset, beside its registers. -/
def GfxState.cold : GfxState :=
  { ctxs := List.replicate 64 GfxCtx.cold, last := [0, 0, 0], preempting := none, clusters := 12, countedTo := ⟨0, 0, 0⟩,
    jobs := List.replicate 8 CompJob.cold, current := none, compiles := [], nextCompile := 0, picks := [] }

/-- A channel at cold reset, beside its registers. -/
def HapChan.cold : HapChan :=
  { play := none, pending := none, vb := 0, motion := true, period := 0, level := 0, checking := false, clears := [] }

/-- The haptics at cold reset. -/
def HapState.cold : HapState := { chans := List.replicate 8 HapChan.cold, due := [] }

/-- A touch port at cold reset, beside its registers. -/
def TouchPort.cold : TouchPort :=
  { contacts := [], ups := [], negative := [], recovering := [], suspect := [], exDrive := 0, exSense := 0, openRuns := [],
    monitor := [], start := none, firstReport := false, paused := false, hop := none, hopFrom := none, hopped := false,
    noisyRun := 0, tests := [], store := none }

/-- The touch ports at cold reset; the factory baselines in flash are kept (R294). -/
def TouchState.cold (factory : List (Nat × W16)) : TouchState :=
  { ports := List.replicate 4 TouchPort.cold, factory := factory }

/-- A bus at cold reset, beside its registers. -/
def AudBus.cold : AudBus :=
  { gain := 231, gainWait := 0, bypass := false, phase := 0, wait := 0, block := List.replicate 8 0, hist := [],
    eq := List.replicate 5 [0, 0, 0, 0], look := List.replicate 32 0, plan := List.replicate 32 0x1000000, reducing := false,
    duck := 0, ducked := false, pre := 0, last := 0, out := 0, clipAt := none }

/-- The latency of sink `k` in samples: 14 for a line output, 6 for a speaker, 2 for a TDM slot (R326). -/
def sinkLatency (k : Nat) : Nat := if k < 4 then 14 else if k < 6 then 6 else 2

/-- A sink at cold reset. -/
def AudSink.cold (k : Nat) : AudSink :=
  { bus := 0, gain := 231, phase := 0, wait := 0, last := 0, path := List.replicate (sinkLatency k) 0 }

/-- A stream at cold reset. -/
def AudStream.cold : AudStream := ⟨false, 0, 0, 0, 0, false, 0, false⟩

/-- A tone at cold reset. -/
def AudTone.cold : AudTone := ⟨none, 0, 0, none, 0, none, 0⟩

/-- The audio engine at cold reset; crosspoints are muted (R336). -/
def AudState.cold : AudState :=
  { sample := 0, buses := List.replicate 16 AudBus.cold, sinks := (List.range 14).map AudSink.cold,
    streams := List.replicate 32 AudStream.cold, tones := List.replicate 8 AudTone.cold, gains := [], waits := [],
    exclusive := [], sources := List.replicate 50 0, lines := List.replicate 2 (List.replicate 12 0),
    tdm := List.replicate 8 (List.replicate 2 0), clips := [none, none] }

/-- The controller at cold reset, beside its registers. -/
def DramcState.cold : DramcState := ⟨none, [], 0, false, []⟩

/-- The parts of packet service at cold reset. -/
def PktState.cold : PktState :=
  { tails := List.replicate 34 0, stopped := List.replicate 34 false, owed := List.replicate 34 0, epochs := List.replicate 34 0,
    bells := List.replicate 34 [], caravans := [], ctrl := none, margin := none }

/-- The WALL block at cold reset: no reference, nothing pending. -/
def WallState.cold : WallState :=
  { staged := [], raster := none, sync := none, nowUpper := 0, audUpper := 0, anchor := false, goodRun := 0, missRun := 0,
    acquired := false, freqs := [], slew := 0, jump := 0, jumping := 0, holdSince := ⟨0, 0, 0⟩, limitRaised := false }

/-- The mailboxes and report queues at cold reset: empty. -/
def MbqState.cold : MbqState :=
  { boxes := List.replicate 64 [], queues := List.replicate 32 ⟨[], 0, 0⟩, staged := [] }

/-- The peat log over a bank, with nothing queued and nothing counted. -/
def PeatState.cold (bank : List Host.Cell) : PeatState :=
  { bank := bank, queue := [], held := 0, inScope := List.replicate 34 0, flips := [0, 0, 0, 0], violations := 0, flipFns := 0,
    unwritten := 0, elapsed := 0, raised75 := false, raised90 := false, raisedFull := false, raisedOut := false,
    raisedWrap := false, exports := [] }

/-- Events at cold reset. -/
def EvtState.cold : EvtState :=
  { grain := [], oldRoutes := [], outbound := List.replicate 32 [], lostRaised := [false, false], held := [] }

/-- The supervisor at cold reset: not halted, its outputs low. -/
def SupvState.cold : SupvState :=
  { history := List.replicate 32 [], reset := none, levelA := false, stopA := false, cleanFrames := 0, cleanNow := false,
    frameVerdicts := List.replicate 8 (0, true), seqB := 0, halted := false, alarmAt := ⟨0, 0, 0⟩, kickAt := ⟨0, 0, 0⟩,
    grainRank := 0 }

/-- The worlds at cold reset; W's Cold value is 256 units (R415, R416). -/
def WorldState.cold : WorldState :=
  { wInForce := 256, switching := none, cpcDue := [], cpcSlots := [], fuseBlow := [], rootHash0 := false }

/-- The check units at cold reset. -/
def CuState.cold : CuState :=
  { queue := [], units := List.replicate 8 none, nextNumber := 0, arrivals := 0, lastServed := 31, used := List.replicate 32 0,
    usedLast := List.replicate 32 0 }

/-- Power at the start of the power-up slots: both supplies good, no mode change pending, the straps not yet sampled. -/
def PowerState.cold (stage : PowerStage) (flash : List Host.Cell) : PowerState :=
  { stage := stage, vmainGood := true, vstbyGood := true, railFaults := 0, railFaultSlot := none, wake := none, pending := none,
    forced := none, warm := none, recN := false, bootRom := false, cause := 0, slotB := false,
    imagesPassed := false, firmware := 0, ccKick := ⟨0, 0, 0⟩, stuck := 0, flash := flash, gpioDue := [], loads := [] }

/-- The module right after power-on reset: slot 0 of the power-up sequence runs (R483), every register holds its Cold value
(R6), master frame 0 begins (R23), and DRAM, boot flash and the peat bank hold nothing (log entry 4). -/
def State.reset : State :=
  { variant := 0, now := ⟨0, 0, 0⟩, regs := [], mem := [], wall := WallState.cold, fns := List.replicate 32 FnState.blank,
    ports := List.replicate 2 ⟨false, 0, true, true⟩, pkt := PktState.cold, mbq := MbqState.cold, peat := PeatState.cold [],
    evt := EvtState.cold, supv := SupvState.cold, world := WorldState.cold, cu := CuState.cold,
    power := PowerState.cold (.slot 0 true) [], display := DisplayState.cold, gfx := GfxState.cold, hap := HapState.cold,
    touch := TouchState.cold [], aud := AudState.cold, dramc := DramcState.cold, staged := [], out := [], freeCtr := 0,
    pending := [] }

end Sys2Proof.Machine
end

