-- ==== Sys2Proof/Machine/Ops.lean ====
section
/-! DEFINITION. The named operations over registers, memory, wall time, free values and outputs. -/
namespace Sys2Proof.Machine

/-! ### Registers -/

/-- The value of a register: its Cold value but for the bits the register file lists. -/
def State.rd (s : State) (r : Reg) : W64 := sget s.regs r.addr ^^^ BitVec.ofNat 64 r.cold

/-- A register takes a value. -/
def State.wr (s : State) (r : Reg) (v : W64) : State :=
  { s with regs := sset s.regs r.addr (v ^^^ BitVec.ofNat 64 r.cold) }

/-- A register returns to its Cold value. -/
def State.cold (s : State) (r : Reg) : State := { s with regs := sset s.regs r.addr 0 }

/-- `old` with bits `lsb` to `lsb + w − 1` replaced by `v`. -/
def setField (old lsb w v : Nat) : Nat :=
  old / 2 ^ (lsb + w) * 2 ^ (lsb + w) + v % 2 ^ w * 2 ^ lsb + old % 2 ^ lsb

/-- The number in a register field. -/
def State.get (s : State) (f : RF) : Nat := (s.rd f.reg).toNat / 2 ^ f.lsb % 2 ^ f.width

/-- A register field takes a number, modulo its width. -/
def State.put (s : State) (f : RF) (v : Nat) : State :=
  s.wr f.reg (BitVec.ofNat 64 (setField (s.rd f.reg).toNat f.lsb f.width v))

/-- Whether a register field is not zero. -/
def State.flag (s : State) (f : RF) : Bool := s.get f != 0

/-- A one-bit field takes a truth value. -/
def State.putBit (s : State) (f : RF) (b : Bool) : State := s.put f (if b then 1 else 0)

/-- A counter field advances by `n` and saturates (R5 governs its clearing). -/
def State.bumpBy (s : State) (f : RF) (n : Nat) : State := s.put f (min (s.get f + n) (2 ^ f.width - 1))

/-- A counter field advances by one and saturates. -/
def State.bump (s : State) (f : RF) : State := s.bumpBy f 1

/-- Whether bit `i` of a register field is set. -/
def State.bit (s : State) (f : RF) (i : Nat) : Bool := s.get f / 2 ^ i % 2 == 1

/-- Bit `i` of a register field takes a truth value. -/
def State.putBitAt (s : State) (f : RF) (i : Nat) (b : Bool) : State :=
  s.put f (setField (s.get f) i 1 (if b then 1 else 0))

/-- Apply an update to the state for each element of a list, in order. -/
def State.each {α : Type} (s : State) (l : List α) (f : State → α → State) : State := l.foldl f s

/-- The state after an update made only when a condition holds. -/
def State.when (s : State) (b : Bool) (f : State → State) : State := if b then f s else s

/-- Replace element `i` of a list by its image. -/
def modAt {α : Type} : List α → Nat → (α → α) → List α
  | [], _, _ => []
  | a :: rest, 0, f => f a :: rest
  | a :: rest, i + 1, f => a :: modAt rest i f

/-! ### Free values and outputs -/

/-- The next free value (log entry 1). -/
def State.free (s : State) : W64 := Config.freeValue s.freeCtr

/-- The state after one free value has been used. -/
def State.freeUsed (s : State) : State := { s with freeCtr := s.freeCtr + 1 }

/-- The module puts something out. -/
def State.emit (s : State) (o : Output) : State := { s with out := s.out ++ [o] }

/-- A quotient whose rounding the spec does not state: one of the two nearest integers. -/
def openRound (num den : Nat) : Nat :=
  num / den + (if num % den != 0 && Config.roundsUp num den then 1 else 0)

/-- A quotient rounded to the nearest integer; which of two equally near ones is not stated. -/
def nearRound (num den : Nat) : Nat :=
  if den < 2 * (num % den) ∨ (2 * (num % den) = den ∧ num % den ≠ 0 ∧ Config.roundsUp num den) then num / den + 1 else num / den

/-- An integer quotient whose rounding the spec does not state. -/
def openQuot (num : Int) (den : Nat) : Int :=
  num.fdiv den + (if num % (den : Int) ≠ 0 ∧ Config.roundsUp num.natAbs den then 1 else 0)

/-! ### Memory -/

/-- The byte at an internal address; a byte nothing has written reads zero (log entry 4). -/
def State.byte (s : State) (a : Nat) : Byte := sget s.mem a

/-- `len` bytes from an internal address upwards. -/
def State.load (s : State) (a len : Nat) : List Byte := (List.range len).map fun i => s.byte (a + i)

/-- The little-endian number in `len` bytes at an internal address (R7). -/
def State.loadNat (s : State) (a len : Nat) : Nat := leNat (s.load a len)

/-- Store bytes in ascending order from an address upwards. -/
def storeBytes : List Host.Cell → Nat → List Byte → List Host.Cell
  | m, _, [] => m
  | m, a, b :: rest => storeBytes (sset m a b) (a + 1) rest

/-- Bytes are stored from an internal address upwards. -/
def State.store (s : State) (a : Nat) (bytes : List Byte) : State := { s with mem := storeBytes s.mem a bytes }

/-- The bytes from `lo` up to but not including `hi` become zero. -/
def State.zeroMem (s : State) (lo hi : Nat) : State := { s with mem := sclear s.mem lo hi }

/-- The base of DRAM (R548). -/
def dramBase : Nat := 0x1000000000
/-- The base of the Ember store, 8 MiB (R548). -/
def emberBase : Nat := 0x50000000
/-- The base of the sealed SRAM, 2 MiB (R548). -/
def sealedBase : Nat := 0x51000000
/-- The base of the owner table (R399). -/
def ownerTable : Nat := 0x51180000
/-- The base of the control cores' local SRAM, 512 KiB each (R548). -/
def localBase : Nat := 0x52000000
/-- 2 MiB, the unit of tenant ranges (R398). -/
def mib2 : Nat := 0x200000

/-- Usable DRAM U in bytes: 14 GiB or 28 GiB by variant (R1, R366). -/
def State.usable (s : State) : Nat := if s.variant < 2 then 14 * 0x40000000 else 28 * 0x40000000

/-! ### Wall time -/

/-- A stamp as the 64-bit WALLTIME (R23). -/
def Stamp.word (t : Stamp) : W64 :=
  BitVec.ofNat 64 (t.frame % 2 ^ 40 * 2 ^ 24 + t.line % 2 ^ 16 * 2 ^ 8 + t.grain % 2 ^ 8)

/-- The stamp a 64-bit WALLTIME holds (R23). -/
def stampOf (w : W64) : Stamp := ⟨w.toNat / 2 ^ 24, w.toNat / 2 ^ 8 % 2 ^ 16, w.toNat % 2 ^ 8⟩

/-- The lines of the master raster in use (R13). -/
def State.lines (s : State) : Nat := s.get wallMrLines_MR_LINES

/-- The grains from frame 0 to a stamp, at the line count in use (R24). -/
def State.grains (s : State) (t : Stamp) : Nat := (t.frame * s.lines + t.line) * 32 + t.grain

/-- The grains from a stamp to now (R24). -/
def State.since (s : State) (t : Stamp) : Nat := s.grains s.now - s.grains t

/-- The order of stamps (R24). -/
def Stamp.lt (a b : Stamp) : Bool :=
  a.frame < b.frame || (a.frame == b.frame && (a.line < b.line || (a.line == b.line && a.grain < b.grain)))

/-- Whether at least `us` microseconds of nominal raster time lie between a stamp and now: one line lasts
den / (num × lines) seconds (R13). -/
def State.elapsedUs (s : State) (t : Stamp) (us : Nat) : Bool :=
  decide (us * (s.get wallMrRateNum_RATE_NUM * s.lines * 32)
    ≤ s.since t * 1000000 * s.get wallMrRateDen_RATE_DEN)

/-- The microseconds of nominal raster time in a count of grains. -/
def State.grainsToUs (s : State) (g : Nat) : Nat :=
  g * 1000000 * s.get wallMrRateDen_RATE_DEN / (s.get wallMrRateNum_RATE_NUM * s.lines * 32)

/-! ### Agents and modes -/

/-- The AGENT_ID of a requester (R40). -/
def agentOf : Requester → Nat
  | .core k .sealed => 0x9000 + k.val
  | .core k .opened => 0x1000 + k.val
  | .debug k .sealed => 0xF000 + k.val
  | .debug k .opened => 0x7000 + k.val
  | .host f => f.val

/-- The world a requester acts in; host functions are always open (R394). -/
def worldOf : Requester → World
  | .core _ w => w
  | .debug _ w => w
  | .host _ => .opened

/-- The AGENT_ID that stands for a packet's ring in log records and messages (R363, R434). -/
def ringAgent (ring : Nat) : Nat := if ring = 32 then 0x9FFF else if ring = 33 then 0x1FFF else ring

/-- The current mode code (R90, R475). -/
def State.mode (s : State) : Nat := s.get sysMode_MODE

/-- Mode codes (R90). -/
def modeDormant : Nat := 0
def modeKindling : Nat := 1
def modeProvisioning : Nat := 2
def modeService : Nat := 3
def modeDegraded : Nat := 4
def modeBanked : Nat := 5
def modeTest : Nat := 6
def modeRecovery : Nat := 7

/-! ### Blocks at work -/

/-- Whether a block works: its CPC domain powered and clocked (R407), and its bit of SYS_SWRST neither set nor pending (R500,
R501). -/
def State.blockUp (s : State) (domain bit : Nat) : Bool :=
  s.bit worldCpcPwr_ON domain && s.bit worldCpcClk_ON domain
    && !((s.rd sysSwrst).toNat / 2 ^ bit % 2 == 1) && !((s.rd sysSwrstPend).toNat / 2 ^ bit % 2 == 1)

/-! ### Tenants and grants -/

/-- Function `f` beside its registers. -/
def State.fn (s : State) (f : Nat) : FnState := s.fns.getD f FnState.blank

/-- Function `f` changes. -/
def State.modFn (s : State) (f : Nat) (g : FnState → FnState) : State := { s with fns := modAt s.fns f g }

/-- The tenant on function `f`. -/
def State.tenant (s : State) (f : Nat) : Option Tenant := (s.fn f).tenant

/-- The tenant on function `f` changes, if there is one. -/
def State.modTenant (s : State) (f : Nat) (g : Tenant → Tenant) : State :=
  s.modFn f fun x => { x with tenant := x.tenant.map g }

/-- The function whose tenant satisfies a test, lowest first. -/
def State.tenantWhere (s : State) (test : Tenant → Bool) : Option Nat :=
  (List.range 32).find? fun f => match s.tenant f with
    | some t => test t
    | none => false

/-- The function that owns head `n`. -/
def State.headOwner (s : State) (n : Nat) : Option Nat := s.tenantWhere fun t => t.heads.contains n
/-- The function that owns layer pipe `n`. -/
def State.pipeOwner (s : State) (n : Nat) : Option Nat := s.tenantWhere fun t => t.pipes.contains n
/-- The function that owns write-back unit `u`. -/
def State.wbOwner (s : State) (u : Nat) : Option Nat := s.tenantWhere fun t => t.wbs.contains u
/-- The function that owns graphics context `c`. -/
def State.ctxOwner (s : State) (c : Nat) : Option Nat := s.tenantWhere fun t => t.contexts.contains c
/-- The function that owns touch port `n`. -/
def State.touchOwner (s : State) (n : Nat) : Option Nat := s.tenantWhere fun t => t.touches.contains n
/-- The function that owns haptic channel `n`. -/
def State.hapOwner (s : State) (n : Nat) : Option Nat := s.tenantWhere fun t => t.haptics.contains n
/-- The function that owns report queue `q`. -/
def State.queueOwner (s : State) (q : Nat) : Option Nat := s.tenantWhere fun t => t.queues.contains q
/-- The function that owns mailbox `m`. -/
def State.mbOwner (s : State) (m : Nat) : Option Nat := s.tenantWhere fun t => t.mailboxes.contains m
/-- The function that owns lock `l`. -/
def State.lockOwner (s : State) (l : Nat) : Option Nat := s.tenantWhere fun t => t.locks.contains l

/-- The function whose claim holds power stage `k`: the owner of haptic channel 6 + k, or of speaker sink 100 + k (R312,
R335). -/
def State.stageHolder (s : State) (k : Nat) : Option Nat :=
  let use := if k = 0 then s.get hapStage_STAGE0 else s.get hapStage_STAGE1
  if use = 1 then s.hapOwner (6 + k)
  else if use = 2 ∧ s.get (audOwner_OWNER (100 + k)) < 32 then some (s.get (audOwner_OWNER (100 + k)))
  else none

/-- What a master frame start does to the power stages: a stage whose owner is off is freed (R312). -/
def State.freeStages (s : State) : State :=
  let off (use k : Nat) : Bool :=
    (use == 1 && !s.flag (hapCfg_TYPE (6 + k))) || (use == 2 && !s.flag (audSinkCtrl_EN (4 + k)))
  let s := if off (s.get hapStage_STAGE0) 0 then s.put hapStage_STAGE0 0 else s
  if off (s.get hapStage_STAGE1) 1 then s.put hapStage_STAGE1 0 else s

/-- The staged register writes from address `lo` up to but not including `hi` take effect. -/
def State.applyStaged (s : State) (lo hi : Nat) : State :=
  let mine := s.staged.filter fun e => decide (lo ≤ e.1 ∧ e.1 < hi)
  { s with regs := mine.foldl (fun r e => sset r e.1 e.2) s.regs,
           staged := s.staged.filter fun e => !decide (lo ≤ e.1 ∧ e.1 < hi) }

/-- The DRAM range of function `f`'s tenant: its first internal address and its length in bytes (R398). -/
def State.range (s : State) (f : Nat) : Nat × Nat :=
  (dramBase + s.get (worldFnRange_BASE f) * mib2, s.get (worldFnRange_SIZE f) * mib2)

/-- Whether `len` bytes from an internal address lie in function `f`'s DRAM (R398). -/
def State.inRange (s : State) (f a len : Nat) : Bool :=
  decide ((s.range f).1 ≤ a) && decide (a + len ≤ (s.range f).1 + (s.range f).2)

/-- The number of MSI-X vectors of a function: the tenant's grant, or 32 (R54). -/
def State.vectorCount (s : State) (f : Nat) : Nat :=
  match s.tenant f with
  | some t => t.vectors
  | none => 32

/-- A fixed-use or routed vector is to be signalled, after the mirror block of this grain (R44, R54). -/
def State.signal (s : State) (f vector : Nat) : State :=
  s.modFn f fun x => { x with vectors := x.vectors ++ [vector] }

/-- Fixed use `u` of function `f` is signalled on vector min(u, v − 1) (R54). -/
def State.signalFixed (s : State) (f u : Nat) : State := s.signal f (min u (s.vectorCount f - 1))

/-- A routed vector is signalled only below the tenant's grant (R54, R457). -/
def State.signalRouted (s : State) (f v : Nat) : State :=
  if v < s.vectorCount f then s.signal f v else s

/-- A mirrored field of function `f` has changed (R44). -/
def State.mirrorDue (s : State) (f : Nat) : State := s.modFn f fun x => { x with mirrorDue := true }

/-- A field of FN_STATUS changes: the mirror block and fixed use 3 follow (R44, R54). -/
def State.putStatus (s : State) (field : RF) (f v : Nat) : State :=
  if s.get field = v then s else ((s.put field v).mirrorDue f).signalFixed f 3

/-! ### The reach of a host -/

/-- A host port beside its registers. -/
def State.hostPort (s : State) (p : Nat) : PortState := s.ports.getD p ⟨false, 0, true, true⟩

/-- The port of a function (R39). -/
def portOf (f : Nat) : Nat := f / 16

/-- Whether a port's block and PHY are released: slot 7 for Port A, slot 8 for Port B (R483), and not held by SYS_SWRST. -/
def State.portPowered (s : State) (p : Nat) : Bool :=
  (match s.power.stage with
   | .working | .boot => true
   | .slot n _ => decide (7 + p < n)
   | _ => false) && !s.bit sysSwrst_HOST p

/-- Whether BAR 0 and BAR 2 of function `f` can be reached: its port's link is up (R495). -/
def State.barUp (s : State) (f : Nat) : Bool := s.portPowered (portOf f) && s.flag (hpLink_DL_UP (portOf f))

/-- Whether a function exists on the link: a physical function, or a virtual one while VF Enable admits it (R39). -/
def State.onLink (s : State) (f : Nat) : Bool :=
  s.barUp f && (f % 16 == 0 || ((s.hostPort (portOf f)).vfEnable && decide (f % 16 ≤ (s.hostPort (portOf f)).numVfs)))

/-- A write through BAR 0: discarded while the function is not on the link, and during a warm reset (R64). -/
def State.barWrite (s : State) (f : Nat) (effect : State → State) : State :=
  if !s.onLink f || s.power.warm.isSome then s else effect s

/-- A read of `bits` bits through BAR 0: during a warm reset it returns all ones (R64). -/
def State.barRead (s : State) (f addr bits : Nat) (effect : State → State) : State :=
  if !s.onLink f then s
  else if s.power.warm.isSome then s.emit (.readValue f addr (BitVec.ofNat 64 (2 ^ bits - 1)))
  else effect s

end Sys2Proof.Machine
end

