-- ==== Sys2Proof/Machine/Flags.lean ====
section
/-! DEFINITION. Event flags and log records: raising an event (R453), its precedence (R27), the records of the peat log and
the room they need (R434 to R442), and bus violations (R400). -/
namespace Sys2Proof.Machine

/-! ### Precedence -/

/-- The precedence rank of an event number (R27). -/
def eventRank (e : Nat) : Nat :=
  if e < 16 then 1
  else if (64 ≤ e ∧ e < 128) ∨ (416 ≤ e ∧ e < 448) ∨ (480 ≤ e ∧ e < 512) then 2
  else if e < 64 then 3
  else if 384 ≤ e ∧ e < 416 then 4
  else if 128 ≤ e ∧ e < 192 then 5
  else if 256 ≤ e ∧ e < 320 then 6
  else if 320 ≤ e ∧ e < 384 then 7
  else 8

/-- The place of an event among simultaneous ones: class first, then number (R27). -/
def eventOrder (e : Nat) : Nat := eventRank e * 1000 + e

/-- The order of a packet record among simultaneous records: the host and packet class, the sealed ring first, then the
functions, then the open ring (R104, R438). -/
def packetOrder (ring : Nat) : Nat := 5000 + (if ring = 32 then 0 else if ring = 33 then 33 else ring + 1)

/-- The event numbers in use (R452). -/
def eventUsed (e : Nat) : Bool :=
  e ≤ 45 || (64 ≤ e && e ≤ 79) || (128 ≤ e && e ≤ 147) || (192 ≤ e && e ≤ 206) || (256 ≤ e && e ≤ 267)
    || (320 ≤ e && e ≤ 326) || (352 ≤ e && e ≤ 361) || (384 ≤ e && e ≤ 395) || (416 ≤ e && e ≤ 424)
    || (448 ≤ e && e ≤ 456) || (464 ≤ e && e ≤ 469) || (480 ≤ e && e ≤ 487)

/-- The bits of a 32-event register that stand for numbers in use; the others read zero and ignore writes (R452). -/
def usedMask (k : Nat) : Nat := ((List.range 32).map fun b => if eventUsed (32 * k + b) then 2 ^ b else 0).sum

/-! ### Raising an event -/

/-- One more occurrence in the list of this grain's events. -/
def addOccurrence : List EventNow → Nat → Nat → List EventNow
  | [], e, d => [⟨e, 1, d, false, false⟩]
  | x :: rest, e, d => if x.event = e then { x with count := x.count + 1 } :: rest else x :: addOccurrence rest e d

/-- An event occurs: its pending bit is set, and EVT_SRC counts one grain, or one collapsed occurrence (R26, R453). -/
def State.occur (s : State) (e d : Nat) : State :=
  let again := s.evt.grain.any fun x => x.event == e
  let s := s.putBitAt (evtPend_PEND (e / 32)) (e % 32) true
  let s := if again then s.bump (evtSrc_COLL e) else s.bump (evtSrc_OCC e)
  { s with evt := { s.evt with grain := addOccurrence s.evt.grain e d } }

/-! ### Log records -/

/-- The records held, queued and promised: what the log will hold when all of them are written (R438, R441). -/
def State.logUsed (s : State) : Nat :=
  s.get peatNext_VALUE + s.peat.queue.length + s.peat.held - s.get peatOldest_VALUE

/-- The count at which the log is full (R441). -/
def logFull : Nat := 1048512
/-- The slots of the bank (R434). -/
def logSlots : Nat := 1048576

/-- Whether the stop policy refuses `n` further records (R441, R442). -/
def State.logRefuses (s : State) (n : Nat) : Bool :=
  !s.flag peatCtrl_WRAP && decide (logFull < s.logUsed + n)

/-- A record takes its place in the queue: behind every earlier one, and among packet and event records of the same stamp
in the order of R27 (R438). -/
def queueRecord (q : List PeatRec) (r : PeatRec) : List PeatRec :=
  let early := q.takeWhile fun x => !(x.time == r.time && decide (r.order < x.order))
  early ++ r :: q.drop early.length

/-- A record that cannot be written is counted; PEAT_UNLOGGED_EV is raised once until space returns (R441). -/
def State.unlogged (s : State) (kind : Nat) : State :=
  let s := s.bump peatUnlogged_COUNT
  let s := { s with peat := { s.peat with unwritten := min (s.peat.unwritten + 1) 0xFFFFFFFF } }
  if s.peat.raisedOut then s
  else ({ s with peat := { s.peat with raisedOut := true } } : State).occur 454 kind

/-- A reply is written only after its record is durable, so a record that is not written leaves it to be written at once;
such replies are handed back. -/
def State.log (s : State) (r : PeatRec) : State × Option DueReply :=
  if !s.logRefuses 1 || (r.reserve && decide (s.logUsed < logSlots)) then
    ({ s with peat := { s.peat with queue := queueRecord s.peat.queue r } }, none)
  else (s.unlogged r.kind, r.reply)

/-- 28 bytes of change data. -/
def changeData (bytes : List Byte) : List Byte := bytesAt bytes 0 28

/-- A module event record (kind 5); its origin is the module unless given (R434, R436). -/
def State.eventRecord (s : State) (e d origin : Nat) (reserve : Bool) (status : Nat) : PeatRec :=
  { time := s.now.word, origin := origin, kind := 5, gen := s.get wallStatus_RASTER_GEN, status := status, aux := 0,
    caravan := 0, target := 0,
    data := changeData (leBytes 2 e ++ leBytes 2 0 ++ leBytes 4 d ++ leBytes 1 s.mode),
    order := eventOrder e, reserve := reserve, reply := none }

/-- Raise an event. Events 0 to 15 are also written to the peat log, into the reserve when it is full (R436, R441). -/
def State.raise (s : State) (e d : Nat) : State :=
  let s := s.occur e d
  if e < 16 then (s.log (s.eventRecord e d 0x8FFF true 0)).1 else s

/-- A marker record (kind 6), written into the reserve (R434, R446). -/
def State.marker (s : State) (code origin : Nat) (bytes : List Byte) (order : Nat) : State :=
  (s.log { time := s.now.word, origin := origin, kind := 6, gen := s.get wallStatus_RASTER_GEN, status := 0, aux := 0,
           caravan := 0, target := 0, data := changeData (leBytes 4 code ++ bytes), order := order, reserve := true,
           reply := none }).1

/-- A register write record: kind 2 when it took effect, kind 4 when it was refused (R436). Kind 4 is never written into
the reserve; records of writes to PEAT registers are (R441). -/
def State.writeRecord (s : State) (kind agent addr value old status : Nat) : State :=
  let peat := decide (0x47000000 ≤ addr ∧ addr < 0x48000000)
  (s.log { time := s.now.word, origin := agent, kind := kind, gen := s.get wallStatus_RASTER_GEN, status := status,
           aux := 0, caravan := 0, target := 0,
           data := changeData (leBytes 8 addr ++ leBytes 8 value ++ leBytes 8 old),
           order := 5050, reserve := kind == 2 && peat, reply := none }).1

/-! ### Violations -/

/-- An access outside its reach has no effect; it is counted and reported (R400). -/
def State.violation (s : State) (agent addr : Nat) (write : Bool) : State :=
  let s := s.put worldViolLast_PAGE (addr / 0x10000)
  let s := s.putBit worldViolLast_WRITE write
  let s := s.put worldViolLast_AGENT agent
  let s := s.bump worldViolCnt_COUNT
  let s := { s with peat := { s.peat with violations := s.peat.violations + 1 } }
  s.raise 416 agent

/-! ### Register accesses on the module -/

/-- Whether a debug requester's session is attached (R409). -/
def State.attached (s : State) (n : Nat) (agent : Nat) : Bool :=
  s.flag (debugSess_ACTIVE n) && s.get (debugSess_AGENT n) == agent

/-- Whether a requester reads the internal register space: a control core, or an attached debug session; a host sees BAR 0
alone. -/
def State.mayRead (s : State) (who : Requester) : Bool :=
  match who with
  | .host _ => false
  | .debug n _ => s.attached n.val (agentOf who)
  | .core _ _ => true

/-- Whether a requester writes it: a debug session only with invasive access. -/
def State.mayWrite (s : State) (who : Requester) : Bool :=
  s.mayRead who && match who with
    | .debug n _ => s.flag (debugSess_INV n.val)
    | _ => true

/-! ### Sealed register writes -/

/-- The bank of a core's PEAT_SCOPE, the sealed copies first within each core. -/
def scopeBank : Requester → Option Nat
  | .core k .sealed => some (2 * k.val)
  | .core k .opened => some (2 * k.val + 1)
  | _ => none

/-- Whether an address lies in the PEAT block. -/
def peatAddr (addr : Nat) : Bool := decide (0x47000000 ≤ addr ∧ addr < 0x48000000)

/-- The ring whose packet a sealed writer has put in scope, if it has; writes to PEAT registers are never in scope (R439). -/
def State.scopeRing (s : State) (who : Requester) (addr : Nat) : Option Nat :=
  match scopeBank who with
  | some b => if s.flag (peatScope_ACTIVE b) && !peatAddr addr then some (s.get (peatScope_RING b)) else none
  | none => none

/-- Whether the full log refuses a register write (R441): a sealed write that needs a kind 2 record outside the reserve. -/
def State.writeBarred (s : State) (who : Requester) (addr : Nat) : Bool :=
  decide (worldOf who = .sealed) && (s.scopeRing who addr).isNone && !peatAddr addr && s.logRefuses 1

/-- A register write that took effect is recorded when the sealed world made it, or counted in its scope (R436, R439). -/
def State.noteWrite (s : State) (who : Requester) (addr value old : Nat) : State :=
  if worldOf who = .sealed then
    match s.scopeRing who addr with
    | some r => { s with peat := { s.peat with inScope := modAt s.peat.inScope r (· + 1) } }
    | none => s.writeRecord 2 (agentOf who) addr value old (if s.logRefuses 1 then 0x40 else 0)
  else s

/-! ### Refused register accesses -/

/-- A write that its block refuses ends in a bus error and is logged (R4, R436). -/
def State.refuseWrite (s : State) (who : Requester) (addr value old status : Nat) : State :=
  (s.emit (.busError (agentOf who) addr)).writeRecord 4 (agentOf who) addr value old status

/-- A read that its block forbids to the open world ends in a bus error and counts as a violation (R552). -/
def State.refuseRead (s : State) (who : Requester) (addr : Nat) : State :=
  (s.emit (.busError (agentOf who) addr)).violation (agentOf who) addr false

end Sys2Proof.Machine
end

