-- ==== Sys2Proof/Machine/Operands.lean ====
section
/-! DEFINITION. What an Orbel packet carries and what an opcode asks of it: status codes (R84), the fields of a payload, the
length and zero rules (R8, R79 step 9), who may send it (R85), the modes it is permitted in (R87), its target (R79
step 12) and whether it is recorded (R436). -/
namespace Sys2Proof.Machine

/-! ### Status codes (R84) -/

def stDone : Nat := 0x0000
def stAccepted : Nat := 0x0001
def stBadOpcode : Nat := 0x0010
def stBadLength : Nat := 0x0011
def stBadCheck : Nat := 0x0012
def stSeqGap : Nat := 0x0013
def stSpoof : Nat := 0x0020
def stNotOwner : Nat := 0x0021
def stWorld : Nat := 0x0022
def stConflict : Nat := 0x0030
def stLate : Nat := 0x0031
def stLinebuf : Nat := 0x0032
def stNoResource : Nat := 0x0033
def stPinTaken : Nat := 0x0034
def stMode : Nat := 0x0035
def stLogFull : Nat := 0x0040
def stAborted : Nat := 0x00F0

/-- The answer DONE with its result words. -/
def done (word0 word1 : Nat) : Answer := ⟨stDone, 0, BitVec.ofNat 64 word0, BitVec.ofNat 64 word1⟩

/-- An answer that refuses, with a detail. -/
def refusal (status detail : Nat) : Answer := ⟨status, detail, 0, 0⟩

/-! ### Payload fields -/

/-- Payload byte `i`. -/
def Origin.u8 (o : Origin) (i : Nat) : Nat := (o.payload.getD i 0).toNat
/-- Payload bytes `i` and `i + 1` (R7). -/
def Origin.u16 (o : Origin) (i : Nat) : Nat := leAt o.payload i 2
/-- Payload bytes `i` to `i + 3` (R7). -/
def Origin.u32 (o : Origin) (i : Nat) : Nat := leAt o.payload i 4
/-- Payload bytes `i` to `i + 7` (R7). -/
def Origin.u64 (o : Origin) (i : Nat) : Nat := leAt o.payload i 8
/-- The target resource field. -/
def Origin.tgt (o : Origin) : Nat := o.target.toNat
/-- The issuing function, if the packet stands in a function's command ring (R72). -/
def Origin.func (o : Origin) : Option Nat := if o.ring < 32 then some o.ring else none
/-- The AGENT_ID of the issuer in log records (R434). -/
def Origin.agent (o : Origin) : Nat := ringAgent o.ring

/-- Bits that must be zero, by payload byte offset, from ranges of zero bytes and from bytes with zero bits (R8). -/
def zeroMask (ranges : List (Nat × Nat)) (bits : List (Nat × Nat)) (i : Nat) : Nat :=
  if ranges.any fun r => decide (r.1 ≤ i ∧ i ≤ r.2) then 0xFF
  else (bits.find? fun b => b.1 == i).elim 0 (·.2)

/-- The offset of the first payload byte that breaks the zero rule (R8). -/
def firstBad (mask : Nat → Nat) (payload : List Byte) : Option Nat :=
  (List.range payload.length).find? fun i => (payload.getD i 0).toNat &&& mask i != 0

/-! ### Permissions -/

/-- Whether the opcode may be a caravan member (R93). -/
inductive MemberKind where
  | immediate
  | capable
  | only
  deriving DecidableEq, Repr

/-- Who may issue the opcode (R85, R88): any ring; the sealed ring only; the sealed ring and functions 0 and 16; the sealed
ring and tenants (the open ring as well, when the opcode is a query); the sealed ring and the tenants' functions together
with the open ring, for group 0x0F; any function, for the opcodes of R51 and R88 whose target decides; the sealed ring, and
functions 0 and 16 in boot-ROM Recovery (R503, R506); or as given. -/
inductive Issuer where
  | any
  | sealedOnly
  | managers
  | tenants
  | mailboxes
  | functions
  | romManagers
  deriving DecidableEq, Repr

/-- Step 11: the status with which the source is refused, if it is (R85). -/
def Issuer.refuses (i : Issuer) (query : Bool) (s : State) (ring : Nat) : Option Nat :=
  if ring = 32 then none
  else match i with
    | .any => none
    | .sealedOnly => some stWorld
    | .managers => if ring = 33 then (if query then none else some stWorld)
        else if ring = 0 ∨ ring = 16 then none else some stNotOwner
    | .tenants => if ring = 33 then (if query then none else some stWorld)
        else if (s.tenant ring).isSome then none else some stNotOwner
    | .mailboxes => if ring = 33 then none
        else if (s.tenant ring).isSome then none else some stNotOwner
    | .functions => if ring = 33 ∧ !query then some stWorld else none
    | .romManagers => if (ring = 0 ∨ ring = 16) ∧ s.mode = modeRecovery ∧ s.power.bootRom then none else some stWorld

/-- All modes in which a ring is served (R86, R87). -/
def allModes : List Nat := [1, 2, 3, 4, 5, 6, 7]
/-- Provisioning, Service, Degraded. -/
def modesPSD : List Nat := [2, 3, 4]
/-- Provisioning, Service, Degraded, Banked. -/
def modesPSDB : List Nat := [2, 3, 4, 5]
/-- Provisioning, Service, Degraded, Test. -/
def modesPSDT : List Nat := [2, 3, 4, 6]
/-- Provisioning, Service, Degraded, Banked, Test. -/
def modesPSDBT : List Nat := [2, 3, 4, 5, 6]

/-! ### Recording (R436 to R441) -/

/-- How an opcode is recorded in the peat log. -/
inductive LogKind where
  /-- not recorded -/
  | none
  /-- a kind 1 record; refused with LOG_FULL when the log is full -/
  | logged
  /-- a kind 1 record, into the reserve when the log is full -/
  | reserve
  /-- counted in the summary record, under the given group of change data bytes 32 to 47 -/
  | flip (group : Nat)
  deriving DecidableEq, Repr

/-- What becomes of an immediate packet that has passed its checks: it is answered now, or answered and recorded although
refused (R124, R312), or later, or never (R62, R506). -/
inductive Effect where
  | answer (a : Answer)
  | refuseLogged (a : Answer)
  | later
  | silent
  deriving DecidableEq, Repr

/-- What the spec says of one opcode. `lens` lists the payload lengths it takes (the last is the one a refusal names), `zero`
its zero rule, `names` the target values that name a resource of its kind, `owns` which of them are a function's, `check`
its opcode-specific checks, `run` its effect at once, `land` its effect as a caravan member at the arm instant, `heads` the
heads whose latch its reply awaits. -/
structure OpSpec where
  opcode : Nat
  lens : List Byte → List Nat
  zero : List Byte → Nat → Nat := fun _ _ => 0
  modes : List Nat
  issuer : Issuer
  query : Bool := false
  member : MemberKind := .immediate
  names : Nat → Bool := fun t => t == 0
  owns : State → Nat → Nat → Bool := fun _ _ _ => true
  log : LogKind := .none
  check : State → Origin → Option (Nat × Nat) := fun _ _ => none
  run : State → Origin → State × Effect := fun s _ => (s, .silent)
  land : State → Origin → State := fun s _ => s
  heads : State → Origin → List Nat := fun _ _ => []

/-- The length rule of an opcode with one fixed payload length. -/
def len (n : Nat) : List Byte → List Nat := fun _ => [n]

end Sys2Proof.Machine
end

