-- ==== Sys2Proof/Machine/Packets.lean ====
section
/-! DEFINITION. Packet service: rings, the check order, replies and the peat log records of packets (R72 to R91). -/
namespace Sys2Proof.Machine

/-! ### Rings -/

/-- The command ring base of a ring (R42, R107). -/
def ringBase (r : Nat) : RF := if r < 32 then fnCmdBase_ADDR r else pktIrCmdBase_ADDR (r - 32)
/-- The command ring size field of a ring. -/
def ringLog2 (r : Nat) : RF := if r < 32 then fnCmdSize_LOG2 r else pktIrCmdSize_LOG2 (r - 32)
/-- The command ring enable of a ring. -/
def ringEn (r : Nat) : RF := if r < 32 then fnCmdSize_EN r else pktIrCmdSize_EN (r - 32)
/-- The command ring consumer position. -/
def ringHead (r : Nat) : RF := if r < 32 then fnCmdHead_HEAD r else pktIrCmdHead_HEAD (r - 32)
/-- The reply ring base. -/
def replyBase (r : Nat) : RF := if r < 32 then fnRplBase_ADDR r else pktIrRplBase_ADDR (r - 32)
/-- The reply ring size field. -/
def replyLog2 (r : Nat) : RF := if r < 32 then fnRplSize_LOG2 r else pktIrRplSize_LOG2 (r - 32)
/-- The reply ring enable. -/
def replyEn (r : Nat) : RF := if r < 32 then fnRplSize_EN r else pktIrRplSize_EN (r - 32)
/-- The reply ring producer position. -/
def replyTail (r : Nat) : RF := if r < 32 then fnRplTail_TAIL r else pktIrRplTail_TAIL (r - 32)
/-- The reply ring consumer position. -/
def replyHead (r : Nat) : RF := if r < 32 then fnRplHead_HEAD r else pktIrRplHead_HEAD (r - 32)

/-- The size of a command ring in bytes. -/
def State.ringSize (s : State) (r : Nat) : Nat := 2 ^ s.get (ringLog2 r)

/-- The doorbell tail of a ring. -/
def State.ringTail (s : State) (r : Nat) : Nat := s.pkt.tails.getD r 0

/-- The bytes between a ring's consumer position and a tail, wrapping at the ring size (R43). -/
def State.unreadTo (s : State) (r tail : Nat) : Nat :=
  (tail + s.ringSize r - s.get (ringHead r) % s.ringSize r) % s.ringSize r

/-- The unread bytes of a ring (R43). -/
def State.unread (s : State) (r : Nat) : Nat := s.unreadTo r (s.ringTail r)

/-- Whether function `f` is under reset: from the reset decision its ring is dead (R59, R60). -/
def State.resetting (s : State) (f : Nat) : Bool := s.flag (fnStatus_RST f)

/-- Whether a ring is served: never in Dormant; in Kindling the sealed ring alone (R86); in boot-ROM Recovery functions 0
and 16 alone (R503); through a warm reset no function ring (R64, R497); and only while it is enabled and, for a function,
not under reset. -/
def State.served (s : State) (r : Nat) : Bool :=
  s.flag (ringEn r) &&
  (match s.power.stage with
   | .working | .boot => true
   | _ => false) &&
  (if s.mode = 0 then false
   else if s.mode = 1 then r == 32
   else if s.mode = 7 && s.power.bootRom then r == 0 || r == 16
   else true) &&
  (if r < 32 then s.power.warm.isNone && !s.resetting r
   else match s.power.warm with
     | some w => w.ready
     | none => true)

/-! ### Reply space (R75, R76) -/

/-- The caravans of a ring that hold a reserved reply slot: committed and not yet answered (R76). -/
def State.reservedSlots (s : State) (r : Nat) : Nat :=
  (s.pkt.caravans.filter fun c => c.ring == r && (c.state == .committed || c.state == .ready || c.state == .landed)).length

/-- The free bytes of a reply ring: its size less 32, less what is unread (R75); none while it is not enabled. -/
def State.replyFree (s : State) (r : Nat) : Nat :=
  if s.flag (replyEn r) then
    let size := 2 ^ s.get (replyLog2 r)
    size - 32 - (s.get (replyTail r) + size - s.get (replyHead r) % size) % size
  else 0

/-- The replies of a ring that wait for their record to be durable (R438). -/
def State.repliesDue (s : State) (r : Nat) : Nat :=
  (s.peat.queue.filter fun x => x.reply.any fun d => d.origin.ring == r).length

/-- Whether a further entry may be read: 32 bytes are free beyond the reserved slots and the replies owed (R76). -/
def State.replyRoom (s : State) (r : Nat) : Bool :=
  decide (32 * (s.reservedSlots r + s.pkt.owed.getD r 0 + s.repliesDue r) + 32 ≤ s.replyFree r)

/-! ### Replies (R83) -/

/-- The current generation of the function that owns a ring; 0 for the internal rings (R77). -/
def State.ringGen (s : State) (r : Nat) : Nat := if r < 32 then s.get (fnStatus_GEN r) else 0

/-- The resets that a ring has seen. -/
def State.epoch (s : State) (r : Nat) : Nat := s.pkt.epochs.getD r 0

/-- A ring is reset: replies to packets read before are dropped, and none is owed any more (R59, R107). -/
def State.nextEpoch (s : State) (r : Nat) : State :=
  { s with pkt := { s.pkt with epochs := modAt s.pkt.epochs r (· + 1), owed := s.pkt.owed.set r 0 } }

/-- The 32 bytes of a reply record (R83). -/
def replyBytes (seq : W32) (status gen detail : Nat) (time word0 word1 : W64) : List Byte :=
  leBytes 4 seq.toNat ++ leBytes 2 (status % 256 + 256 * (gen % 256)) ++ leBytes 2 detail ++ leBytes 8 time.toNat
    ++ leBytes 8 word0.toNat ++ leBytes 8 word1.toNat

/-- A reply record is written at the reply ring's tail: one posted write to host memory, or to internal memory for an
internal ring; the tail advances, and the mirror block follows (R75, R83). -/
def State.writeReply (s : State) (r : Nat) (seq : W32) (a : Answer) (time : W64) : State :=
  let tail := s.get (replyTail r)
  let addr := s.get (replyBase r) * 4096 + tail
  let size := 2 ^ s.get (replyLog2 r)
  let gen := s.ringGen r
  let s := s.put (replyTail r) ((tail + 32) % size)
  let s := s.emit (.reply r addr seq a.status gen a.detail time a.word0 a.word1)
  if r < 32 then s.mirrorDue r
  else s.store (addr % 2 ^ 48) (replyBytes seq a.status gen a.detail time a.word0 a.word1)

/-- A packet is answered, unless its ring has been reset since it was read: then its reply is dropped (R59, R107). Vector 0
follows when flag bit 2 was set (R83). -/
def State.answer (s : State) (o : Origin) (a : Answer) (time : W64) : State :=
  if s.epoch o.ring != o.epoch then s
  else
    let s := s.writeReply o.ring o.seq a time
    s.when (o.ring < 32 && o.msix) fun s => s.signalFixed o.ring 0

/-! ### Packet records (R434, R438, R439) -/

/-- The kind 1 record of a packet (R434). The register writes counted in scope for its ring go with it (R439). -/
def State.packetRecord (s : State) (o : Origin) (status : Nat) (reply : Option DueReply) : PeatRec :=
  { time := s.now.word, origin := o.agent, kind := 1, gen := s.get wallStatus_RASTER_GEN, status := status,
    aux := o.opcode, caravan := o.caravan, target := o.target,
    data := changeData (leBytes 4 o.seq.toNat ++ leBytes 4 (crcOf crc32c o.payload)
      ++ leBytes 2 (min (s.peat.inScope.getD o.ring 0) 0xFFFF) ++ leBytes 2 o.payload.length ++ bytesAt o.payload 0 16),
    order := packetOrder o.ring, reserve := o.reserve,
    reply := reply }

/-- The record of a ring's packet ends the ring's scope: the count restarts and ACTIVE clears (R439). -/
def State.endScope (s : State) (ring : Nat) : State :=
  let s := { s with peat := { s.peat with inScope := s.peat.inScope.set ring 0 } }
  s.each (List.range 8) fun s i =>
    if s.flag (peatScope_ACTIVE i) && s.get (peatScope_RING i) == ring then s.put (peatScope_ACTIVE i) 0 else s

/-- A packet is recorded, and answered once its record is durable with a reply that carries a WALLTIME (R83, R438). -/
def State.recordPacket (s : State) (o : Origin) (status : Nat) (reply : Option DueReply) : State :=
  match s.log (s.packetRecord o status reply) with
  | (s, none) => s.endScope o.ring
  | (s, some d) => s.answer d.origin d.answer d.time

/-- A packet is recorded and answered once its record is durable (R438). -/
def State.recordAndAnswer (s : State) (o : Origin) (a : Answer) (status : Nat) (reply : Bool) : State :=
  s.recordPacket o status (if reply then some ⟨o, a, s.now.word⟩ else none)

/-- An immediate packet is decided at a WALLTIME: its record first, if one is due, then its reply. -/
def State.concludeAt (s : State) (o : Origin) (a : Answer) (time : W64) : State :=
  if o.logged && a.status == stDone then s.recordPacket o a.status (some ⟨o, a, time⟩)
  else s.answer o a time

/-- An immediate packet is decided now. -/
def State.conclude (s : State) (o : Origin) (a : Answer) : State := s.concludeAt o a s.now.word

/-- A reply is owed and will be written later; its room in the log is held meanwhile (R438). -/
def State.defer (s : State) (o : Origin) : State :=
  let s := { s with pkt := { s.pkt with owed := modAt s.pkt.owed o.ring (· + 1) } }
  s.when o.logged fun s => { s with peat := { s.peat with held := s.peat.held + 1 } }

/-- An owed reply is given up. A ring reset since owes none of the replies of before. -/
def State.dropReply (s : State) (o : Origin) : State :=
  let s := s.when (s.epoch o.ring == o.epoch) fun s => { s with pkt := { s.pkt with owed := modAt s.pkt.owed o.ring (· - 1) } }
  s.when o.logged fun s => { s with peat := { s.peat with held := s.peat.held - 1 } }

/-- An owed reply is now decided: the held room is given back, then the packet is recorded and answered (R438). -/
def State.settleAt (s : State) (o : Origin) (a : Answer) (time : W64) : State := (s.dropReply o).concludeAt o a time

/-- An owed reply is decided now. -/
def State.settle (s : State) (o : Origin) (a : Answer) : State := s.settleAt o a s.now.word

/-! ### Caravan records, shared with Caravan.lean -/

/-- The caravans change, and PKT_STATUS counts them: open ones and stubs, and committed ones not yet landed or refused. -/
def State.setCaravans (s : State) (l : List Caravan) : State :=
  let s := { s with pkt := { s.pkt with caravans := l } }
  let s := s.put pktStatus_OPEN
    (l.filter fun c => c.state == .opened || c.state == .poisoned || c.state == .stub).length
  s.put pktStatus_COMMITTED (l.filter fun c => c.state == .committed || c.state == .ready).length

/-- The open caravan of a ring with an ID, its stub or its poisoned rest (R92, R96). -/
def State.openCaravan (s : State) (ring : Nat) (id : W32) : Option Caravan :=
  s.pkt.caravans.find? fun c => c.ring == ring && c.id == id
    && (c.state == .opened || c.state == .poisoned || c.state == .stub)

/-- The first caravan that satisfies a test is replaced. -/
def replaceFirst (l : List Caravan) (test : Caravan → Bool) (f : Caravan → List Caravan) : List Caravan :=
  match l with
  | [] => []
  | c :: rest => if test c then f c ++ rest else c :: replaceFirst rest test f

/-- Whether a caravan is the open one, stub or poisoned rest of a ring under an ID. -/
def Caravan.isOpen (c : Caravan) (ring : Nat) (id : W32) : Bool :=
  c.ring == ring && c.id == id && (c.state == .opened || c.state == .poisoned || c.state == .stub)

/-- The reply of a last member whose caravan is refused for its first failed member (R95). -/
def failAnswer (fail : Nat × Nat × Nat) (count : Nat) (id : W32) : Answer :=
  let (status, detail, index) := fail
  ⟨status, if count ≤ 1 then detail else index, BitVec.ofNat 64 (detail % 0x10000 + 0x10000 * (index % 256)),
    BitVec.ofNat 64 id.toNat⟩

/-- A new caravan of a ring, with its default timing (R100). -/
def Caravan.fresh (s : State) (ring : Nat) (id : W32) (st : CarState) : Caravan :=
  { ring, id, state := st, members := [], count := 0, fail := none, lastFrame := s.now.frame, commit := s.now,
    frame := 0, named := none, slides := 0, limit := 8, fences := [], last := none, landedAt := s.now, awaits := [] }

/-- A packet of an open caravan that fails the sequence check poisons it, without being its member (R95, log entry 6). -/
def State.poison (s : State) (ring : Nat) (id : W32) (status detail : Nat) : State :=
  s.setCaravans (replaceFirst s.pkt.caravans (·.isOpen ring id) fun c =>
    [{ c with state := if c.state == .opened then .poisoned else c.state, members := [],
              fail := some (c.fail.getD (status, detail, c.count)) }])

/-- A member that failed a check poisons its caravan; a failed last member ends it (R95). -/
def State.failMember (s : State) (o : Origin) (last : Bool) (status detail : Nat) : State :=
  match s.openCaravan o.ring o.caravan with
  | none =>
    if last then
      let s := s.bump pktRefusedCnt_COUNT
      s.answer o (failAnswer (status, detail, 0) 1 o.caravan) s.now.word
    else
      let c := { Caravan.fresh s o.ring o.caravan .poisoned with count := 1, fail := some (status, detail, 0) }
      (s.setCaravans (s.pkt.caravans ++ [c])).answer o (refusal status detail) s.now.word
  | some c =>
    let fail := c.fail.getD (status, detail, c.count)
    if last then
      let s := s.setCaravans (replaceFirst s.pkt.caravans (·.isOpen o.ring o.caravan) fun _ => [])
      let s := s.bump pktRefusedCnt_COUNT
      s.answer o (failAnswer fail (c.count + 1) o.caravan) s.now.word
    else
      let s := s.setCaravans (replaceFirst s.pkt.caravans (·.isOpen o.ring o.caravan) fun c =>
        [{ c with state := if c.state == .stub then .stub else .poisoned, count := c.count + 1, fail := some fail,
                  members := [], lastFrame := s.now.frame }])
      s.answer o (refusal status detail) s.now.word

/-! ### The check order (R79) -/

/-- The 32 header bytes of an entry (R78). -/
def entryHeader (p : Packet) (opcode : Nat) : List Byte :=
  [p.version, p.flags] ++ leBytes 2 opcode ++ leBytes 2 p.source.toNat ++ leBytes 2 p.length.toNat
    ++ leBytes 4 p.seq.toNat ++ leBytes 4 p.caravan.toNat ++ leBytes 4 p.target.toNat ++ bytesAt p.reserved 0 12

/-- The payload bytes the header's length field covers. -/
def entryBody (p : Packet) : List Byte := bytesAt p.payload 0 p.length.toNat

/-- The source function field value and ring number that R72 assigns to a ring. -/
def ringSource (r : Nat) : Nat := if r < 32 then r else if r = 32 then 0x0100 else 0x0200
/-- The ring number of R72, which the fold uses. -/
def ringNumber (r : Nat) : Nat := if r < 32 then 0 else r - 31

/-- The fold word of a packet's trailer (R78). -/
def entryFold (p : Packet) : List Byte :=
  leBytes 4 p.seq.toNat ++ leBytes 2 (ringSource p.ring.val) ++ leBytes 1 (ringNumber p.ring.val) ++ [0]

/-- The trailer an entry must carry (R78). -/
def entryCrc (p : Packet) (opcode : Nat) : Nat := crc32cFold (entryFold p) (entryHeader p opcode ++ entryBody p)

/-- The size of an entry in its ring (R73). -/
def entrySize (p : Packet) : Nat := 40 + p.length.toNat

/-- The header byte offset of the first byte that breaks step 5, if any does (R8, R79). -/
def headerFault (p : Packet) : Option Nat :=
  let flags := p.flags.toNat
  if flags / 8 ≠ 0 ∨ flags % 4 = 2 then some 1
  else if flags % 2 = 1 ∧ p.caravan = 0 then some 12
  else if flags % 2 = 0 ∧ p.caravan ≠ 0 then
    some (12 + ((leBytes 4 p.caravan.toNat).takeWhile (· == 0)).length)
  else
    let r := bytesAt p.reserved 0 12
    if r.all (· == 0) then none else some (20 + (r.takeWhile (· == 0)).length)

/-- Whether a ring has an expected number (R81). -/
def State.seqSet (s : State) (r : Nat) : Bool := s.bit pktSeqSet_SET r

/-- A ring's expected number becomes `n` (R81). -/
def State.expect (s : State) (r n : Nat) : State :=
  (s.put (pktSeq_EXPECT r) (n % 2 ^ 32)).putBitAt pktSeqSet_SET r true

/-- The entry has been read: FN_CMD_HEAD moves past it, and doorbells it has caught up with are forgotten (R74). -/
def State.consume (s : State) (p : Packet) : State :=
  let r := p.ring.val
  let s := s.put (ringHead r) ((s.get (ringHead r) + (entrySize p)) % s.ringSize r)
  { s with pkt := { s.pkt with bells := modAt s.pkt.bells r fun l => l.filter fun b => s.unreadTo r b.1 != 0 } }

/-- A failure at step 1 or 2 discards every byte up to the tail; the reply takes nothing from the entry (R80). -/
def State.framingFault (s : State) (p : Packet) (status detail step : Nat) : State :=
  let r := p.ring.val
  let s := s.bump pktFramingCnt_COUNT
  let s := if step = 2 then s.raise 139 r else s.raise 140 (r * 256 + step)
  let s := s.put (ringHead r) (s.ringTail r)
  let s := { s with pkt := { s.pkt with bells := modAt s.pkt.bells r fun _ => [] } }
  let seq := if s.seqSet r then s.get (pktSeq_EXPECT r) else 0
  s.writeReply r (BitVec.ofNat 32 seq) (refusal status detail) s.now.word

/-- The grain of the doorbell whose tail first covered the whole entry: its commit stamp (R97). -/
def State.coveredAt (s : State) (p : Packet) : Stamp :=
  match (s.pkt.bells.getD p.ring.val []).find? fun b => decide ((entrySize p) ≤ s.unreadTo p.ring.val b.1) with
  | some b => b.2
  | none => s.now

/-- The packet as the opcode-specific steps see it. -/
def entryOrigin (p : Packet) (sp : OpSpec) (s : State) : Origin :=
  { ring := p.ring.val, seq := p.seq, opcode := sp.opcode, target := p.target, caravan := p.caravan,
    msix := p.flags.toNat / 4 % 2 == 1, gen := s.ringGen p.ring.val, epoch := s.epoch p.ring.val,
    logged := (match sp.log with
      | .logged | .reserve => true
      | _ => false),
    reserve := sp.log == .reserve, payload := (entryBody p) }

/-- Boot-ROM Recovery serves SYS_QUERY, NOP, SEQ_SYNC, RECOVERY_LOAD and MODULE_RESET kind 2 alone (R503). -/
def State.romRefuses (s : State) (opcode : Nat) (payload : List Byte) : Bool :=
  s.mode == 7 && s.power.bootRom &&
    !([0x0101, 0x0103, 0x0104, 0x0121].contains opcode || (opcode == 0x0120 && leAt payload 0 1 == 2))

/-- Steps 8 to 12 of the check order: the status and detail of the first that fails (R79). -/
def State.checks (s : State) (sp : OpSpec) (o : Origin) (isMember : Bool) : Option (Nat × Nat) :=
  if (isMember && sp.member == .immediate) || (!isMember && sp.member == .only) then some (stBadOpcode, 1)
  else
    let lens := sp.lens o.payload
    if !lens.contains o.payload.length then some (stBadLength, lens.getLastD 0)
    else match firstBad (sp.zero o.payload) o.payload with
      | some i => some (stBadLength, 0x1000 + i)
      | none =>
        if !sp.modes.contains s.mode || s.romRefuses sp.opcode o.payload then some (stMode, s.mode)
        else match sp.issuer.refuses sp.query s o.ring with
          | some st => some (st, o.ring)
          | none =>
            if !sp.names o.tgt || (o.ring < 32 && !sp.owns s o.ring o.tgt) then some (stNotOwner, o.ring)
            else none

/-- A content flip that is accepted is counted for the next summary, with its function (R434 kind 3, R436). -/
def State.countFlip (s : State) (sp : OpSpec) (o : Origin) (status : Nat) : State :=
  match sp.log with
  | .flip g =>
    if status = stDone then
      { s with peat := { s.peat with
        flips := modAt s.peat.flips g (· + 1),
        flipFns := if o.ring < 32 then setField s.peat.flipFns o.ring 1 1 else s.peat.flipFns } }
    else s
  | _ => s

/-- The checks of framing and sequence have passed: the rest of an immediate packet's life (R79 steps 7 to 14). -/
def State.interpret (s : State) (sp : OpSpec) (o : Origin) : State :=
  match sp.check s o with
  | some (st, d) => s.answer o (refusal st d) s.now.word
  | none =>
    if sp.log == .logged && s.logRefuses 1 then
      (s.bump peatRefused_COUNT).answer o (refusal stLogFull 0) s.now.word
    else match sp.run s o with
      | (s, .answer a) => (s.countFlip sp o a.status).conclude o a
      | (s, .refuseLogged a) => s.recordAndAnswer o a a.status true
      | (s, .later) => (s.countFlip sp o stDone).defer o
      | (s, .silent) => if o.logged then s.recordAndAnswer o (done 0 0) stDone false else s

/-- What the rest of packet service does with a packet that may be a caravan member; given by Caravan.lean. -/
abbrev Carry := State → OpSpec → Packet → Origin → State

/-- A ring stops being read for want of reply space; REPLY_FULL is raised once on entering that state (R76). -/
def State.stopRing (s : State) (r : Nat) : State :=
  if s.pkt.stopped.getD r false then s
  else ({ s with pkt := { s.pkt with stopped := s.pkt.stopped.set r true } } : State).raise 142 r

/-- A failure at steps 3 to 5: the entry is consumed, its sequence number is not (R79). -/
def State.headerRefusal (s : State) (p : Packet) (o : Origin) (status detail : Nat) : State :=
  ((s.consume p).bump pktFramingCnt_COUNT).answer o (refusal status detail) s.now.word

/-- The W8 reads the entry at the head of a ring and decides it (R73 to R84): the entry waits until it lies below the tail;
then the checks of R79 in order; then its effect. `carry` is the life of a caravan member. -/
def State.readEntry (s : State) (carry : Carry) (sp : Option OpSpec) (opcode : Nat) (p : Packet) (syncs : Bool) : State :=
  let r := p.ring.val
  if !s.served r || decide (s.unread r < 32) then s
  else if !s.replyRoom r then s.stopRing r
  else
    let s := { s with pkt := { s.pkt with stopped := s.pkt.stopped.set r false } }
    if p.length.toNat % 8 ≠ 0 ∨ p.length.toNat > 4064 ∨ (entrySize p) + 8 > s.ringSize r then
      s.framingFault p stBadLength 0xFFFF 1
    else if s.unread r < (entrySize p) then s
    else if p.trailer.toNat ≠ entryCrc p opcode then
      s.framingFault p stBadCheck (min (s.unread r / 8) 0xFFFF) 2
    else
      let blank : OpSpec := { opcode := opcode, lens := len 0, modes := [], issuer := .any }
      let o := entryOrigin p (sp.getD blank) s
      if p.source.toNat ≠ ringSource r then
        let s := s.when (r < 32) fun s => s.bump (hpSpoofCnt_COUNT (r / 16))
        (s.raise 135 r).headerRefusal p o stSpoof r
      else if p.version ≠ 0x01 then s.headerRefusal p o stBadOpcode 0xFFFE
      else match (headerFault p) with
        | some d => (s.raise 140 (r * 256 + 5)).headerRefusal p o stBadLength d
        | none =>
          let expected := s.get (pktSeq_EXPECT r)
          if s.seqSet r && !syncs && decide (p.seq.toNat ≠ expected) then
            let s := (s.raise 141 r).consume p
            let s := s.when (p.flags.toNat % 2 == 1) fun s => s.poison r p.caravan stSeqGap (expected % 0x10000)
            s.answer o (refusal stSeqGap (expected % 0x10000)) s.now.word
          else
            let isMember := p.flags.toNat % 2 == 1
            let last := p.flags.toNat / 2 % 2 == 1
            match sp with
            | none =>
              let s := (s.consume p).expect r (p.seq.toNat + 1)
              if isMember then s.failMember o last stBadOpcode 0
              else s.answer o (refusal stBadOpcode 0) s.now.word
            | some sp =>
              match s.checks sp o isMember with
              | some (st, d) =>
                let s := (s.consume p).expect r (p.seq.toNat + 1)
                let s := s.when (st == stBadLength) fun s => s.raise 140 (r * 256 + 9)
                if isMember then s.failMember o last st d else s.answer o (refusal st d) s.now.word
              | none =>
                if sp.member == MemberKind.immediate then
                  (((s.expect r (p.seq.toNat + 1)).consume p)).interpret sp o
                else carry (s.expect r (p.seq.toNat + 1)) sp p o

end Sys2Proof.Machine
end

