-- ==== Sys2Proof/Machine/Caravan.lean ====
section
/-! DEFINITION. Caravans: membership, commit, validation, landing, expiry and the caravan opcodes (R92 to R107). The table
that gives a member's opcode its `OpSpec` is a parameter here; Time.lean supplies it. -/
namespace Sys2Proof.Machine

/-- The table of member-capable opcodes. -/
abbrev SpecTable := Nat → Option OpSpec

/-! ### Refusals of a whole caravan -/

/-- A caravan is refused: counted, reported when LATE or ABORTED, and its last member answered (R95 to R102). -/
def State.refuseCaravan (s : State) (c : Caravan) (a : Answer) : State :=
  let s := s.bump pktRefusedCnt_COUNT
  let s := if a.status = stLate then s.raise 144 (c.ring * 256 + a.detail)
    else if a.status = stAborted then s.raise 146 (c.ring * 256 + a.detail) else s
  match c.last with
  | some o => s.answer o a s.now.word
  | none => s

/-! ### Commit (R94, R97) -/

/-- A caravan is committed: its limits, its target frame and the frames it has already missed (R94, R97, R100). -/
def State.commitCaravan (s : State) (c : Caravan) (o : Origin) (stamp : Stamp) : State :=
  let c := { c with state := .committed, commit := stamp, last := some o }
  let waiting := s.pkt.caravans.filter fun x => x.state == .committed || x.state == .ready
  let target := c.named.getD (stamp.frame + 1)
  let missed := s.now.frame + 1 - target
  if 8 ≤ (waiting.filter fun x => x.ring == c.ring).length then s.refuseCaravan c (refusal stNoResource 2)
  else if 64 ≤ waiting.length then s.refuseCaravan c (refusal stNoResource 3)
  else if target ≤ stamp.frame ∨ stamp.frame + 65536 < target then s.refuseCaravan c (refusal stLate 3)
  else if c.limit < missed then s.refuseCaravan c (refusal stLate 1)
  else
    let s := s.each (List.range missed) fun s i => (s.bump pktSlideCnt_COUNT).raise 143 (c.ring * 256 + i + 1)
    s.setCaravans (s.pkt.caravans ++ [{ c with frame := target + missed, slides := missed }])

/-! ### Members (R92, R95, R96) -/

/-- What CARAVAN_TIME and CARAVAN_FENCE say to their caravan (R103, R106). -/
def Caravan.heed (c : Caravan) (o : Origin) : Caravan :=
  if o.opcode = 0x0301 then
    { c with named := if leAt o.payload 0 5 = 0 then none else some (leAt o.payload 0 5), limit := o.u8 8 }
  else if o.opcode = 0x0302 then { c with fences := c.fences ++ [(o.u8 0, o.u64 8)] }
  else c

/-- The life of a packet that may be a caravan member, once it has passed step 12: it is stored in its caravan, or carried
as a caravan of one (R92 to R96). -/
def State.carryMember : Carry := fun s sp p o =>
  let stamp := s.coveredAt p
  let s := s.consume p
  let isMember := p.flags.toNat % 2 == 1
  let last := p.flags.toNat / 2 % 2 == 1
  if !isMember then
    s.commitCaravan { Caravan.fresh s o.ring 0 .opened with members := [o], count := 1 } o stamp
  else if s.pkt.caravans.any fun c => c.ring == o.ring && c.id == o.caravan && !c.isOpen o.ring o.caravan then
    s.answer o (refusal stConflict 2) s.now.word
  else
    let openHere := (s.pkt.caravans.filter fun c => c.ring == o.ring && c.isOpen o.ring c.id).length
    match s.openCaravan o.ring o.caravan with
    | none =>
      if 4 ≤ openHere then s.answer o (refusal stNoResource 1) s.now.word
      else match (if sp.member == MemberKind.only then sp.check s o else none) with
        | some (st, d) => s.failMember o last st d
        | none =>
          let c := ({ Caravan.fresh s o.ring o.caravan .opened with members := [o], count := 1 } : Caravan).heed o
          if last then s.commitCaravan c o stamp
          else (s.setCaravans (s.pkt.caravans ++ [c])).answer o (refusal stAccepted 0) s.now.word
    | some c =>
      if c.state == .stub then
        let s := s.when last fun s =>
          let s := s.setCaravans (replaceFirst s.pkt.caravans (·.isOpen o.ring o.caravan) fun _ => [])
          (s.bump pktRefusedCnt_COUNT).raise 146 (o.ring * 256 + 3)
        s.answer o (refusal stAborted 3) s.now.word
      else if 64 ≤ c.count then s.failMember o last stNoResource 1
      else match (if sp.member == MemberKind.only then sp.check s o else none) with
        | some (st, d) => s.failMember o last st d
        | none =>
          if c.state == .poisoned then
            if last then
              let s := s.setCaravans (replaceFirst s.pkt.caravans (·.isOpen o.ring o.caravan) fun _ => [])
              (s.bump pktRefusedCnt_COUNT).answer o (failAnswer (c.fail.getD (stNoResource, 0, 0)) (c.count + 1) o.caravan)
                s.now.word
            else
              let s := s.setCaravans (replaceFirst s.pkt.caravans (·.isOpen o.ring o.caravan) fun c =>
                [{ c with count := c.count + 1, lastFrame := s.now.frame }])
              s.answer o (refusal stAccepted 0) s.now.word
          else
            let c := ({ c with members := c.members ++ [o], count := c.count + 1, lastFrame := s.now.frame }).heed o
            if last then
              let s := s.setCaravans (replaceFirst s.pkt.caravans (·.isOpen o.ring o.caravan) fun _ => [])
              s.commitCaravan c o stamp
            else
              let s := s.setCaravans (replaceFirst s.pkt.caravans (·.isOpen o.ring o.caravan) fun _ => [c])
              s.answer o (refusal stAccepted 0) s.now.word

/-- The meaning of an Orbel packet of a given opcode: the entry at the head of its ring is read and decided (R73 to R84). -/
def State.packet (s : State) (sp : OpSpec) (p : Packet) : State :=
  s.readEntry State.carryMember (some sp) sp.opcode p (sp.opcode == 0x0104)

/-- A packet's command, as an outcome of the machine. -/
def packetStep (sp : OpSpec) (p : Packet) (s : State) : Host.Outcome State Fault Refusal := .next (s.packet sp p)

/-! ### Winner order (R104) -/

/-- The rank of a ring among sources: the sealed ring, then functions, then the open ring. -/
def ringRank (r : Nat) : Nat := if r = 32 then 0 else if r = 33 then 40 else r + 1

/-- Whether caravan `a` orders before `b`; within one ring and stamp, ring order is list order (R104). -/
def Caravan.before (a b : Caravan) : Bool :=
  a.commit.lt b.commit || (a.commit == b.commit && decide (ringRank a.ring < ringRank b.ring))

/-- A caravan takes its place in winner order, behind those it does not come before. -/
def insertCaravan : List Caravan → Caravan → List Caravan
  | [], c => [c]
  | x :: rest, c => if c.before x then c :: x :: rest else x :: insertCaravan rest c

/-- Caravans in winner order (R104). -/
def winnerOrder (l : List Caravan) : List Caravan := l.foldl insertCaravan []

/-! ### Validation (R98) -/

/-- The effect of a caravan's members, in member order. -/
def State.landMembers (s : State) (specOf : SpecTable) (c : Caravan) : State :=
  s.each c.members fun s o => match specOf o.opcode with
    | some sp => sp.land s o
    | none => s

/-- The state that will be in force in a landing frame before a caravan's own members: every caravan READY for it has
landed, in winner order (R98), and power stages whose owner is off are free (R312). -/
def State.atFrame (s : State) (specOf : SpecTable) (frame : Nat) : State :=
  s.freeStages.each (winnerOrder (s.pkt.caravans.filter fun c => c.state == .ready && c.frame == frame)) fun s c =>
    s.landMembers specOf c

/-- The first member that fails validation: its status, detail and index (R98). -/
def validateFrom (specOf : SpecTable) : List Origin → Nat → State → Option (Nat × Nat × Nat)
  | [], _, _ => none
  | o :: rest, i, s =>
    match specOf o.opcode with
    | none => validateFrom specOf rest (i + 1) s
    | some sp =>
      match (if sp.member == MemberKind.only then none else sp.check s o) with
      | some (st, d) => some (st, d, i)
      | none => validateFrom specOf rest (i + 1) (sp.land s o)

/-- The refusal of a claim on a power stage is reported and written to the peat log (R312). -/
def State.stageRefused (s : State) (o : Origin) : State :=
  let s := s.raise 326 (if o.opcode = 0x0901 then (o.tgt - 6) * 256 + 1 else (o.tgt - 100) * 256 + 2)
  s.recordAndAnswer o (refusal stPinTaken 0) stPinTaken false

/-- Validation of a caravan of a ring completes: it is refused by R95, or READY (R98). -/
def State.validated (s : State) (specOf : SpecTable) (ring : Nat) (id : W32) : State :=
  let test : Caravan → Bool := fun c => c.ring == ring && c.id == id && c.state == .committed
  match s.pkt.caravans.find? test with
  | none => s
  | some c =>
    match validateFrom specOf c.members 0 { s.atFrame specOf c.frame with now := ⟨c.frame, 0, 0⟩ } with
    | some f =>
      let s := s.setCaravans (replaceFirst s.pkt.caravans test fun _ => [])
      let s := if f.1 = stPinTaken then (c.members[f.2.2]?.map s.stageRefused).getD s else s
      s.refuseCaravan c (failAnswer f c.count c.id)
    | none => s.setCaravans (replaceFirst s.pkt.caravans test fun c => [{ c with state := .ready }])

/-! ### The arm instant (R100, R101) -/

/-- A caravan slides to the next frame, to be validated again there, or is refused LATE at its slide limit (R100). -/
def State.slide (s : State) (c : Caravan) (detail : Nat) : State :=
  if c.slides < c.limit then
    let s := s.setCaravans (s.pkt.caravans ++ [{ c with state := .committed, slides := c.slides + 1, frame := c.frame + 1 }])
    (s.bump pktSlideCnt_COUNT).raise 143 (c.ring * 256 + c.slides + 1)
  else s.refuseCaravan c (refusal stLate detail)

/-- Whether all fences of a caravan were signalled in the grain before the arm instant (R103). -/
def State.fencesMet (s : State) (c : Caravan) : Bool :=
  c.fences.all fun f => decide (f.2 ≤ (s.rd (gfxCtxFence f.1)).toNat)

/-- The resources a caravan touches: opcode group and target of each member but the caravan opcodes (R104, log entry 7). -/
def Caravan.touches (c : Caravan) : List (Nat × Nat) :=
  (c.members.filter fun o => o.opcode / 256 != 3).map fun o => (o.opcode / 256, o.tgt)

/-- A member is recorded at the arm instant, or counted in the summary (R436, R438). -/
def State.recordMember (s : State) (specOf : SpecTable) (o : Origin) : State :=
  match specOf o.opcode with
  | some sp =>
    if sp.log == .logged || sp.log == .reserve then s.recordAndAnswer o (done 0 0) stDone false else s.countFlip sp o stDone
  | none => s

/-- The members of a caravan that need a log record. -/
def Caravan.records (c : Caravan) (specOf : SpecTable) : List Nat :=
  (List.range c.members.length).filter fun i =>
    match c.members[i]?.bind fun o => (specOf o.opcode).map OpSpec.log with
    | some LogKind.logged | some LogKind.reserve => true
    | _ => false

/-- A caravan lands at the arm instant: its members take effect or write their shadows, the heads they touch are armed, and
its last member's reply awaits the latch of those heads (R101). -/
def State.landCaravan (s : State) (specOf : SpecTable) (c : Caravan) : State :=
  let s := s.landMembers specOf c
  let s := s.each c.members fun s o => s.recordMember specOf o
  let heads := (c.members.flatMap fun o => ((specOf o.opcode).map (·.heads s o)).getD []).eraseDups
  let s := s.each heads fun s n => s.putBitAt headWallArm_ARM n true
  let s := s.bump pktLandedCnt_COUNT
  let running := heads.filter fun n => s.flag (headStatus_RUNNING n)
  let c := { c with state := .landed, landedAt := s.now, awaits := running }
  if running.isEmpty then
    match c.last with
    | some o => s.answer o (done (c.slides + 256 * c.count) c.id.toNat) s.now.word
    | none => s
  else s.setCaravans (s.pkt.caravans ++ [c])

/-- Step 3 and step 4 of R100 over the caravans in winner order; `taken` holds the resources taken so far with the ring
that took them. -/
def State.takeCaravans (specOf : SpecTable) : List Caravan → List ((Nat × Nat) × Nat) → State → State
  | [], _, s => s
  | c :: rest, taken, s =>
    match taken.find? fun t => c.touches.contains t.1 with
    | some t =>
      State.takeCaravans specOf rest taken
        ((s.raise 145 (c.ring * 256 + t.2)).refuseCaravan c (refusal stConflict 1))
    | none =>
      let taken := taken ++ c.touches.map fun x => (x, c.ring)
      let recs := c.records specOf
      if !recs.isEmpty && s.logRefuses recs.length then
        State.takeCaravans specOf rest taken
          ((s.bump peatRefused_COUNT).refuseCaravan c (refusal stLogFull (recs.headD 0)))
      else State.takeCaravans specOf rest taken (s.landCaravan specOf c)

/-- The caravans targeting the frame that now begins are taken at its arm instant (R100). A caravan that slides sends those
READY for the next frame and committed later back to validation. -/
def State.armCaravans (s : State) (specOf : SpecTable) : State :=
  let due := s.pkt.caravans.filter fun c => (c.state == .committed || c.state == .ready) && decide (c.frame ≤ s.now.frame)
  let s := s.setCaravans (s.pkt.caravans.filter fun c => !((c.state == .committed || c.state == .ready) && decide (c.frame ≤ s.now.frame)))
  let late := due.filter (·.state == .committed)
  let rest := due.filter (·.state == .ready)
  let unmet := rest.filter fun c => !s.fencesMet c
  let land := winnerOrder (rest.filter fun c => s.fencesMet c)
  let s := s.each late fun s c => s.slide c 1
  let s := s.each unmet fun s c => s.slide c 2
  let slid := (late ++ unmet).filter fun c => decide (c.slides < c.limit)
  let s := s.setCaravans (s.pkt.caravans.map fun c =>
    if c.state == .ready && c.frame == s.now.frame + 1 && slid.any fun x => x.commit.lt c.commit then
      { c with state := .committed } else c)
  State.takeCaravans specOf land [] s

/-- A head has latched: landed caravans that awaited it are answered once no awaited head is left (R101). -/
def State.latched (s : State) (n : Nat) : State :=
  let cs := s.pkt.caravans.map fun c => if c.state == .landed then { c with awaits := c.awaits.filter (· != n) } else c
  let ready := cs.filter fun c => c.state == .landed && c.awaits.isEmpty
  let s := s.setCaravans (cs.filter fun c => !(c.state == .landed && c.awaits.isEmpty))
  s.each ready fun s c => match c.last with
    | some o => s.answer o (done (c.slides + 256 * c.count) c.id.toNat) c.landedAt.word
    | none => s

/-! ### Aborts, discards and expiry -/

/-- A mode transition refuses every committed caravan (R102). -/
def State.abortCommitted (s : State) : State :=
  let due := s.pkt.caravans.filter fun c => c.state == .committed || c.state == .ready
  let s := s.setCaravans (s.pkt.caravans.filter fun c => !(c.state == .committed || c.state == .ready))
  s.each due fun s c => s.refuseCaravan c (refusal stAborted 2)

/-- A function reset discards its ring's caravans that have not been sampled, without reply (R59, R102). -/
def State.dropCaravans (s : State) (ring : Nat) : State :=
  s.setCaravans (s.pkt.caravans.filter fun c => !(c.ring == ring && c.state != .landed))

/-- An open caravan without a new member for OPEN_LIMIT master frames leaves a stub (R96). -/
def State.expireCaravan (s : State) (ring : Nat) (id : W32) : State :=
  let test : Caravan → Bool := fun c => c.ring == ring && c.id == id && (c.state == .opened || c.state == .poisoned)
    && decide (c.lastFrame + s.get pktCtrl_OPEN_LIMIT ≤ s.now.frame)
  match s.pkt.caravans.find? test with
  | none => s
  | some _ =>
    let s := s.setCaravans (replaceFirst s.pkt.caravans test fun c => [{ c with state := .stub, members := [] }])
    s.raise 147 ring

/-! ### The caravan opcodes (R105, R106) -/

/-- The caravan a member belongs to, for the limits of CARAVAN_TIME and CARAVAN_FENCE. -/
def State.ownCaravan (s : State) (o : Origin) : Caravan :=
  (s.openCaravan o.ring o.caravan).getD (Caravan.fresh s o.ring o.caravan .opened)

/-- Whether a context may be fenced by a ring: the issuing tenant's, or any from the sealed ring (R106). -/
def State.mayFence (s : State) (ring c : Nat) : Bool :=
  if ring < 32 then s.ctxOwner c == some ring else decide (c < 64)

def specCaravanTime : OpSpec :=
  { opcode := 0x0301, lens := len 16, zero := fun _ => zeroMask [(5, 7), (9, 15)] [], modes := modesPSDB, issuer := .tenants,
    member := .only, owns := fun _ _ _ => true,
    check := fun s o =>
      if (s.ownCaravan o).members.any (·.opcode == 0x0301) then some (stNoResource, 4)
      else if 8 < o.u8 8 then some (stNoResource, 9) else none }

def specCaravanFence : OpSpec :=
  { opcode := 0x0302, lens := len 16, zero := fun _ => zeroMask [(1, 7)] [], modes := modesPSDB, issuer := .tenants,
    member := .only,
    check := fun s o =>
      if 8 ≤ (s.ownCaravan o).fences.length then some (stNoResource, 1)
      else if !s.mayFence o.ring (o.u8 0) then some (stNoResource, 1) else none }

def specCaravanEnd : OpSpec :=
  { opcode := 0x0305, lens := len 0, modes := modesPSDB, issuer := .tenants, member := .only }

/-- CARAVAN_ABORT cancels an open or committed caravan of its own ring (R106). -/
def abortRun (s : State) (o : Origin) : State × Effect :=
  let id := BitVec.ofNat 32 (o.u32 0)
  match s.pkt.caravans.find? fun c => c.ring == o.ring && c.id == id && id != 0 with
  | none => (s, .answer (refusal stNoResource 1))
  | some c =>
    match c.state with
    | .landed => (s, .answer (refusal stLate 4))
    | .committed | .ready =>
      let s := s.setCaravans (s.pkt.caravans.filter fun x => !(x.ring == o.ring && x.id == id))
      (s.refuseCaravan c (refusal stAborted 1), .answer (done 0 0))
    | _ => (s.setCaravans (s.pkt.caravans.filter fun x => !(x.ring == o.ring && x.id == id)), .answer (done 0 0))

def specCaravanAbort : OpSpec :=
  { opcode := 0x0303, lens := len 8, zero := fun _ => zeroMask [(4, 7)] [], modes := modesPSDB, issuer := .tenants,
    run := abortRun }

/-- The state code CARAVAN_QUERY returns (R106). -/
def carCode : CarState → Nat
  | .opened => 1
  | .committed => 2
  | .ready => 3
  | .poisoned => 4
  | .stub => 4
  | .landed => 5

/-- CARAVAN_QUERY returns state, slides, members and target frame (R106). -/
def carQueryRun (s : State) (o : Origin) : State × Effect :=
  let id := BitVec.ofNat 32 (o.u32 0)
  match s.pkt.caravans.find? fun c => c.ring == o.ring && c.id == id && id != 0 with
  | none => (s, .answer (done 0 0))
  | some c =>
    (s, .answer (done (carCode c.state + 256 * (c.slides % 16) + 0x10000 * (c.count % 256))
      ((if c.state == .opened || c.state == .poisoned || c.state == .stub then c.named.getD 0 else c.frame) % 2 ^ 40)))

def specCaravanQuery : OpSpec :=
  { opcode := 0x0304, lens := len 8, zero := fun _ => zeroMask [(4, 7)] [], modes := allModes, issuer := .tenants,
    query := true, run := carQueryRun }

/-! ### Meanings -/

def execCaravanTime (p : Packet) (s : State) : Host.Outcome State Fault Refusal := packetStep specCaravanTime p s
def execCaravanFence (p : Packet) (s : State) : Host.Outcome State Fault Refusal := packetStep specCaravanFence p s
def execCaravanEnd (p : Packet) (s : State) : Host.Outcome State Fault Refusal := packetStep specCaravanEnd p s
def execCaravanAbort (p : Packet) (s : State) : Host.Outcome State Fault Refusal := packetStep specCaravanAbort p s
def execCaravanQuery (p : Packet) (s : State) : Host.Outcome State Fault Refusal := packetStep specCaravanQuery p s

/-- CARAVAN_EXPIRED: the time an open caravan may stay without a new member has passed (R96). -/
def execCaravanExpired (ring : Fin 34) (id : W32) (s : State) : Host.Outcome State Fault Refusal :=
  .next (s.expireCaravan ring.val id)

/-- UNDEFINED_OPCODE: an entry whose opcode is not defined fails step 7 (R79). -/
def execUndefinedOpcode (opcode : W16) (p : Packet) (s : State) : Host.Outcome State Fault Refusal :=
  .next (s.readEntry State.carryMember none opcode.toNat p false)

end Sys2Proof.Machine
end

