-- ==== Sys2Proof/Machine/Mbq.lean ====
section
/-! DEFINITION. Mailboxes, report queues and locks (R342 to R365). -/
namespace Sys2Proof.Machine

/-! ### Shared parts -/

/-- The MBQ's own state changes. -/
def State.modMbq (s : State) (f : MbqState → MbqState) : State := { s with mbq := f s.mbq }

/-- The generation stamped for an agent: FN_STATUS.GEN for a host function, 0 for others (R344). -/
def State.agentGen (s : State) (agent : Nat) : Nat := if agent < 32 then s.get (fnStatus_GEN agent) else 0

/-- The mailboxes of function `f` in ascending number; the k-th stands behind BAR 0 window k (R343). -/
def State.mailboxesOf (s : State) (f : Nat) : List Nat := (List.range 64).filter fun m => s.get (mbqMbCfg_RX m) == f

/-- The locks of function `f` in ascending number (R343). -/
def State.locksOf (s : State) (f : Nat) : List Nat := (List.range 64).filter fun l => s.get (mbqLockPeek_OWNER l) == f

/-- The mailbox behind window `k` of function `f`, if there is one; eight windows exist. -/
def State.windowBox (s : State) (f k : Nat) : Option Nat := if k < 8 then (s.mailboxesOf f)[k]? else none

/-- Whether an open-world requester is kept from a unit by its owner field, 62 being the open world (R362). -/
def openBarred (who : Requester) (owner : Nat) : Bool := decide (worldOf who = .opened) && owner != 62

/-! ### Mailboxes (R344 to R349) -/

/-- The unread messages of mailbox `m`. -/
def State.box (s : State) (m : Nat) : List (List Byte) := s.mbq.boxes.getD m []

/-- The unread messages of mailbox `m` change: its flag follows, and for a host receiver the mirror block and vector 1
(R347). -/
def State.setBox (s : State) (m : Nat) (l : List (List Byte)) : State :=
  let s := s.modMbq fun b => { b with boxes := b.boxes.set m l }
  let s := (s.put (mbqMbFlag_COUNT m) l.length).putBit (mbqMbFlag_FULL m) (l.length == 8)
  let f := s.get (mbqMbCfg_RX m)
  if f < 32 then (s.mirrorDue f).signalFixed f 1 else s

/-- The receive flag bytes of function `f`'s windows 0 to 7 in its mirror block (R44, R347). -/
def State.mirrorFlags (s : State) (f : Nat) : List Byte :=
  (List.range 8).map fun k => match s.windowBox f k with
    | some m => BitVec.ofNat 8 (s.rd (mbqMbFlag m)).toNat
    | none => 0

/-- The message the MBQ stores (R344). -/
def message (agent gen len : Nat) (time : W64) (payload : List Byte) : List Byte :=
  leBytes 2 agent ++ leBytes 1 gen ++ leBytes 1 (len + 128) ++ leBytes 4 0 ++ leBytes 8 time.toNat
    ++ bytesAt (payload.take len) 0 48

/-- The oldest unread message of a mailbox, or 64 zero bytes (R344). -/
def State.oldest (s : State) (m : Nat) : List Byte := (s.box m).headD (List.replicate 64 0)

/-- Whether mailbox `m` admits a sender (R345). -/
def State.admits (s : State) (m : Nat) (who : Requester) : Bool :=
  match who with
  | .host f => s.bit (mbqMbAllow_FUNC m) f.val
  | .core _ .sealed | .debug _ .sealed => s.flag (mbqMbAllow_SEALED m)
  | .core _ .opened | .debug _ .opened => s.flag (mbqMbAllow_OPEN m)

/-- The outcome of a post (R345): the checks in the order R345 lists them, a mailbox number above 63 first. -/
def State.postResult (s : State) (who : Requester) (m len : Nat) (named : Bool) : Nat :=
  if !named then 4 else if !s.admits m who then 3 else if 48 < len then 4 else if 8 ≤ (s.box m).length then 2 else 1

/-- The bank of a send port: each core in each world has its own, and each window of each function (R343, R345). -/
def txBank (who : Requester) (window : Nat) : Option Nat :=
  match who with
  | .core k .sealed => some (2 * k.val)
  | .core k .opened => some (2 * k.val + 1)
  | .host f => if window < 8 then some (8 + 8 * f.val + window) else none
  | .debug _ _ => none

/-- The 48 bytes staged in a send port. -/
def State.txStaged (s : State) (bank : Nat) : List Byte :=
  (List.range 6).flatMap fun j => leBytes 8 (s.rd (mbqTxData bank j)).toNat

/-- A refused access by a host is logged as an AER Completer Abort; one by an internal agent ends in a bus error. -/
def State.abortOrError (s : State) (who : Requester) (addr : Nat) : State :=
  match who with
  | .host f => s.emit (.completerAbort f.val)
  | _ => s.emit (.busError (agentOf who) addr)

/-- A post through a send port (R345). -/
def State.post (s : State) (who : Requester) (bank value : Nat) : State :=
  let m := value % 64
  let len := value / 256 % 64
  let result := s.postResult who m len (value / 64 % 4 == 0)
  let s := (s.put (mbqTxStatus_RESULT bank) result).put (mbqTxStatus_MB bank) m
  if result = 1 then
    s.setBox m (s.box m ++ [message (agentOf who) (s.agentGen (agentOf who)) len s.now.word (s.txStaged bank)])
  else (s.abortOrError who (mbqTxStatus bank).addr).raise 464 (m * 256 + result)

/-- MAILBOX_POST: from the reset decision until its end a function's posts are discarded (R349); a window with no mailbox
behind it behaves as reserved (R42). -/
def execMailboxPost (who : Requester) (window : Fin 8) (value : W32) (s : State) : Host.Outcome State Fault Refusal :=
  .next (match who, txBank who window.val with
    | .host f, some bank =>
      s.barWrite f.val fun s =>
        if s.resetting f.val || (s.windowBox f.val window.val).isNone then s else s.post who bank value.toNat
    | _, some bank => s.post who bank value.toNat
    | _, none => s.emit (.busError (agentOf who) 0x40608040))

/-- The oldest message of a mailbox is freed (R347). -/
def State.pop (s : State) (m : Nat) : State := if (s.box m).isEmpty then s else s.setBox m (s.box m).tail

/-- MAILBOX_POP: `unit` is the mailbox, or the window of a host; the open world uses the mailboxes with RX = 62 (R362). -/
def execMailboxPop (who : Requester) (unit : Fin 64) (value : W32) (s : State) : Host.Outcome State Fault Refusal :=
  .next (match who with
    | .host f => s.barWrite f.val fun s => match s.windowBox f.val unit.val with
      | some m => if value.toNat % 2 = 1 then s.pop m else s
      | none => s
    | _ =>
      if !s.mayWrite who then s.emit (.busError (agentOf who) (mbqMbPop unit.val).addr)
      else if openBarred who (s.get (mbqMbCfg_RX unit.val)) then
        s.refuseWrite who (mbqMbPop unit.val).addr value.toNat 0 stWorld
      else if value.toNat % 2 = 1 then s.pop unit.val else s)

/-- The receiver of mailbox `m` is reset: unread messages are flushed (R348). -/
def State.flushBox (s : State) (m : Nat) : State :=
  let n := (s.box m).length
  let e := s.get (mbqMbFlag_EPOCH m) + 1
  let s := (s.put (mbqMbFlag_EPOCH m) e).put (mbqMbPeer_EPOCH m) e
  if n = 0 then s
  else
    let s := (s.put (mbqMbPeer_LAST_FLUSH m) n).bumpBy (mbqMbPeer_FLUSH_TOTAL m) n
    (s.setBox m []).raise 465 (m * 256 + n)

/-- The send staging and status of a bank return to zero (R349). -/
def State.clearTx (s : State) (bank : Nat) : State :=
  (s.each (List.range 6) fun s j => s.cold (mbqTxData bank j)).cold (mbqTxStatus bank)

/-! ### Report queues (R350 to R356) -/

/-- Queue `q` beside its registers. -/
def State.queue (s : State) (q : Nat) : QueueState := s.mbq.queues.getD q ⟨[], 0, 0⟩

/-- The items a queue holds. -/
def QueueState.fill (u : QueueState) : Nat := (u.packets.map List.length).sum

/-- A queue changes, and its status register follows. -/
def State.setQueue (s : State) (q : Nat) (u : QueueState) : State :=
  let s := s.modMbq fun b => { b with queues := b.queues.set q u }
  (s.put (mbqQStatus_FILL q) u.fill).putBit (mbqQStatus_BREAK q) (u.broken != 0)

/-- Room is made for one item in a full queue: its oldest packet, or what is left of it, is discarded (R353). -/
def State.makeRoom (s : State) (q : Nat) : State :=
  match (s.queue q).packets with
  | [] => s
  | p :: rest =>
    let u := s.queue q
    let s := s.setQueue q ⟨rest, u.broken + p.length, u.lostTotal + p.length⟩
    let s := s.bumpBy (mbqQLost_COUNT q) p.length
    if u.broken = 0 then s.raise 466 q else s

/-- Room is made for `n` items; each round discards at least one item. -/
def State.makeRoomFor (q n : Nat) : Nat → State → State
  | 0, s => s
  | fuel + 1, s => if 4096 < (s.queue q).fill + n then State.makeRoomFor q n fuel (s.makeRoom q) else s

/-- A producer appends a packet, item after item (R351, R353); it is complete within one step, so no packet stays open
(log entry 10). -/
def State.appendPacket (s : State) (q : Nat) (items : List W64) : State :=
  let s := State.makeRoomFor q items.length items.length s
  let u := s.queue q
  s.setQueue q { u with packets := u.packets ++ [items] }

/-- The break item for `n` lost items (R350). -/
def breakItem (n : Nat) : W64 := BitVec.ofNat 64 (0x81 * 2 ^ 56 + min n 0xFFFFFFFF)

/-- The consumer takes the next item: a break item when items were lost, else the oldest item, else the idle item (R353,
R354). -/
def State.takeItem (s : State) (q : Nat) : State × W64 :=
  let u := s.queue q
  if u.broken ≠ 0 then (s.setQueue q { u with broken := 0 }, breakItem u.broken)
  else match u.packets with
    | [] => (s, 0)
    | [] :: rest => (s.setQueue q { u with packets := rest }, 0)
    | (i :: p) :: rest => (s.setQueue q { u with packets := if p.isEmpty then rest else p :: rest }, i)

/-- QUEUE_READ: a 64-bit read takes an item; another width ends in a bus error and takes nothing (R354). -/
def execQueueRead (who : Requester) (q : Fin 32) (width : Width) (s : State) : Host.Outcome State Fault Refusal :=
  .next (match who with
    | .host f => s.emit (.busError f.val (mbqQRead q.val).addr)
    | _ =>
      if !s.mayRead who then s.emit (.busError (agentOf who) (mbqQRead q.val).addr)
      else if openBarred who (s.get (mbqQCfg_OWNER q.val)) then s.refuseRead who (mbqQRead q.val).addr
      else if width ≠ .w64 then s.emit (.busError (agentOf who) (mbqQRead q.val).addr)
      else
        let r := s.takeItem q.val
        r.1.emit (.readValue (agentOf who) (mbqQRead q.val).addr r.2))

/-- The kind of a packet's first item (R350). -/
def itemKind (i : W64) : Nat := i.toNat / 2 ^ 56 % 128

/-- The staged items of a core for a queue. -/
def State.staging (s : State) (key : Nat) : List W64 := ((s.mbq.staged.find? fun e => e.1 == key).map (·.2)).getD []

/-- The staged items of a core for a queue change. -/
def State.setStaging (s : State) (key : Nat) (l : List W64) : State :=
  s.modMbq fun b => { b with
    staged := let rest := b.staged.filter fun e => e.1 != key
              if l.isEmpty then rest else rest ++ [(key, l)] }

/-- A core writes an item to a queue (R351). -/
def State.writeItem (s : State) (who : Requester) (bank q : Nat) (item : W64) : State :=
  let key := bank * 32 + q
  let staged := s.staging key
  let valid := decide (2 ^ 63 ≤ item.toNat)
    && (!staged.isEmpty || decide (0x70 ≤ itemKind item ∧ itemKind item ≤ 0x7E))
  if !valid then
    ((s.setStaging key []).emit (.busError (agentOf who) (mbqQWrite q).addr)).raise 467 q
  else
    let items := staged ++ [item]
    let need := 1 + (items.headD 0).toNat / 2 ^ 48 % 16
    if need ≤ items.length then (s.setStaging key []).appendPacket q items else s.setStaging key items

/-- QUEUE_ITEM_WRITE (R351, R362). -/
def execQueueItemWrite (who : Requester) (q : Fin 32) (item : W64) (s : State) : Host.Outcome State Fault Refusal :=
  .next (match who, txBank who 0 with
    | .host f, _ => s.emit (.busError f.val (mbqQWrite q.val).addr)
    | _, none => s.emit (.busError (agentOf who) (mbqQWrite q.val).addr)
    | _, some bank =>
      if openBarred who (s.get (mbqQCfg_OWNER q.val)) then
        s.refuseWrite who (mbqQWrite q.val).addr item.toNat 0 stWorld
      else s.writeItem who bank q.val item)

/-- All items a consumer can take now: a break item when items were lost, then the items held (R354, R355). -/
def QueueState.readable (u : QueueState) : List W64 :=
  (if u.broken = 0 then [] else [breakItem u.broken]) ++ u.packets.flatten

/-- Items are written into the host ring of queue `q` from item number `from` upwards (R355). -/
def State.writeSlots (s : State) (f base log2 : Nat) : List W64 → Nat → State
  | [], _ => s
  | i :: rest, n =>
    State.writeSlots (s.emit (.hostWrite f (base + 64 + n % 2 ^ log2 * 8) (leBytes 8 i.toNat))) f base log2 rest (n + 1)

/-- QUEUE_HOST_DELIVERY: readable items are written to the host ring, then its header, and vector 2 follows (R355). -/
def execQueueHostDelivery (q : Fin 32) (s : State) : Host.Outcome State Fault Refusal :=
  .next (
    let u := s.queue q.val
    let f := s.get (mbqQCfg_OWNER q.val)
    let items := u.readable
    if !s.flag (mbqQCfg_HOST q.val) || decide (32 ≤ f) || items.isEmpty then s
    else
      let base := s.get (mbqQHost_ADDR q.val) * 4096
      let s := s.writeSlots f base (s.get (mbqQCfg_LOG2 q.val)) items (s.get (mbqQDeliv_COUNT q.val))
      let s := s.put (mbqQDeliv_COUNT q.val) (s.get (mbqQDeliv_COUNT q.val) + items.length)
      let s := s.emit (.hostWrite f base
        (leBytes 8 (s.get (mbqQDeliv_COUNT q.val)) ++ leBytes 8 u.lostTotal ++ leBytes 48 0))
      (s.setQueue q.val ⟨[], 0, u.lostTotal⟩).signalFixed f 2)

/-! ### Locks (R357 to R361) -/

/-- The value a read of a lock returns, less GOT (R358). -/
def State.lockWord (s : State) (l : Nat) : Nat :=
  s.get (mbqLockPeek_HOLDER l) + 0x10000 * s.get (mbqLockPeek_GEN l) + 0x40000000

/-- An agent reads a lock: a free lock becomes its own (R358). -/
def State.readLock (s : State) (l agent : Nat) : State × Nat :=
  if s.flag (mbqLockPeek_HELD l) then (s, s.lockWord l)
  else
    let s := (s.put (mbqLockPeek_HOLDER l) agent).put (mbqLockPeek_GEN l) (s.agentGen agent)
    let s := s.put (mbqLockPeek_HELD l) 1
    (s, s.lockWord l + 0x80000000)

/-- A lock becomes free. -/
def State.freeLock (s : State) (l : Nat) : State :=
  ((s.put (mbqLockPeek_HOLDER l) 0).put (mbqLockPeek_GEN l) 0).put (mbqLockPeek_HELD l) 0

/-- Whether an agent holds a lock. -/
def State.holds (s : State) (l agent : Nat) : Bool :=
  s.flag (mbqLockPeek_HELD l) && s.get (mbqLockPeek_HOLDER l) == agent

/-- The lock a host reaches: lock j of window k is the (8k + j)-th of its tenant, behind a live window (R343). -/
def State.windowLock (s : State) (f unit : Nat) : Option Nat :=
  if (s.windowBox f (unit / 8)).isSome then (s.locksOf f)[unit]? else none

/-- The BAR 0 address of FN_LOCK_j in window k of a function, for unit 8k + j. -/
def windowLockAddr (f unit : Nat) : Nat := fnBank + 0x10000 * f + 0x8200 + unit / 8 * 0x800 + unit % 8 * 4

/-- LOCK_READ: `unit` is the lock, or 8k + j for FN_LOCK_j in window k of a host; a control core may read any lock (R360). -/
def execLockRead (who : Requester) (unit : Fin 64) (s : State) : Host.Outcome State Fault Refusal :=
  .next (match who with
    | .host f => s.barRead f.val (windowLockAddr f.val unit.val) 32 fun s => match s.windowLock f.val unit.val with
      | some l =>
        let r := s.readLock l f.val
        r.1.emit (.readValue f.val (windowLockAddr f.val unit.val) (BitVec.ofNat 64 r.2))
      | none => s.emit (.readValue f.val (windowLockAddr f.val unit.val) 0)
    | .debug _ _ => s.emit (.busError (agentOf who) (mbqLock unit.val).addr)
    | .core _ _ =>
      let r := s.readLock unit.val (agentOf who)
      r.1.emit (.readValue (agentOf who) (mbqLock unit.val).addr (BitVec.ofNat 64 r.2)))

/-- Any write by the holder releases a lock; another writer's is discarded and reported (R360). -/
def State.writeLock (s : State) (who : Requester) (l : Nat) : State :=
  if s.holds l (agentOf who) then s.freeLock l
  else (s.abortOrError who (mbqLock l).addr).raise 468 l

/-- LOCK_RELEASE_WRITE (R360). -/
def execLockReleaseWrite (who : Requester) (unit : Fin 64) (s : State) : Host.Outcome State Fault Refusal :=
  .next (match who with
    | .host f => s.barWrite f.val fun s => match s.windowLock f.val unit.val with
      | some l => s.writeLock who l
      | none => s
    | _ => if s.mayWrite who then s.writeLock who unit.val else s.emit (.busError (agentOf who) (mbqLock unit.val).addr))

/-- The locks that satisfy a test are broken, in ascending order (R361). -/
def State.breakLocks (s : State) (cause : Nat) (test : Nat → Bool) : State :=
  s.each ((List.range 64).filter fun l => s.flag (mbqLockPeek_HELD l) && test (s.get (mbqLockPeek_HOLDER l)))
    fun s l => (s.freeLock l).raise 469 (l * 256 + cause)

/-! ### Resets -/

/-- What a function reset does in the MBQ at its decision: receive mailboxes flushed, host delivery stopped, locks released
(R348, R356, R361). -/
def State.mbqResetFunction (s : State) (f : Nat) : State :=
  let s := s.each (s.mailboxesOf f) State.flushBox
  let s := s.each ((List.range 32).filter fun q => s.get (mbqQCfg_OWNER q) == f) fun s q => s.put (mbqQCfg_HOST q) 0
  s.breakLocks 1 (· == f)

/-- When a function reset ends, its stagings and send status have returned to zero (R349). -/
def State.mbqResetDone (s : State) (f : Nat) : State := s.each (List.range 8) fun s k => s.clearTx (8 + 8 * f + k)

/-- What a warm reset does in the MBQ at its decision (R348, R349, R356, R361). -/
def State.mbqResetWarm (s : State) : State :=
  let s := s.each (List.range 64) State.flushBox
  let s := s.each (List.range 32) fun s q => s.put (mbqQCfg_HOST q) 0
  let s := s.breakLocks 2 (· != 0xA000)
  let s := s.each (List.range 264) State.clearTx
  s.modMbq fun b => { b with staged := [] }

/-! ### Opcodes (R363, R364) -/

/-- The AGENT_ID a packet acts with in the MBQ (R363). -/
def Origin.mbqAgent (o : Origin) : Nat := o.agent

/-- The modes of the group's changing opcodes. -/
def modesMbq : List Nat := [2, 3, 4, 5, 6, 7]

def specMbAllow : OpSpec :=
  { opcode := 0x0F01, lens := len 8, zero := fun _ => zeroMask [(5, 7)] [], modes := modesMbq, issuer := .mailboxes,
    names := fun t => t < 64, owns := fun s r t => s.get (mbqMbCfg_RX t) == r, log := .logged,
    check := fun _ o => if 3 < o.u8 4 then some (stNoResource, 5) else none,
    run := fun s o =>
      let s := (s.put (mbqMbAllow_FUNC o.tgt) (o.u32 0)).put (mbqMbAllow_SEALED o.tgt) (o.u8 4 % 2)
      (s.put (mbqMbAllow_OPEN o.tgt) (o.u8 4 / 2), .answer (done 0 0)) }

def specMbQuery : OpSpec :=
  { opcode := 0x0F02, lens := len 0, modes := allModes, issuer := .mailboxes, query := true, names := fun t => t < 64,
    owns := fun s r t => s.get (mbqMbCfg_RX t) == r,
    run := fun s o => (s, .answer (done
      ((s.rd (mbqMbFlag o.tgt)).toNat + 0x100000000 * (s.rd (mbqMbCfg o.tgt)).toNat) (s.rd (mbqMbPeer o.tgt)).toNat)) }

/-- The first payload byte of Q_SET that is out of range. -/
def qSetFault (o : Origin) : Option Nat :=
  if 1 < o.u8 0 then some 0
  else if o.u8 1 < 6 ∨ 16 < o.u8 1 then some 1
  else if o.u8 2 < 1 ∨ 16 < o.u8 2 then some 2
  else if o.u64 8 % 4096 ≠ 0 then some 8
  else none

def specQSet : OpSpec :=
  { opcode := 0x0F03, lens := len 24, zero := fun _ => zeroMask [(3, 7), (16, 23)] [], modes := modesMbq,
    issuer := .mailboxes, names := fun t => t < 32, owns := fun s r t => s.get (mbqQCfg_OWNER t) == r, log := .logged,
    check := fun s o => match qSetFault o with
      | some b => some (stNoResource, 1 + b)
      | none => if o.u8 0 = 1 ∧ 32 ≤ s.get (mbqQCfg_OWNER o.tgt) then some (stNotOwner, 1) else none,
    run := fun s o =>
      let s := (s.put (mbqQCfg_HOST o.tgt) (o.u8 0)).put (mbqQCfg_LOG2 o.tgt) (o.u8 1)
      let s := (s.put (mbqQCfg_CUT o.tgt) (o.u8 2)).put (mbqQHost_ADDR o.tgt) (o.u64 8 / 4096)
      (s.when (o.u8 0 == 1) fun s => s.put (mbqQDeliv_COUNT o.tgt) 0, .answer (done 0 0)) }

def specQQuery : OpSpec :=
  { opcode := 0x0F04, lens := len 0, modes := allModes, issuer := .mailboxes, query := true, names := fun t => t < 32,
    owns := fun s r t => s.get (mbqQCfg_OWNER t) == r,
    run := fun s o => (s, .answer (done
      ((s.rd (mbqQStatus o.tgt)).toNat + 0x100000000 * s.get (mbqQLost_COUNT o.tgt)) (s.get (mbqQDeliv_COUNT o.tgt)))) }

def specLockTake : OpSpec :=
  { opcode := 0x0F05, lens := len 0, modes := modesMbq, issuer := .mailboxes, names := fun t => t < 64,
    owns := fun s r t => s.get (mbqLockPeek_OWNER t) == r,
    run := fun s o =>
      let r := s.readLock o.tgt o.mbqAgent
      (r.1, .answer ⟨stDone, if 2 ^ 31 ≤ r.2 then 0 else 1, BitVec.ofNat 64 r.2, 0⟩) }

def specLockGive : OpSpec :=
  { opcode := 0x0F06, lens := len 0, modes := modesMbq, issuer := .mailboxes, names := fun t => t < 64,
    owns := fun s r t => s.get (mbqLockPeek_OWNER t) == r,
    run := fun s o =>
      if s.holds o.tgt o.mbqAgent then (s.freeLock o.tgt, .answer (done 0 0))
      else (s.raise 468 o.tgt, .answer (refusal stConflict 1)) }

def execMbAllow (p : Packet) (s : State) : Host.Outcome State Fault Refusal := packetStep specMbAllow p s
def execMbQuery (p : Packet) (s : State) : Host.Outcome State Fault Refusal := packetStep specMbQuery p s
def execQSet (p : Packet) (s : State) : Host.Outcome State Fault Refusal := packetStep specQSet p s
def execQQuery (p : Packet) (s : State) : Host.Outcome State Fault Refusal := packetStep specQQuery p s
def execLockTake (p : Packet) (s : State) : Host.Outcome State Fault Refusal := packetStep specLockTake p s
def execLockGive (p : Packet) (s : State) : Host.Outcome State Fault Refusal := packetStep specLockGive p s

end Sys2Proof.Machine
end

