-- ==== Sys2Proof/Machine/Wall.lean ====
section
/-! DEFINITION. Wall time: the lock loop (R10 to R22), the master raster (R13 to R16, R29), the wall-time opcodes
(R33 to R35) and the reads that latch a 64-bit stamp (R32, R550). -/
namespace Sys2Proof.Machine

/-! ### The raster's limits (R13, R29) -/

/-- The frame rate lies between 24,000/1,001 Hz and 120 Hz (R13). -/
def rateOk (num den : Nat) : Bool := decide (den ≠ 0 ∧ 24000 * den ≤ 1001 * num ∧ num ≤ 120 * den)

/-- The line period lies between 1.6 µs and 16 µs (R13). -/
def linePeriodOk (num den lines : Nat) : Bool :=
  decide (16 * num * lines ≤ 10000000 * den ∧ 1000000 * den ≤ 16 * num * lines)

/-- The pair AUD_NUM / AUD_DEN, in lowest terms, that gives exactly 48 kHz at the nominal raster (R29). -/
def audioPair (num den lines : Nat) : Nat × Nat :=
  let a := 48000 * den
  let b := num * lines
  (a / Nat.gcd a b, b / Nat.gcd a b)

/-- The detail with which R34 refuses a raster, if it does: 1 rate, 2 line count, 3 line period, 4 audio ratio. -/
def rasterLimit (num den lines : Nat) : Option Nat :=
  if !rateOk num den then some 1
  else if lines < 256 ∨ 16384 < lines then some 2
  else if !linePeriodOk num den lines then some 3
  else if 65535 < (audioPair num den lines).1 ∨ 65535 < (audioPair num den lines).2 then some 4
  else none

/-- The modes in which the raster can be changed: Kindling, Provisioning, Test, Recovery (R15). -/
def rasterModes : List Nat := [1, 2, 6, 7]

/-! ### The lock loop (R10 to R22) -/

/-- The block's state changes. -/
def State.modWall (s : State) (f : WallState → WallState) : State := { s with wall := f s.wall }

/-- A signed register field takes an integer; one that its width cannot hold leaves it a free value (log entry 1). -/
def State.putSigned (s : State) (f : RF) (i : Int) : State :=
  if -(2 ^ (f.width - 1) : Nat) ≤ i ∧ i < (2 ^ (f.width - 1) : Nat) then s.put f (ofSigned f.width i)
  else s.freeUsed.put f s.free.toNat

/-- The grains of one reference period: REF_MULT master frames (R11). -/
def State.referenceGrains (s : State) : Nat := 2 ^ s.get wallSyncCfg_REF_MULT * s.lines * 32

/-- A phase error in 1/16 grain reduced modulo the reference period P into the range from −P/2 up to P/2 (R22). -/
def State.reducePhase (s : State) (e : Int) : Int :=
  let p : Int := (s.referenceGrains * 16 : Nat)
  (e + p / 2) % p - p / 2

/-- The phase is stepped: the next master frame is cut or extended by the error in whole grains (R22, R36). -/
def State.phaseStep (s : State) (e : Int) : State :=
  let s := s.modWall fun w => { w with jump := e.tdiv 16, slew := 0 }
  s.raise 20 (ofSigned 32 (e.tdiv 16))

/-- A valid reference in FREE or HOLDOVER enters ACQUIRE; the first acquisition after cold reset steps the phase, a later
one does in jump mode (R18, R22). -/
def State.acquire (s : State) (phase16 : Int) : State :=
  if s.get wallStatus_STATE = 0 ∨ s.get wallStatus_STATE = 3 then
    let first := !s.wall.acquired
    let s := (s.put wallStatus_STATE 1).put wallStatus_HOLDOVER 0
    let s := s.modWall fun w => { w with acquired := true, goodRun := 0 }
    if first || s.flag wallCtrl_RELOCK_MODE then s.phaseStep phase16 else s
  else s

/-- A valid reference point (R18, R19, R22). -/
def State.validReference (s : State) (freq freqErr phase16 : Int) : State :=
  let s := s.acquire phase16
  let good := decide (phase16.natAbs ≤ 32) && decide (freqErr.natAbs ≤ 100)
  let s := s.modWall fun w => { w with
    missRun := 0, goodRun := if good then w.goodRun + 1 else 0, freqs := (freq :: w.freqs).take 64,
    slew := if phase16.natAbs ≤ 32 then 0 else if w.jump = 0 then s.reducePhase phase16 * 1000000 else w.slew }
  if s.get wallStatus_STATE = 1 && decide (16 ≤ s.wall.goodRun) then
    (s.put wallStatus_STATE 2).raise 16 (s.get wallPhase_PHASE_ERR)
  else s

/-- One more expected reference is missing or invalid (R20). -/
def State.missedReference (s : State) : State := s.modWall fun w => { w with missRun := w.missRun + 1, goodRun := 0 }

/-- A flag of WALL_STATUS is set; its event is raised when it was not set before. -/
def State.statusEvent (s : State) (field : RF) (event detail : Nat) : State :=
  if s.flag field then s else (s.put field 1).raise event detail

/-- A reference point of the configured type (R18 to R22). -/
def State.referencePoint (s : State) (pos16 period freq freqErr phase16 : Int) : State :=
  let s := (s.putSigned wallPhase_PHASE_ERR phase16).putSigned wallPhase_FREQ_OFF freq
  if !s.wall.anchor then s.modWall fun w => { w with anchor := true }
  else if 20000 < period.natAbs then
    (s.statusEvent wallStatus_RANGE 18 (s.get wallPhase_FREQ_OFF)).missedReference
  else
    let s := s.put wallStatus_RANGE 0
    if 1024 < pos16.natAbs then s.missedReference else s.validReference freq freqErr phase16

/-- HOUSE_SYNC_REFERENCE: a point of the wrong type is reported and treated as absent; with TYPE 0 the input is not watched
(R10). -/
def execHouseSyncReference (detected : Fin 4) (pos16 period freq freqErr phase16 : Int) (s : State) :
    Host.Outcome State Fault Refusal :=
  .next (if s.get wallSyncCfg_TYPE = 0 then s
    else if detected.val ≠ s.get wallSyncCfg_TYPE then s.statusEvent wallStatus_MISMATCH 19 detected.val
    else (s.put wallStatus_MISMATCH 0).referencePoint pos16 period freq freqErr phase16)

/-- EXPECTED_REFERENCE_MISSING: the consecutive-miss count advances (R20). -/
def execExpectedReferenceMissing (s : State) : Host.Outcome State Fault Refusal :=
  .next (if s.get wallSyncCfg_TYPE = 0 then s else s.missedReference)

/-- House sync counts as lost: the next reference point is an anchor again (R18), and from ACQUIRE or LOCKED the W8 enters
HOLDOVER (R20). -/
def State.syncLost (s : State) : State :=
  if s.wall.missRun < s.get wallSyncCfg_LOSS_COUNT then s
  else
    let s := s.modWall fun w => { w with anchor := false, missRun := 0 }
    if s.get wallStatus_STATE = 1 ∨ s.get wallStatus_STATE = 2 then
      let s := (s.put wallStatus_STATE 3).put wallStatus_HOLDOVER 1
      let s := s.put wallHoldTime_HOLD_SEC 0
      let s := s.modWall fun w => { w with holdSince := s.now, limitRaised := false, slew := 0 }
      s.raise 17 (s.get wallSyncCfg_LOSS_COUNT)
    else s

/-- SYNC_LOST (R20). -/
def execSyncLost (s : State) : Host.Outcome State Fault Refusal := .next s.syncLost

/-- WALL_HOLD_TIME counts the whole seconds in holdover, on nominal timing (R21). -/
def State.holdTime (s : State) : State :=
  if s.get wallStatus_STATE = 3 then s.put wallHoldTime_HOLD_SEC (s.grainsToUs (s.since s.wall.holdSince) / 1000000) else s

/-- HOLDOVER_LIMIT: raised once in a holdover when HOLD_SEC reaches HOLD_LIMIT minutes (R21). -/
def execHoldoverLimit (s : State) : Host.Outcome State Fault Refusal :=
  .next (
    let s := s.holdTime
    if s.get wallStatus_STATE = 3 && !s.wall.limitRaised
        && decide (60 * s.get wallLockCfg_HOLD_LIMIT ≤ s.get wallHoldTime_HOLD_SEC) then
      (s.modWall fun w => { w with limitRaised := true }).raise 21 (s.get wallLockCfg_HOLD_LIMIT)
    else s)

/-! ### Master frame start (R15, R31, R34) -/

/-- A change of the house sync configuration makes the next reference point an anchor; with TYPE 0 the raster runs free
(R10, R18). -/
def State.syncChanged (s : State) : State :=
  let s := s.modWall fun w => { w with anchor := false, missRun := 0, goodRun := 0 }
  if s.get wallSyncCfg_TYPE = 0 then
    (((s.put wallStatus_STATE 0).put wallStatus_HOLDOVER 0).put wallStatus_RANGE 0).put wallStatus_MISMATCH 0
  else s

/-- A pending house sync configuration takes effect: register fields, by register address and value (R31, R34). -/
def State.applySync (s : State) : State :=
  match s.wall.sync with
  | none => s
  | some l =>
    let old := s.rd wallSyncCfg
    let s := s.each l fun s e =>
      if e.1 = wallSyncCfg.addr then s.wr wallSyncCfg (BitVec.ofNat 64 e.2)
      else if e.1 = wallCtrl.addr then s.put wallCtrl_RELOCK_MODE e.2
      else s.wr wallLockCfg (BitVec.ofNat 64 e.2)
    let s := s.modWall fun w => { w with sync := none }
    if s.rd wallSyncCfg = old then s else s.syncChanged

/-- A pending raster takes effect; RASTER_SET is answered (R15, R33), and SUM_FRAMES follows the frame rate (R440). -/
def State.applyRaster (s : State) : State :=
  match s.wall.raster with
  | none => s
  | some r =>
    let s := ((s.put wallMrRateNum_RATE_NUM r.num).put wallMrRateDen_RATE_DEN r.den).put wallMrLines_MR_LINES r.lines
    let s := (s.put wallAudRatio_AUD_NUM r.audNum).put wallAudRatio_AUD_DEN r.audDen
    let s := s.put wallStatus_RASTER_GEN (s.get wallStatus_RASTER_GEN + 1)
    let s := s.put peatCtrl_SUM_FRAMES ((2 * r.num + r.den) / (2 * r.den))
    let s := (s.modWall fun w => { w with raster := none }).raise 22 (s.get wallStatus_RASTER_GEN)
    match r.origin with
    | some o => s.settle o (done 0 0)
    | none => s

/-- What the WALL block does at a master frame start. -/
def State.wallFrameStart (s : State) : State :=
  let s := (s.applyRaster.applySync).put wallStatus_PENDING 0
  let step : Int := (s.lines * 512 * s.get wallLockCfg_SLEW_PPM : Nat)
  let s := s.modWall fun w => { w with
    jump := 0, jumping := w.jump,
    slew := if w.slew.natAbs ≤ step.natAbs then 0 else if 0 < w.slew then w.slew - step else w.slew + step }
  s.holdTime

/-! ### Opcodes (R33 to R35) -/

/-- The first payload byte of SYNC_SET that holds a value outside its field's range (R34). -/
def syncFault (o : Origin) : Option Nat :=
  if 3 < o.u8 0 then some 0
  else if 1 < o.u8 1 then some 1
  else if 2 < o.u8 2 then some 2
  else if o.u8 3 = 0 then some 3
  else if 1 < o.u8 6 then some 6
  else if o.u8 7 < 10 ∨ 200 < o.u8 7 then some 7
  else if o.u8 8 = 0 then some 8
  else none

/-- The register values of a SYNC_SET, by address. -/
def syncValues (o : Origin) : List (Nat × Nat) :=
  [(wallSyncCfg.addr, o.u8 0 + 4 * o.u8 1 + 8 * o.u8 2 + 0x100 * o.u8 3 + 0x10000 * o.u16 4),
   (wallCtrl.addr, o.u8 6), (wallLockCfg.addr, o.u8 7 + 0x100 * o.u8 8)]

/-- What every packet of functions 0 and 16 alone has in common with those of the sealed ring. -/
def specSyncSet : OpSpec :=
  { opcode := 0x0402, lens := len 16, zero := fun _ => zeroMask [(9, 15)] [], modes := allModes, issuer := .managers,
    log := .logged, check := fun _ o => (syncFault o).map fun b => (stNoResource, 1 + b),
    run := fun s o => (s.modWall fun w => { w with sync := some (syncValues o) }, .answer (done 0 0)) }

def specWallQuery : OpSpec :=
  { opcode := 0x0403, lens := len 0, modes := allModes, issuer := .any, query := true,
    run := fun s _ => (s, .answer (done ((s.rd wallStatus).toNat + 0x100000000 * (s.rd wallPhase).toNat)
      ((s.rd wallHoldTime).toNat + 0x100000000 * s.lines))) }

def execSyncSet (p : Packet) (s : State) : Host.Outcome State Fault Refusal := packetStep specSyncSet p s
def execWallQuery (p : Packet) (s : State) : Host.Outcome State Fault Refusal := packetStep specWallQuery p s

/-! ### Reads that latch (R32, R550) -/

/-- A write of a register that only the sealed world writes: an open-world write ends in a bus error and is logged, a full log
refuses it, and one that takes effect is recorded (R4, R436, R441). -/
def State.sealedWrite (s : State) (who : Requester) (r : Reg) (value : Nat) (effect : State → State) : State :=
  let old := (s.rd r).toNat
  if !s.mayWrite who then s.emit (.busError (agentOf who) r.addr)
  else if worldOf who = .opened then s.refuseWrite who r.addr value old stWorld
  else if s.writeBarred who r.addr then s.emit (.busError (agentOf who) r.addr)
  else (effect s).noteWrite who r.addr value old

/-- WALL_NOW_READ: a 32-bit read of the low word latches the upper word (R32); the open world may not read it (R552). -/
def execWallNowRead (who : Requester) (s : State) : Host.Outcome State Fault Refusal :=
  .next (if s.mayRead who && worldOf who == .opened then s.refuseRead who wallNow.addr
  else if s.mayRead who then
    let t := s.now.word
    (s.modWall fun w => { w with nowUpper := BitVec.ofNat 32 (t.toNat / 2 ^ 32) }).emit
      (.readValue (agentOf who) wallNow.addr (BitVec.ofNat 64 (t.toNat % 2 ^ 32)))
  else s.emit (.busError (agentOf who) wallNow.addr))

end Sys2Proof.Machine
end

