-- ==== Sys2Proof/Machine/Events.lean ====
section
/-! DEFINITION. Events and supervision (R452 to R474): at the end of a grain the supervisor judges its events, their records
are routed, and mirror blocks and MSI-X messages go out; the supervisor's own commands; the event opcodes. -/
namespace Sys2Proof.Machine

/-! ### Whose occurrence an event is (R456) -/

/-- Whose an occurrence is: the module's, a tenant's function's, or that of a unit granted to nobody. -/
inductive Belongs where
  | module
  | nobody
  | function (f : Nat)
  deriving DecidableEq, Repr

/-- The owner of a grantable unit. -/
def ownedBy : Option Nat → Belongs
  | some f => .function f
  | none => .nobody

/-- A function named by its number. -/
def namedFunction (f : Nat) : Belongs := if f < 32 then .function f else .module

/-- The head whose engine p is: head p, or for engine 8 the head it serves while YMX_SPARE.STATE is 2 to 4 (R456). -/
def State.engineBelongs (s : State) (p : Nat) : Belongs :=
  if p < 8 then ownedBy (s.headOwner p)
  else if 2 ≤ s.get ymxSpare_STATE ∧ s.get ymxSpare_STATE ≤ 4 then ownedBy (s.headOwner (s.get ymxSpare_SERVING))
  else .module

/-- Whose an occurrence of event `e` with detail `d` is, by the type of the first unit its detail names (R456). -/
def State.belongs (s : State) (e d : Nat) : Belongs :=
  let u := d / 256
  if e = 40 ∨ e = 41 ∨ e = 43 ∨ e = 64 then ownedBy (s.pipeOwner u)
  else if e = 65 then ownedBy (s.pipeOwner d)
  else if e = 42 ∨ e = 39 ∨ (66 ≤ e ∧ e ≤ 71) ∨ e = 74 ∨ e = 77 ∨ e = 79 ∨ e = 197 ∨ e = 198 then ownedBy (s.headOwner u)
  else if e = 37 ∨ e = 38 ∨ e = 72 ∨ e = 73 ∨ e = 78 ∨ e = 196 then ownedBy (s.headOwner d)
  else if e = 23 ∨ e = 25 ∨ e = 26 ∨ e = 35 then ownedBy (s.headOwner u)
  else if e = 24 ∨ (27 ≤ e ∧ e ≤ 30) ∨ e = 34 ∨ e = 36 ∨ e = 75 ∨ e = 76 then ownedBy (s.headOwner d)
  else if e = 32 ∨ e = 33 then s.engineBelongs u
  else if e = 44 ∨ e = 45 then ownedBy (s.wbOwner u)
  else if (132 ≤ e ∧ e ≤ 134) ∨ e = 199 ∨ e = 448 then namedFunction u
  else if 136 ≤ e ∧ e ≤ 138 then namedFunction d
  else if e = 135 ∨ e = 139 ∨ e = 141 ∨ e = 142 ∨ e = 147 then namedFunction d
  else if e = 140 ∨ (143 ≤ e ∧ e ≤ 146) then namedFunction u
  else if e = 192 ∨ e = 200 ∨ e = 202 then ownedBy (s.ctxOwner u)
  else if (193 ≤ e ∧ e ≤ 195) ∨ e = 201 then ownedBy (s.ctxOwner d)
  else if e = 206 ∨ e = 260 then ownedBy (s.touchOwner d)
  else if e = 264 then ownedBy (s.touchOwner (d / 4096))
  else if (203 ≤ e ∧ e ≤ 205) ∨ (256 ≤ e ∧ e ≤ 267) then ownedBy (s.touchOwner u)
  else if e = 320 ∨ e = 322 ∨ e = 323 ∨ e = 325 then ownedBy (s.hapOwner u)
  else if e = 321 ∨ e = 324 then ownedBy (s.hapOwner d)
  else if e = 326 then ownedBy (s.stageHolder u)
  else if e = 352 then ownedBy (s.tenantWhere fun t => t.streams.contains d)
  else if e = 353 ∨ e = 354 then ownedBy (s.tenantWhere fun t => t.tones.contains d)
  else if e = 464 ∨ e = 465 then ownedBy (s.mbOwner u)
  else if e = 466 ∨ e = 467 then ownedBy (s.queueOwner d)
  else if e = 468 then ownedBy (s.lockOwner d)
  else if e = 469 then ownedBy (s.lockOwner u)
  else if e = 449 then namedFunction (d % 256)
  else if e = 416 then namedFunction d
  else .module

/-- Whether event `e` is module-wide whatever its detail: no unit of its detail can be granted (R456, R472). -/
def moduleWide (e : Nat) : Bool :=
  e < 23 || e == 31 || (128 ≤ e && e ≤ 131) || (355 ≤ e && e ≤ 361) || (384 ≤ e && e ≤ 395) || (417 ≤ e && e ≤ 424)
    || (450 ≤ e && e ≤ 456) || (480 ≤ e && e ≤ 487)

/-! ### The supervisor's judgement (R464, R465) -/

/-- Whether the supervisor runs: it is not halted by a lockstep fault, and boot-ROM Recovery has none (R460, R503). -/
def State.supervised (s : State) : Bool :=
  !s.supv.halted && (s.power.stage == .working) && !(s.mode == 7 && s.power.bootRom)

/-- Whether a forced change to Degraded or Banked is allowed from a mode (R477, R479); in Degraded the force to Degraded
holds it there (log entry 11). -/
def forceAllowed (mode target : Nat) : Bool :=
  if target = modeDegraded then mode == 3 || mode == 4 else mode == 1 || mode == 3 || mode == 4

/-- The regime a mode needs: true for the watermark regime (R396). -/
def watermarkMode (mode : Nat) : Bool := mode == 3 || mode == 4 || mode == 5

/-- A mode change is pending; it starts a regime switch when the mode needs the other regime (R476), but none into Banked
while a channel is lost (R480). -/
def State.beginMode (s : State) (mode : Nat) (origin : Option Origin) : State :=
  let wm := watermarkMode mode
  let switches := wm != s.flag worldStatus_REGIME && !(mode == modeBanked && s.flag dramcStatus_CH_LOST) && mode != 0
  let s := { s with power := { s.power with pending := some ⟨mode, origin, switches⟩ } }
  if switches then
    ({ s with world := { s.world with switching := some wm } } : State).put worldStatus_SWITCHING 1
  else s

/-- A forced change is applied: FORCED holds Degraded; Banked is entered at the next master frame start (R479). -/
def State.applyForced (s : State) (target : Nat) : State :=
  let s := s.raise 4 target
  if target = modeDegraded then s.put sysMode_FORCED 1 else s.beginMode target none

/-- The supervisor's event SUPV_SKIPPED for an entry (R464). -/
def State.skipped (s : State) (entry : Option (Nat × Nat)) : State :=
  match entry with
  | some (i, a) => s.raise 482 (i * 256 + a)
  | none => s

/-- A forced change: it waits while a transition is pending or a warm reset runs, else it is applied now; one that R477 does
not allow is skipped (R464, R479, R499). -/
def State.force (s : State) (target : Nat) (entry : Option (Nat × Nat)) : State :=
  if s.power.pending.isSome || s.power.warm.isSome then
    { s with power := { s.power with forced := some ⟨target, entry, s.power.pending.any fun p => p.switching⟩ } }
  else if forceAllowed s.mode target then s.applyForced target
  else s.skipped entry

/-- Whether the force of an entry's action is refused at once (R464). -/
def State.forceRefused (s : State) (action : Nat) : Bool :=
  (action == 2 || action == 3) && s.power.pending.isNone && s.power.warm.isNone
    && !forceAllowed s.mode (if action = 2 then modeDegraded else modeBanked)

/-- The supervisor takes the action of entry `i` (R464, R465). Actions 4 and 5 are carried out at the end of the grain. -/
def State.takeAction (s : State) (i action : Nat) : State :=
  if (2 ≤ s.supv.grainRank && action ≤ s.supv.grainRank) || s.forceRefused action then s.skipped (some (i, action))
  else
    let s := s.put supvStatus_LAST_ACTION action
    let s := { s with supv := { s.supv with grainRank := if 2 ≤ action then action else s.supv.grainRank } }
    let s := s.raise 481 (i * 256 + action)
    if action = 1 then
      let s := s.put supvStatus_ALARM 1
      { s with supv := { s.supv with alarmAt := s.now } }
    else if action = 2 then s.force modeDegraded (some (i, action))
    else if action = 3 then s.force modeBanked (some (i, action))
    else if action = 4 ∨ action = 5 then
      let code := if action = 4 then 0x15 else 0x07
      { s with supv := { s.supv with reset := some (min code (s.supv.reset.getD code)) } }
    else s

/-- Policy entry `i` sees an occurrence of event `e` in this grain (R464). -/
def State.judgeEntry (s : State) (e i : Nat) : State :=
  if s.flag (supvPol_EN i) && s.get (supvPol_EVENT i) == e then
    let window := s.get (supvPol_WINDOW i) * 1000000
    let h := ((s.supv.history.getD i []).filter fun t => !s.elapsedUs t window) ++ [s.now]
    if s.get (supvPol_COUNT i) ≤ h.length then
      let s := { s with supv := { s.supv with history := s.supv.history.set i [] } }
      s.takeAction i (s.get (supvPol_ACTION i))
    else { s with supv := { s.supv with history := s.supv.history.set i h } }
  else s

/-- The supervisor sees an event record (R459, R464). -/
def State.judge (s : State) (e : Nat) : State :=
  if s.supervised then s.each (List.range 32) fun s i => s.judgeEntry e i else s

/-! ### Routing (R455 to R458) -/

/-- A route register as it stood before the writes of this grain (R458). -/
def State.route (s : State) (r : Reg) : W64 :=
  match s.evt.oldRoutes.find? fun x => x.1 == r.addr with
  | some x => x.2
  | none => s.rd r

/-- Whether event `e` is enabled in a route register of 32 bits each. -/
def State.routed (s : State) (r : Nat → Reg) (e : Nat) : Bool := (s.route (r (e / 32))).toNat / 2 ^ (e % 32) % 2 == 1

/-- The 16 bytes of an event record (R454). -/
def eventBytes (r : EventRec) : List Byte :=
  leBytes 8 r.time.toNat ++ leBytes 2 r.event ++ leBytes 1 (min r.count 255) ++ leBytes 1 (eventRank r.event)
    ++ leBytes 4 r.detail

/-- The unread bytes of an internal event ring. -/
def State.eventRingFill (s : State) (w : Nat) : Nat :=
  let size := 2 ^ s.get (evtIrSize_LOG2 w)
  (s.get (evtIrTail_TAIL w) + size - s.get (evtIrHead_HEAD w) % size) % size

/-- A record is appended to an internal event ring, or dropped when the ring is full (R455). -/
def State.appendEvent (s : State) (w : Nat) (r : EventRec) : State :=
  if !s.flag (evtIrSize_EN w) then s
  else
    let size := 2 ^ s.get (evtIrSize_LOG2 w)
    if size ≤ s.eventRingFill w + 16 then
      let s := s.bump evtLost_COUNT
      if s.evt.lostRaised.getD w false then s
      else ({ s with evt := { s.evt with lostRaised := s.evt.lostRaised.set w true } } : State).raise 487 (1 - w)
    else
      let tail := s.get (evtIrTail_TAIL w)
      let s := { s with evt := { s.evt with lostRaised := s.evt.lostRaised.set w false } }
      (s.store (s.get (evtIrBase_ADDR w) * 4096 % 2 ^ 48 + tail) (eventBytes r)).put (evtIrTail_TAIL w) ((tail + 16) % size)

/-- Whether function `f` receives an occurrence (R456). -/
def State.receives (s : State) (f e d : Nat) : Bool :=
  s.routed (evtFnMask f) e && s.flag (evtFnRcfg_EN f) &&
    (match s.belongs e d with
     | .function g => f == g
     | .module => f == 0 || f == 16
     | .nobody => false)

/-- An event record is routed (R455, R456). -/
def State.routeRecord (s : State) (r : EventRec) : State :=
  let takers := (List.range 32).filter fun f => s.receives f r.event r.detail
  let s := if s.routed evtSeal r.event then s.appendEvent 0 r else s
  let s := if s.routed evtOpen r.event then s.appendEvent 1 r else s
  s.each takers fun s f => { s with evt := { s.evt with outbound := modAt s.evt.outbound f (· ++ [r]) } }

/-- The events a warm reset itself raises: its beginning, function resets, mailboxes flushed, locks broken, an image that
fails (R497). -/
def ofWarmReset (e : Nat) : Bool := [1, 133, 134, 421, 465, 469].contains e

/-- One event record of this grain is routed, those of a warm reset only at its completion (R499). -/
def State.routeEvent (s : State) (x : EventNow) : State :=
  let r : EventRec := ⟨s.now.word, x.event, x.count, x.detail⟩
  if s.power.warm.isSome && ofWarmReset x.event then { s with evt := { s.evt with held := s.evt.held ++ [r] } }
  else s.routeRecord r

/-- The records that a warm reset held are routed. -/
def State.routeHeld (s : State) : State :=
  let held := s.evt.held
  ({ s with evt := { s.evt with held := [] } } : State).each held State.routeRecord

/-- The first event of the grain, in the order of R27, that satisfies a test. -/
def firstEvent (l : List EventNow) (test : EventNow → Bool) : Option EventNow :=
  (l.filter test).foldl (fun best x => match best with
    | none => some x
    | some b => if eventOrder x.event < eventOrder b.event then some x else some b) none

/-- Mark the event of this grain with a number. -/
def State.markEvent (s : State) (e : Nat) (f : EventNow → EventNow) : State :=
  { s with evt := { s.evt with grain := s.evt.grain.map fun x => if x.event = e then f x else x } }

/-- The events of the grain are judged in the order of R27, then routed in that order; what is raised meanwhile joins them.
There are 512 event numbers, so 1,024 rounds see each of them judged and routed. -/
def State.settleEvents : Nat → State → State
  | 0, s => s
  | fuel + 1, s =>
    match firstEvent s.evt.grain fun x => !x.judged with
    | some x => State.settleEvents fuel ((s.markEvent x.event fun y => { y with judged := true }).judge x.event)
    | none =>
      match firstEvent s.evt.grain fun x => !x.routed with
      | some x => State.settleEvents fuel ((s.markEvent x.event fun y => { y with routed := true }).routeEvent x)
      | none => s

/-! ### Mirror blocks and MSI-X messages (R44, R54) -/

/-- The 64 bytes of a mirror block (R44). -/
def State.mirrorBlock (s : State) (f : Nat) : List Byte :=
  leBytes 4 (s.get (fnRplTail_TAIL f)) ++ leBytes 4 (s.rd (fnStatus f)).toNat ++ s.mirrorFlags f ++ leBytes 48 0

/-- One vector of a function is signalled, or stays pending while it is masked (R54). -/
def State.signalNow (s : State) (f v : Nat) : State :=
  if s.flag (fnMsixCtrl_MASK f v) then s.putBitAt (fnPba_PEND f) v true else s.emit (.msix f v)

/-- The mirror block of a function goes out if a mirrored field has changed, then its messages (R44). -/
def State.flushFunction (s : State) (f : Nat) : State :=
  let x := s.fn f
  if !x.mirrorDue && x.vectors.isEmpty then s
  else
    let s := s.modFn f fun x => { x with mirrorDue := false, vectors := [] }
    let s := s.when (x.mirrorDue && s.flag (fnMirrorAddr_EN f)) fun s =>
      s.emit (.mirror f (s.get (fnMirrorAddr_ADDR f) * 64) (s.mirrorBlock f))
    s.each x.vectors.eraseDups fun s v => s.signalNow f v

/-- What happens at the end of every grain. -/
def State.flushGrain (s : State) : State :=
  let s := State.settleEvents 1024 s
  let s := { s with evt := { s.evt with grain := [], oldRoutes := [] }, supv := { s.supv with grainRank := 0 } }
  s.each (List.range 32) State.flushFunction

/-! ### Delivery to functions (R457) -/

/-- The vector of an event number for a function (R457). -/
def State.eventVector (s : State) (f e : Nat) : Nat := (s.rd (evtFnVec f (e / 32 / 4))).toNat / 2 ^ (e / 32 % 4 * 8) % 256

/-- Event records are written into the host ring of a function from record number `n` upwards. -/
def State.writeRecords (s : State) (f base log2 : Nat) : List EventRec → Nat → State
  | [], _ => s
  | r :: rest, n =>
    State.writeRecords (s.emit (.hostWrite f (base + 64 + n % 2 ^ log2 * 16) (eventBytes r))) f base log2 rest (n + 1)

/-- EVENT_HOST_DELIVERY: records first, then the header, then the vectors of their ranges (R457). -/
def execEventHostDelivery (f : Fin 32) (s : State) : Host.Outcome State Fault Refusal :=
  .next (
    let recs := s.evt.outbound.getD f.val []
    if recs.isEmpty then s
    else
      let s := { s with evt := { s.evt with outbound := s.evt.outbound.set f.val [] } }
      if !s.flag (evtFnRcfg_EN f.val) then s
      else
        let base := s.get (evtFnRing_ADDR f.val) * 4096
        let s := s.writeRecords f.val base (s.get (evtFnRcfg_LOG2 f.val)) recs (s.get (evtFnDeliv_COUNT f.val))
        let s := s.put (evtFnDeliv_COUNT f.val) (s.get (evtFnDeliv_COUNT f.val) + recs.length)
        let s := s.emit (.hostWrite f.val base (leBytes 8 (s.get (evtFnDeliv_COUNT f.val)) ++ leBytes 56 0))
        s.each ((recs.map fun r => s.eventVector f.val r.event).eraseDups) fun s v => s.signalRouted f.val v)

/-- Delivery to a function is enabled anew: DELIVERED restarts at 0 (R457). -/
def State.enableDelivery (s : State) (f : Nat) : State :=
  let s := s.put (evtFnDeliv_COUNT f) 0
  { s with evt := { s.evt with outbound := s.evt.outbound.set f [] } }

/-- A function reset or a warm reset clears the ring's EN at its decision (R457). -/
def State.stopDelivery (s : State) (f : Nat) : State :=
  let s := s.put (evtFnRcfg_EN f) 0
  { s with evt := { s.evt with outbound := s.evt.outbound.set f [] } }

/-! ### Placement of internal rings (R77, R455, R553) -/

/-- Whether a 64 KiB page of DRAM is open memory that no tenant holds, under the regime in force (R553). -/
def State.openPage (s : State) (page : Nat) : Bool :=
  if s.flag worldStatus_REGIME then
    decide (s.world.wInForce * 32 ≤ page) &&
      (List.range 32).all fun f =>
        let lo := s.get (worldFnRange_BASE f) * 32
        !(decide (lo ≤ page) && decide (page < lo + s.get (worldFnRange_SIZE f) * 32))
  else s.byte (ownerTable + page) == 1

/-- Whether a range of DRAM is open memory (R553). -/
def State.openMemory (s : State) (a len : Nat) : Bool :=
  decide (dramBase ≤ a) && decide (a + len ≤ dramBase + s.usable) && decide (0 < len) &&
    (List.range ((a + len - 1 - dramBase) / 0x10000 - (a - dramBase) / 0x10000 + 1)).all fun i =>
      s.openPage ((a - dramBase) / 0x10000 + i)

/-- Whether a range lies in sealed SRAM (R548). -/
def inSealedSram (a len : Nat) : Bool := decide (sealedBase ≤ a ∧ a + len ≤ sealedBase + 0x200000)
/-- Whether a range lies in the control cores' local SRAM (R548). -/
def inLocalSram (a len : Nat) : Bool := decide (localBase ≤ a ∧ a + len ≤ localBase + 0x200000)

/-- A write of EVT_IRw_SIZE by a world that may make it: a base that breaks the placement rule leaves EN at 0 (R455). -/
def State.writeEventRing (s : State) (w value : Nat) : State :=
  let log2 := max 12 (min 20 (value % 32))
  let a := s.get (evtIrBase_ADDR w) * 4096 % 2 ^ 48
  let ok := if w = 0 then inSealedSram a (2 ^ log2) else s.openMemory a (2 ^ log2) || inLocalSram a (2 ^ log2)
  (s.put (evtIrSize_LOG2 w) log2).putBit (evtIrSize_EN w) (decide (2 ^ 31 ≤ value) && ok)

/-- EVT_RING_ENABLE_WRITE: a write of EVT_IRw_SIZE; the open world writes the EVT_IR_1 group alone (R471). -/
def execEvtRingEnableWrite (who : Requester) (world : World) (value : W32) (s : State) :
    Host.Outcome State Fault Refusal :=
  .next (
    let w := if world = .sealed then 0 else 1
    let old := (s.rd (evtIrSize w)).toNat
    if !s.mayWrite who then s.emit (.busError (agentOf who) (evtIrSize w).addr)
    else if worldOf who = .opened ∧ w = 0 then s.refuseWrite who (evtIrSize w).addr value.toNat old stWorld
    else if s.writeBarred who (evtIrSize w).addr then s.emit (.busError (agentOf who) (evtIrSize w).addr)
    else (s.writeEventRing w value.toNat).noteWrite who (evtIrSize w).addr value.toNat old)

/-! ### Event opcodes (R472, R473) -/

/-- The target of an opcode names a function. -/
def namesFunction (t : Nat) : Bool := t < 32

/-- The module-wide events a mask of 64 payload bytes enables: the payload offset of the first one (R472). -/
def maskFault (o : Origin) : Option Nat :=
  (List.range 64).find? fun i => (List.range 8).any fun b => o.u8 i / 2 ^ b % 2 == 1 && moduleWide (8 * i + b)

/-- A route register keeps, for the rest of the grain, the value it had before it was first written (R458). -/
def State.keepRoute (s : State) (r : Reg) : State :=
  if s.evt.oldRoutes.any fun x => x.1 == r.addr then s
  else { s with evt := { s.evt with oldRoutes := s.evt.oldRoutes ++ [(r.addr, s.rd r)] } }

def specEvtRoute : OpSpec :=
  { opcode := 0x0D01, lens := len 88, zero := fun _ => zeroMask [(80, 87)] [], modes := allModes, issuer := .tenants,
    names := namesFunction, owns := fun _ r t => r == t, log := .logged,
    check := fun _ o =>
      match (List.range 16).find? fun i => o.u8 (64 + i) < 4 ∨ 31 < o.u8 (64 + i) with
      | some i => some (stNoResource, 65 + i)
      | none => if o.tgt = 0 ∨ o.tgt = 16 then none else (maskFault o).map fun i => (stNotOwner, 1 + i),
    run := fun s o =>
      let s := s.each (List.range 16) fun s k =>
        (s.keepRoute (evtFnMask o.tgt k)).put (evtFnMask_ROUTE o.tgt k) (o.u32 (4 * k) &&& usedMask k)
      (s.each (List.range 4) fun s j => s.wr (evtFnVec o.tgt j) (BitVec.ofNat 64 (o.u32 (64 + 4 * j))),
        .answer (done 0 0)) }

/-- The first payload byte of EVT_RING_SET that is out of range. -/
def ringSetFault (o : Origin) : Option Nat :=
  if 1 < o.u8 0 then some 0
  else if o.u8 1 < 6 ∨ 16 < o.u8 1 then some 1
  else if o.u64 8 % 4096 ≠ 0 then some 8
  else none

def specEvtRingSet : OpSpec :=
  { opcode := 0x0D02, lens := len 16, zero := fun _ => zeroMask [(2, 7)] [], modes := allModes, issuer := .tenants,
    names := namesFunction, owns := fun _ r t => r == t, log := .logged,
    check := fun _ o => (ringSetFault o).map fun b => (stNoResource, 1 + b),
    run := fun s o =>
      let s := (s.put (evtFnRcfg_LOG2 o.tgt) (o.u8 1)).put (evtFnRing_ADDR o.tgt) (o.u64 8 / 4096)
      let s := s.put (evtFnRcfg_EN o.tgt) (o.u8 0)
      (s.when (o.u8 0 == 1) fun s => s.enableDelivery o.tgt, .answer (done 0 0)) }

def specEvtQuery : OpSpec :=
  { opcode := 0x0D03, lens := len 8, zero := fun _ => zeroMask [(2, 7)] [], modes := allModes, issuer := .tenants,
    query := true, names := namesFunction, owns := fun _ r t => r == t,
    check := fun _ o => if 511 < o.u16 0 then some (stNoResource, 1) else none,
    run := fun s o =>
      let e := o.u16 0
      (s, .answer (done ((s.rd (evtSrc e)).toNat + 0x100000000 * (s.get (evtPend_PEND (e / 32)) / 2 ^ (e % 32) % 2))
        (s.get (evtFnDeliv_COUNT o.tgt)))) }

/-- The first payload byte of SUPV_POLICY_SET that is out of range. -/
def policyFault (o : Origin) : Option Nat :=
  if 31 < o.u8 0 then some 0
  else if 511 < o.u16 2 then some 2
  else if 5 < o.u8 4 then some 4
  else if o.u8 5 = 0 ∨ 31 < o.u8 5 then some 5
  else if o.u8 6 = 0 then some 6
  else if 1 < o.u8 7 then some 7
  else none

def specSupvPolicySet : OpSpec :=
  { opcode := 0x0D04, lens := len 8, zero := fun _ => zeroMask [(1, 1)] [], modes := [2, 6], issuer := .sealedOnly,
    log := .logged, check := fun _ o => (policyFault o).map fun b => (stNoResource, 1 + b),
    run := fun s o =>
      let i := o.u8 0
      let s := (s.put (supvPol_EVENT i) (o.u16 2)).put (supvPol_ACTION i) (o.u8 4)
      let s := (s.put (supvPol_COUNT i) (o.u8 5)).put (supvPol_WINDOW i) (o.u8 6)
      let s := s.put (supvPol_EN i) (o.u8 7)
      ({ s with supv := { s.supv with history := s.supv.history.set i [] } }, .answer (done 0 0)) }

/-- The milliseconds left on the supervisor watchdog (SUPV_STATUS.WD_LEFT). -/
def State.wdLeft (s : State) : Nat := s.get supvCtrl_WD_MS - s.grainsToUs (s.since s.supv.kickAt) / 1000

/-- SUPV_STATUS as it reads now. -/
def State.supvStatusNow (s : State) : Nat := setField (s.rd supvStatus).toNat 8 10 s.wdLeft

def specSupvQuery : OpSpec :=
  { opcode := 0x0D05, lens := len 0, modes := allModes, issuer := .tenants, query := true, names := fun t => t < 8,
    owns := fun s r t => s.headOwner t == some r,
    run := fun s o => (s, .answer (done (s.supvStatusNow + 0x100000000 * (s.rd supvWord).toNat)
      (s.rd (supvAvail o.tgt)).toNat)) }

def execEvtRoute (p : Packet) (s : State) : Host.Outcome State Fault Refusal := packetStep specEvtRoute p s
def execEvtRingSet (p : Packet) (s : State) : Host.Outcome State Fault Refusal := packetStep specEvtRingSet p s
def execEvtQuery (p : Packet) (s : State) : Host.Outcome State Fault Refusal := packetStep specEvtQuery p s
def execSupvPolicySet (p : Packet) (s : State) : Host.Outcome State Fault Refusal := packetStep specSupvPolicySet p s
def execSupvQuery (p : Packet) (s : State) : Host.Outcome State Fault Refusal := packetStep specSupvQuery p s

/-! ### The supervisor's own steps (R459 to R468) -/

/-- The supervisor's state changes. -/
def State.modSupv (s : State) (f : SupvState → SupvState) : State := { s with supv := f s.supv }

/-- SUPV_KICK_WRITE: key 0xC3 restarts the watchdog (R461); a data-path write, not recorded (R437). -/
def execSupvKickWrite (who : Requester) (value : W32) (s : State) : Host.Outcome State Fault Refusal :=
  .next (if !s.mayWrite who then s.emit (.busError (agentOf who) supvKick.addr)
    else if worldOf who = .opened then s.refuseWrite who supvKick.addr value.toNat 0 stWorld
    else if value.toNat % 256 = 0xC3 then s.modSupv fun v => { v with kickAt := s.now }
    else s)

/-- Whether every verdict counts: a head is verified as the supervisor sees it (R199, R462, R466). -/
def State.headVerified (s : State) (n : Nat) : Bool :=
  s.bit integVerified_VERIFIED n && !s.flag supvStatus_STALL

/-- Whether some head is supervised and every supervised head is verified (R466). -/
def State.allVerified (s : State) : Bool :=
  s.flag integVerified_SUPERVISED &&
    (List.range 8).all fun n => !s.bit integVerified_SUPERVISED n || s.headVerified n

/-- HEALTH_A_HALF_PERIOD: the wave stops, resumes or goes on at a half-period boundary (R466). -/
def execHealthAHalfPeriod (s : State) : Host.Outcome State Fault Refusal :=
  .next (if !s.supervised then s
    else if s.flag supvStatus_HEALTH_A then
      if s.supv.stopA || !s.allVerified then
        let s := s.modSupv fun v => { v with levelA := false, stopA := false, cleanFrames := 0 }
        ((s.emit (.contact "HEALTH_A" 0)).put supvStatus_HEALTH_A 0).raise 486 0
      else
        let s := s.modSupv fun v => { v with levelA := !v.levelA }
        s.emit (.contact "HEALTH_A" (if s.supv.levelA then 1 else 0))
    else if s.allVerified && decide (s.get supvCtrl_RESUME ≤ s.supv.cleanFrames) then
      let s := s.modSupv fun v => { v with levelA := true, stopA := false }
      ((s.emit (.contact "HEALTH_A" 1)).put supvStatus_HEALTH_A 1).raise 486 1
    else s)

/-- The HEALTH_B status word (R467). -/
def State.healthWord (s : State) : Nat :=
  ((List.range 8).map fun n => if s.bit integVerified_SUPERVISED n && s.headVerified n then 2 ^ n else 0).sum
    + 0x100 * s.mode + (if s.get wallStatus_STATE = 2 then 0x800 else 0)
    + (if s.flag supvStatus_ALARM then 0x1000 else 0)
    + (if (List.range 8).any fun n => s.flag (integVstate_HOLD n) then 0x2000 else 0)
    + 0x4000 * (s.supv.seqB % 4)

/-- HEALTH_B_FRAME: the status word is sampled, kept in SUPV_WORD and sent with its CRC (R467). -/
def execHealthBFrame (s : State) : Host.Outcome State Fault Refusal :=
  .next (if !s.supervised then s
    else
      let w := s.healthWord
      let c := crcOf crc16 (leBytes 2 w)
      let s := (s.put supvWord_WORD w).put supvWord_CRC c
      let s := s.modSupv fun v => { v with seqB := (v.seqB + 1) % 4 }
      s.emit (.contact "HEALTH_B" (w + 0x10000 * c)))

/-- POLICY_ALARM_EXPIRY: the alarm of action 1 ends after 60 s (R464). -/
def execPolicyAlarmExpiry (s : State) : Host.Outcome State Fault Refusal := .next (s.put supvStatus_ALARM 0)

/-- LOCKSTEP_MISMATCH: both cores halt and the HEALTH outputs are driven low (R460). -/
def execLockstepMismatch (s : State) : Host.Outcome State Fault Refusal :=
  .next (if s.supv.halted then s
    else
      let s := s.modSupv fun v => { v with halted := true, levelA := false, stopA := false, cleanFrames := 0 }
      let s := ((s.emit (.contact "HEALTH_A" 0)).emit (.contact "HEALTH_B" 0)).put supvStatus_HEALTH_A 0
      s.raise 483 0)

/-- RASTER_STALL: every head counts as unverified until a master frame start is seen (R462). -/
def execRasterStall (s : State) : Host.Outcome State Fault Refusal :=
  .next (if s.supervised then
    ((s.modSupv fun v => { v with stopA := true, cleanFrames := 0, cleanNow := false }).put supvStatus_STALL 1).raise 484 0
  else s)

/-- OSC_COMPARE: a difference above 1,000 ppm is an oscillator fault (R463). -/
def execOscCompare (ppm : Nat) (s : State) : Host.Outcome State Fault Refusal :=
  .next (if s.supervised && decide (1000 < ppm) then (s.put supvStatus_OSC_BAD 1).raise 485 (min ppm 0xFFFF) else s)

end Sys2Proof.Machine
end

