-- ==== Sys2Proof/Machine/Worlds.lean ====
section
/-! DEFINITION. The sealed and open worlds: which memory an agent reaches (R394 to R400), the watermark, the owner table and
the regime switch (R396 to R403), debug (R409, R410), the fuses (R411) and the world opcodes (R417, R418). -/
namespace Sys2Proof.Machine

/-! ### Reach (R395 to R400) -/

/-- On whose behalf a memory access is made: the sealed world, the open world on a control core, the open world by another
path, or a function (R394, R398). -/
inductive Actor where
  | sealed
  | core (k : Nat)
  | opened
  | function (f : Nat)
  deriving DecidableEq, Repr

/-- The actor a packet's ring acts as. -/
def ringActor (r : Nat) : Actor := if r = 32 then .sealed else if r = 33 then .opened else .function r

/-- The actor an internal requester acts as. -/
def actorOf : Requester → Actor
  | .core _ .sealed | .debug _ .sealed => .sealed
  | .core k .opened => .core k.val
  | .debug _ .opened => .opened
  | .host f => .function f.val

/-- The number of 64 KiB pages of usable DRAM (R399). -/
def State.pageCount (s : State) : Nat := s.usable / 0x10000

/-- The owner code of a DRAM page (R399). -/
def State.ownerCode (s : State) (page : Nat) : Nat := (s.byte (ownerTable + page)).toNat

/-- Whether a code is a tenant's. -/
def tenantCode (c : Nat) : Bool := decide (0x20 ≤ c ∧ c < 0x40)

/-- Whether a page of DRAM admits an actor, under the regime in force (R397 to R399). -/
def State.pageAdmits (s : State) (who : Actor) (page : Nat) : Bool :=
  let wm := s.flag worldStatus_REGIME
  let c := s.ownerCode page
  match who with
  | .sealed => wm || c == 0 || c == 1 || tenantCode c
  | .function f => wm || c == 0x20 + f
  | _ => if wm then decide (s.world.wInForce * 32 ≤ page) else c == 1 || tenantCode c

/-- Whether an actor reaches the page of 64 KiB that holds an internal address (R395, R398). -/
def State.reaches (s : State) (who : Actor) (a : Nat) : Bool :=
  if dramBase ≤ a ∧ a < dramBase + s.usable then s.pageAdmits who ((a - dramBase) / 0x10000)
  else match who with
    | .sealed => decide ((sealedBase ≤ a ∧ a < sealedBase + 0x200000) ∨ (localBase ≤ a ∧ a < localBase + 0x200000)
        ∨ (emberBase ≤ a ∧ a < emberBase + 0x800000))
    | .core k => decide (localBase + 0x80000 * k ≤ a ∧ a < localBase + 0x80000 * (k + 1))
    | _ => false

/-- Whether an actor may access `len` bytes from an internal address (R395, R398, R399). -/
def State.mayAccess (s : State) (who : Actor) (a len : Nat) : Bool :=
  len == 0 ||
    ((match who with
      | .function f => s.inRange f a len
      | _ => true) &&
     (List.range ((a + len - 1) / 0x10000 - a / 0x10000 + 1)).all fun i => s.reaches who ((a / 0x10000 + i) * 0x10000))

/-! ### The regime switch (R401, R402) -/

/-- Whether a DRAM page lies in the range of a function's tenant. -/
def State.pageOf (s : State) (f page : Nat) : Bool :=
  decide (s.get (worldFnRange_BASE f) * 32 ≤ page) &&
    decide (page < (s.get (worldFnRange_BASE f) + s.get (worldFnRange_SIZE f)) * 32)

/-- Whether a page with a code passes the check of R401. -/
def State.pagePasses (s : State) (page c : Nat) : Bool :=
  (if page < s.get worldWmark_W * 32 then c == 0 || c == 2 else c == 1 || c == 2 || tenantCode c) &&
    (List.range 32).all fun f => (s.tenant f).isNone || ((c == 0x20 + f) == s.pageOf f page)

/-- The first page from `lo` up to but not including `hi` that fails as a page of code 0: the first page of the run, the
first above the watermark, or the first of a tenant range. -/
def State.gapFault (s : State) (lo hi : Nat) : Option Nat :=
  let starts := lo :: s.get worldWmark_W * 32 :: (List.range 32).map fun f => s.get (worldFnRange_BASE f) * 32
  let bad := starts.filter fun p => decide (lo ≤ p ∧ p < hi) && !s.pagePasses p 0
  bad.foldl (fun best p => match best with
    | none => some p
    | some b => some (min b p)) none

/-- The first failing page among the listed entries and the gaps between them, from page `p` on. -/
def State.scanPages (s : State) : List Host.Cell → Nat → Option (Nat × Nat)
  | [], p => (s.gapFault p s.pageCount).map fun q => (q, 0)
  | (a, c) :: rest, p =>
    match s.gapFault p (a - ownerTable) with
    | some q => some (q, 0)
    | none => if s.pagePasses (a - ownerTable) c.toNat then s.scanPages rest (a - ownerTable + 1)
              else some (a - ownerTable, c.toNat)

/-- The first page that fails the check of R401, and its code. -/
def State.firstBadPage (s : State) : Option (Nat × Nat) :=
  s.scanPages (sslice s.mem ownerTable (ownerTable + s.pageCount)) 0

/-- The code that R402 writes for a page. -/
def State.tableCode (s : State) (page : Nat) : Nat :=
  match (List.range 32).find? fun f => s.pageOf f page with
  | some f => 0x20 + f
  | none => if page < s.world.wInForce * 32 then 0 else 1

/-- The owner table is written at a switch to the owner-table regime (R402). -/
def State.writeOwnerTable (s : State) : State :=
  { s with mem := sput s.mem ownerTable ((List.range s.pageCount).map fun p => BitVec.ofNat 8 (s.tableCode p)) }

/-- The owner entries of a run of 2 MiB units take a code (R398, R399). -/
def State.setOwner (s : State) (base size code : Nat) : State :=
  { s with mem := sput s.mem (ownerTable + base * 32) (List.replicate (size * 32) (BitVec.ofNat 8 code)) }

/-! ### The watermark (R397) -/

/-- The status and detail with which a watermark is refused, if it is (R397, R418). -/
def State.wmarkFault (s : State) (w : Nat) : Option (Nat × Nat) :=
  if s.mode ≠ modeProvisioning then some (stMode, s.mode)
  else if w < 16 ∨ s.usable / mib2 < w then some (stNoResource, 1)
  else match (List.range 32).find? fun f =>
      decide (0 < s.get (worldFnRange_SIZE f) ∧ s.get (worldFnRange_BASE f) ≤ w) with
    | some f => some (stConflict, 1 + f)
    | none => none

def specWmarkSet : OpSpec :=
  { opcode := 0x0110, lens := len 8, zero := fun _ => zeroMask [(2, 7)] [], modes := [2], issuer := .sealedOnly,
    log := .logged, check := fun s o => s.wmarkFault (o.u16 0),
    run := fun s o => (s.put worldWmark_W (o.u16 0), .answer (done 0 0)) }

/-! ### Debug (R409, R410) -/

/-- Whether a mode admits sealed debug (R409). -/
def sealedDebugMode (mode : Nat) : Bool := mode == modeTest || mode == modeRecovery

/-- The effective enables (R409). -/
def State.debugEffective (s : State) : Nat :=
  let ni := s.flag debugEn_SEALED_NI && sealedDebugMode s.mode
  (if s.flag debugEn_OPEN_NI then 1 else 0) + (if s.flag debugEn_OPEN_INV && s.flag debugEn_OPEN_NI then 2 else 0)
    + (if ni && !s.flag debugFuse_SNI_CLOSED then 4 else 0)
    + (if ni && s.flag debugEn_SEALED_INV && !s.flag debugFuse_SI_CLOSED then 8 else 0)

/-- Whether effective enables admit a session of a kind in a world. -/
def sessionAdmitted (effective : Nat) (sealed invasive : Bool) : Bool :=
  effective / 2 ^ ((if sealed then 2 else 0) + (if invasive then 1 else 0)) % 2 == 1

/-- Session `n` ends. -/
def State.detach (s : State) (n : Nat) : State := s.cold (debugSess n)

/-- The effective bits follow the enables, the fuses and the mode; a change is reported, and sessions that lost their enable
are detached (R409). -/
def State.refreshDebug (s : State) : State :=
  let e := s.debugEffective
  if s.get debugEn_EFFECTIVE = e then s
  else
    let s := (s.put debugEn_EFFECTIVE e).raise 419 e
    s.each (List.range 4) fun s n =>
      if s.flag (debugSess_ACTIVE n)
          && !sessionAdmitted e (decide (0x8000 ≤ s.get (debugSess_AGENT n))) (s.flag (debugSess_INV n)) then s.detach n
      else s

/-- The enables take a value. -/
def State.setDebug (s : State) (bits : Nat) : State :=
  (s.wr debugEn (BitVec.ofNat 64 (bits % 16 + 0x100 * s.get debugEn_EFFECTIVE))).refreshDebug

/-- The status and detail with which enables are refused, if they are (R410, R418). -/
def State.debugFault (s : State) (bits : Nat) : Option (Nat × Nat) :=
  if bits / 4 % 4 ≠ 0 ∧ !sealedDebugMode s.mode then some (stMode, s.mode)
  else if (bits / 4 % 2 = 1 ∧ s.flag debugFuse_SNI_CLOSED) ∨ (bits / 8 % 2 = 1 ∧ s.flag debugFuse_SI_CLOSED) then
    some (stNoResource, 2)
  else none

/-- What a change of mode does to debug: the sealed enables clear on entry to Provisioning, Service, Degraded and Banked
(R410). -/
def State.debugModeEntered (s : State) : State :=
  let s := if [2, 3, 4, 5].contains s.mode then (s.put debugEn_SEALED_NI 0).put debugEn_SEALED_INV 0 else s
  s.refreshDebug

def specDebugSet : OpSpec :=
  { opcode := 0x0112, lens := len 8, zero := fun _ => zeroMask [(1, 7)] [], modes := allModes, issuer := .sealedOnly,
    log := .logged,
    check := fun s o => if 15 < o.u8 0 then some (stNoResource, 1) else s.debugFault (o.u8 0),
    run := fun s o => (s.setDebug (o.u8 0), .answer (done 0 0)) }

/-- DEBUG_SESSION_ATTACH: a session is admitted by the effective enable of its kind and world (R409); none attaches while
the TAPSEL strap was sampled low (R522). -/
def execDebugSessionAttach (session : Fin 4) (world : World) (invasive : Bool) (s : State) :
    Host.Outcome State Fault Refusal :=
  .next (
    let n := session.val
    if s.flag sysStrap_TAPSEL && sessionAdmitted (s.get debugEn_EFFECTIVE) (world == .sealed) invasive then
      let s := s.put (debugSess_AGENT n) (agentOf (.debug session world))
      let s := (s.put (debugSess_ACTIVE n) 1).putBit (debugSess_INV n) invasive
      s.raise 420 (n * 256 + (if invasive then 2 else 1))
    else s)

/-! ### Fuses (R411) -/

/-- The status and detail with which a blow is refused, if it is (R411, R418). -/
def State.fuseFault (s : State) (o : Origin) : Option (Nat × Nat) :=
  let k := o.u8 0
  let n := o.u8 1
  if 3 < k then some (stNoResource, 1)
  else if (k = 3 ∧ (n = 0 ∨ 64 < n)) ∨ (k ≠ 3 ∧ n ≠ 0) then some (stNoResource, 2)
  else if k = 3 ∧ 64 < s.get debugFuse_SVN + n then some (stNoResource, 2)
  else if k = 2 ∧ s.world.rootHash0 then some (stConflict, 1)
  else none

def specFuseBlow : OpSpec :=
  { opcode := 0x0113, lens := len 8, zero := fun _ => zeroMask [(2, 7)] [], modes := [6], issuer := .sealedOnly,
    log := .logged, check := State.fuseFault,
    run := fun s o =>
      ({ s with world := { s.world with fuseBlow := s.world.fuseBlow ++ [(o.u8 0, o.u8 1, o)] } }, .later) }

/-- The fuse of a select is blown, or SVN stepped (R411); SVN has 64 positions. -/
def State.blowFuse (s : State) (select steps : Nat) : State :=
  if select = 0 then s.put debugFuse_SNI_CLOSED 1
  else if select = 1 then s.put debugFuse_SI_CLOSED 1
  else if select = 2 then s.put debugFuse_REVOKED_0 1
  else s.put debugFuse_SVN (min 64 (s.get debugFuse_SVN + steps))

/-- FUSE_BLOW_COMPLETE: the oldest blow under way ends; the packet is answered (R411). -/
def execFuseBlowComplete (s : State) : Host.Outcome State Fault Refusal :=
  .next (match s.world.fuseBlow with
    | [] => s
    | (select, steps, o) :: rest =>
      let s : State := { s with world := { s.world with fuseBlow := rest } }
      (((s.blowFuse select steps).refreshDebug).raise 423 select).settle o (done 0 0))

/-! ### Query (R418) -/

def specWorldQuery : OpSpec :=
  { opcode := 0x0114, lens := len 0, modes := allModes, issuer := .any, query := true,
    run := fun s _ => (s, .answer (done ((s.rd worldStatus).toNat + 0x100000000 * (s.rd debugEn).toNat)
      ((s.rd debugFuse).toNat + 0x100000000 * (s.rd worldWmark).toNat))) }

def execWmarkSet (p : Packet) (s : State) : Host.Outcome State Fault Refusal := packetStep specWmarkSet p s
def execDebugSet (p : Packet) (s : State) : Host.Outcome State Fault Refusal := packetStep specDebugSet p s
def execFuseBlow (p : Packet) (s : State) : Host.Outcome State Fault Refusal := packetStep specFuseBlow p s
def execWorldQuery (p : Packet) (s : State) : Host.Outcome State Fault Refusal := packetStep specWorldQuery p s

end Sys2Proof.Machine
end

