-- ==== Sys2Proof/Machine/Display.lean ====
section
/-! DEFINITION. What the display files share: heads, their timing and its limits (R112, R113, R128), head lines as master
positions (R25, R115), the memory the scan-out may claim (R370, R371), and the causes of the Ash card (R203). -/
namespace Sys2Proof.Machine

/-! ### Parts of the display -/

/-- The display changes. -/
def State.modDisplay (s : State) (f : DisplayState → DisplayState) : State := { s with display := f s.display }
/-- Head `n` beside its registers. -/
def State.head (s : State) (n : Nat) : HeadState := s.display.heads.getD n HeadState.cold
/-- Head `n` changes. -/
def State.modHead (s : State) (n : Nat) (f : HeadState → HeadState) : State :=
  s.modDisplay fun d => { d with heads := modAt d.heads n f }
/-- The current frame of head `n` changes. -/
def State.modFrame (s : State) (n : Nat) (f : FrameFacts → FrameFacts) : State :=
  s.modHead n fun h => { h with frame := f h.frame }
/-- Port `p` beside its registers. -/
def State.link (s : State) (p : Nat) : LinkState := s.display.links.getD p LinkState.cold
/-- Port `p` changes. -/
def State.modLink (s : State) (p : Nat) (f : LinkState → LinkState) : State :=
  s.modDisplay fun d => { d with links := modAt d.links p f }
/-- The spare engine beside its register. -/
def State.spare (s : State) : SpareState := s.display.spare
/-- The spare engine changes. -/
def State.modSpare (s : State) (f : SpareState → SpareState) : State := s.modDisplay fun d => { d with spare := f d.spare }
/-- Pipe `n` beside its registers. -/
def State.pipe (s : State) (n : Nat) : PipeState := s.display.pipes.getD n PipeState.cold
/-- Pipe `n` changes. -/
def State.modPipe (s : State) (n : Nat) (f : PipeState → PipeState) : State :=
  s.modDisplay fun d => { d with pipes := modAt d.pipes n f }
/-- Write-back unit `u` beside its registers. -/
def State.wb (s : State) (u : Nat) : WbState := s.display.wbs.getD u WbState.cold
/-- Write-back unit `u` changes. -/
def State.modWb (s : State) (u : Nat) (f : WbState → WbState) : State :=
  s.modDisplay fun d => { d with wbs := modAt d.wbs u f }

/-! ### The copy that is scanned -/

/-- Where the copy of the active state that governs the current head frame stands (R128): the active state as it was at head
line 0. -/
def scanBank : Nat := 0x3000000000000

/-! ### Head timing (R112, R113) -/

/-- The timing in a head's registers. -/
def State.timing (s : State) (n : Nat) : Timing :=
  { hactive := s.get (headHtime_HACTIVE n), htotal := s.get (headHtime_HTOTAL n), hfp := s.get (headHsync_HFP n),
    hsw := s.get (headHsync_HSW n), vactive := s.get (headVtime_VACTIVE n), hl := s.get (headVtime_HL n),
    vfp := s.get (headVsync_VFP n), vsw := s.get (headVsync_VSW n), k := s.get (headCtrl_K2 n) + 1, o := s.get (headOffset_O n),
    latch := s.get (headLatch_LATCH_LINE n) }

/-- The timing that a HEAD_TIMING_SET carries. -/
def payloadTiming (o : Origin) : Timing :=
  { hactive := o.u16 0, htotal := o.u16 2, hfp := o.u16 4, hsw := o.u16 6, vactive := o.u16 8, hl := o.u16 10, vfp := o.u16 12,
    vsw := o.u16 14, k := o.u8 17, o := o.u16 18, latch := o.u16 20 }

/-- The numerator of the master frame rate. -/
def State.rateNum (s : State) : Nat := s.get wallMrRateNum_RATE_NUM
/-- Its denominator. -/
def State.rateDen (s : State) : Nat := s.get wallMrRateDen_RATE_DEN

/-- The grain of the master frame at which head line `h` of head frame `kf` begins (R25). -/
def State.lineGrain (s : State) (tm : Timing) (kf h : Nat) : Nat :=
  tm.o * 32 + (kf * tm.hl + h) * 32 * s.lines / (tm.k * tm.hl)

/-- The grains of a master frame. -/
def State.frameGrains (s : State) : Nat := s.lines * 32

/-- Whether port `p` sends a DSI command-mode transfer (R122). -/
def State.dsiCommand (s : State) (p : Nat) : Bool :=
  decide (6 ≤ p) && s.flag (ymxPortCfg_TYPE p) && s.flag (ymxPortDsi_CMD p)

/-- Whether LATCH_LINE gives a latch position that meets R122 and R128. -/
def State.latchOk (s : State) (n : Nat) (tm : Timing) : Bool :=
  decide (tm.vactive ≤ tm.latch) && decide (tm.latch + 1 ≤ tm.hl)
    && decide (32 ≤ s.lineGrain tm 0 tm.latch % s.frameGrains)
    && (!s.dsiCommand n || decide (tm.vactive + s.get (ymxPortDsi_TE_WAIT n) ≤ tm.latch))

/-- Whether K is 1 or 2 and K × the master frame rate is at most 120 Hz (R112). -/
def State.kOk (s : State) (k : Nat) : Bool := (k == 1 || k == 2) && decide (k * s.rateNum ≤ 120 * s.rateDen)

/-- The HEAD_TIMING_SET payload offset of the first field that fails R112 or R128. -/
def State.timingFault (s : State) (n : Nat) (tm : Timing) : Option Nat :=
  if tm.hactive < 640 ∨ 3840 < tm.hactive ∨ tm.hactive % 2 = 1 then some 0
  else if tm.htotal < tm.hactive + tm.hfp + tm.hsw + 8 ∨ 8192 < tm.htotal then some 2
  else if tm.hfp < 8 then some 4
  else if tm.hsw < 8 ∨ 4095 < tm.hsw then some 6
  else if tm.vactive < 480 ∨ 2160 < tm.vactive then some 8
  else if tm.hl < tm.vactive + tm.vfp + tm.vsw + 1 ∨ 8192 < tm.hl then some 10
  else if tm.vfp < 1 then some 12
  else if tm.vsw < 1 ∨ 4095 < tm.vsw then some 14
  else if !s.kOk tm.k then some 17
  else if s.lines ≤ tm.o then some 18
  else if !s.latchOk n tm then some 20
  else none

/-- The lane rate of a DisplayPort rate code, in Mbit/s (R110). -/
def laneRate (code : Nat) : Nat :=
  match code with
  | 0 => 1620
  | 1 => 2700
  | 2 => 5400
  | _ => 8100

/-- The bits per component of a BPC code. -/
def bitsOf (code : Nat) : Nat :=
  match code with
  | 0 => 6
  | 1 => 8
  | _ => 10

/-- The depth at which port `p` drives its components. -/
def State.depth (s : State) (p : Nat) : Nat := bitsOf (s.get (ymxPortCfg_BPC p))

/-- The pixel clock times the master rate's denominator, in Hz (R113). -/
def State.pclkNum (s : State) (tm : Timing) : Nat := tm.htotal * tm.k * tm.hl * s.rateNum

/-- The nominal pixel clock in kHz (HEAD_n_PCLK). -/
def State.pclkKhz (s : State) (tm : Timing) : Nat := s.pclkNum tm / (s.rateDen * 1000)

/-- Whether a pixel clock fits a DisplayPort payload of some lanes at a rate code (R113). -/
def State.fitsLink (s : State) (n : Nat) (tm : Timing) (rate lanes : Nat) : Bool :=
  decide (s.pclkNum tm * 3 * s.depth n * 10 ≤ lanes * laneRate rate * 1000000 * 8 * s.rateDen)

/-- Whether a timing fits port `n` (R113): at most 600 MHz, and within the port's payload. -/
def State.fitsPort (s : State) (n : Nat) (tm : Timing) : Bool :=
  decide (s.pclkNum tm ≤ 600000000 * s.rateDen) &&
    (if s.flag (ymxPortCfg_TYPE n) then
      decide (s.pclkNum tm * 3 * s.depth n * 10
        ≤ s.get (ymxPortCfg_LANES n) * s.get (ymxPortDsirate_LANE_MBPS n) * 1000000 * 9 * s.rateDen)
    else s.fitsLink n tm (s.get (ymxPortCfg_RATE n)) (s.get (ymxPortCfg_LANES n)))

/-- The pixels per master frame of a timing: its composition rate is this times the master rate (R162). -/
def Timing.pixels (tm : Timing) : Nat := tm.hactive * tm.vactive * tm.k

/-- Whether the composition rates of the enabled heads, with head `n` counted at a timing, stay within 5 × 10⁹ pixels per
second (R162). -/
def State.compOk (s : State) (n : Nat) (tm : Timing) : Bool :=
  let others := (List.range 8).filter fun m => m != n && s.flag (headCtrl_EN m)
  decide ((tm.pixels + (others.map fun m => (s.timing m).pixels).sum) * s.rateNum ≤ 5000000000 * s.rateDen)

/-- Whether a head may be enabled with the timing in its registers (R138). -/
def State.mayEnable (s : State) (n : Nat) : Bool :=
  let tm := s.timing n
  (s.timingFault n tm).isNone && s.fitsPort n tm && s.compOk n tm

/-! ### Head lines as master positions (R25, R115) -/

/-- The stamp `g` grains after a stamp (R24). -/
def State.addGrains (s : State) (t : Stamp) (g : Nat) : Stamp :=
  let x := t.line * 32 + t.grain + g
  ⟨t.frame + x / s.frameGrains, x / 32 % s.lines, x % 32⟩

/-- The grains from head line 0 of a head frame to its head line `h` (R25). -/
def State.lineOffset (s : State) (tm : Timing) (kf h : Nat) : Nat := s.lineGrain tm kf h - s.lineGrain tm kf 0

/-- The stamp a number of grains after or before a stamp (R24). -/
def State.moveStamp (s : State) (t : Stamp) (g : Int) : Stamp :=
  let x := ((s.grains t : Int) + g).toNat
  ⟨x / s.frameGrains, x / 32 % s.lines, x % 32⟩

/-- The stamp at which head line `h` of a frame of head `n` begins; a relock step not yet absorbed shifts it (R115). -/
def State.lineStamp (s : State) (n : Nat) (f : FrameFacts) (h : Nat) : Stamp :=
  s.moveStamp f.start ((s.lineOffset (s.head n).tm f.kf h : Int) - (s.head n).shift)

/-- Head frame `kf` of master frame `frame` of a timing starts here (R25). -/
def State.frameStamp (s : State) (tm : Timing) (frame kf : Nat) : Stamp := s.addGrains ⟨frame, 0, 0⟩ (s.lineGrain tm kf 0)

/-- Whether stamp `a` is not after `b`. -/
def Stamp.le (a b : Stamp) : Bool := !b.lt a

/-- The first head frame of a timing that R25 places after one stamp and not before another: its stamp and its number k. -/
def State.nextFrame (s : State) (tm : Timing) (after from_ : Stamp) : Stamp × Nat :=
  let base := if after.lt from_ then from_.frame else after.frame
  let cands := (List.range 4).flatMap fun i => (List.range tm.k).map fun kf =>
    (s.frameStamp tm (base - 1 + i) kf, kf)
  (cands.find? fun c => after.lt c.1 && !c.1.lt from_).getD (s.frameStamp tm (base + 1) 0, 0)

/-- The head line of head `n` now: the last that has begun. -/
def State.headLine (s : State) (n : Nat) : Nat :=
  let h := s.head n
  let d : Int := (s.grains s.now : Int) - s.grains h.frame.start + h.shift
  let base := h.frame.kf * h.tm.hl * 32 * s.lines / (h.tm.k * h.tm.hl)
  min (h.tm.hl - 1) (((base + d.toNat + 1) * (h.tm.k * h.tm.hl) - 1) / (32 * s.lines) - h.frame.kf * h.tm.hl)

/-- The first head line of head `n` that begins after this grain (R133, R190). -/
def State.nextLine (s : State) (n : Nat) : Nat := s.headLine n + 1

/-- Whether head frames of head `n` run. -/
def State.running (s : State) (n : Nat) : Bool := s.flag (headStatus_RUNNING n)

/-- HEAD_n_POS as it reads now. -/
def State.headPosNow (s : State) (n : Nat) : Nat :=
  if s.running n then s.headLine n + 0x10000 * (s.head n).frame.kf else (s.rd (headPos n)).toNat

/-- Whether the display ports are powered and served: not in Dormant or a start, nor in boot-ROM Recovery (R137, R503). -/
def State.displayLive (s : State) : Bool := s.power.stage == .working && !(s.mode == 7 && s.power.bootRom)

/-! ### Engines (R109, R131) -/

/-- The engine that serves port `p`; 15 for none. -/
def State.engine (s : State) (p : Nat) : Nat := (s.rd ymxRoute).toNat / 2 ^ (4 * p) % 16

/-- Port `p` is served by engine `e`, in YMX_ROUTE and in HEAD_n_STATUS. -/
def State.setEngine (s : State) (p e : Nat) : State :=
  (s.wr ymxRoute (BitVec.ofNat 64 (setField (s.rd ymxRoute).toNat (4 * p) 4 e))).put (headStatus_ENGINE p) e

/-- Whether a takeover of head `n` is under way: decided, and engine 8 not yet connected (R133). -/
def State.inTransit (s : State) (n : Nat) : Bool :=
  (s.get ymxSpare_STATE == 2 || s.get ymxSpare_STATE == 3) && s.get ymxSpare_SERVING == n

/-- Whether engine 8 serves head `n` (R131). -/
def State.spareServes (s : State) (n : Nat) : Bool := s.get ymxSpare_STATE == 4 && s.get ymxSpare_SERVING == n

/-! ### Compositions (R220) -/

/-- The head whose composition is bound to pipe `m`. -/
def State.compBound (s : State) (m : Nat) : Option Nat :=
  (List.range 8).find? fun n => s.flag (gfxCompCtrl_EN n) && s.get (gfxCompCtrl_PIPE n) == m

/-! ### The Ash card (R203) -/

/-- Whether an Ash hold of head `n` stands (R201). -/
def State.held (s : State) (n : Nat) : Bool := s.flag (integVstate_HOLD n) && !(s.head n).resuming

/-- Whether a head frame of head `n` that begins now carries the Ash card from head line 0, for a cause other than
HEAD_n_SHOW (R203). -/
def State.ashCause (s : State) (n : Nat) : Bool :=
  s.power.warm.isSome || s.mode == modeProvisioning || s.mode == modeRecovery || s.inTransit n || s.engine n == 15 || s.held n

/-- Ash card lines begin at the next head line of head `n`, if its frame carries none yet (R133, R190, R497). -/
def State.ashFromNext (s : State) (n : Nat) : State :=
  if s.running n && (s.head n).frame.ashFrom.isNone && decide (s.nextLine n < (s.head n).tm.hl) then
    (s.modFrame n fun f => { f with ashFrom := some (s.nextLine n) }).put (headStatus_ASH n) 1
  else s

/-! ### Admission of scan-out traffic (R368, R370, R371) -/

/-- The sequential rate of a channel at a set point, in 100,000 bytes per second (R368). -/
def seqRate (setpoint : Nat) : Nat :=
  match setpoint with
  | 0 => 96711
  | 1 => 64479
  | 2 => 48356
  | _ => 24178

/-- The bytes of the interleave grain (R367). -/
def State.grainBytes (s : State) : Nat := 2 ^ s.get dramcCfg_GRAIN_LOG2

/-- The charge on every channel of one scanned line of `lb` bytes (R370). -/
def State.charge (s : State) (lb : Nat) : Nat := min lb ((lb / (8 * s.grainBytes) + 1) * s.grainBytes)

/-- The head line rate times the master rate's denominator, in lines per second (R158). -/
def State.lineRateNum (s : State) (tm : Timing) : Nat := tm.k * tm.hl * s.rateNum

/-- Whether a demand fits a channel at a set point and a cap (R371); `demand` is in bytes per second × 32 × the master rate's
denominator. -/
def State.rtFits (s : State) (demand setpoint cap : Nat) : Bool :=
  decide (100 * (demand + 200000000 * 32 * s.rateDen) ≤ cap * seqRate setpoint * 100000 * 32 * s.rateDen)

end Sys2Proof.Machine
end

