-- ==== Sys2Proof/Machine/Pixels.lean ====
section
/-! DEFINITION. The exact arithmetic of the layer pipes, the blender and the port: formats (R150, R151), fetch (R152),
chroma and scaling (R154, R155), matrices (R159, R161), blending (R160), the hatch (R183), the Ash card (R202), and the
reduction and serialisation of pixels (R118, R192). -/
namespace Sys2Proof.Machine

/-- A pixel of four 10-bit components: red, green, blue or Y, Cb, Cr; and alpha. -/
structure Px where
  c0 : Nat
  c1 : Nat
  c2 : Nat
  a : Nat
  deriving DecidableEq, Repr

/-- Arithmetic right shift of an integer. -/
def asr (v : Int) (n : Nat) : Int := v / (2 ^ n : Nat)

/-- An integer clamped to 0 to 1023. -/
def clamp10 (v : Int) : Nat := min v.toNat 1023

/-! ### Unpacking (R151) -/

/-- Eight bits to ten. -/
def widen8 (v : Nat) : Nat := v * 4 + v / 64
/-- Six bits to ten. -/
def widen6 (v : Nat) : Nat := v * 16 + v / 4
/-- Five bits to ten. -/
def widen5 (v : Nat) : Nat := v * 32 + v

/-- A half-float to ten bits: its value times 2^24 is computed exactly. -/
def half10 (v : Nat) : Nat :=
  let e := v / 1024 % 32
  let m := v % 1024
  if 32768 ≤ v then 0
  else if e = 31 then (if m = 0 then 1023 else 0)
  else
    let q := if e = 0 then m else (1024 + m) * 2 ^ (e - 1)
    if 2 ^ 24 < q then 1023 else (q * 1023 * 2 + 2 ^ 24) / 2 ^ 25

/-! ### Layers -/

/-- What a layer pipe's registers say (R146 to R160). `stride` is in bytes. -/
structure Layer where
  en : Bool
  fmt : Nat
  tiled : Bool
  hflip : Bool
  vflip : Bool
  filter : Nat
  gang : Nat
  z : Nat
  premult : Bool
  tie : Nat
  palpha : Nat
  head : Nat
  addr0 : Nat
  addr1 : Nat
  stride : Nat
  sx : Nat
  sy : Nat
  sw : Nat
  sh : Nat
  dx : Nat
  dy : Nat
  dw : Nat
  dh : Nat
  csel : Nat
  deriving DecidableEq, Repr

/-- Bytes per sample of plane 0 (R152). -/
def bpp0 (fmt : Nat) : Nat :=
  match fmt with
  | 4 | 6 | 8 => 2
  | 5 => 8
  | 7 | 9 => 1
  | _ => 4

/-- Twice the factor f of the format (R150). -/
def fTwice (fmt : Nat) : Nat :=
  match fmt with
  | 7 | 8 => 3
  | 9 => 4
  | _ => 2

/-- Whether chroma lies at half height (R154). -/
def halfHeight (fmt : Nat) : Bool := fmt == 7 || fmt == 8

/-- The pipes a GANG code takes (R144). -/
def gangSize (code : Nat) : Nat :=
  match code with
  | 1 => 2
  | 2 => 4
  | _ => 1

/-- A signed index clamped to 0 to n − 1. -/
def clampIdx (i : Int) (n : Nat) : Nat := min i.toNat (n - 1)

/-- An index as the pipe sees it, mirrored when flipped (R152). -/
def mirror (flip : Bool) (n i : Nat) : Nat := if flip then n - 1 - i else i

/-- The address of a plane 0 sample at source coordinates (R152, R242). -/
def Layer.at0 (l : Layer) (x y : Nat) : Nat :=
  let b := bpp0 l.fmt
  if l.tiled then l.addr0 + y / 32 * l.stride + x / 32 * (1024 * b) + (y % 32 * 32 + x % 32) * b
  else l.addr0 + y * l.stride + x * b

/-- A number of `n` bytes in memory. -/
abbrev Reader := Nat → Nat → Nat

/-- The pixel of codes 0 to 5 at source coordinates (R150, R151). -/
def Layer.rgb (rd : Reader) (l : Layer) (x y : Nat) : Px :=
  let v := rd (l.at0 x y) (bpp0 l.fmt)
  match l.fmt with
  | 0 => ⟨widen8 (v / 65536 % 256), widen8 (v / 256 % 256), widen8 (v % 256), 1023⟩
  | 1 => ⟨widen8 (v / 65536 % 256), widen8 (v / 256 % 256), widen8 (v % 256), widen8 (v / 16777216)⟩
  | 2 => ⟨v / 1048576 % 1024, v / 1024 % 1024, v % 1024, 1023⟩
  | 3 => ⟨v / 1048576 % 1024, v / 1024 % 1024, v % 1024, v / 1073741824 * 341⟩
  | 4 => ⟨widen5 (v / 2048), widen6 (v / 32 % 64), widen5 (v % 32), 1023⟩
  | _ => ⟨half10 (v % 65536), half10 (v / 2 ^ 16 % 65536), half10 (v / 2 ^ 32 % 65536), half10 (v / 2 ^ 48)⟩

/-- The luma sample of codes 6 to 9 at source coordinates. -/
def Layer.luma (rd : Reader) (l : Layer) (x y : Nat) : Nat :=
  if l.fmt = 8 then rd (l.at0 x y) 2 / 64 else widen8 (rd (l.at0 x y) 1)

/-- Chroma sample `j` of chroma row `r`, relative to the source rectangle and clamped to its edge; a flip mirrors each plane's
samples (R150, R154, log entry 20). -/
def Layer.chroma (rd : Reader) (l : Layer) (j r : Int) : Nat × Nat :=
  let rows := if halfHeight l.fmt then l.sh / 2 else l.sh
  let y0 := if halfHeight l.fmt then l.sy / 2 else l.sy
  let x := l.sx / 2 + mirror l.hflip (l.sw / 2) (clampIdx j (l.sw / 2))
  let y := y0 + mirror l.vflip rows (clampIdx r rows)
  match l.fmt with
  | 6 => (widen8 (rd (l.addr0 + y * l.stride + x * 4 + 1) 1), widen8 (rd (l.addr0 + y * l.stride + x * 4 + 3) 1))
  | 8 => (rd (l.addr1 + y * l.stride + x * 4) 2 / 64, rd (l.addr1 + y * l.stride + x * 4 + 2) 2 / 64)
  | _ => (widen8 (rd (l.addr1 + y * l.stride + x * 2) 1), widen8 (rd (l.addr1 + y * l.stride + x * 2 + 1) 1))

/-- Chroma of column `j` at luma line `y`: vertical up-sampling for codes 7 and 8 (R154). -/
def Layer.chromaRow (rd : Reader) (l : Layer) (j : Int) (y : Nat) : Nat × Nat :=
  if halfHeight l.fmt then
    let r : Int := (y / 2 : Nat)
    let near := l.chroma rd j r
    let far := l.chroma rd j (if y % 2 = 0 then r - 1 else r + 1)
    ((3 * near.1 + far.1 + 2) / 4, (3 * near.2 + far.2 + 2) / 4)
  else l.chroma rd j (y : Int)

/-- Chroma at a pixel of the source rectangle, vertical before horizontal up-sampling (R154, log entry 20). -/
def Layer.chromaAt (rd : Reader) (l : Layer) (x y : Nat) : Nat × Nat :=
  let near := l.chromaRow rd (x / 2 : Nat) y
  if x % 2 = 0 then near
  else
    let far := l.chromaRow rd (x / 2 + 1 : Nat) y
    ((near.1 + far.1 + 1) / 2, (near.2 + far.2 + 1) / 2)

/-- The pixel at (x, y) of the source rectangle as the scaler sees it: fetched with its flips, unpacked, chroma at 4:4:4
(R154 steps 1 to 4). -/
def Layer.source (rd : Reader) (l : Layer) (x y : Nat) : Px :=
  let mx := l.sx + mirror l.hflip l.sw x
  let my := l.sy + mirror l.vflip l.sh y
  if l.fmt ≤ 5 then l.rgb rd mx my
  else
    let c := l.chromaAt rd x y
    ⟨l.luma rd mx my, c.1, c.2, 1023⟩

/-! ### Scaling (R155) -/

/-- A direction of the scaler: its filter's reach over source indices and weights for one output index. The result is the
weighted sum, rounded and shifted by `shift`. -/
structure Taps where
  taps : List (Nat × Int)
  shift : Nat
  deriving DecidableEq, Repr

/-- The taps of one output index in one direction; `coef` gives the smooth filter's coefficients by phase and tap, `centre`
its centre tap and `count` their number (R155, log entry 2). -/
def scaleTaps (src dst filter out : Nat) (coef : Nat → Nat → BitVec 16) (centre count : Nat) : Taps :=
  let step : Int := (src * 65536 / dst : Nat)
  let pos := asr (step - 65536) 1 + out * step
  let i := asr pos 16
  let p := (pos % 65536).toNat
  match filter with
  | 0 => ⟨[(clampIdx (asr (pos + 32768) 16) src, 1)], 0⟩
  | 1 => ⟨[(clampIdx i src, 65536 - (p : Int)), (clampIdx (i + 1) src, (p : Int))], 16⟩
  | _ => ⟨(List.range count).map fun t : Nat => (clampIdx (i - (centre : Int) + (t : Int)) src, (coef (p / 1024) t).toInt), 10⟩

/-- The weighted sum of one component over the taps, rounded; the smooth filter clamps to 0 to 1023 (R155). -/
def Taps.sum (t : Taps) (f : Nat → Nat) : Nat :=
  clamp10 (asr ((t.taps.map fun e => e.2 * (f e.1 : Int)).sum + (2 ^ t.shift / 2 : Nat)) t.shift)

/-- A filter pass over all four components. -/
def Taps.pass (t : Taps) (f : Nat → Px) : Px :=
  ⟨t.sum fun i => (f i).c0, t.sum fun i => (f i).c1, t.sum fun i => (f i).c2, t.sum fun i => (f i).a⟩

/-- The scaled pixel at (x, y) of the destination rectangle: vertical, then horizontal (R154 steps 5 and 6). -/
def Layer.scaled (rd : Reader) (l : Layer) (x y : Nat) : Px :=
  let v := scaleTaps l.sh l.dh l.filter y Config.coefV 1 4
  let h := scaleTaps l.sw l.dw l.filter x Config.coefH 3 8
  h.pass fun i => v.pass fun j => l.source rd i j

/-! ### Colour and blending (R159 to R161) -/

/-- A colour matrix: nine coefficients and the offsets of the three components. -/
structure Matrix where
  c : List Int
  pre : List Int
  post : List Int
  deriving DecidableEq, Repr

/-- One output component of a matrix (R159). -/
def Matrix.out (m : Matrix) (p : Px) (r : Nat) : Nat :=
  let t := m.c.getD (3 * r) 0 * ((p.c0 : Int) + m.pre.getD 0 0) + m.c.getD (3 * r + 1) 0 * ((p.c1 : Int) + m.pre.getD 1 0)
    + m.c.getD (3 * r + 2) 0 * ((p.c2 : Int) + m.pre.getD 2 0)
  clamp10 (asr (t + 2048) 12 + m.post.getD r 0)

/-- A matrix converts a pixel; alpha passes through (R159). -/
def Matrix.apply (m : Matrix) (p : Px) : Px := ⟨m.out p 0, m.out p 1, m.out p 2, p.a⟩

/-- The presets of R159. -/
def preset (csel : Nat) : Matrix :=
  match csel with
  | 1 => ⟨[4783, 0, 6557, 4783, -1609, -3340, 4783, 8287, 0], [-64, -512, -512], [0, 0, 0]⟩
  | 2 => ⟨[4783, 0, 7365, 4783, -876, -2189, 4783, 8678, 0], [-64, -512, -512], [0, 0, 0]⟩
  | 3 => ⟨[4783, 0, 6896, 4783, -770, -2672, 4783, 8799, 0], [-64, -512, -512], [0, 0, 0]⟩
  | _ => ⟨[4096, 0, 0, 0, 4096, 0, 0, 0, 4096], [0, 0, 0], [0, 0, 0]⟩

/-- 0 to 1023 spread over 0 to 1024 (R160). -/
def spread (v : Nat) : Nat := v + v / 512

/-- A pixel is blended over what lies beneath it (R160). -/
def blend (src dst : Px) (pa : Nat) (premult : Bool) : Px :=
  let pa1 := spread pa
  let aa := spread ((src.a * pa1 + 512) / 1024)
  let one (s d : Nat) : Nat :=
    if premult then min 1023 ((s * pa1 + 512) / 1024 + (d * (1024 - aa) + 512) / 1024)
    else (s * aa + d * (1024 - aa) + 512) / 1024
  ⟨one src.c0 dst.c0, one src.c1 dst.c1, one src.c2 dst.c2, dst.a⟩

/-! ### Hatch and Ash card (R183, R202) -/

/-- Whether (x, y) is a hatch pixel of a destination rectangle (R183). -/
def hatchHit (dx dy dw dh x y : Nat) : Bool :=
  decide (dx ≤ x ∧ x < dx + dw ∧ dy ≤ y ∧ y < dy + dh) &&
    (decide ((x + y) % 32 < 12) || decide (x < dx + 4) || decide (dx + dw ≤ x + 4) || decide (y < dy + 4)
      || decide (dy + dh ≤ y + 4))

/-- The component of the Ash card at (x, y) (R202). -/
def ashValue (x y : Nat) : Nat := if ((x : Int) - y) % 64 < 16 then 400 else 560

/-- The pixel of the Ash card at (x, y). -/
def ashPx (x y : Nat) : Px := ⟨ashValue x y, ashValue x y, ashValue x y, 1023⟩

/-! ### The port's depth (R118, R192) -/

/-- The ordered dither matrix (R192). -/
def ditherAt (x y : Nat) : Nat :=
  ([0, 8, 2, 10, 12, 4, 14, 6, 3, 11, 1, 9, 15, 7, 13, 5] : List Nat).getD (y % 4 * 4 + x % 4) 0

/-- A 10-bit component at depth `d` (R192). -/
def reduceTo (d : Nat) (dither : Bool) (x y v : Nat) : Nat :=
  if 10 ≤ d then v
  else
    let s := 10 - d
    let add := if dither then ditherAt x y / 2 ^ (4 - s) else 2 ^ (s - 1)
    min (2 ^ d - 1) ((v + add) / 2 ^ s)

/-- The 32-bit word of a driven pixel (R192). -/
def pixelWord (d : Nat) (dither : Bool) (x y : Nat) (p : Px) : Nat :=
  let f (v : Nat) : Nat := reduceTo d dither x y v * 2 ^ (10 - d)
  f p.c0 * 2 ^ 20 + f p.c1 * 2 ^ 10 + f p.c2

/-- The fold word of a rectangle (R189, R192). -/
def rectFold (x y w h : Nat) : List Byte := leBytes 2 x ++ leBytes 2 y ++ leBytes 2 w ++ leBytes 2 h

/-- The CRC-32C of the words of a rectangle in raster order, after its fold word (R189, R192). -/
def rectCrc (x y w h : Nat) (word : Nat → Nat → Nat) : Nat :=
  crcRun crc32c (crcRun crc32c crc32c.init (rectFold x y w h))
      ((List.range h).flatMap fun j => (List.range w).flatMap fun i => leBytes 4 (word (x + i) (y + j)))
    ^^^ crc32c.xorOut

end Sys2Proof.Machine
end

