-- ==== Sys2Proof/Machine/Layers.lean ====
section
/-! DEFINITION. Layer pipes and write-back units: their registers, validation (R143 to R163), the check at the latch (R164),
underruns and tie groups (R165 to R167), captures (R169 to R172), and their opcodes (R175, R176). -/
namespace Sys2Proof.Machine

/-! ### Pipe registers -/

/-- The layer that the registers of pipe `n` describe, in the bank at a distance `b`. -/
def State.layer (s : State) (n b : Nat) : Layer :=
  let g (f : RF) : Nat := s.get (f.shift b)
  { en := g (layerCtrl_EN n) != 0, fmt := g (layerCtrl_FORMAT n), tiled := g (layerCtrl_TILED n) != 0,
    hflip := g (layerCtrl_HFLIP n) != 0, vflip := g (layerCtrl_VFLIP n) != 0, filter := g (layerCtrl_FILTER n),
    gang := gangSize (g (layerCtrl_GANG n)), z := g (layerCtrl_Z n), premult := g (layerCtrl_PREMULT n) != 0,
    tie := g (layerCtrl_TIE n), palpha := g (layerBlend_PALPHA n), head := g (layerBind_HEAD n),
    addr0 := g (layerAddr_ADDR n 0) * 64, addr1 := g (layerAddr_ADDR n 1) * 64, stride := g (layerStride_STRIDE n) * 64,
    sx := g (layerRect_X_W n 0), sy := g (layerRect_Y_H n 0), sw := g (layerRect_X_W n 1), sh := g (layerRect_Y_H n 1),
    dx := g (layerRect_X_W n 2), dy := g (layerRect_Y_H n 2), dw := g (layerRect_X_W n 3), dh := g (layerRect_Y_H n 3),
    csel := g (layerCsel_CSEL n) }

/-- The bank of the active copies of pipe registers that govern the current head frame. -/
def scanPipe : Nat := actPipe + scanBank

/-- Whether the active state of pipe `n` shows its layer. -/
def State.pipeOn (s : State) (n : Nat) : Bool := s.flag ((layerCtrl_EN n).shift actPipe)

/-- The matrix of a layer's or head's coefficient and offset registers (R159, R161). -/
def State.matrixAt (s : State) (lo hi : Nat → RF) (pre post : Nat → RF) (b : Nat) : Matrix :=
  let c (i : Nat) : Int := toSigned 16 (s.get ((if i % 2 = 0 then lo (i / 2) else hi (i / 2)).shift b))
  { c := (List.range 9).map c, pre := (List.range 3).map fun k => toSigned 11 (s.get ((pre k).shift b)),
    post := (List.range 3).map fun k => toSigned 11 (s.get ((post k).shift b)) }

/-- The colour matrix of a layer (R159). -/
def State.layerMatrix (s : State) (n b csel : Nat) : Matrix :=
  if csel = 4 then s.matrixAt (layerCm_C_LO n) (layerCm_C_HI n) (layerCmOff_PRE n) (layerCmOff_POST n) b else preset csel

/-! ### Fetch and geometry (R150, R152, R156) -/

/-- Whether a range of memory lies in the DRAM a pipe or unit may use: the tenant's, or from the sealed world any (R152,
R170). -/
def State.scanMay (s : State) (owner : Option Nat) (a len : Nat) : Bool :=
  match owner with
  | some f => s.inRange f a len
  | none => decide (dramBase ≤ a ∧ a + len ≤ dramBase + s.usable)

/-- The bytes of one row of tiles. -/
def Layer.tileRow (l : Layer) : Nat := (l.sx + l.sw + 31) / 32 * (1024 * bpp0 l.fmt)

/-- Whether the stride meets R152, and for a tiled layer R242. -/
def Layer.strideOk (l : Layer) : Bool :=
  decide (l.stride ≤ 262080) &&
    (if l.tiled then decide (l.stride % (1024 * bpp0 l.fmt) = 0 ∧ l.tileRow ≤ l.stride)
     else decide (l.stride % 64 = 0 ∧ (l.sx + l.sw) * bpp0 l.fmt ≤ l.stride))

/-- The bytes plane 0 spans. -/
def Layer.span0 (l : Layer) : Nat :=
  if l.tiled then (l.sy + l.sh + 31) / 32 * l.stride else (l.sy + l.sh) * l.stride
/-- The bytes plane 1 spans. -/
def Layer.span1 (l : Layer) : Nat := (if halfHeight l.fmt then (l.sy + l.sh) / 2 else l.sy + l.sh) * l.stride

/-- Whether a source and a destination size meet the scaling limits (R156). -/
def scaleOk (src dst : Nat) : Bool := decide (1 ≤ dst ∧ src ≤ 8 * dst ∧ dst ≤ 16 * src)

/-- The LAYER_SET payload offset of the first field that breaks R150, R152 or R156, with the reason of R164: 1 range,
6 address. -/
def State.layerFault (s : State) (l : Layer) (owner : Option Nat) : Option (Nat × Nat) :=
  let tm := s.timing l.head
  if 9 < l.fmt then some (1, 1)
  else if l.tiled ∧ 5 < l.fmt then some (2, 1)
  else if l.addr0 % 64 ≠ 0 ∨ (l.tiled ∧ l.addr0 % 4096 ≠ 0) then some (16, 6)
  else if !l.strideOk then some (32, 1)
  else if 6 ≤ l.fmt ∧ l.sx % 2 = 1 then some (36, 1)
  else if halfHeight l.fmt ∧ l.sy % 2 = 1 then some (38, 1)
  else if l.sw < 2 ∨ 8192 < l.sw ∨ (6 ≤ l.fmt ∧ l.sw % 2 = 1) then some (40, 1)
  else if l.sh < 2 ∨ 8192 < l.sh ∨ (halfHeight l.fmt ∧ l.sh % 2 = 1) then some (42, 1)
  else if tm.hactive < l.dx + l.dw then some (44, 1)
  else if tm.vactive < l.dy + l.dh then some (46, 1)
  else if !scaleOk l.sw l.dw then some (48, 1)
  else if !scaleOk l.sh l.dh then some (50, 1)
  else if !s.scanMay owner l.addr0 l.span0 then some (16, 6)
  else if 7 ≤ l.fmt ∧ !s.scanMay owner l.addr1 l.span1 then some (24, 6)
  else none

/-! ### Line buffers and source rate (R157, R158) -/

/-- The vertical ratio rounded up. -/
def Layer.ratio (l : Layer) : Nat := (l.sh + l.dh - 1) / l.dh

/-- The lines a layer is fetched ahead to cover a change of set point, while changes are enabled (R384). -/
def State.cover (s : State) (l : Layer) : Nat :=
  if s.flag dramcCfg_FCHG_EN then
    l.ratio * ((14 * s.lineRateNum (s.timing l.head) + 1000000 * s.rateDen - 1) / (1000000 * s.rateDen))
  else 0

/-- Twice the pixels of line buffer a layer needs (R157, R384). -/
def State.bufferTwice (s : State) (l : Layer) : Nat := (4 * l.ratio + 2 + s.cover l) * l.sw * fTwice l.fmt

/-- The smallest gang whose buffers suffice, as LINEBUF's detail (R157). -/
def State.gangNeeded (s : State) (l : Layer) : Nat :=
  if s.bufferTwice l ≤ 2 * 65536 then 2 else if s.bufferTwice l ≤ 4 * 65536 then 4 else 0xFF

/-- Whether the source rate suffices (R158). -/
def State.rateFits (s : State) (l : Layer) : Bool :=
  decide (l.ratio * l.sw * fTwice l.fmt * s.lineRateNum (s.timing l.head) ≤ l.gang * 3200000000 * s.rateDen)

/-- The refusal that the line buffers or the source rate give, with the reason of R164. -/
def State.fitFault (s : State) (l : Layer) : Option (Nat × Nat × Nat) :=
  if l.gang * 65536 < s.bufferTwice l then some (stLinebuf, s.gangNeeded l, 2)
  else if !s.rateFits l then some (stNoResource, 0xFD, 3)
  else none

/-! ### Gangs (R144) -/

/-- Whether the gang that pipe `n` leads breaks R144 in the bank at distance `b`. -/
def State.gangBad (s : State) (n b : Nat) (l : Layer) : Bool :=
  l.gang != 1 && (decide (n % l.gang ≠ 0) || (List.range (l.gang - 1)).any fun i =>
    let m := n + 1 + i
    let p := s.layer m b
    p.en || p.head != l.head || s.pipeOwner m != s.pipeOwner n)

/-- The enabled lead whose gang pipe `n` is a partner of, in the bank at distance `b`. -/
def State.leadOf (s : State) (n b : Nat) : Option Nat :=
  [2, 4].findSome? fun g =>
    let m := n - n % g
    let p := s.layer m b
    if m ≠ n ∧ p.en ∧ p.gang = g then some m else none

/-- Whether pipe `n`, a partner in an enabled lead's gang, is enabled or bound to another head (R144). -/
def State.partnerBad (s : State) (n b : Nat) (l : Layer) : Bool :=
  match s.leadOf n b with
  | some m => l.en || l.head != (s.layer m b).head
  | none => false

/-- Whether another enabled layer of the head has the same Z, in the bank at distance `b` (R148). -/
def State.sharesZ (s : State) (n b : Nat) (l : Layer) : Bool :=
  (List.range 48).any fun m => m != n &&
    (let p := s.layer m b
     p.en && p.head == l.head && p.z == l.z)

/-! ### Memory admission (R153, R370, R371) -/

/-- The demand of an enabled layer on every channel, in bytes per second × 32 × the master rate's denominator (R370). -/
def State.layerDemand (s : State) (l : Layer) : Nat :=
  let planes := if 7 ≤ l.fmt then 2 else 1
  let per := if l.tiled then s.charge l.tileRow else 32 * s.charge ((l.sx + l.sw) * bpp0 l.fmt)
  per * l.ratio * s.lineRateNum (s.timing l.head) * planes

/-- The demand of an active write-back unit (R370). -/
def State.wbDemand (s : State) (head : Nat) : Nat :=
  32 * s.charge ((s.timing head).hactive * 4) * s.lineRateNum (s.timing head)

/-- The demand of all enabled layers and active write-back units of the shadow state. -/
def State.scanDemand (s : State) : Nat :=
  (((List.range 48).map fun m => s.layer m 0).map fun l => if l.en && decide (l.head < 8) then s.layerDemand l else 0).sum
    + ((List.range 4).map fun u => if s.flag (layerWbCtrl_MODE u) then s.wbDemand (s.get (layerWbCtrl_HEAD u)) else 0).sum

/-- Whether the demand of the shadow state is admitted at the set point in force (R371). -/
def State.admitted (s : State) : Bool :=
  s.rtFits s.scanDemand (s.get dramcStatus_SETPOINT) (s.get dramcCfg_RT_CAP)

/-! ### LAYER_SET (R163, R175) -/

/-- The layer a LAYER_SET carries. -/
def carriedLayer (o : Origin) : Layer :=
  { en := o.u8 0 == 1, fmt := o.u8 1, tiled := o.u8 2 % 2 == 1, hflip := o.u8 2 / 2 % 2 == 1, vflip := o.u8 2 / 4 % 2 == 1,
    filter := o.u8 3, gang := gangSize (o.u8 4), z := o.u8 5, premult := o.u8 6 == 1, tie := o.u8 7, palpha := o.u16 8,
    head := o.u8 10, addr0 := o.u64 16, addr1 := o.u64 24, stride := o.u32 32, sx := o.u16 36, sy := o.u16 38, sw := o.u16 40,
    sh := o.u16 42, dx := o.u16 44, dy := o.u16 46, dw := o.u16 48, dh := o.u16 50, csel := 0 }

/-- The layer a LAYER_SET gives its pipe: ADDR0 stays while a composition is bound to the pipe (R220). -/
def State.payloadLayer (s : State) (o : Origin) : Layer :=
  if (s.compBound o.tgt).isSome then { carriedLayer o with addr0 := s.get (layerAddr_ADDR o.tgt 0) * 64 } else carriedLayer o

/-- Whether an address cannot stand in an ADDR field. -/
def addrBad (a : Nat) : Bool := decide (a % 64 ≠ 0 ∨ 2 ^ 48 ≤ a)

/-- The first payload byte of LAYER_SET that holds a value no register field takes. -/
def State.layerSetRange (s : State) (o : Origin) : Option Nat :=
  if 1 < o.u8 0 then some 0
  else if 9 < o.u8 1 then some 1
  else if 7 < o.u8 2 then some 2
  else if 2 < o.u8 3 then some 3
  else if 2 < o.u8 4 then some 4
  else if 15 < o.u8 5 then some 5
  else if 1 < o.u8 6 then some 6
  else if 7 < o.u8 7 then some 7
  else if 1023 < o.u16 8 then some 8
  else if 7 < o.u8 10 ∧ o.u8 10 ≠ 15 then some 10
  else if (s.compBound o.tgt).isNone ∧ addrBad (o.u64 16) then some 16
  else if addrBad (o.u64 24) then some 24
  else if 262080 < o.u32 32 ∨ o.u32 32 % 64 ≠ 0 then some 32
  else none

/-- The shadow of a pipe takes the settings of a LAYER_SET. -/
def State.landLayerSet (s : State) (o : Origin) : State :=
  let n := o.tgt
  let l := s.payloadLayer o
  let s := (s.putBit (layerCtrl_EN n) l.en).put (layerCtrl_FORMAT n) l.fmt
  let s := ((s.putBit (layerCtrl_TILED n) l.tiled).putBit (layerCtrl_HFLIP n) l.hflip).putBit (layerCtrl_VFLIP n) l.vflip
  let s := ((s.put (layerCtrl_FILTER n) l.filter).put (layerCtrl_GANG n) (o.u8 4)).put (layerCtrl_Z n) l.z
  let s := ((s.putBit (layerCtrl_PREMULT n) l.premult).put (layerCtrl_TIE n) l.tie).put (layerBlend_PALPHA n) l.palpha
  let s := ((s.put (layerBind_HEAD n) l.head).put (layerAddr_ADDR n 0) (l.addr0 / 64)).put (layerAddr_ADDR n 1) (l.addr1 / 64)
  let s := s.put (layerStride_STRIDE n) (l.stride / 64)
  s.each (List.range 4) fun s k => s.wr (layerRect n k) (BitVec.ofNat 64 (o.u32 (36 + 4 * k)))

/-- Whether a function does not own a head; the sealed ring may name any (R163). -/
def State.headForeign (s : State) (o : Origin) (h : Nat) : Bool :=
  match o.func with
  | some f => decide (h < 8) && s.headOwner h != some f
  | none => false

/-- Whether a LAYER_SET changes HEAD or GANG of a pipe whose active EN is 1 (R143). -/
def State.rebinds (s : State) (o : Origin) : Bool :=
  let a := s.layer o.tgt actPipe
  a.en && (a.head != o.u8 10 || a.gang != gangSize (o.u8 4))

/-- What a layer, once in the shadow, still has to meet (R143, R144, R148, R157, R158, R153). -/
def State.layerRefusal (s : State) (n : Nat) : Option (Nat × Nat) :=
  let l := s.layer n 0
  if l.head < 8 ∧ 12 < ((List.range 48).filter fun m => s.get (layerBind_HEAD m) == l.head).length then
    some (stNoResource, 0xFA)
  else if (l.en && s.gangBad n 0 l) || s.partnerBad n 0 l then some (stConflict, 5)
  else if !l.en then none
  else if s.sharesZ n 0 l then some (stConflict, 4)
  else match s.fitFault l with
    | some (st, d, _) => some (st, d)
    | none => if s.admitted then none else some (stNoResource, 0xFB)

/-- The checks of LAYER_SET in the landing frame (R163). -/
def layerSetCheck (s : State) (o : Origin) : Option (Nat × Nat) :=
  match s.layerSetRange o with
  | some b => some (stNoResource, 1 + b)
  | none =>
    if s.headForeign o (o.u8 10) then some (stNotOwner, 11)
    else
      let l := s.payloadLayer o
      if l.en ∧ l.head = 15 then some (stNoResource, 11)
      else match (if l.en then s.layerFault l o.func else none) with
        | some (b, _) => some (stNoResource, 1 + b)
        | none => if s.rebinds o then some (stConflict, 3) else (s.landLayerSet o).layerRefusal o.tgt

/-- The target names a layer pipe (R175). -/
def namesPipe (t : Nat) : Bool := t < 48
/-- The target names a write-back unit (R175). -/
def namesWb (t : Nat) : Bool := decide (64 ≤ t ∧ t < 68)
/-- The target names a head (R110). -/
def namesHead (t : Nat) : Bool := t < 8
/-- Whether the pipe is the issuing tenant's. -/
def ownsPipe (s : State) (r t : Nat) : Bool := s.pipeOwner t == some r
/-- Whether the unit is the issuing tenant's. -/
def ownsWb (s : State) (r t : Nat) : Bool := s.wbOwner (t - 64) == some r
/-- Whether the head is the issuing tenant's. -/
def ownsHead (s : State) (r t : Nat) : Bool := s.headOwner t == some r

/-- The head with which pipe `n` latches (R174). -/
def pipeHeads (s : State) (o : Origin) : List Nat :=
  if s.get (layerBind_HEAD o.tgt) < 8 then [s.get (layerBind_HEAD o.tgt)] else []

def specLayerSet : OpSpec :=
  { opcode := 0x0502, lens := len 64, zero := fun _ => zeroMask [(11, 15), (52, 63)] [], modes := modesPSDT,
    issuer := .tenants, member := .capable, names := namesPipe, owns := ownsPipe, log := .logged, check := layerSetCheck,
    land := State.landLayerSet, heads := pipeHeads }

/-! ### LAYER_ADDR and LAYER_COLOUR -/

/-- The shadow addresses of a pipe take new values. -/
def State.landLayerAddr (s : State) (o : Origin) : State :=
  (s.put (layerAddr_ADDR o.tgt 0) (o.u64 0 / 64)).put (layerAddr_ADDR o.tgt 1) (o.u64 8 / 64)

/-- LAYER_ADDR is checked against the pipe's geometry in the landing frame; a breach that is not plane 1's is charged to
ADDR0 (R176, log entry 21). -/
def layerAddrCheck (s : State) (o : Origin) : Option (Nat × Nat) :=
  if (s.compBound o.tgt).isSome then some (stConflict, 6)
  else if addrBad (o.u64 0) then some (stNoResource, 1)
  else if addrBad (o.u64 8) then some (stNoResource, 9)
  else
    let l := (s.landLayerAddr o).layer o.tgt 0
    match (if l.en then s.layerFault l o.func else none) with
    | some (b, _) => some (stNoResource, if b = 24 then 9 else 1)
    | none => none

def specLayerAddr : OpSpec :=
  { opcode := 0x0503, lens := len 16, modes := modesPSDT, issuer := .tenants, member := .capable, names := namesPipe,
    owns := ownsPipe, log := .flip 0, check := layerAddrCheck, land := State.landLayerAddr, heads := pipeHeads }

/-- The payload offset of the first matrix offset outside −1,024 to 1,023. -/
def offsetsFault (o : Origin) : Option Nat :=
  ((List.range 6).find? fun i => decide (1023 < toSigned 16 (o.u16 (26 + 2 * i)) ∨ toSigned 16 (o.u16 (26 + 2 * i)) < -1024)).map
    fun i => 26 + 2 * i

/-- Matrix registers take the coefficients and offsets of a payload (R159, R175). -/
def State.putMatrix (s : State) (o : Origin) (cm off : Nat → Reg) (lo : RF) (pre post : Nat → RF) : State :=
  let s := s.each (List.range 4) fun s k => s.wr (cm k) (BitVec.ofNat 64 (o.u32 (8 + 4 * k)))
  let s := s.put lo (o.u16 24)
  s.each (List.range 3) fun s k =>
    ((s.wr (off k) 0).put (pre k) (o.u16 (26 + 4 * k) % 2048)).put (post k) (o.u16 (28 + 4 * k) % 2048)

def specLayerColour : OpSpec :=
  { opcode := 0x0504, lens := len 40, zero := fun _ => zeroMask [(1, 7), (38, 39)] [], modes := modesPSDT,
    issuer := .tenants, member := .capable, names := namesPipe, owns := ownsPipe, log := .logged,
    check := fun _ o => if 4 < o.u8 0 then some (stNoResource, 1) else (offsetsFault o).map fun b => (stNoResource, 1 + b),
    land := fun s o => (s.put (layerCsel_CSEL o.tgt) (o.u8 0)).putMatrix o (layerCm o.tgt) (layerCmOff o.tgt)
      (layerCm_C_LO o.tgt 4) (layerCmOff_PRE o.tgt) (layerCmOff_POST o.tgt),
    heads := pipeHeads }

/-! ### Head colour (R161, R175) -/

/-- The first payload byte of HEAD_OUTPUT_SET that is out of range. -/
def outputFault (o : Origin) : Option Nat :=
  if 1 < o.u8 0 then some 0
  else if 1 < o.u8 1 then some 1
  else if 63 < o.u8 7 then some 7
  else offsetsFault o

def specHeadOutputSet : OpSpec :=
  { opcode := 0x0420, lens := len 48, zero := fun _ => zeroMask [(2, 3), (38, 47)] [], modes := modesPSDBT,
    issuer := .tenants, member := .capable, names := namesHead, owns := ownsHead, log := .logged,
    check := fun _ o => (outputFault o).map fun b => (stNoResource, 1 + b),
    land := fun s o =>
      let s := (s.put (headOctrl_OM_EN o.tgt) (o.u8 0)).put (headOctrl_GAMMA_EN o.tgt) (o.u8 1)
      (s.wr (headBg o.tgt) (BitVec.ofNat 64 (o.u32 4))).putMatrix o (headOcm o.tgt) (headOcmOff o.tgt) (headOcm_C_LO o.tgt 4)
        (headOcmOff_PRE o.tgt) (headOcmOff_POST o.tgt),
    heads := fun _ o => [o.tgt] }

/-- The checks of HEAD_GAMMA_SET (R175, R176). -/
def gammaFault (o : Origin) : Option Nat :=
  if o.u16 2 < 2 ∨ 512 < o.u16 2 ∨ o.u16 2 % 2 = 1 then some 3
  else if 1024 < o.u16 0 + o.u16 2 then some 1
  else ((List.range (o.u16 2)).find? fun i => decide (63 < o.u8 (11 + 4 * i))).map fun i => 12 + 4 * i

def specHeadGammaSet : OpSpec :=
  { opcode := 0x0421, lens := fun b => [8 + 4 * leAt b 2 2], zero := fun _ => zeroMask [(4, 7)] [], modes := modesPSDBT,
    issuer := .tenants, member := .capable, names := namesHead, owns := ownsHead, log := .logged,
    check := fun _ o => (gammaFault o).map fun d => (stNoResource, d),
    land := fun s o => s.each (List.range (o.u16 2)) fun s i =>
      s.wr (headGamma o.tgt (o.u16 0 + i)) (BitVec.ofNat 64 (o.u32 (8 + 4 * i))),
    heads := fun _ o => [o.tgt] }

/-! ### Queries (R176) -/

/-- A list of numbers as a bit mask. -/
def maskOf (l : List Nat) : Nat := (l.eraseDups.map fun i => 2 ^ i).sum

def specLayerList : OpSpec :=
  { opcode := 0x0501, lens := len 0, modes := modesPSDBT, issuer := .tenants, query := true, names := fun t => t < 32,
    owns := fun _ r t => r == t,
    run := fun s o => match s.tenant o.tgt with
      | some t => (s, .answer (done (maskOf t.pipes) (maskOf t.wbs)))
      | none => (s, .answer (done 0 0)) }

def specLayerQuery : OpSpec :=
  { opcode := 0x0505, lens := len 0, modes := modesPSDBT, issuer := .tenants, query := true, names := namesPipe,
    owns := ownsPipe,
    run := fun s o => (s, .answer (done
      ((s.rd ((layerCtrl o.tgt).shift actPipe)).toNat + 0x100000000 * (s.rd (layerStatus o.tgt)).toNat)
      ((s.rd (layerUrPos o.tgt)).toNat + 0x100000000 * s.get ((layerBind_HEAD o.tgt).shift actPipe)))) }

def specWbQuery : OpSpec :=
  { opcode := 0x0507, lens := len 0, modes := modesPSDBT, issuer := .tenants, query := true, names := namesWb, owns := ownsWb,
    run := fun s o => (s, .answer (done (s.rd (layerWbStamp (o.tgt - 64))).toNat (s.rd (layerWbStatus (o.tgt - 64))).toNat)) }

/-! ### WB_SET (R169 to R171, R163) -/

/-- The first payload byte of WB_SET that holds a value no field takes. -/
def wbSetRange (o : Origin) : Option Nat :=
  if 3 < o.u8 0 then some 0
  else if 1 < o.u8 1 then some 1
  else if o.u8 2 = 0 then some 2
  else if 7 < o.u8 3 then some 3
  else if addrBad (o.u64 8) then some 8
  else if 262080 < o.u32 16 ∨ o.u32 16 % 64 ≠ 0 then some 16
  else none

/-- The shadow of a write-back unit takes the settings of a WB_SET. -/
def State.landWbSet (s : State) (o : Origin) : State :=
  let u := o.tgt - 64
  let s := ((s.put (layerWbCtrl_MODE u) (o.u8 0)).put (layerWbCtrl_FORMAT u) (o.u8 1)).put (layerWbCtrl_N u) (o.u8 2)
  let s := (s.put (layerWbCtrl_HEAD u) (o.u8 3)).put (layerWbAddr_ADDR u) (o.u64 8 / 64)
  (s.put (layerWbStride_STRIDE u) (o.u32 16 / 64)).modWb u fun w => { w with touched := true }

/-- The checks of WB_SET in the landing frame; the buffer rules bind a unit that captures (R163, R170, log entry 22). -/
def wbSetCheck (s : State) (o : Origin) : Option (Nat × Nat) :=
  let u := o.tgt - 64
  let tm := s.timing (o.u8 3)
  match wbSetRange o with
  | some b => some (stNoResource, 1 + b)
  | none =>
    if s.headForeign o (o.u8 3) then some (stNotOwner, 4)
    else if o.u8 0 ≠ 0 ∧ o.u32 16 < tm.hactive * 4 then some (stNoResource, 17)
    else if o.u8 0 ≠ 0 ∧ !s.scanMay o.func (o.u64 8) (tm.vactive * o.u32 16) then some (stNoResource, 9)
    else if s.flag ((layerWbCtrl_MODE u).shift actWb) && s.get ((layerWbCtrl_HEAD u).shift actWb) != o.u8 3 then
      some (stConflict, 3)
    else if o.u8 0 ≠ 0 ∧ !(s.landWbSet o).admitted then some (stNoResource, 0xFB)
    else none

def specWbSet : OpSpec :=
  { opcode := 0x0506, lens := len 32, zero := fun _ => zeroMask [(4, 7), (20, 31)] [], modes := modesPSDT,
    issuer := .tenants, member := .capable, names := namesWb, owns := ownsWb, log := .logged, check := wbSetCheck,
    land := State.landWbSet, heads := fun s o => [s.get (layerWbCtrl_HEAD (o.tgt - 64))] }

def execLayerList (p : Packet) (s : State) : Host.Outcome State Fault Refusal := packetStep specLayerList p s
def execLayerSet (p : Packet) (s : State) : Host.Outcome State Fault Refusal := packetStep specLayerSet p s
def execLayerAddr (p : Packet) (s : State) : Host.Outcome State Fault Refusal := packetStep specLayerAddr p s
def execLayerColour (p : Packet) (s : State) : Host.Outcome State Fault Refusal := packetStep specLayerColour p s
def execLayerQuery (p : Packet) (s : State) : Host.Outcome State Fault Refusal := packetStep specLayerQuery p s
def execWbSet (p : Packet) (s : State) : Host.Outcome State Fault Refusal := packetStep specWbSet p s
def execWbQuery (p : Packet) (s : State) : Host.Outcome State Fault Refusal := packetStep specWbQuery p s
def execHeadOutputSet (p : Packet) (s : State) : Host.Outcome State Fault Refusal := packetStep specHeadOutputSet p s
def execHeadGammaSet (p : Packet) (s : State) : Host.Outcome State Fault Refusal := packetStep specHeadGammaSet p s

/-! ### Latch (R128, R164, R174) -/

/-- The pipes whose shadow BIND names head `n`: those that latch with it. -/
def State.pipesLatching (s : State) (n : Nat) : List Nat := (List.range 48).filter fun m => s.get (layerBind_HEAD m) == n

/-- The shadow of a range of registers is copied to its active copy. -/
def State.copyRegs (s : State) (src dst len : Nat) : State := { s with regs := scopy s.regs src dst len }

/-- The pipes and write-back units of head `n` latch; the raster under which a new content time is latched is recorded
(R174, R181). -/
def State.latchPipes (s : State) (n : Nat) : State :=
  let s := s.each (s.pipesLatching n) fun s m =>
    let newTime := s.rd ((layerCtime m).shift actPipe) != s.rd (layerCtime m)
    let s := s.copyRegs (layerCtrl m).addr ((layerCtrl m).addr + actPipe) 0x200
    if newTime then s.modPipe m fun p => { p with rasterGen := s.get wallStatus_RASTER_GEN } else s
  s.each ((List.range 4).filter fun u => s.get (layerWbCtrl_HEAD u) == n) fun s u =>
    let old := s.get ((layerWbCtrl_MODE u).shift actWb)
    let s := s.copyRegs (layerWbCtrl u).addr ((layerWbCtrl u).addr + actWb) 0x18
    s.modWb u fun w => { w with
      shot := s.get (layerWbCtrl_MODE u) == 1 && (w.shot || w.touched || old != 1), touched := false, frames := 0 }

/-- Why the new active state of pipe `m` fails R164, if it does: 1 range, 2 line buffer, 3 rate, 5 gang, 6 address. -/
def State.pipeReason (s : State) (m : Nat) : Option Nat :=
  let l := s.layer m actPipe
  if !l.en then none
  else match s.layerFault l none with
    | some (_, r) => some r
    | none => match s.fitFault l with
      | some (_, _, r) => some r
      | none => if s.gangBad m actPipe l || s.partnerBad m actPipe l then some 5 else none

/-- Whether a lower-numbered enabled pipe of the same head, not itself refused, has the same Z (R164). -/
def State.zTaken (s : State) (m : Nat) (refused : Nat → Bool) : Bool :=
  let l := s.layer m actPipe
  l.en && (List.range m).any fun k =>
    let p := s.layer k actPipe
    !refused k && p.en && p.head == l.head && p.z == l.z

/-- The role of pipe `m` in its active state: alone, gang lead or gang partner. -/
def State.pipeRole (s : State) (m : Nat) : Nat :=
  if (s.leadOf m actPipe).isSome then 2 else if s.pipeOn m && (s.layer m actPipe).gang != 1 then 1 else 0

/-- The new active state of a head's pipes is checked; one that fails is disabled and reported (R164). -/
def State.checkPipes (s : State) (n : Nat) : State :=
  let pipes := s.pipesLatching n
  let first := pipes.filterMap fun m => (s.pipeReason m).map fun r => (m, r)
  let refused (k : Nat) : Bool := first.any fun x => x.1 == k
  let byZ := pipes.filter fun m => !refused m && s.zTaken m refused
  let bad := pipes.filterMap fun m => if byZ.contains m then some (m, 4) else first.find? fun x => x.1 == m
  let s := s.each pipes fun s m => s.putBit (layerStatus_CFG_FAULT m) (bad.any fun x => x.1 == m)
  let s := s.each bad fun s x => (s.put ((layerCtrl_EN x.1).shift actPipe) 0).raise 43 (x.1 * 256 + x.2)
  s.each pipes fun s m => s.put (layerStatus_ROLE m) (s.pipeRole m)

/-! ### Head frames (R165 to R167, R171) -/

/-- The pipes whose active BIND names head `n`. -/
def State.pipesOf (s : State) (n : Nat) : List Nat := (List.range 48).filter fun m => s.get ((layerBind_HEAD m).shift actPipe) == n

/-- The pipes that are scanned for head `n` in its current frame. -/
def State.pipesScanned (s : State) (n : Nat) : List Nat :=
  (List.range 48).filter fun m => s.get ((layerBind_HEAD m).shift scanPipe) == n

/-- A head frame begins: the active state of its pipes is what is scanned, and layers that were off are shown again
(R128, R165). -/
def State.pipesFrameStart (s : State) (n : Nat) : State :=
  let pipes := (List.range 48).filter fun m =>
    s.get ((layerBind_HEAD m).shift actPipe) == n || s.get ((layerBind_HEAD m).shift scanPipe) == n
  s.each pipes fun s m =>
    let s := s.copyRegs ((layerCtrl m).addr + actPipe) ((layerCtrl m).addr + scanPipe) 0x200
    let s := ((s.put (layerStatus_OFF_UR m) 0).put (layerStatus_OFF_TIE m) 0).putBit (layerStatus_ACTIVE m) (s.pipeOn m)
    s.modPipe m fun p => { p with offAt := none, hatched := false, stale := p.stale && p.evaluated, evaluated := false }

/-- Whether a head pixel comes before another. -/
def pixelBefore (a b : Nat × Nat) : Bool := decide (a.1 < b.1) || (a.1 == b.1 && decide (a.2 < b.2))

/-- A layer is transparent from a pixel to the end of the head frame. -/
def State.turnOff (s : State) (m : Nat) (at_ : Nat × Nat) : State :=
  s.modPipe m fun p => { p with offAt := match p.offAt with
    | some x => if pixelBefore x at_ then some x else some at_
    | none => some at_ }

/-- The pipe that stands for a pipe's layer: the lead of its gang (R165). -/
def State.leadPipe (s : State) (m : Nat) : Nat := (s.leadOf m scanPipe).getD m

/-- A layer underruns, or is not ready, at a pixel (R165 to R167). -/
def State.underrun (s : State) (m line pixel : Nat) (event : Nat) : State :=
  let l := s.layer m scanPipe
  let s := (s.put (layerUrPos_LINE m) line).put (layerUrPos_PIXEL m) pixel
  let s := ((s.bump (layerUrCnt_COUNT m)).put (layerStatus_OFF_UR m) 1).turnOff m (line, pixel)
  let s := s.modFrame l.head fun f => { f with off := true }
  let s := s.raise event (m * 256 + l.head)
  if l.tie = 0 then s
  else
    let others := (s.pipesScanned l.head).filter fun k =>
      let q := s.layer k scanPipe
      k != m && q.en && q.tie == l.tie
    let again := others.any fun k => s.flag (layerStatus_OFF_TIE k)
    let s := s.each others fun s k => (s.put (layerStatus_OFF_TIE k) 1).turnOff k (line, pixel)
    if again then s else s.raise 42 (l.head * 256 + l.tie)

/-- Whether a layer is shown in the current frame of its head. -/
def State.layerShown (s : State) (m : Nat) : Bool :=
  let l := s.layer m scanPipe
  l.en && decide (l.head < 8) && s.running l.head

/-- LAYER_UNDERRUN: the blender needs a pixel of the destination rectangle and the pipe has none ready (R165). -/
def execLayerUnderrun (pipe : Fin 48) (line pixel : W16) (s : State) : Host.Outcome State Fault Refusal :=
  .next (
    let m := s.leadPipe pipe.val
    let l := s.layer m scanPipe
    let y := line.toNat
    let x := pixel.toNat
    if s.layerShown m && decide (l.dx ≤ x ∧ x < l.dx + l.dw ∧ l.dy ≤ y ∧ y < l.dy + l.dh) && (s.pipe m).offAt.isNone then
      s.underrun m y x 40
    else s)

/-! ### Write-back captures (R169 to R172) -/

/-- A head frame of head `n` begins at a stamp: the units that capture it start (R171). In Banked no unit captures (R149). -/
def State.wbFrameStart (s : State) (n : Nat) (start : Stamp) : State :=
  s.each ((List.range 4).filter fun u => s.get ((layerWbCtrl_HEAD u).shift actWb) == n) fun s u =>
    let mode := s.get ((layerWbCtrl_MODE u).shift actWb)
    let w := s.wb u
    let every := s.get ((layerWbCtrl_N u).shift actWb)
    let due := s.mode != modeBanked && (mode == 2 || (mode == 1 && w.shot) || (mode == 3 && decide ((w.frames + 1) % every = 0)))
    let s := s.when (w.capture.isSome) fun s => s.put (layerWbStatus_INCOMPLETE u) 1
    let s := s.modWb u fun w => { w with frames := w.frames + 1, capture := if due then some start else none }
    s.putBit (layerWbStatus_BUSY u) due

/-- A capture ends: a one-shot capture clears MODE, in the shadow unless it was written since the latch (R171). -/
def State.wbEnd (s : State) (u : Nat) : State :=
  let s := (s.modWb u fun w => { w with capture := none }).put (layerWbStatus_BUSY u) 0
  if s.get ((layerWbCtrl_MODE u).shift actWb) = 1 then
    let s := s.put ((layerWbCtrl_MODE u).shift actWb) 0
    let s := s.when (!(s.wb u).touched) fun s => s.put (layerWbCtrl_MODE u) 0
    s.modWb u fun w => { w with shot := false }
  else s

/-- Captures of all heads are cut short (R172, R497). -/
def State.wbCut (s : State) : State :=
  s.each (List.range 4) fun s u =>
    if (s.wb u).capture.isSome then (s.put (layerWbStatus_INCOMPLETE u) 1).wbEnd u else s

/-! ### Pool and Banked (R142, R149) -/

/-- A pipe's active state is disabled at once: the head loses the layer from the next pixel (R142). -/
def State.pipeDark (s : State) (m : Nat) : State :=
  let l := s.layer m scanPipe
  let s := (s.put ((layerCtrl_EN m).shift actPipe) 0).put (layerStatus_ACTIVE m) 0
  if l.en ∧ l.head < 8 ∧ s.running l.head then
    let from_ := s.lineStamp l.head (s.head l.head).frame (s.headLine l.head)
    let tm := (s.head l.head).tm
    s.turnOff m (s.headLine l.head, ((s.since from_ + 1) * tm.htotal * (tm.k * tm.hl) + 32 * s.lines - 1) / (32 * s.lines))
  else s

/-- On entry to Banked the active EN of every pipe is cleared (R149). -/
def State.pipesBanked (s : State) : State := s.each (List.range 48) State.pipeDark

end Sys2Proof.Machine
end

