-- ==== Sys2Proof/Machine/Compose.lean ====
section
/-! DEFINITION. Composition of a head from its scanned state (R146 to R149, R183, R186, R187), what the port carries (R202,
R203), and the check values over it (R189, R191 to R193, R196). -/
namespace Sys2Proof.Machine

/-! ### Ember planes (R186, R187) -/

/-- The bank of the active copies of HEAD and INTEG window registers that govern the current head frame. -/
def scanWin : Nat := actWin + scanBank

/-- What the registers of an Ember plane say; `off` and `stride` in bytes. -/
structure Plane where
  en : Bool
  scale : Nat
  off : Nat
  stride : Nat
  x : Nat
  y : Nat
  w : Nat
  h : Nat
  deriving DecidableEq, Repr

/-- Ember plane `p` of head `n` in the bank at a distance `b`. -/
def State.plane (s : State) (n p b : Nat) : Plane :=
  let g (f : RF) : Nat := s.get (f.shift b)
  { en := g (integEmbCtrl_EN n p) != 0, scale := g (integEmbCtrl_SCALE n p), off := g (integEmbBase_OFFSET n p) * 64,
    stride := g (integEmbBase_STRIDE n p) * 64, x := g (integEmbPos_X_W n p), y := g (integEmbPos_Y_H n p),
    w := g (integEmbSize_X_W n p), h := g (integEmbSize_Y_H n p) }

/-- Whether (x, y) lies in a plane's output. -/
def Plane.covers (q : Plane) (x y : Nat) : Bool :=
  q.en && decide (q.x ≤ x ∧ x < q.x + q.w * q.scale ∧ q.y ≤ y ∧ y < q.y + q.h * q.scale)

/-- The palette entry a plane shows at (x, y), as stored. -/
def State.planeWord (s : State) (n p : Nat) (q : Plane) (x y : Nat) : Nat :=
  let i := (s.byte (emberBase + q.off + (y - q.y) / q.scale * q.stride + (x - q.x) / q.scale)).toNat
  (s.rd ((integEmbPal n p i).shift scanWin)).toNat

/-- A palette entry as a pixel: its bytes widened to ten bits (R187). -/
def paletteLook (w : Nat) : Px :=
  ⟨widen8 (w / 65536 % 256), widen8 (w / 256 % 256), widen8 (w % 256), widen8 (w / 16777216)⟩

/-- A plane over a pixel (R146 stages 4 and 5). -/
def State.overPlane (s : State) (n p : Nat) (x y : Nat) (under : Px) : Px :=
  let q := s.plane n p scanWin
  if q.covers x y then blend (paletteLook (s.planeWord n p q x y)) under 1023 false else under

/-- The CRC of a plane's output (R189). -/
def State.planeCrc (s : State) (n p : Nat) : Nat :=
  let q := s.plane n p scanWin
  rectCrc q.x q.y (q.w * q.scale) (q.h * q.scale) fun x y => s.planeWord n p q x y

/-! ### Layers and hatch (R146, R183) -/

/-- The enabled scanned pipes of head `n`, by ascending Z. -/
def State.stack (s : State) (n : Nat) : List (Nat × Layer) :=
  let on := ((s.pipesScanned n).map fun m => (m, s.layer m scanPipe)).filter fun e => e.2.en
  (List.range 16).flatMap fun z => on.filter fun e => e.2.z == z

/-- Whether a pixel of a layer is transparent because it turned off before it (R165, R167). -/
def State.isOff (s : State) (m x y : Nat) : Bool :=
  match (s.pipe m).offAt with
  | some p => !pixelBefore (y, x) p
  | none => false

/-- One layer over a pixel (R146 stage 2). -/
def State.overLayer (s : State) (e : Nat × Layer) (x y : Nat) (under : Px) : Px :=
  let l := e.2
  if decide (l.dx ≤ x ∧ x < l.dx + l.dw ∧ l.dy ≤ y ∧ y < l.dy + l.dh) && !s.isOff e.1 x y then
    let p := l.scaled s.loadNat (x - l.dx) (y - l.dy)
    blend ((s.layerMatrix e.1 scanPipe l.csel).apply p) under l.palpha l.premult
  else under

/-- The hatch of one stale layer over a pixel (R183). -/
def State.overHatch (s : State) (n : Nat) (e : Nat × Layer) (x y : Nat) (under : Px) : Px :=
  let l := e.2
  if (s.pipe e.1).hatched && hatchHit l.dx l.dy l.dw l.dh x y then
    blend ⟨s.get ((integHatch_RED n).shift scanWin), s.get ((integHatch_G n).shift scanWin),
      s.get ((integHatch_B n).shift scanWin), s.get ((integHatchA_ALPHA n).shift scanWin)⟩ under 1023 false
  else under

/-- The background: black in Banked (R149). -/
def State.background (s : State) (n : Nat) (banked : Bool) : Px :=
  if banked then ⟨0, 0, 0, 1023⟩
  else ⟨s.get ((headBg_RED n).shift scanWin), s.get ((headBg_G n).shift scanWin), s.get ((headBg_B n).shift scanWin), 1023⟩

/-- The output matrix and the gamma table (R161). -/
def State.outputStage (s : State) (n : Nat) (p : Px) : Px :=
  let p := if s.flag ((headOctrl_OM_EN n).shift scanWin) then
      (s.matrixAt (headOcm_C_LO n) (headOcm_C_HI n) (headOcmOff_PRE n) (headOcmOff_POST n) scanWin).apply p
    else p
  if s.flag ((headOctrl_GAMMA_EN n).shift scanWin) then
    ⟨s.get ((headGamma_RED n p.c0).shift scanWin), s.get ((headGamma_G n p.c1).shift scanWin),
      s.get ((headGamma_B n p.c2).shift scanWin), p.a⟩
  else p

/-- The composed pixel of head `n` at (x, y) (R146). -/
def State.composed (s : State) (n : Nat) (f : FrameFacts) (stack : List (Nat × Layer)) (x y : Nat) : Px :=
  let p := stack.foldl (fun p e => s.overLayer e x y p) (s.background n f.banked)
  let p := stack.foldl (fun p e => s.overHatch n e x y p) p
  s.outputStage n (s.overPlane n 1 x y (s.overPlane n 0 x y p))

/-! ### What the port carries (R146, R202, R203) -/

/-- Whether head line `y` of a frame carries the Ash card, which comes before black (log entry 23). -/
def FrameFacts.ashAt (f : FrameFacts) (y : Nat) : Bool :=
  f.show_ == 2 || (match f.ashFrom with
    | some h => decide (h ≤ y)
    | none => false)

/-- Whether a frame carries Ash card or black lines (R196, R199 reason 4). -/
def FrameFacts.covered (f : FrameFacts) : Bool := f.show_ != 0 || f.ashFrom.isSome

/-- The pixel the port carries, before the reduction of R118. -/
def State.shown (s : State) (n : Nat) (f : FrameFacts) (stack : List (Nat × Layer)) (x y : Nat) : Px :=
  if f.ashAt y then ashPx x y
  else if f.show_ = 1 then ⟨0, 0, 0, 1023⟩
  else s.composed n f stack x y

/-! ### Check rectangles (R191 to R193, R196) -/

/-- Whether some hatch pixel of head `n` lies in a rectangle (R196). -/
def State.meetsHatch (s : State) (stack : List (Nat × Layer)) (x y w h : Nat) : Bool :=
  stack.any fun e => (s.pipe e.1).hatched && (List.range h).any fun j => (List.range w).any fun i =>
    hatchHit e.2.dx e.2.dy e.2.dw e.2.dh (x + i) (y + j)

/-- The expected value of rectangle `r`, by the mode at the start of the frame (R191). -/
def State.rectExpected (s : State) (n r : Nat) (banked : Bool) : Nat :=
  if banked then s.get ((integRectExpB_EXPECT n r).shift scanWin) else s.get ((integRectExp_EXPECT n r).shift scanWin)

/-- Whether rectangle `r` takes part in a frame (R191). -/
def State.rectOn (s : State) (n r : Nat) (banked : Bool) : Bool :=
  s.flag ((integRectCtrl_EN n r).shift scanWin) && (!banked || s.flag ((integRectCtrl_BANKED n r).shift scanWin))

/-- What the checks see of rectangle `r` when a pixel of the frame is `px`. -/
def State.seeRect (s : State) (n : Nat) (f : FrameFacts) (stack : List (Nat × Layer)) (px : Nat → Nat → Px) (r : Nat) :
    RectSeen :=
  let x := s.get ((integRectPos_X_W n r).shift scanWin)
  let y := s.get ((integRectPos_Y_H n r).shift scanWin)
  let w := s.get ((integRectSize_X_W n r).shift scanWin)
  let h := s.get ((integRectSize_Y_H n r).shift scanWin)
  { on := s.rectOn n r f.banked, hatched := s.meetsHatch stack x y w h,
    crc := rectCrc x y w h fun x y => pixelWord (s.depth n) (s.flag (ymxPortCfg_DITHER n)) x y (px x y),
    expected := s.rectExpected n r f.banked }

/-- The rectangles of a frame as engine 8 primes it: composed, whatever the port carries (R133). -/
def State.seePrimed (s : State) (n : Nat) (f : FrameFacts) : List RectSeen :=
  let stack := s.stack n
  let f := { f with ashFrom := none }
  (List.range 16).map fun r => s.seeRect n f stack (fun x y => s.shown n f stack x y) r

/-- What the checks see of a whole head frame: its rectangles and its frame CRC (R192, R193). -/
def State.measure (s : State) (n : Nat) (f : FrameFacts) : List RectSeen × Nat :=
  let stack := s.stack n
  let px (x y : Nat) : Px := s.shown n f stack x y
  let tm := (s.head n).tm
  let frame := rectCrc 0 0 tm.hactive tm.vactive fun x y =>
    pixelWord (s.depth n) (s.flag (ymxPortCfg_DITHER n)) x y (px x y)
  ((List.range 16).map fun r => s.seeRect n f stack px r, frame)

/-! ### Write-back (R169) -/

/-- A captured pixel as it is written to memory (R169). -/
def captureWord (format : Nat) (p : Px) : Nat :=
  let b (v : Nat) : Nat := min 255 ((v + 2) / 4)
  if format = 0 then p.c0 * 2 ^ 20 + p.c1 * 2 ^ 10 + p.c2 else b p.c0 * 65536 + b p.c1 * 256 + b p.c2

/-- The first `lines` lines of the current frame are written by unit `u` (R169). -/
def State.writeLines (s : State) (u lines : Nat) : State :=
  let n := s.get ((layerWbCtrl_HEAD u).shift actWb)
  let f := (s.head n).frame
  let stack := s.stack n
  let tm := (s.head n).tm
  let base := s.get ((layerWbAddr_ADDR u).shift actWb) * 64
  let stride := s.get ((layerWbStride_STRIDE u).shift actWb) * 64
  let format := s.get ((layerWbCtrl_FORMAT u).shift actWb)
  let s0 := s
  s.each (List.range (min lines tm.vactive)) fun s y =>
    s.store (base + y * stride)
      ((List.range tm.hactive).flatMap fun x => leBytes 4 (captureWord format (s0.shown n f stack x y)))

/-- WB_CAPTURE_COMPLETE: the capture's writes are visible; it is stamped and counted (R171). -/
def execWbCaptureComplete (unit : Fin 4) (s : State) : Host.Outcome State Fault Refusal :=
  .next (match (s.wb unit.val).capture with
    | none => s
    | some start =>
      let u := unit.val
      let n := s.get ((layerWbCtrl_HEAD u).shift actWb)
      let s := s.writeLines u ((s.head n).tm.vactive)
      let s := ((s.wr (layerWbStamp u) start.word).bump (layerWbCnt_COUNT u)).put (layerWbStatus_INCOMPLETE u) 0
      (s.wbEnd u).raise 44 (u * 256 + n))

/-- WB_OVERFLOW: the unit's buffer filled after `lines` lines; the rest of the head frame is not written (R172). -/
def execWbOverflow (unit : Fin 4) (lines : W16) (s : State) : Host.Outcome State Fault Refusal :=
  .next (match (s.wb unit.val).capture with
    | none => s
    | some _ =>
      let u := unit.val
      let n := s.get ((layerWbCtrl_HEAD u).shift actWb)
      let s := (s.writeLines u lines.toNat).put (layerWbStatus_INCOMPLETE u) 1
      (s.wbEnd u).raise 45 (u * 256 + n))

end Sys2Proof.Machine
end

