-- ==== Sys2Proof/Machine/Links.lean ====
section
/-! DEFINITION. The output ports: DisplayPort training, HPD and AUX (R116, R117, R119), DSI and TE (R120 to R125), the port
opcodes (R139, R140), and what a warm reset holds back (R137). -/
namespace Sys2Proof.Machine

/-! ### Training (R116) -/

/-- Whether port `p` is enabled as DisplayPort. -/
def State.dpEnabled (s : State) (p : Nat) : Bool := s.flag (ymxPortCfg_EN p) && !s.flag (ymxPortCfg_TYPE p)

/-- The port is no longer trained; its lanes idle. -/
def State.untrain (s : State) (p : Nat) : State :=
  let s := ((s.put (ymxPortStatus_TRAINED p) 0).put (ymxPortStatus_RATE p) 0).put (ymxPortStatus_LANES p) 0
  let s := ((s.put (ymxPortStatus_CR_DONE p) 0).put (ymxPortStatus_EQ_DONE p) 0).put (ymxPortStatus_SYM_LOCK p) 0
  (s.put (ymxPortStatus_ATTEMPTS p) 0).modLink p fun l => { l with training := none, failed := false }

/-- Training starts, at the lower of the port's and the sink's rate and lane count (R116); the AUX channel makes no new
transaction in a warm reset (R137). -/
def State.startTraining (s : State) (p : Nat) : State :=
  let s := s.untrain p
  let l := s.link p
  if l.plugged && s.dpEnabled p && s.power.warm.isNone then
    s.modLink p fun l => { l with
      training := some (min (s.get (ymxPortCfg_RATE p)) l.sinkRate, min (s.get (ymxPortCfg_LANES p)) l.sinkLanes) }
  else s

/-- Whether the head's timing still meets R113 at a lower rate; while the head is disabled every rate does (R116). -/
def State.rateQualifies (s : State) (p rate lanes : Nat) : Bool :=
  !s.flag (headCtrl_EN p) || s.fitsLink p (s.timing p) rate lanes

/-- The next lower rate that qualifies (R116). -/
def State.lowerRate (s : State) (p rate lanes : Nat) : Option Nat :=
  ((List.range rate).reverse).find? fun r => s.rateQualifies p r lanes

/-- An event of a port; one seen in a warm reset is raised after it completes (R137). -/
def State.portEvent (s : State) (e d : Nat) : State :=
  if s.power.warm.isSome then s.modDisplay fun x => { x with lateEvents := x.lateEvents ++ [(e, d)] } else s.raise e d

/-- LINK_TRAIN_ATTEMPT_END: an attempt ends with the lane status read from the sink (R116). -/
def execLinkTrainAttemptEnd (port : Fin 8) (cr eq sym : Bool) (s : State) : Host.Outcome State Fault Refusal :=
  .next (match (s.link port.val).training with
    | none => s
    | some (rate, lanes) =>
      let p := port.val
      let s := s.put (ymxPortStatus_ATTEMPTS p) (s.get (ymxPortStatus_ATTEMPTS p) + 1)
      let s := ((s.putBit (ymxPortStatus_CR_DONE p) cr).putBit (ymxPortStatus_EQ_DONE p) eq).putBit (ymxPortStatus_SYM_LOCK p) sym
      if cr && eq && sym then
        let s := ((s.put (ymxPortStatus_TRAINED p) 1).put (ymxPortStatus_RATE p) rate).put (ymxPortStatus_LANES p) lanes
        (s.modLink p fun l => { l with training := none, rbDue := true }).raise 25 (p * 256 + rate * 16 + lanes)
      else if s.get (ymxPortStatus_ATTEMPTS p) < 3 then s
      else match s.lowerRate p rate lanes with
        | some r => (s.put (ymxPortStatus_ATTEMPTS p) 0).modLink p fun l => { l with training := some (r, lanes) }
        | none => (s.modLink p fun l => { l with training := none, failed := true }).raise 26 (p * 256 + rate))

/-! ### HPD (R117) -/

/-- The SINK_READ packets that wait on a port are answered. -/
def State.answerAux (s : State) (p detail : Nat) : State :=
  let waiting := (s.link p).aux
  (s.modLink p fun l => { l with aux := [] }).each waiting fun s o => s.settle o ⟨stDone, detail, 0, 0⟩

/-- HPD_PLUG: HPD has been high for 2 ms; the sink's capabilities are read and the link is trained (R116). A disabled port
raises no event (R137). -/
def execHpdPlug (port : Fin 8) (maxRate : Fin 4) (lanes : Fin 5) (sinkCount : Fin 16) (s : State) :
    Host.Outcome State Fault Refusal :=
  .next (
    let p := port.val
    if !s.displayLive || s.flag (ymxPortCfg_TYPE p) then s
    else
      let s := (s.put (ymxPortStatus_HPD p) 1).put (ymxPortStatus_SINK_COUNT p) sinkCount.val
      if !s.dpEnabled p then s
      else
        let s := s.modLink p fun l => { l with plugged := true, sinkRate := maxRate.val, sinkLanes := lanes.val }
        (s.portEvent 23 (p * 256 + 1)).startTraining p)

/-- HPD_UNPLUG: HPD has been low for more than 2 ms; the lanes go to electrical idle (R117). -/
def execHpdUnplug (port : Fin 8) (s : State) : Host.Outcome State Fault Refusal :=
  .next (
    let p := port.val
    if !s.displayLive || s.flag (ymxPortCfg_TYPE p) then s
    else
      let s := ((s.put (ymxPortStatus_HPD p) 0).put (ymxPortStatus_SINK_COUNT p) 0).untrain p
      let s := (s.modLink p fun l => { l with plugged := false }).answerAux p 3
      if s.dpEnabled p then s.portEvent 23 (p * 256) else s)

/-- HPD_IRQ: the lane status the sink reports decides whether the link is lost (R117). -/
def execHpdIrq (port : Fin 8) (cr eq sym : Bool) (s : State) : Host.Outcome State Fault Refusal :=
  .next (
    let p := port.val
    if !s.displayLive || !s.dpEnabled p || !(s.link p).plugged then s
    else
      let s := s.portEvent 24 p
      if s.power.warm.isSome || !s.flag (ymxPortStatus_TRAINED p) || (cr && eq && sym) then s
      else
        let s := (s.raise 27 p).untrain p
        let s := ((s.putBit (ymxPortStatus_CR_DONE p) cr).putBit (ymxPortStatus_EQ_DONE p) eq).putBit
          (ymxPortStatus_SYM_LOCK p) sym
        if s.flag (ymxPortCfg_AUTO_RETRAIN p) then s.startTraining p else s)

/-- A warm reset has completed: HPD events held back are raised, and ports left untrained are trained (R137). -/
def State.portsAfterWarm (s : State) : State :=
  let late := s.display.lateEvents
  let s := s.modDisplay fun x => { x with lateEvents := [] }
  let s := s.each late fun s e => s.raise e.1 e.2
  s.each (List.range 8) fun s p =>
    let l := s.link p
    if l.plugged && !s.flag (ymxPortStatus_TRAINED p) && l.training.isNone && !l.failed then s.startTraining p else s

/-! ### AUX (R119) -/

/-- AUX_READ_COMPLETE: the oldest waiting SINK_READ of a port gets its result: 0 data, 1 NACK, 2 timeout, 3 no sink, 4 busy
(R119, R140). -/
def execAuxReadComplete (port : Fin 8) (result : Fin 5) (data : List Byte) (s : State) : Host.Outcome State Fault Refusal :=
  .next (match (s.link port.val).aux with
    | [] => s
    | o :: rest =>
      let bytes := data.take (o.u8 4)
      let word (i : Nat) : W64 := if result.val = 0 then BitVec.ofNat 64 (leAt bytes i 8) else 0
      (s.modLink port.val fun l => { l with aux := rest }).settle o ⟨stDone, result.val, word 0, word 8⟩)

/-- The first payload byte of SINK_READ that is out of range. -/
def sinkReadFault (o : Origin) : Option Nat :=
  if 1 < o.u8 0 then some 0 else if o.u8 4 = 0 ∨ 16 < o.u8 4 then some 4 else none

def specSinkRead : OpSpec :=
  { opcode := 0x0414, lens := len 8, zero := fun _ => zeroMask [(5, 7)] [], modes := allModes, issuer := .tenants,
    query := true, names := namesHead, owns := ownsHead,
    check := fun _ o => (sinkReadFault o).map fun b => (stNoResource, 1 + b),
    run := fun s o =>
      if s.dpEnabled o.tgt && (s.link o.tgt).plugged then
        (s.modLink o.tgt fun l => { l with aux := l.aux ++ [o] }, .later)
      else (s, .answer ⟨stDone, 3, 0, 0⟩) }

/-! ### DSI (R120 to R125) -/

/-- A TE edge of the configured polarity starts the transfer of a head frame, if it comes within the wait window (R122);
edges in four consecutive head frames regain a lost TE (R123). -/
def execTeEdge (port : Fin 8) (s : State) : Host.Outcome State Fault Refusal :=
  .next (
    let p := port.val
    if !s.dsiCommand p || !s.flag (ymxPortDsi_TE_EN p) || !s.running p || s.power.warm.isSome then s
    else
      let line := s.headLine p
      if s.get (ymxPortDsi_TE_WAIT p) < line || (s.link p).teSeen then s
      else
        let s := s.modLink p fun l => { l with teSeen := true, teMisses := 0, teHits := l.teHits + 1 }
        let s := if (s.head p).xfer.isNone then s.modHead p fun h => { h with xfer := some line } else s
        if s.flag (headStatus_TE_LOST p) && decide (4 ≤ (s.link p).teHits) then
          (s.put (headStatus_TE_LOST p) 0).raise 30 p
        else s)

/-- A transfer starts at TE_WAIT without a TE edge (R123). -/
def State.teTimeout (s : State) (p : Nat) : State :=
  if !s.dsiCommand p || !s.running p || (s.head p).xfer.isSome then s
  else
    let s := s.modHead p fun h => { h with xfer := some (s.get (ymxPortDsi_TE_WAIT p)) }
    let s := (s.modLink p fun l => { l with teMisses := l.teMisses + 1, teHits := 0 }).bump (ymxPortTecnt_COUNT p)
    let s := s.raise 28 p
    if decide (s.get (ymxPortDsi_TE_FAIL_LIMIT p) ≤ (s.link p).teMisses) && !s.flag (headStatus_TE_LOST p) then
      (s.put (headStatus_TE_LOST p) 1).raise 29 p
    else s

/-- A head frame of port `p` begins: with TE lost, or none used, the transfer starts at once (R122, R123). -/
def State.teFrameStart (s : State) (p : Nat) : State :=
  let s := s.modLink p fun l => { l with teHits := if l.teSeen then l.teHits else 0, teSeen := false }
  let now := s.dsiCommand p && (s.flag (headStatus_TE_LOST p) || !s.flag (ymxPortDsi_TE_EN p))
  s.modHead p fun h => { h with xfer := if now then some 0 else none }

/-- DSI_ERR_POLL: the panel's acknowledge and error report (R125). -/
def execDsiErrPoll (port : Fin 8) (report : W32) (s : State) : Host.Outcome State Fault Refusal :=
  .next (
    let p := port.val
    if decide (6 ≤ p) && s.flag (ymxPortCfg_TYPE p) && s.flag (ymxPortDsi_ERR_POLL p) && s.running p && report != 0 then
      s.raise 31 report.toNat
    else s)

/-- A TE contact whose feature was released is freed at a master frame start (R124). -/
def State.teRelease (s : State) : State :=
  s.each [6, 7] fun s p => s.modLink p fun l => { l with teHeld := s.flag (ymxPortDsi_TE_EN p) }

/-- The first payload byte of DSI_CONFIG that is out of range (R122, R139). -/
def dsiFault (s : State) (o : Origin) : Option Nat :=
  let tm := s.timing o.tgt
  if 1 < o.u8 0 then some 0
  else if 1 < o.u8 1 then some 1
  else if 1 < o.u8 2 then some 2
  else if o.u8 3 = 0 then some 3
  else if tm.hl - tm.vactive < o.u16 4 then some 4
  else if o.u16 6 < 80 ∨ 2500 < o.u16 6 then some 6
  else if 1 < o.u8 8 then some 8
  else none

def specDsiConfig : OpSpec :=
  { opcode := 0x0415, lens := len 16, zero := fun _ => zeroMask [(9, 15)] [], modes := [2, 6], issuer := .tenants,
    names := fun t => t == 6 || t == 7, owns := ownsHead, log := .logged,
    check := fun s o => match dsiFault s o with
      | some b => some (stNoResource, 1 + b)
      | none => if s.flag (ymxPortCfg_TYPE o.tgt) then none else some (stConflict, 2),
    run := fun s o =>
      let p := o.tgt
      if o.u8 1 = 1 && s.bit sysGpio_CLAIM p then (s, .refuseLogged (refusal stPinTaken 0))
      else
        let s := ((s.put (ymxPortDsi_CMD p) (o.u8 0)).put (ymxPortDsi_TE_EN p) (o.u8 1)).put (ymxPortDsi_TE_EDGE p) (o.u8 2)
        let s := ((s.put (ymxPortDsi_TE_FAIL_LIMIT p) (o.u8 3)).put (ymxPortDsi_TE_WAIT p) (o.u16 4)).put
          (ymxPortDsirate_LANE_MBPS p) (o.u16 6)
        let s := s.put (ymxPortDsi_ERR_POLL p) (o.u8 8)
        (s.when (o.u8 1 == 1) fun s => s.modLink p fun l => { l with teHeld := true }, .answer (done 0 0)) }

/-! ### PORT_CONFIG and PORT_RETRAIN (R116, R120, R139, R140) -/

/-- What follows a change of a port's settings: a newly disabled port or one whose type changed loses its link, one whose rate
or lanes changed is trained anew (R116). -/
def State.portChanged (s : State) (p : Nat) (old : W64) : State :=
  let o := old.toNat
  let new := (s.rd (ymxPortCfg p)).toNat
  if !s.dpEnabled p then (s.untrain p).modLink p fun l => { l with plugged := false }
  else if o % 2 = 0 ∨ o / 4 % 32 ≠ new / 4 % 32 then s.startTraining p
  else s

/-- The first payload byte of PORT_CONFIG that is out of range. -/
def portFault (o : Origin) : Option Nat :=
  if 1 < o.u8 0 then some 0
  else if 3 < o.u8 1 then some 1
  else if o.u8 2 ≠ 1 ∧ o.u8 2 ≠ 2 ∧ o.u8 2 ≠ 4 then some 2
  else if 2 < o.u8 3 then some 3
  else if 3 < o.u8 4 then some 4
  else none

/-- The TYPE a PORT_CONFIG gives: ports 0 to 5 are DisplayPort. -/
def portType (o : Origin) : Nat := if o.tgt < 6 then 0 else o.u8 0

/-- PORT_CONFIG also enables its port: it carries no enable of its own (log entry 24). -/
def specPortConfig : OpSpec :=
  { opcode := 0x0412, lens := len 8, zero := fun _ => zeroMask [(5, 7)] [], modes := modesPSDT, issuer := .tenants,
    names := namesHead, owns := ownsHead, log := .logged,
    check := fun s o => match portFault o with
      | some b => some (stNoResource, 1 + b)
      | none =>
        if s.flag (headCtrl_EN o.tgt) then some (stConflict, 1)
        else if portType o ≠ s.get (ymxPortCfg_TYPE o.tgt) ∧ s.mode ≠ modeProvisioning ∧ s.mode ≠ modeTest then
          some (stMode, s.mode)
        else none,
    run := fun s o =>
      let p := o.tgt
      let old := s.rd (ymxPortCfg p)
      let s := (s.put (ymxPortCfg_EN p) 1).put (ymxPortCfg_TYPE p) (portType o)
      let s := ((s.put (ymxPortCfg_RATE p) (o.u8 1)).put (ymxPortCfg_LANES p) (o.u8 2)).put (ymxPortCfg_BPC p) (o.u8 3)
      let s := (s.put (ymxPortCfg_DITHER p) (o.u8 4 % 2)).put (ymxPortCfg_AUTO_RETRAIN p) (o.u8 4 / 2)
      (s.portChanged p old, .answer (done 0 0)) }

def specPortRetrain : OpSpec :=
  { opcode := 0x0413, lens := len 0, modes := [3, 4, 6], issuer := .tenants, names := namesHead, owns := ownsHead,
    log := .logged, run := fun s o => (s.startTraining o.tgt, .answer (done 0 0)) }

def execSinkRead (p : Packet) (s : State) : Host.Outcome State Fault Refusal := packetStep specSinkRead p s
def execDsiConfig (p : Packet) (s : State) : Host.Outcome State Fault Refusal := packetStep specDsiConfig p s
def execPortConfig (p : Packet) (s : State) : Host.Outcome State Fault Refusal := packetStep specPortConfig p s
def execPortRetrain (p : Packet) (s : State) : Host.Outcome State Fault Refusal := packetStep specPortRetrain p s

end Sys2Proof.Machine
end

