-- ==== Sys2Proof/Machine/Spare.lean ====
section
/-! DEFINITION. Engine faults, the warm spare, takeover, restore and the spare test (R131 to R136, R140). -/
namespace Sys2Proof.Machine

/-- The states of YMX_SPARE in which engine 8 serves, or is about to serve, a port. -/
def State.spareBusy (s : State) : Bool := decide (2 ≤ s.get ymxSpare_STATE ∧ s.get ymxSpare_STATE ≤ 4)

/-- YMX_SPARE.STATE and SERVING change. -/
def State.setSpare (s : State) (state serving : Nat) : State := (s.put ymxSpare_STATE state).put ymxSpare_SERVING serving

/-- The SPARE_ACTION that a takeover answers gets its reply. -/
def State.answerSpare (s : State) (a : Answer) : State :=
  match s.spare.origin with
  | some o => (s.modSpare fun x => { x with origin := none }).settle o a
  | none => s

/-- No engine serves port `p`: it shows the Ash card (R132). -/
def State.noEngine (s : State) (p : Nat) : State := (s.setEngine p 15).ashFromNext p

/-- A takeover of head `p` cannot be made, or has failed (R133, R134, R136). -/
def State.takeoverFails (s : State) (p cause : Nat) : State := (s.raise 35 (p * 256 + cause)).noEngine p

/-- A takeover of head `p` is decided (R133 step 1). -/
def State.beginTakeover (s : State) (p : Nat) (o : Option Origin) : State :=
  let nominated := s.get ymxSpare_STATE == 1 && s.get ymxSpare_NOMINATE == p
  let s := (s.raise 33 (p * 256 + p)).setSpare 2 p
  let s := s.modSpare fun x => { x with nominated := nominated, loaded := false, primed := false, origin := o }
  s.ashFromNext p

/-- A fault of engine 8 is decided: a port it serves shows the Ash card, and the spare is faulty (R134). -/
def State.spareFault (s : State) (cause : Nat) : State :=
  if s.get ymxSpare_STATE = 5 then s
  else
    let p := s.get ymxSpare_SERVING
    let busy := s.spareBusy
    let s := (s.raise 32 (8 * 256 + cause)).setSpare 5 0
    let s := s.when busy fun s => (s.noEngine p).answerSpare (refusal stNoResource 3)
    match s.spare.test with
    | some o => (s.modSpare fun x => { x with test := none }).settle o (refusal stNoResource 2)
    | none => s

/-- A fault of engine `e` is decided (R132, R134, R136). -/
def State.engineFault (s : State) (e cause : Nat) (o : Option Origin) : State :=
  if 8 ≤ e then s.spareFault cause
  else
    let s := s.raise 32 (e * 256 + cause)
    let refuse (s : State) (fail : Nat) : State :=
      let s := s.takeoverFails e fail
      match o with
      | some o => s.settle o (refusal stNoResource 3)
      | none => s
    if cause ≠ 4 ∧ s.engine e ≠ e then s
    else if s.get ymxSpare_STATE = 5 ∨ s.spare.test.isSome then refuse s 3
    else if s.spareBusy then refuse s 2
    else if cause ≠ 4 ∧ !s.flag ymxSpare_AUTO then s.noEngine e
    else s.beginTakeover e o

/-- ENGINE_DATAPATH_FAULT: cause 1 (R132). -/
def execEngineDatapathFault (engine : Fin 9) (s : State) : Host.Outcome State Fault Refusal :=
  .next (if s.displayLive then s.engineFault engine.val 1 none else s)

/-- ENGINE_TIMING_WATCHDOG: cause 2, of an engine whose head line counter should advance (R132). -/
def execEngineTimingWatchdog (engine : Fin 9) (s : State) : Host.Outcome State Fault Refusal :=
  .next (if s.displayLive then s.engineFault engine.val 2 none else s)

/-! ### Connecting an engine (R133, R135) -/

/-- Engine 8 is connected to port `p` (R133 step 4). -/
def State.connectSpare (s : State) (p : Nat) : State :=
  (((s.setEngine p 8).setSpare 4 p).raise 34 p).answerSpare (done 0 0)

/-- Engine `p` is connected to its port again; engine 8 is idle (R135). -/
def State.connectBack (s : State) (p : Nat) (o : Origin) : State :=
  let s := (s.modSpare fun x => { x with restore := none }).setEngine p p
  let s := s.when (s.spareServes p) fun s => s.setSpare 0 0
  (s.raise 36 p).settle o (done 0 0)

/-- The next frame of head `p` is the first that a newly connected engine sends (R194). -/
def State.transitNext (s : State) (p : Nat) : State := s.modHead p fun h => { h with transitNext := true }

/-- At an arm instant a takeover loads; one of a head that does not run is connected at once (R133 step 2). -/
def State.loadSpare (s : State) : State :=
  let p := s.get ymxSpare_SERVING
  if s.inTransit p then
    let s := s.modSpare fun x => { x with loaded := true }
    if s.running p then s else (s.connectSpare p).transitNext p
  else s

/-- At an arm instant a restore whose self-test has passed loads (R135 step 2). -/
def State.loadRestore (s : State) : State :=
  match s.spare.restore with
  | some (_, .test, _) | none => s
  | some (p, phase, o) =>
    if !s.running p then (s.connectBack p o).transitNext p
    else if phase = .load then s.modSpare fun x => { x with restore := some (p, .prime, o) }
    else s

/-- At an arm instant engine 8 mirrors the nominated head while that is enabled and the spare idle (R131). -/
def State.mirrorStart (s : State) : State :=
  let on := s.flag (headCtrl_EN (s.get ymxSpare_NOMINATE)) && s.spare.test.isNone
  if s.get ymxSpare_STATE = 0 && on then
    (s.put ymxSpare_STATE 1).modSpare fun x => { x with liveRun := 0, spareRun := 0 }
  else if s.get ymxSpare_STATE = 1 && !on then s.put ymxSpare_STATE 0
  else s

/-- What the spare does at a master frame start. -/
def State.spareFrameStart (s : State) : State := s.loadSpare.loadRestore.mirrorStart

/-- The takeover under way fails because the priming frame failed its check values (R133 step 5). -/
def State.primeFails (s : State) (p : Nat) : State :=
  ((s.takeoverFails p 1).setSpare 0 0).answerSpare (refusal stNoResource 3)

/-- A head frame of head `n` begins: a primed engine is connected, or the priming frame begins. Answers whether the frame is
in takeover transit and whether it is a priming frame. -/
def State.spareHeadFrame (s : State) (n : Nat) : State × Bool × Bool :=
  let first := (s.head n).transitNext
  let s := s.modHead n fun h => { h with transitNext := false }
  if s.inTransit n && s.spare.loaded then
    if s.spare.nominated || s.spare.primed then (s.connectSpare n, true, false)
    else ((s.put ymxSpare_STATE 3).modSpare fun x => { x with primed := true }, first, true)
  else match s.spare.restore with
    | some (p, .prime, o) =>
      if p = n then (s.modSpare fun x => { x with restore := some (p, .primed, o) }, first, false) else (s, first, false)
    | some (p, .primed, o) => if p = n then (s.connectBack p o, true, false) else (s, first, false)
    | _ => (s, first, false)

/-! ### Self-tests (R135, R136) -/

/-- ENGINE_BIST_COMPLETE: the self-test of an engine to be restored ends (R135 step 1). -/
def execEngineBistComplete (engine : Fin 9) (pass : Bool) (s : State) : Host.Outcome State Fault Refusal :=
  .next (match s.spare.restore with
    | some (p, .test, o) =>
      if p ≠ engine.val then s
      else if pass then s.modSpare fun x => { x with restore := some (p, .load, o) }
      else (s.modSpare fun x => { x with restore := none }).settle o (refusal stNoResource 2)
    | _ => s)

/-- SPARE_TEST_COMPLETE: engine 8's self-test ends (R136). -/
def execSpareTestComplete (pass : Bool) (s : State) : Host.Outcome State Fault Refusal :=
  .next (match s.spare.test with
    | none => s
    | some o =>
      let s := s.modSpare fun x => { x with test := none }
      if pass then (s.put ymxSpare_STATE 0).settle o (done 0 0)
      else (s.put ymxSpare_STATE 5).settle o (refusal stNoResource 2))

/-! ### Opcodes (R139, R140) -/

/-- NOMINATE has changed: mirroring stops, and the new head is mirrored from the next arm instant (R131). -/
def State.renominate (s : State) (old : Nat) : State :=
  if s.get ymxSpare_STATE = 1 ∧ s.get ymxSpare_NOMINATE ≠ old then s.put ymxSpare_STATE 0 else s

def specSpareSet : OpSpec :=
  { opcode := 0x0418, lens := len 8, zero := fun _ => zeroMask [(2, 7)] [], modes := modesPSD, issuer := .tenants,
    names := fun t => t == 8, owns := fun _ _ _ => false, log := .logged,
    check := fun _ o => if 7 < o.u8 0 then some (stNoResource, 1) else if 1 < o.u8 1 then some (stNoResource, 2) else none,
    run := fun s o =>
      let old := s.get ymxSpare_NOMINATE
      (((s.put ymxSpare_NOMINATE (o.u8 0)).put ymxSpare_AUTO (o.u8 1)).renominate old, .answer (done 0 0)) }

/-- The checks of SPARE_ACTION (R136, R140). -/
def spareActionCheck (s : State) (o : Origin) : Option (Nat × Nat) :=
  let act := o.u8 0
  if act = 0 ∨ 3 < act then some (stNoResource, 1)
  else if act ≠ 3 ∧ 7 < o.u8 1 then some (stNoResource, 2)
  else if act = 1 then (if s.spareBusy then some (stConflict, 1) else none)
  else if act = 2 then (if s.spareServes (o.u8 1) && s.spare.restore.isNone then none else some (stConflict, 2))
  else if s.spareBusy || s.spare.test.isSome then some (stConflict, 1)
  else none

/-- SPARE_ACTION at work: takeover, restore or spare test; each is answered when it ends. -/
def spareActionRun (s : State) (o : Origin) : State × Effect :=
  match o.u8 0 with
  | 2 => (s.modSpare fun x => { x with restore := some (o.u8 1, .test, o) }, .later)
  | 3 => ((s.when (s.get ymxSpare_STATE == 1) fun s => s.put ymxSpare_STATE 0).modSpare fun x => { x with test := some o }, .later)
  | _ =>
    if s.get ymxSpare_STATE = 5 ∨ s.spare.test.isSome then
      ((s.raise 32 (o.u8 1 * 256 + 4)).takeoverFails (o.u8 1) 3, .answer (refusal stNoResource 3))
    else (s.engineFault (o.u8 1) 4 (some o), .later)

def specSpareAction : OpSpec :=
  { opcode := 0x0419, lens := len 8, zero := fun _ => zeroMask [(2, 7)] [], modes := [3, 4], issuer := .tenants,
    names := fun t => t == 8, owns := fun _ _ _ => false, log := .logged, check := spareActionCheck, run := spareActionRun }

def execSpareSet (p : Packet) (s : State) : Host.Outcome State Fault Refusal := packetStep specSpareSet p s
/-- SPARE_TAKEOVER: the packet SPARE_ACTION with action 1. -/
def execSpareTakeover (p : Packet) (s : State) : Host.Outcome State Fault Refusal := packetStep specSpareAction p s
/-- SPARE_RESTORE: the packet SPARE_ACTION with action 2. -/
def execSpareRestore (p : Packet) (s : State) : Host.Outcome State Fault Refusal := packetStep specSpareAction p s
/-- SPARE_TEST: the packet SPARE_ACTION with action 3. -/
def execSpareTest (p : Packet) (s : State) : Host.Outcome State Fault Refusal := packetStep specSpareAction p s

end Sys2Proof.Machine
end

