-- ==== Sys2Proof/Machine/Integ.lean ====
section
/-! DEFINITION. Freshness and integrity: the Mirage Guard (R179 to R185), the C0 check (R189, R190), verdicts (R194 to R200),
the Ash hold (R201), read-back self-tests (R197), the sink opinion (R198), and the opcodes of R206. -/
namespace Sys2Proof.Machine

/-! ### The Mirage Guard (R181 to R184) -/

/-- The first scanned line of a layer of head `n`: DST_Y, or in DSI command mode the head line that transmits it (R181). -/
def State.firstLine (s : State) (n : Nat) (l : Layer) : Nat := l.dy + (s.head n).xfer.getD 0

/-- Whether pipe `m` is to be evaluated in the current frame: an enabled C1 layer, not evaluated yet (R181, R182). -/
def State.guarded (s : State) (m : Nat) : Bool :=
  s.layerShown m && s.flag ((layerGuard_CLASS m).shift scanPipe) && !(s.pipe m).evaluated && s.power.warm.isNone

/-- The age of the content at an instant and the cause for which it is stale, 0 when fresh (R181). -/
def State.ageOf (s : State) (m : Nat) (e : Stamp) : Nat × Nat :=
  let ct := s.grains (stampOf (s.rd ((layerCtime m).shift scanPipe)))
  let age := min ((s.grains e - ct) / 32) 0xFFFFFF
  if (s.pipe m).rasterGen ≠ s.get wallStatus_RASTER_GEN then (0xFFFFFF, 3)
  else if s.grains e < ct then (0xFFFFFF, 2)
  else if s.get ((layerBudget_BUDGET m).shift scanPipe) < age then (age, 1)
  else (age, 0)

/-- The layer of pipe `m` is evaluated (R181, R184). -/
def State.evaluate (s : State) (m : Nat) : State :=
  if !s.guarded m then s
  else
    let l := s.layer m scanPipe
    let e := s.lineStamp l.head (s.head l.head).frame (s.firstLine l.head l)
    let (age, cause) := s.ageOf m e
    let s := ((s.put (integAge_AGE m) age).putBit (integAge_STALE m) (cause != 0)).put (integAge_CAUSE m) cause
    let was := (s.pipe m).stale
    let s := s.modPipe m fun p => { p with evaluated := true, stale := cause != 0, hatched := cause != 0 }
    if cause ≠ 0 then
      let s := (s.put (integVstate_STALE l.head) 1).modFrame l.head fun f => { f with stale := true }
      if was then s else s.raise 64 (m * 256 + cause)
    else if was then s.raise 65 m
    else s

/-! ### Ash holds (R190, R201) -/

/-- Head `n` enters an Ash hold: 1 for a plane, 2 for a rectangle. -/
def State.startHold (s : State) (n kind event unit : Nat) : State :=
  let s := s.modHead n fun h => { h with resuming := false, matchRuns := [0, 0], holdPlane := unit }
  ((s.put (integVstate_HOLD n) kind).raise event (n * 256 + unit)).ashFromNext n

/-- An Ash hold of head `n` ends: the picture returns with the next head frame. -/
def State.endHold (s : State) (n : Nat) : State :=
  (s.put (integVstate_HOLD n) 0).modHead n fun h => { h with resuming := true }

/-- A head frame begins after a hold has ended: the composed picture returns (R201, R207). -/
def State.pictureReturns (s : State) (n : Nat) : State :=
  if (s.head n).resuming then
    let waiting := (s.head n).resumers
    let s := (s.modHead n fun h => { h with resuming := false, resumers := [] }).raise 72 n
    s.each waiting fun s o => s.settle o (done 0 0)
  else s

/-! ### The C0 check (R189, R190) -/

/-- The field that counts a plane's failures. -/
def c0Run (n p : Nat) : RF := if p = 0 then integVstate_C0_RUN0 n else integVstate_C0_RUN1 n

/-- Whether plane `p` of head `n` is enabled in the current frame and not yet checked in it. -/
def State.c0Due (s : State) (n p : Nat) : Bool :=
  s.running n && (s.plane n p scanWin).en && ((s.head n).frame.planes.getD p none).isNone && s.power.warm.isNone

/-- The check of plane `p` completes; `err` is what a fault on the way changed in its CRC (R189, R190, R201). -/
def State.c0Check (s : State) (n p : Nat) (err : Nat) : State :=
  if !s.c0Due n p then s
  else
    let crc := s.planeCrc n p ^^^ err
    let ok := crc == s.get ((integEmbExp_EXPECT n p).shift scanWin)
    let s := (s.put (integEmbGot_CRC n p) crc).modFrame n fun f => { f with planes := f.planes.set p (some ok) }
    if ok then
      let s := (s.put (c0Run n p) 0).modHead n fun h => { h with matchRuns := modAt h.matchRuns p (· + 1) }
      if s.get (integVstate_HOLD n) = 1 ∧ (s.head n).holdPlane = p ∧ 4 ≤ (s.head n).matchRuns.getD p 0
          ∧ s.flag ((integCfg_AUTO_RESUME n).shift scanWin) then s.endHold n
      else s
    else
      let s := (s.bump (c0Run n p)).modHead n fun h => { h with matchRuns := h.matchRuns.set p 0 }
      let s := s.raise 69 (n * 256 + p)
      if 2 ≤ s.get (c0Run n p) ∧ s.get (integVstate_HOLD n) = 0 then s.startHold n 1 70 p else s

/-! ### Verdicts and the supervisor (R199, R200, R466, R469) -/

/-- Whether every verdict of every supervised head in this master frame has been made and is 1. -/
def State.frameClean (s : State) : Bool :=
  (List.range 8).all fun n => !s.bit integVerified_SUPERVISED n ||
    (let v := s.supv.frameVerdicts.getD n (0, true)
     v.2 && decide ((s.head n).tm.k ≤ v.1))

/-- The supervisor receives a verdict (R466). -/
def State.superviseVerdict (s : State) (n : Nat) (ok : Bool) : State :=
  let s := s.modSupv fun v => { v with frameVerdicts := modAt v.frameVerdicts n fun x => (x.1 + 1, x.2 && ok) }
  if !s.bit integVerified_SUPERVISED n then s
  else if !ok then s.modSupv fun v => { v with stopA := true, cleanFrames := 0 }
  else if !s.supv.cleanNow && s.frameClean then
    s.modSupv fun v => { v with cleanNow := true, cleanFrames := v.cleanFrames + 1 }
  else s

/-- What the supervisor does at a master frame start: the frame that ends is counted for each supervised head that runs
(R469), and verdicts are collected anew; a raster seen again ends a stall (R462). -/
def State.supvFrameStart (s : State) : State :=
  let s := s.when (s.supervised && (s.mode == modeService || s.mode == modeDegraded)) fun s =>
    s.each ((List.range 8).filter fun n => s.bit integVerified_SUPERVISED n && s.running n) fun s n =>
      let v := s.supv.frameVerdicts.getD n (0, true)
      let good := if v.1 = 0 then s.headVerified n else v.2
      s.bump (if good then supvAvail_VER n else supvAvail_UNVER n)
  let s := s.modSupv fun v => { v with
    cleanFrames := if v.cleanNow then v.cleanFrames else 0, cleanNow := false, frameVerdicts := List.replicate 8 (0, true) }
  s.put supvStatus_STALL 0

/-- The first of the given rectangles as an event of a head. -/
def State.raiseFirst (s : State) (n event : Nat) (l : List Nat) : State :=
  match l with
  | r :: _ => s.raise event (n * 256 + r)
  | [] => s

/-- The results of one rectangle in a frame: whether it counts as seen at all, its CRC at the pins and at the tap, and its
result codes there: 0 not compared, 1 match, 2 mismatch, 3 hatched (R195, R196). -/
structure RectResult where
  seen : Bool
  pin : Nat
  tap : Nat
  pinRes : Nat
  tapRes : Nat
  deriving DecidableEq, Repr

/-- Rectangle `r` is judged: `pinErr` and `tapErr` are what faults on the way to the contacts and in the tap changed in its
CRC. -/
def judgeRect (covered : Bool) (x : RectSeen) (pinErr tapErr : Nat) : RectResult :=
  if !x.on || covered then ⟨false, 0, 0, 0, 0⟩
  else if x.hatched then ⟨true, x.crc ^^^ pinErr, x.crc ^^^ tapErr, 3, 3⟩
  else ⟨true, x.crc ^^^ pinErr, x.crc ^^^ tapErr, if x.crc ^^^ pinErr = x.expected then 1 else 2,
    if x.crc ^^^ tapErr = x.expected then 1 else 2⟩

/-- The result of a rectangle on the path in use: 1 pin, 2 tap, 0 none; hatched whatever the path. -/
def RectResult.onPath (r : RectResult) (path : Nat) : Nat :=
  if r.tapRes = 3 then 3 else match path with
    | 1 => r.pinRes
    | 2 => r.tapRes
    | _ => 0

/-- The rectangles that show an outcome. -/
def which (l : List RectResult) (test : RectResult → Bool) : List Nat :=
  (List.range l.length).filter fun i => match l[i]? with
    | some r => test r
    | none => false

/-- The lowest reason code for which a head frame is not verified, 0 for none (R199). -/
def verdictReason (f : FrameFacts) (rects : List RectResult) (path : Nat) : Nat :=
  let on := rects.map (·.onPath path)
  if f.stale then 1
  else if f.planes.any (· == some false) then 2
  else if on.any (· == 2) then 3
  else if f.covered then 4
  else if f.planes.all (·.isNone) && !(on.any fun c => c == 1 || c == 2) then 5
  else if path = 0 then 6
  else if f.off then 7
  else if f.cut then 8
  else 0

/-- A frame's verdict is recorded (R199). -/
def State.recordVerdict (s : State) (n reason : Nat) : State :=
  let ok := reason == 0
  let was := s.flag (integVstate_VERIFIED n)
  let s := (s.putBit (integVstate_VERIFIED n) ok).putBitAt integVerified_VERIFIED n ok
  let s := s.bump (if ok then integVcnt_COUNT n else integUcnt_COUNT n)
  let s := s.when (!ok) fun s => s.put (integVstate_REASON n) reason
  let s := if ok && !was then s.raise 73 n else if !ok && was then s.raise 74 (n * 256 + reason) else s
  s.superviseVerdict n ok

/-- The result registers of a frame (R194). -/
def State.recordResults (s : State) (n : Nat) (rects : List RectResult) (pinOk : Bool) : State :=
  let word (f : RectResult → Nat) : Nat := ((List.range rects.length).map fun i => match rects[i]? with
    | some r => f r * 4 ^ i
    | none => 0).sum
  let s := (s.wr (integResPin n) (BitVec.ofNat 64 (if pinOk then word (·.pinRes) else 0))).wr (integResTap n)
    (BitVec.ofNat 64 (word (·.tapRes)))
  s.each (which rects (·.seen)) fun s i => match rects[i]? with
    | some r =>
      let s := s.put (integRectGot_TAP n i) r.tap
      if pinOk then s.put (integRectGot_PIN n i) r.pin else s
    | none => s

/-- The outcome events of a frame, each with the lowest rectangle that shows it (R195). -/
def State.outcomeEvents (s : State) (n path : Nat) (rects : List RectResult) : State :=
  match path with
  | 1 =>
    let s := s.raiseFirst n 66 (which rects fun r => r.pinRes == 2 && r.tapRes == 2)
    let s := s.raiseFirst n 67 (which rects fun r => r.pinRes == 2 && r.tapRes == 1)
    s.raiseFirst n 68 (which rects fun r => r.pinRes == 1 && r.tapRes == 2)
  | 2 => s.raiseFirst n 66 (which rects fun r => r.tapRes == 2)
  | _ => s

/-- The runs of mismatches of each rectangle advance; a second consecutive one of an escalating rectangle starts a hold
(R201). -/
def State.escalate (s : State) (n path : Nat) (rects : List RectResult) : State :=
  let bad := which rects fun r => r.onPath path == 2
  let s := s.modHead n fun h => { h with
    rectRuns := (List.range 16).map fun r => if bad.contains r then h.rectRuns.getD r 0 + 1 else 0 }
  if s.get (integVstate_HOLD n) ≠ 0 then s
  else
    match bad.find? fun r => decide (2 ≤ (s.head n).rectRuns.getD r 0) && s.flag ((integRectCtrl_ESCALATE n r).shift scanWin) with
    | some r => s.startHold n 2 71 r
    | none => s

/-- Engine 8's check values beside the live engine's while it mirrors head `n` (R131, R132). -/
def State.mirrorVerdict (s : State) (n : Nat) (rects : List RectResult) (seen : List RectSeen) (spareErr : List Nat) : State :=
  if s.get ymxSpare_STATE ≠ 1 ∨ s.get ymxSpare_NOMINATE ≠ n then s
  else
    let live := rects.any fun r => r.tapRes == 2
    let spare := (List.range rects.length).any fun i => match rects[i]?, seen[i]? with
      | some r, some x => (r.tapRes == 1 || r.tapRes == 2) && (x.crc ^^^ spareErr.getD i 0) != x.expected
      | _, _ => false
    let s := s.modSpare fun x => { x with
      liveRun := if live && !spare then x.liveRun + 1 else 0, spareRun := if spare && !live then x.spareRun + 1 else 0 }
    if 2 ≤ s.spare.liveRun then (s.modSpare fun x => { x with liveRun := 0 }).engineFault n 3 none
    else if 2 ≤ s.spare.spareRun then
      ((s.modSpare fun x => { x with spareRun := 0 }).setSpare 5 0).raise 37 n
    else s

/-- Whether the priming frame passes its check values at engine 8's tap (R133). -/
def State.primePasses (s : State) (n : Nat) (f : FrameFacts) (spareErr : List Nat) : Bool :=
  let seen := s.seePrimed n f
  !(f.planes.any (· == some false)) && (f.show_ != 0 || (List.range 16).all fun r => match seen[r]? with
    | some x => !x.on || x.hatched || (x.crc ^^^ spareErr.getD r 0) == x.expected
    | none => true)

/-- Whether the receiver of port `n` gives results in a frame (R194). -/
def State.pinWorks (s : State) (n : Nat) (f : FrameFacts) (lost : Bool) : Bool :=
  !s.flag (ymxPortCfg_TYPE n) && s.flag (ymxPortStatus_TRAINED n) && !f.testing && !s.bit integRbStatus_FAIL n && !lost

/-- The verdict of a frame of head `n`, measured as `seen` (R195 to R201). -/
def State.verdictOf (s : State) (n : Nat) (f : FrameFacts) (seen : List RectSeen × Nat) (pin tap spare : List Nat)
    (lost : Bool) : State :=
  let path := if lost then 0 else f.path
  let rects := (List.range 16).map fun r =>
    judgeRect f.covered (seen.1.getD r ⟨false, false, 0, 0⟩) (pin.getD r 0) (tap.getD r 0)
  let s := s.recordResults n rects (s.pinWorks n f lost)
  let s := s.put (integFrameCrc_CRC n) (seen.2 ^^^ (if path = 1 then pin.getD 16 0 else tap.getD 16 0))
  let s := (s.outcomeEvents n path rects).escalate n path rects
  let s := s.recordVerdict n (verdictReason f rects path)
  s.mirrorVerdict n rects seen.1 spare

/-- C0 checks of the current frame that no command completed are made now (R189). -/
def State.c0Finish (s : State) (n : Nat) : State := (s.c0Check n 0 0).c0Check n 1 0

/-- The verdict of head `n` is made: of the frame before when that is still open, else of the current one. `pin`, `tap` and
`spare` are what faults changed in the CRCs of rectangles 0 to 15, and at index 16 of the frame CRC; `lost` says that the path
in use gave no result (R199). No verdict is made in a warm reset (R204). -/
def State.headVerdict (s : State) (n : Nat) (pin tap spare : List Nat) (lost : Bool) : State :=
  if !s.running n || s.power.warm.isSome then s
  else match (s.head n).last with
    | some f =>
      let s := s.modHead n fun h => { h with last := none }
      s.verdictOf n f (f.seen.getD ([], 0)) pin tap spare lost
    | none =>
      if (s.head n).frame.judged then s
      else
        let s := s.c0Finish n
        let f := (s.head n).frame
        let seen := s.measure n f
        let fails := f.prime && s.inTransit n && !s.primePasses n f spare
        let s := s.modFrame n fun f => { f with judged := true, seen := some seen }
        let s := s.verdictOf n f seen pin tap spare lost
        if fails then s.primeFails n else s

/-! ### Frames of a head: path in use, self-tests (R194, R197) -/

/-- The path in use of a head frame that begins: 1 pin, 2 tap, 0 none (R194). -/
def State.pathInUse (s : State) (n : Nat) (testing transit : Bool) : Nat :=
  if s.flag (ymxPortCfg_TYPE n) then 2
  else if !s.flag (ymxPortStatus_TRAINED n) then 0
  else if testing || s.bit integRbStatus_FAIL n || transit then 2
  else 1

/-- Whether a receiver self-test due is made in a head frame that begins (R197). -/
def State.testsNow (s : State) (n : Nat) (transit : Bool) : Bool :=
  (s.link n).rbDue && !s.flag (ymxPortCfg_TYPE n) && s.flag (ymxPortStatus_TRAINED n) && !transit

/-- RB_SELFTEST_DUE: the period since the last test of a receiver, or the second since its failure, has passed (R197). -/
def execRbSelftestDue (port : Fin 8) (s : State) : Host.Outcome State Fault Refusal :=
  .next (if s.dpEnabled port.val && s.flag (ymxPortStatus_TRAINED port.val) then
    s.modLink port.val fun l => { l with rbDue := true }
  else s)

/-- RB_SELFTEST_COMPLETE: a receiver's test frame ends in a pass or a fail (R197, R207). -/
def execRbSelftestComplete (port : Fin 8) (pass : Bool) (s : State) : Host.Outcome State Fault Refusal :=
  .next (
    let p := port.val
    if !s.bit integRbStatus_TESTING p then s
    else
      let failed := s.bit integRbStatus_FAIL p
      let s := (s.putBitAt integRbStatus_TESTING p false).putBitAt integRbStatus_FAIL p (!pass)
      let s := s.putBit (integVstate_RB_FAIL p) (!pass)
      let s := if !pass then s.raise 75 p else if failed then s.raise 76 p else s
      let waiting := (s.link p).rbWaiters
      (s.modLink p fun l => { l with rbWaiters := [] }).each waiting fun s o =>
        s.settle o ⟨stDone, if pass then 0 else 1, 0, 0⟩)

/-- Planes disabled in the frame that begins restart their runs (R190). -/
def State.c0FrameStart (s : State) (n : Nat) : State :=
  s.each [0, 1] fun s p =>
    if (s.plane n p scanWin).en then s
    else (s.put (c0Run n p) 0).modHead n fun h => { h with matchRuns := h.matchRuns.set p 0 }

/-! ### The sink's opinion (R198) -/

/-- Whether the sink's opinion is asked for on head `n`. -/
def State.sinkAsked (s : State) (n : Nat) : Bool :=
  s.running n && s.flag ((integCfg_SINK_EN n).shift scanWin) && !s.flag (ymxPortCfg_TYPE n) && s.flag (ymxPortStatus_TRAINED n)

/-- A head frame begins: the frames since the last sample are counted, and the frame CRC of the frame before is kept. -/
def State.sinkFrameStart (s : State) (n : Nat) (judged : Bool) : State :=
  let prev := if judged then some (s.get (integFrameCrc_CRC n)) else none
  let asked := s.sinkAsked n
  s.modHead n fun h => { h with
    prevCrc := prev, sinceSample := if asked then h.sinceSample + 1 else 0,
    sinkCrcs := if asked then h.sinkCrcs else none, sample := if asked then h.sample else none }

/-- A sample of the sink's CRCs is taken and, if steady, compared with the steady sample before it (R198). -/
def State.sinkSample (s : State) (n : Nat) (crc : W64) : State :=
  let s := (s.wr (integSinkCrc n) crc).modHead n fun h => { h with sinceSample := 0 }
  let f := (s.head n).frame
  let frame := if f.judged then s.get (integFrameCrc_CRC n) else (s.measure n f).2
  if (s.head n).prevCrc ≠ some frame then s
  else
    let before := (s.head n).sample
    let s := s.modHead n fun h => { h with sample := some (frame, crc) }
    match before with
    | some (f0, c0) =>
      if f0 = frame ∧ c0 ≠ crc then s.raise 77 (n * 256 + 1)
      else if f0 ≠ frame ∧ c0 = crc then s.raise 77 (n * 256 + 2)
      else s
    | none => s

/-- SINK_CRC_SAMPLE: the sink is asked whether it supports test CRCs, and every SINK_EVERY head frames for them. `ok` says
whether the AUX read succeeded (R198). -/
def execSinkCrcSample (head : Fin 8) (supported ok : Bool) (crc : BitVec 48) (s : State) :
    Host.Outcome State Fault Refusal :=
  .next (
    let n := head.val
    if !s.sinkAsked n || s.power.warm.isSome || (s.head n).sinkCrcs == some false then s
    else if (s.head n).sinkCrcs == none && !supported then
      (s.modHead n fun h => { h with sinkCrcs := some false }).raise 78 n
    else
      let s := s.modHead n fun h => { h with sinkCrcs := some true }
      if !ok || decide ((s.head n).sinceSample < s.get ((integCfg_SINK_EVERY n).shift scanWin)) then s
      else s.sinkSample n (crc.setWidth 64))

/-! ### The check at the latch (R205) -/

/-- The Ember store range granted to the tenant of a head: its first byte and length; the whole store where no tenant holds
the head (R186, log entry 25). -/
def State.emberGrant (s : State) (n : Nat) : Nat × Nat :=
  match (s.headOwner n).bind s.tenant with
  | some t => (t.emberBase, t.emberBytes)
  | none => (0, 0x800000)

/-- The bytes of the Ember store that a plane's bitmap spans. -/
def Plane.span (q : Plane) : Nat := (q.h - 1) * q.stride + q.w

/-- The EMBER_SET payload offset of the first field of an enabled plane that breaks R186. -/
def State.planeFault (s : State) (n : Nat) (q : Plane) : Option Nat :=
  let tm := s.timing n
  let g := s.emberGrant n
  if q.scale < 1 ∨ 3 < q.scale then some 2
  else if q.stride < 64 ∨ 1024 < q.stride ∨ q.stride < q.w then some 3
  else if q.off < g.1 ∨ g.1 + g.2 < q.off + q.span then some 4
  else if tm.hactive < q.x + q.w * q.scale then some 8
  else if tm.vactive < q.y + q.h * q.scale then some 10
  else if q.w < 1 ∨ 1024 < q.w then some 12
  else if q.h < 1 ∨ 512 < q.h then some 14
  else none

/-- Whether a rectangle breaks R191. -/
def State.rectBad (s : State) (n x y w h : Nat) : Bool :=
  let tm := s.timing n
  decide (w < 1 ∨ h < 1 ∨ tm.hactive < x + w ∨ tm.vactive < y + h)

/-- The planes that the tenant of head `n` has enabled over all its heads, in the bank at distance `b`, and its grant. -/
def State.planesOver (s : State) (n b : Nat) : Bool :=
  match (s.headOwner n).bind s.tenant with
  | some t => decide (t.embers < (t.heads.map fun m => ([0, 1].filter fun p => s.flag ((integEmbCtrl_EN m p).shift b)).length).sum)
  | none => false

/-- The new active rectangles and planes of head `n` are checked; one that fails is disabled and reported (R205). -/
def State.checkInteg (s : State) (n : Nat) : State :=
  let s := s.each (List.range 16) fun s r =>
    let g (f : RF) : Nat := s.get (f.shift actWin)
    if g (integRectCtrl_EN n r) = 1 && s.rectBad n (g (integRectPos_X_W n r)) (g (integRectPos_Y_H n r))
        (g (integRectSize_X_W n r)) (g (integRectSize_Y_H n r)) then
      (s.put ((integRectCtrl_EN n r).shift actWin) 0).raise 79 (n * 256 + r)
    else s
  let s := s.each [1, 0] fun s p =>
    let q := s.plane n p actWin
    if q.en && ((s.planeFault n q).isSome || s.planesOver n actWin) then
      (s.put ((integEmbCtrl_EN n p).shift actWin) 0).raise 79 (n * 256 + 16 + p)
    else s
  s.putBitAt integVerified_SUPERVISED n (s.flag ((integCfg_SUPERVISED n).shift actWin))

/-! ### Opcodes on pipes: GUARD_SET, FRESH_TIME, AGE_QUERY (R206, R207) -/

def specGuardSet : OpSpec :=
  { opcode := 0x0601, lens := len 8, zero := fun _ => zeroMask [(1, 3)] [], modes := modesPSDT, issuer := .tenants,
    member := .capable, names := namesPipe, owns := ownsPipe, log := .logged,
    check := fun _ o => if 1 < o.u8 0 then some (stNoResource, 1)
      else if o.u32 4 = 0 ∨ 0xFFFFFF < o.u32 4 then some (stNoResource, 5) else none,
    land := fun s o => (s.put (layerGuard_CLASS o.tgt) (o.u8 0)).put (layerBudget_BUDGET o.tgt) (o.u32 4),
    heads := pipeHeads }

/-- The commit stamp of the caravan a member belongs to (R97). -/
def State.commitStamp (s : State) (o : Origin) : Stamp :=
  match s.pkt.caravans.find? fun c => c.members.contains o with
  | some c => c.commit
  | none => s.now

def specFreshTime : OpSpec :=
  { opcode := 0x0602, lens := len 8, modes := modesPSDT, issuer := .tenants, member := .capable, names := namesPipe,
    owns := ownsPipe, log := .flip 1,
    check := fun s o => if (s.compBound o.tgt).isSome then some (stConflict, 6)
      else if (s.commitStamp o).lt (stampOf (BitVec.ofNat 64 (o.u64 0))) then some (stNoResource, 1) else none,
    land := fun s o => s.wr (layerCtime o.tgt) (BitVec.ofNat 64 (o.u64 0)), heads := pipeHeads }

def specAgeQuery : OpSpec :=
  { opcode := 0x060E, lens := len 0, modes := allModes, issuer := .tenants, query := true, names := namesPipe,
    owns := ownsPipe,
    run := fun s o => (s, .answer (done (s.rd (integAge o.tgt)).toNat (s.rd ((layerCtime o.tgt).shift actPipe)).toNat)) }

/-! ### Opcodes on heads -/

/-- The checks of RECT_SET; placement binds an enabled rectangle (R191, R207). -/
def rectSetFault (s : State) (o : Origin) : Option Nat :=
  let tm := s.timing o.tgt
  let on := o.u8 1 % 2 = 1
  if 15 < o.u8 0 then some 0
  else if 7 < o.u8 1 then some 1
  else if on ∧ tm.hactive < o.u16 4 + o.u16 8 then some 4
  else if on ∧ tm.vactive < o.u16 6 + o.u16 10 then some 6
  else if on ∧ o.u16 8 = 0 then some 8
  else if on ∧ o.u16 10 = 0 then some 10
  else none

def specRectSet : OpSpec :=
  { opcode := 0x0603, lens := len 16, zero := fun _ => zeroMask [(2, 3), (12, 15)] [], modes := modesPSDBT,
    issuer := .tenants, member := .capable, names := namesHead, owns := ownsHead, log := .logged,
    check := fun s o => (rectSetFault s o).map fun b => (stNoResource, 1 + b),
    land := fun s o =>
      let s := s.wr (integRectPos o.tgt (o.u8 0)) (BitVec.ofNat 64 (o.u32 4))
      (s.wr (integRectSize o.tgt (o.u8 0)) (BitVec.ofNat 64 (o.u32 8))).wr (integRectCtrl o.tgt (o.u8 0)) (BitVec.ofNat 64 (o.u8 1)),
    heads := fun _ o => [o.tgt] }

/-- A payload length rounded up to a multiple of 8. -/
def pad8 (n : Nat) : Nat := (n + 7) / 8 * 8

def specRectExpect : OpSpec :=
  { opcode := 0x0604, lens := fun b => [8 + pad8 (4 * leAt b 1 1)],
    zero := fun b => zeroMask [(3, 7), (8 + 4 * leAt b 1 1, 8 + pad8 (4 * leAt b 1 1))] [], modes := modesPSDBT,
    issuer := .tenants, member := .capable, names := namesHead, owns := ownsHead, log := .flip 1,
    check := fun _ o =>
      if o.u8 1 = 0 ∨ 16 < o.u8 1 then some (stNoResource, 2)
      else if 1 < o.u8 2 then some (stNoResource, 3)
      else if 16 < o.u8 0 + o.u8 1 then some (stNoResource, 1) else none,
    land := fun s o => s.each (List.range (o.u8 1)) fun s i =>
      let r := o.u8 0 + i
      s.put (if o.u8 2 = 1 then integRectExpB_EXPECT o.tgt r else integRectExp_EXPECT o.tgt r) (o.u32 (8 + 4 * i)),
    heads := fun _ o => [o.tgt] }

/-- The plane an EMBER_SET describes. -/
def State.payloadPlane (s : State) (o : Origin) : Plane :=
  { en := o.u8 1 == 1, scale := o.u8 2, off := (s.emberGrant o.tgt).1 + o.u32 4, stride := o.u8 3 * 64, x := o.u16 8,
    y := o.u16 10, w := o.u16 12, h := o.u16 14 }

/-- The shadow of a plane takes the settings of an EMBER_SET. -/
def State.landEmberSet (s : State) (o : Origin) : State :=
  let n := o.tgt
  let p := o.u8 0
  let q := s.payloadPlane o
  let s := (s.putBit (integEmbCtrl_EN n p) q.en).put (integEmbCtrl_SCALE n p) q.scale
  let s := (s.put (integEmbBase_OFFSET n p) (q.off / 64)).put (integEmbBase_STRIDE n p) (o.u8 3)
  (s.wr (integEmbPos n p) (BitVec.ofNat 64 (o.u32 8))).wr (integEmbSize n p) (BitVec.ofNat 64 (o.u32 12))

/-- The checks of EMBER_SET; placement binds an enabled plane (R186, R206, R207). -/
def emberSetCheck (s : State) (o : Origin) : Option (Nat × Nat) :=
  let q := s.payloadPlane o
  if 1 < o.u8 0 then some (stNoResource, 1)
  else if 1 < o.u8 1 then some (stNoResource, 2)
  else if o.u8 2 = 0 ∨ 3 < o.u8 2 then some (stNoResource, 3)
  else if o.u8 3 = 0 ∨ 16 < o.u8 3 then some (stNoResource, 4)
  else if o.u32 4 % 64 ≠ 0 ∨ 0x800000 ≤ q.off then some (stNoResource, 5)
  else match (if q.en then s.planeFault o.tgt q else none) with
    | some b => some (stNoResource, 1 + b)
    | none => if q.en && (s.landEmberSet o).planesOver o.tgt 0 then some (stNoResource, 0xF9) else none

def specEmberSet : OpSpec :=
  { opcode := 0x0605, lens := len 16, modes := modesPSDBT, issuer := .tenants, member := .capable, names := namesHead,
    owns := ownsHead, log := .logged, check := emberSetCheck, land := State.landEmberSet, heads := fun _ o => [o.tgt] }

def specEmberPalette : OpSpec :=
  { opcode := 0x0606, lens := fun b => [8 + 4 * leAt b 4 2], zero := fun _ => zeroMask [(1, 1), (6, 7)] [],
    modes := modesPSDBT, issuer := .tenants, member := .capable, names := namesHead, owns := ownsHead, log := .logged,
    check := fun _ o =>
      if 1 < o.u8 0 then some (stNoResource, 1)
      else if o.u16 4 < 2 ∨ 256 < o.u16 4 ∨ o.u16 4 % 2 = 1 then some (stNoResource, 5)
      else if 256 < o.u16 2 + o.u16 4 then some (stNoResource, 3) else none,
    land := fun s o => s.each (List.range (o.u16 4)) fun s i =>
      s.wr (integEmbPal o.tgt (o.u8 0) (o.u16 2 + i)) (BitVec.ofNat 64 (o.u32 (8 + 4 * i))),
    heads := fun _ o => [o.tgt] }

def specEmberExpect : OpSpec :=
  { opcode := 0x0607, lens := len 8, zero := fun _ => zeroMask [(1, 3)] [], modes := modesPSDBT, issuer := .tenants,
    member := .capable, names := namesHead, owns := ownsHead, log := .flip 1,
    check := fun _ o => if 1 < o.u8 0 then some (stNoResource, 1) else none,
    land := fun s o => s.put (integEmbExp_EXPECT o.tgt (o.u8 0)) (o.u32 4), heads := fun _ o => [o.tgt] }

/-- The first payload byte of INTEG_CFG that is out of range. -/
def integCfgFault (o : Origin) : Option Nat :=
  if 7 < o.u8 0 then some 0
  else if o.u8 1 = 0 then some 1
  else if 63 < o.u8 7 then some 7
  else if 1023 < o.u16 8 then some 8
  else none

def specIntegCfg : OpSpec :=
  { opcode := 0x060A, lens := len 16, zero := fun _ => zeroMask [(2, 3), (10, 15)] [], modes := modesPSDBT,
    issuer := .tenants, member := .capable, names := namesHead, owns := ownsHead, log := .logged,
    check := fun _ o => (integCfgFault o).map fun b => (stNoResource, 1 + b),
    land := fun s o =>
      let s := s.wr (integCfg o.tgt) (BitVec.ofNat 64 (o.u8 0 + 256 * o.u8 1))
      (s.wr (integHatch o.tgt) (BitVec.ofNat 64 (o.u32 4))).put (integHatchA_ALPHA o.tgt) (o.u16 8),
    heads := fun _ o => [o.tgt] }

def specIntegResume : OpSpec :=
  { opcode := 0x060B, lens := len 0, modes := [3, 4, 5, 6], issuer := .tenants, names := namesHead, owns := ownsHead,
    log := .logged,
    run := fun s o =>
      let wait (s : State) : State × Effect := (s.modHead o.tgt fun h => { h with resumers := h.resumers ++ [o] }, .later)
      if s.flag (integVstate_HOLD o.tgt) then wait (s.endHold o.tgt)
      else if (s.head o.tgt).resuming then wait s
      else (s, .answer (done 0 0)) }

def specRbSelftest : OpSpec :=
  { opcode := 0x060C, lens := len 0, modes := [3, 4, 5, 6], issuer := .tenants, names := namesHead, owns := ownsHead,
    log := .logged,
    check := fun s o => if s.flag (ymxPortCfg_TYPE o.tgt) then some (stNoResource, 2) else none,
    run := fun s o => (s.modLink o.tgt fun l => { l with rbDue := true, rbWaiters := l.rbWaiters ++ [o] }, .later) }

def specIntegQuery : OpSpec :=
  { opcode := 0x060D, lens := len 0, modes := allModes, issuer := .tenants, query := true, names := namesHead,
    owns := ownsHead,
    run := fun s o => (s, .answer (done
      ((s.rd (integVstate o.tgt)).toNat + 0x100000000 * (s.rd (integResPin o.tgt)).toNat)
      ((s.rd (integResTap o.tgt)).toNat + 0x100000000 * (s.rd (integFrameCrc o.tgt)).toNat))) }

/-! ### Opcodes on the Ember store (R188) -/

/-- Whether a range of the Ember store meets the bitmap of a plane enabled in its active or its shadow copy (R188). -/
def State.underPlane (s : State) (a len : Nat) : Bool :=
  (List.range 8).any fun n => [0, 1].any fun p => [0, actWin].any fun b =>
    let q := s.plane n p b
    q.en && decide (0 < q.w ∧ 0 < q.h ∧ a < q.off + q.span ∧ q.off < a + len)

/-- The grant of a function's tenant in the Ember store (R47). -/
def State.emberOf (s : State) (f : Nat) : Nat × Nat :=
  match s.tenant f with
  | some t => (t.emberBase, t.emberBytes)
  | none => (0, 0)

/-- A range of a function's grant: refused outside the grant and under a plane (R207). -/
def State.emberFault (s : State) (f off len : Nat) : Option (Nat × Nat) :=
  if (s.emberOf f).2 < off + len then some (stNoResource, 1)
  else if s.underPlane ((s.emberOf f).1 + off) len then some (stConflict, 1)
  else none

def specEmberWrite : OpSpec :=
  { opcode := 0x0608, lens := fun b => [if 16 ≤ b.length then b.length else 4064], zero := fun _ => zeroMask [(4, 7)] [],
    modes := modesPSDBT, issuer := .tenants, names := fun t => t < 32, owns := fun _ r t => r == t, log := .flip 1,
    check := fun s o => if o.u32 0 % 8 ≠ 0 then some (stNoResource, 1) else s.emberFault o.tgt (o.u32 0) (o.payload.length - 8),
    run := fun s o => (s.store (emberBase + (s.emberOf o.tgt).1 + o.u32 0) (o.payload.drop 8), .answer (done 0 0)) }

def specEmberLoad : OpSpec :=
  { opcode := 0x0609, lens := len 24, zero := fun _ => zeroMask [(16, 23)] [], modes := modesPSDT, issuer := .tenants,
    names := fun t => t < 32, owns := fun _ r t => r == t, log := .flip 1,
    check := fun s o =>
      if o.u32 0 % 64 ≠ 0 then some (stNoResource, 1)
      else if o.u32 4 % 64 ≠ 0 ∨ o.u32 4 = 0 ∨ 0x100000 < o.u32 4 then some (stNoResource, 5)
      else if o.u64 8 % 64 ≠ 0 ∨ !s.inRange o.tgt (o.u64 8) (o.u32 4) then some (stNoResource, 9)
      else s.emberFault o.tgt (o.u32 0) (o.u32 4),
    run := fun s o => (s.modDisplay fun d => { d with
      emberLoads := d.emberLoads ++ [((s.emberOf o.tgt).1 + o.u32 0, o.u32 4, o.u64 8, o)] }, .later) }

/-- EMBER_LOAD_COMPLETE: the oldest copy of a ring is complete (R188). -/
def execEmberLoadComplete (ring : Fin 34) (s : State) : Host.Outcome State Fault Refusal :=
  .next (match s.display.emberLoads.find? fun x => x.2.2.2.ring == ring.val with
    | none => s
    | some x =>
      let s := s.modDisplay fun d => { d with emberLoads := d.emberLoads.erase x }
      (s.store (emberBase + x.1) (s.load x.2.2.1 x.2.1)).settle x.2.2.2 (done 0 0))

def execGuardSet (p : Packet) (s : State) : Host.Outcome State Fault Refusal := packetStep specGuardSet p s
def execFreshTime (p : Packet) (s : State) : Host.Outcome State Fault Refusal := packetStep specFreshTime p s
def execRectSet (p : Packet) (s : State) : Host.Outcome State Fault Refusal := packetStep specRectSet p s
def execRectExpect (p : Packet) (s : State) : Host.Outcome State Fault Refusal := packetStep specRectExpect p s
def execEmberSet (p : Packet) (s : State) : Host.Outcome State Fault Refusal := packetStep specEmberSet p s
def execEmberPalette (p : Packet) (s : State) : Host.Outcome State Fault Refusal := packetStep specEmberPalette p s
def execEmberExpect (p : Packet) (s : State) : Host.Outcome State Fault Refusal := packetStep specEmberExpect p s
def execEmberWrite (p : Packet) (s : State) : Host.Outcome State Fault Refusal := packetStep specEmberWrite p s
def execEmberLoad (p : Packet) (s : State) : Host.Outcome State Fault Refusal := packetStep specEmberLoad p s
def execIntegCfg (p : Packet) (s : State) : Host.Outcome State Fault Refusal := packetStep specIntegCfg p s
def execIntegResume (p : Packet) (s : State) : Host.Outcome State Fault Refusal := packetStep specIntegResume p s
def execRbSelftest (p : Packet) (s : State) : Host.Outcome State Fault Refusal := packetStep specRbSelftest p s
def execIntegQuery (p : Packet) (s : State) : Host.Outcome State Fault Refusal := packetStep specIntegQuery p s
def execAgeQuery (p : Packet) (s : State) : Host.Outcome State Fault Refusal := packetStep specAgeQuery p s

end Sys2Proof.Machine
end

