-- ==== Sys2Proof/Machine/Heads.lean ====
section
/-! DEFINITION. Heads: timing, enabling and disabling, showing, arming and latching, head frames (R112 to R115, R126 to R130,
R138 to R140). -/
namespace Sys2Proof.Machine

/-! ### Arming and latching (R127 to R130) -/

/-- The HEAD window of head `n`. -/
def headWin (n : Nat) : Nat := 0x41000000 + 0x10000 * n
/-- The INTEG window of head `n`. -/
def integWin (n : Nat) : Nat := 0x41800000 + 0x10000 * n

/-- The shadowed registers of head `n` in its two windows, as first address and length (R126, R205). -/
def shadowRanges (n : Nat) : List (Nat × Nat) :=
  [(headWin n + 0x30, 4), (headWin n + 0x100, 0x34), (headWin n + 0x1000, 0x1000), (integWin n, 0x4000)]

/-- Whether R112, R113 and R128 accept the timing registers of head `n` (R130). -/
def State.timingStands (s : State) (n : Nat) : Bool :=
  (s.timingFault n (s.timing n)).isNone && s.fitsPort n (s.timing n)

/-- The latch position of head `n` in this master frame: LATCH_LINE of head frame 0, or master line 1, grain 0, where its timing
gives none (R128, R130); a relock step not yet absorbed moves it with the head's lines (R115). -/
def State.latchAt (s : State) (n : Nat) : Stamp :=
  if s.timingStands n then
    let g : Int := (s.lineGrain (s.timing n) 0 (s.timing n).latch % s.frameGrains : Nat) - (s.head n).shift
    s.addGrains ⟨s.now.frame, 0, 0⟩ (min (max g.toNat 32) (s.frameGrains - 1))
  else ⟨s.now.frame, 1, 0⟩

/-- The latch of head `n`: all its shadow registers go to their active copies, the new state is checked, and landed caravans
that awaited it are answered (R101, R128, R164, R205). -/
def State.latch (s : State) (n : Nat) : State :=
  let s := s.each (shadowRanges n) fun s r => s.copyRegs r.1 (r.1 + actWin) r.2
  let s := (s.put (headStatus_ARMED n) 0).bump (headLatchCnt_COUNT n)
  (((s.latchPipes n).checkPipes n).checkInteg n).latched n

/-- The arm instant: HEAD_WALL_ARM is sampled and cleared, and heads newly enabled have met it (R127, R138). -/
def State.armHeads (s : State) : State :=
  let armed := s.get headWallArm_ARM
  let s := s.put headWallArm_ARM 0
  s.each (List.range 8) fun s n =>
    let s := if armed / 2 ^ n % 2 = 1 then s.put (headStatus_ARMED n) 1 else s
    let h := s.head n
    if s.flag (headCtrl_EN n) && h.armSeen.isNone && (!s.running n || h.ending) then
      s.modHead n fun h => { h with armSeen := some s.now }
    else s

/-! ### Head frames (R114, R128, R138) -/

/-- When the next head frame of head `n` begins and its number k, if the head runs or is to run (R25, R115, R138). -/
def State.nextStart (s : State) (n : Nat) : Option (Stamp × Nat) :=
  let h := s.head n
  if s.running n && !h.ending then
    let (t, kf) := s.nextFrame h.tm h.frame.start h.frame.start
    some (if h.carry then s.moveStamp t (-h.shift) else t, kf)
  else match h.armSeen with
    | some a =>
      if s.flag (headCtrl_EN n) then
        some (s.nextFrame (s.timing n) a (if s.running n then s.lineStamp n h.frame h.tm.hl else s.now))
      else none
    | none => none

/-- Head frames of head `n` stop at the end of its last one (R140, R199). -/
def State.stopHead (s : State) (n : Nat) : State :=
  let s := (s.put (headStatus_RUNNING n) 0).put (headStatus_ASH n) 0
  let s := (s.put (integVstate_VERIFIED n) 0).putBitAt integVerified_VERIFIED n false
  let s := s.each (s.pipesScanned n) fun s m => s.put (layerStatus_ACTIVE m) 0
  let s := s.each ((List.range 4).filter fun u => s.get ((layerWbCtrl_HEAD u).shift actWb) == n && (s.wb u).capture.isSome)
    fun s u => (s.put (layerWbStatus_INCOMPLETE u) 1).wbEnd u
  s.modHead n fun h => { h with ending := false, last := none, shift := 0, carry := false, xfer := none, matchRuns := [0, 0] }

/-- The frame that ends is kept where its verdict is still to come: in DSI command mode it may fall after the next frame's
start (R199). -/
def State.keepLast (s : State) (n : Nat) : State :=
  let h := s.head n
  if s.running n && !h.frame.judged && s.power.warm.isNone then
    let s := s.c0Finish n
    let f := (s.head n).frame
    let seen := s.measure n f
    s.modHead n fun h => { h with last := some { f with judged := true, seen := some seen } }
  else s.modHead n fun h => { h with last := none }

/-- The active state is copied to what is scanned in the head frame that begins (R128). -/
def State.scanCopy (s : State) (n : Nat) : State :=
  s.each (shadowRanges n) fun s r => s.copyRegs (r.1 + actWin) (r.1 + actWin + scanBank) r.2

/-- Head frame `kf` of head `n` begins, at the start R25 gives it (R114). -/
def State.headFrameStart (s : State) (n kf : Nat) (start : Stamp) : State :=
  let first := !s.running n || (s.head n).ending
  let judged := s.running n && (s.head n).frame.judged
  let s := if s.running n && (s.head n).ending then s.stopHead n else s.keepLast n
  let s := s.when first fun s => s.modHead n fun h => { h with
    tm := s.timing n, armSeen := none, ending := false, shift := 0, carry := false }
  let s := s.modHead n fun h => { h with shift := if h.carry then h.shift else 0, carry := false }
  let s := ((s.scanCopy n).put (headStatus_RUNNING n) 1).pipesFrameStart n
  let (s, transit, prime) := s.spareHeadFrame n
  let s := s.pictureReturns n
  let testing := s.testsNow n transit
  let path := s.pathInUse n testing transit
  let s := (s.putBitAt integRbStatus_TESTING n testing).when testing fun s => s.modLink n fun l => { l with rbDue := false }
  let s := (s.put (integVstate_PATH n) path).putBit (integVstate_TRANSIT n) transit
  let s := (s.putBit (integVstate_RB_FAIL n) (s.bit integRbStatus_FAIL n)).put (integVstate_STALE n) 0
  let show_ := s.get ((headShow_SHOW n).shift (actWin + scanBank))
  let ash := s.ashCause n
  let s := s.putBit (headStatus_ASH n) (ash || show_ == 2)
  let s := s.modHead n fun h => { h with frame := { FrameFacts.blank with
    start := start, kf := kf, show_ := show_, ashFrom := if ash then some 0 else none, path := path, transit := transit,
    testing := testing, banked := s.mode == modeBanked, prime := prime, planes := [none, none], judged := false } }
  let waiting := (s.head n).waiters
  let s := (s.modHead n fun h => { h with waiters := [] }).each waiting fun s o => s.settle o (done 0 0)
  let s := ((s.c0FrameStart n).sinkFrameStart n judged).teFrameStart n
  s.wbFrameStart n s.now

/-- A relock step of `e` grains has been made, positive for a cut: every master position has shifted against the lines of a
running head. The head absorbs it in the first front porch it reaches; a cut that no porch can absorb ends its frame at the
step (R115). -/
def State.relock (s : State) (n : Nat) (e : Int) : State :=
  if e = 0 || !s.running n then s
  else
    let s := s.modHead n fun h => { h with shift := h.shift - e }
    let tm := (s.head n).tm
    let line := s.headLine n
    if ((tm.vfp - 1) * 32 * s.lines : Nat) < e * (tm.k * tm.hl : Nat) then
      let s := (s.raise 39 (n * 256 + min 255 (tm.hl - 1 - line))).modFrame n fun f => { f with cut := true }
      let s := if (s.head n).frame.judged then s else s.headVerdict n [] [] [] false
      s.modHead n fun h => { h with shift := 0, carry := false }
    else s.modHead n fun h => { h with carry := decide (tm.vactive + tm.vfp ≤ line) }

/-! ### Enabling (R138, R140) -/

/-- A packet that was cancelled is answered; it took no effect, so it leaves no record (R436). -/
def State.settleCancelled (s : State) (o : Origin) (a : Answer) : State :=
  (s.dropReply o).answer o a s.now.word

/-- EN of head `n` is set. -/
def State.enableHead (s : State) (n : Nat) : State :=
  (s.put (headCtrl_EN n) 1).modHead n fun h => { h with armSeen := none }

/-- EN of head `n` is cleared: it runs to the end of its head frame, and an enable that awaits its first frame is cancelled. -/
def State.disableHead (s : State) (n : Nat) : State :=
  let s := s.put (headCtrl_EN n) 0
  let waiting := (s.head n).waiters
  let s := s.modHead n fun h => { h with armSeen := none, waiters := [], ending := s.running n }
  s.each waiting fun s o => s.settleCancelled o (refusal stDone 1)

/-- HEAD_EN_WRITE: a sealed write of HEAD_n_CTRL. K2 does not change while the head is enabled; a head whose timing or
composition rate fails does not enable (R138). -/
def execHeadEnWrite (who : Requester) (head : Fin 8) (value : W32) (s : State) : Host.Outcome State Fault Refusal :=
  .next (
    let n := head.val
    let v := value.toNat
    let on := s.flag (headCtrl_EN n)
    if s.mayWrite who && decide (worldOf who = .sealed) && on && v / 2 % 2 != s.get (headCtrl_K2 n) then
      s.emit (.busError (agentOf who) (headCtrl n).addr)
    else s.sealedWrite who (headCtrl n) v fun s =>
      let s := s.put (headCtrl_K2 n) (v / 2)
      if v % 2 = 1 && !on then (if s.mayEnable n then s.enableHead n else s)
      else if v % 2 = 0 && on then s.disableHead n
      else s)

/-- HEAD_WALL_ARM_WRITE: a 1 arms a head for the next arm instant (R127). -/
def execHeadWallArmWrite (who : Requester) (value : W32) (s : State) : Host.Outcome State Fault Refusal :=
  .next (s.sealedWrite who headWallArm value.toNat fun s =>
    s.put headWallArm_ARM (s.get headWallArm_ARM ||| (value.toNat % 256)))

/-! ### Opcodes (R139, R140) -/

/-- The first payload byte of HEAD_TIMING_SET that holds an invalid field. -/
def timingSetFault (s : State) (o : Origin) : Option Nat :=
  match s.timingFault o.tgt (payloadTiming o) with
  | some b => if 3 < o.u8 16 ∧ 16 < b then some 16 else some b
  | none => if 3 < o.u8 16 then some 16 else none

/-- The timing registers of head `n` take the values of a HEAD_TIMING_SET. A training that had failed at every rate is tried
again when the timing changes (R116). -/
def State.setTiming (s : State) (o : Origin) : State :=
  let n := o.tgt
  let old := s.timing n
  let s := s.wr (headHtime n) (BitVec.ofNat 64 (o.u32 0))
  let s := ((s.put (headHsync_HFP n) (o.u16 4)).put (headHsync_HSW n) (o.u16 6)).put (headHsync_HPOL n) (o.u8 16)
  let s := s.wr (headVtime n) (BitVec.ofNat 64 (o.u32 8))
  let s := ((s.put (headVsync_VFP n) (o.u16 12)).put (headVsync_VSW n) (o.u16 14)).put (headVsync_VPOL n) (o.u8 16 / 2)
  let s := (s.put (headOffset_O n) (o.u16 18)).put (headLatch_LATCH_LINE n) (o.u16 20)
  let s := s.put (headCtrl_K2 n) (o.u8 17 - 1)
  if (s.link n).failed && s.timing n != old then s.startTraining n else s

def specHeadTimingSet : OpSpec :=
  { opcode := 0x0410, lens := len 32, zero := fun _ => zeroMask [(22, 31)] [], modes := modesPSDT, issuer := .tenants,
    names := namesHead, owns := ownsHead, log := .logged,
    check := fun s o =>
      if s.flag (headCtrl_EN o.tgt) then some (stConflict, 1)
      else match timingSetFault s o with
        | some b => some (stNoResource, 1 + b)
        | none => if s.fitsPort o.tgt (payloadTiming o) then none else some (stNoResource, 0x00FF),
    run := fun s o => (s.setTiming o, .answer (done 0 0)) }

/-- The checks of HEAD_ENABLE (R140). -/
def headEnableCheck (s : State) (o : Origin) : Option (Nat × Nat) :=
  let n := o.tgt
  let tm := s.timing n
  if 1 < o.u8 0 then some (stNoResource, 1)
  else if o.u8 0 = 0 || s.flag (headCtrl_EN n) then none
  else match s.timingFault n tm with
    | some b => some (stNoResource, 0x0100 + (1 + b))
    | none =>
      if !s.fitsPort n tm then some (stNoResource, 0x00FF)
      else if !s.compOk n tm then some (stNoResource, 0x00FE)
      else none

/-- HEAD_ENABLE: an enable is answered at the first head frame, a disable at once. -/
def headEnableRun (s : State) (o : Origin) : State × Effect :=
  let n := o.tgt
  if o.u8 0 = 0 then (s.disableHead n, .answer (done 0 0))
  else
    let s := if s.flag (headCtrl_EN n) then s else s.enableHead n
    if s.running n && !(s.head n).ending then (s, .answer (done 0 0))
    else (s.modHead n fun h => { h with waiters := h.waiters ++ [o] }, .later)

def specHeadEnable : OpSpec :=
  { opcode := 0x0411, lens := len 8, zero := fun _ => zeroMask [(1, 7)] [], modes := modesPSDT, issuer := .tenants,
    names := namesHead, owns := ownsHead, log := .logged, check := headEnableCheck, run := headEnableRun }

def specHeadShow : OpSpec :=
  { opcode := 0x0416, lens := len 8, zero := fun _ => zeroMask [(1, 7)] [], modes := modesPSDBT, issuer := .tenants,
    member := .capable, names := namesHead, owns := ownsHead, log := .logged,
    check := fun _ o => if 3 < o.u8 0 then some (stNoResource, 1) else none,
    land := fun s o => s.put (headShow_SHOW o.tgt) (min (o.u8 0) 2),
    heads := fun _ o => [o.tgt] }

def specHeadQuery : OpSpec :=
  { opcode := 0x0417, lens := len 0, modes := allModes, issuer := .tenants, query := true, names := namesHead,
    owns := ownsHead,
    run := fun s o => (s, .answer (done
      ((s.rd (headStatus o.tgt)).toNat + 0x100000000 * (s.rd (ymxPortStatus o.tgt)).toNat)
      (s.pclkKhz (s.timing o.tgt) % 2 ^ 32 + 0x100000000 * s.headPosNow o.tgt))) }

def execHeadTimingSet (p : Packet) (s : State) : Host.Outcome State Fault Refusal := packetStep specHeadTimingSet p s
/-- HEAD_ENABLE: the packet of opcode 0x0411 whose byte [0] is 1. -/
def execHeadEnable (p : Packet) (s : State) : Host.Outcome State Fault Refusal := packetStep specHeadEnable p s
/-- HEAD_DISABLE: the packet of opcode 0x0411 whose byte [0] is 0. -/
def execHeadDisable (p : Packet) (s : State) : Host.Outcome State Fault Refusal := packetStep specHeadEnable p s
def execHeadShow (p : Packet) (s : State) : Host.Outcome State Fault Refusal := packetStep specHeadShow p s
def execHeadQuery (p : Packet) (s : State) : Host.Outcome State Fault Refusal := packetStep specHeadQuery p s

end Sys2Proof.Machine
end

