-- ==== Sys2Proof/Machine/Gfx.lean ====
section
/-! DEFINITION. Graphics contexts, their queues, the scheduler, preemption, fences, composition jobs and compilation
(R209 to R232). The packets of command buffers stand in Draws.lean and Render.lean. -/
namespace Sys2Proof.Machine

/-! ### Parts -/

/-- The graphics engine changes. -/
def State.modGfx (s : State) (f : GfxState → GfxState) : State := { s with gfx := f s.gfx }
/-- Context `c` beside its registers. -/
def State.gctx (s : State) (c : Nat) : GfxCtx := s.gfx.ctxs.getD c GfxCtx.cold
/-- Context `c` changes. -/
def State.modGctx (s : State) (c : Nat) (f : GfxCtx → GfxCtx) : State := s.modGfx fun g => { g with ctxs := modAt g.ctxs c f }
/-- The composition job of head `n`. -/
def State.job (s : State) (n : Nat) : CompJob := s.gfx.jobs.getD n CompJob.cold
/-- The composition job of head `n` changes. -/
def State.modJob (s : State) (n : Nat) (f : CompJob → CompJob) : State := s.modGfx fun g => { g with jobs := modAt g.jobs n f }

/-- Context states (R211). -/
def ctxDisabled : Nat := 0
def ctxIdle : Nat := 1
def ctxReady : Nat := 2
def ctxRunning : Nat := 3
def ctxPreempted : Nat := 4
def ctxWaiting : Nat := 5
def ctxFault : Nat := 6

/-- The state of context `c` (R211). -/
def State.ctxState (s : State) (c : Nat) : Nat := s.get (gfxCtxState_STATE c)
/-- Context `c` enters a state. -/
def State.setCtx (s : State) (c st : Nat) : State := s.put (gfxCtxState_STATE c) st
/-- The running guest context; 0 for none. -/
def State.runningCtx (s : State) : Nat := s.get gfxStatus_RUNNING
/-- The priority of a guest context (R210). -/
def State.prio (s : State) (c : Nat) : Nat := s.get (gfxCtxCtrl_PRIO c)
/-- The fence counter of a context (R216). -/
def State.fence (s : State) (c : Nat) : Nat := (s.rd (gfxCtxFence c)).toNat

/-! ### Clusters and their time (R217, R218, R222, R223) -/

/-- Whether context 0 is to hold all clusters: a ready job has met its warning position (R223). -/
def State.compFull (s : State) : Bool := s.gfx.jobs.any fun j => j.phase == .ready && j.full

/-- The clusters left to guest contexts (R217, R223). -/
def State.guestClusters (s : State) : Nat :=
  if s.compFull then 0 else if s.gfx.current.isSome then 12 - s.get gfxSched_COMP_CL else 12

/-- The clusters that work on composition. -/
def State.compClusters (s : State) : Nat :=
  let free := if s.runningCtx = 0 then 12 else 12 - s.gfx.clusters
  if s.compFull then free else min free (s.get gfxSched_COMP_CL)

/-- Cluster time is counted up to now, for the running context and its open pass (R218, R252). -/
def State.countClusters (s : State) : State :=
  let g := s.since s.gfx.countedTo
  let add (s : State) (c n : Nat) : State := s.modGctx c fun x =>
    { x with used := x.used + n, pass := x.pass.map fun p => { p with used := p.used + n } }
  let s := s.when (s.runningCtx != 0) fun s => add s s.runningCtx (g * s.gfx.clusters)
  let s := s.when s.gfx.current.isSome fun s => add s 0 (g * s.compClusters)
  s.modGfx fun x => { x with countedTo := s.now }

/-- GFX_STATUS shows who holds clusters. -/
def State.showGfx (s : State) : State :=
  (s.putBit gfxStatus_COMP_BUSY s.gfx.current.isSome).putBit gfxStatus_COMP_ALL s.compFull

/-! ### The scheduler (R217, R218) -/

/-- The cluster-grains that a tenant's contexts have used in this master frame. -/
def State.tenantUsed (s : State) (f : Nat) : Nat :=
  match s.tenant f with
  | some t => (t.contexts.map fun c => (s.gctx c).used).sum
  | none => 0

/-- Whether the tenant of context `c` is under its share of guest cluster time (R218). -/
def State.gfxUnder (s : State) (c : Nat) : Bool :=
  match s.ctxOwner c with
  | some f => decide (100 * s.tenantUsed f < ((s.tenant f).elim 0 fun t => t.shares.getD 0 0) * 12 * s.frameGrains)
  | none => false

/-- The context the scheduler chooses among candidates (R217). -/
def State.chooseCtx (s : State) (cands : List Nat) : Option Nat :=
  let under := cands.filter s.gfxUnder
  let pool := if under.isEmpty then cands else under
  let top := (pool.map s.prio).foldl max 0
  let level := pool.filter fun c => s.prio c == top
  let last := s.gfx.last.getD top 0
  ((level.filter fun c => decide (last < c)) ++ level.filter fun c => decide (c ≤ last)).head?

/-- The guest contexts that wait to run. -/
def State.waitingCtxs (s : State) : List Nat :=
  (List.range 64).filter fun c => c != 0 && (s.ctxState c == ctxReady || s.ctxState c == ctxPreempted)

/-- Context `c` is chosen and runs. -/
def State.startCtx (s : State) (c : Nat) : State :=
  let s := (s.setCtx c ctxRunning).put gfxStatus_RUNNING c
  let s := s.modGfx fun g => { g with clusters := s.guestClusters, last := g.last.set (s.prio c) c }
  s.modGctx c fun x => { x with chosenAt := s.now }

/-- Whether the window of a set point change runs: no decision is taken and no preemption started before its end (R383). -/
def State.changing (s : State) : Bool := s.dramc.change.any fun c => c.phase != .waiting

/-- With no guest context running, one is chosen if clusters are free for it. -/
def State.dispatchNext (s : State) : State :=
  if s.changing || s.runningCtx ≠ 0 || s.guestClusters == 0 || s.mode == modeBanked || s.power.warm.isSome then s
  else match s.chooseCtx s.waitingCtxs with
    | some c => s.startCtx c
    | none => s

/-- A decision point of the scheduler (R217). -/
def State.schedule (s : State) (sliceEnded : Bool) : State :=
  let s := s.countClusters
  let r := s.runningCtx
  if s.changing then { s with dramc := { s.dramc with slice := s.dramc.slice || sliceEnded } }
  else if r = 0 then s.dispatchNext
  else if s.gfx.preempting.isSome then s
  else if s.guestClusters = 0 then s.modGfx fun g => { g with preempting := some true }
  else
    let sliceOver := sliceEnded || s.elapsedUs (s.gctx r).chosenAt (s.get gfxSched_SLICE_US)
    match s.chooseCtx (if sliceOver then (List.range 64).filter fun c => c == r || s.waitingCtxs.contains c else s.waitingCtxs) with
    | none => s
    | some c =>
      if c = r then s.startCtx r
      else if sliceOver || decide (s.prio r < s.prio c) then s.modGfx fun g => { g with preempting := some true }
      else s

/-- The running context leaves RUNNING for a state, which is a decision point. -/
def State.leaveRunning (s : State) (c st : Nat) : State :=
  let s := (s.countClusters.setCtx c st).put gfxStatus_RUNNING 0
  (s.modGfx fun g => { g with preempting := none }).schedule false

/-- The share of the clusters between context 0 and the guest changes: a guest that holds too many gives them up by
preemption, one that may hold more takes them (R222, R223). -/
def State.shareClusters (s : State) : State :=
  let s := s.countClusters.showGfx
  let n := s.guestClusters
  if s.changing then s
  else if s.runningCtx = 0 then s.dispatchNext
  else if s.gfx.preempting.isSome then s
  else if n < s.gfx.clusters then s.modGfx fun g => { g with preempting := some (n == 0) }
  else s.modGfx fun g => { g with clusters := n }

/-- A context that has work becomes READY (R211). -/
def State.wakeCtx (s : State) (c : Nat) : State :=
  if s.flag (gfxCtxCtrl_EN c) && s.ctxState c == ctxIdle && s.get (gfxCtxQhead_POS c) != s.get (gfxCtxQtail_POS c)
      && s.mode != modeBanked then
    (s.setCtx c ctxReady).schedule false
  else s

/-- SCHED_SLICE_EXPIRY: the time slice of the running context ends (R217). -/
def execSchedSliceExpiry (s : State) : Host.Outcome State Fault Refusal :=
  .next (if s.runningCtx = 0 then s else s.schedule true)

/-- PREEMPTION_COMPLETE: the clusters are free, and the state of a wholly preempted context is in its save area (R219). -/
def execPreemptionComplete (tenths : W16) (saved : List Byte) (s : State) : Host.Outcome State Fault Refusal :=
  .next (match s.gfx.preempting with
    | none => s
    | some whole =>
      let s := (s.countClusters.bump gfxPreemptCnt_COUNT).put gfxPreemptMax_MAX (max (s.get gfxPreemptMax_MAX) tenths.toNat)
      let s := s.modGfx fun g => { g with preempting := none }
      if whole then
        let c := s.runningCtx
        let s := s.store (s.get (gfxCtxSave_ADDR c) * mib2) (saved.take mib2)
        (((s.setCtx c ctxPreempted).put gfxStatus_RUNNING 0).showGfx).dispatchNext
      else
        let n := s.guestClusters
        if n = 0 then s.modGfx fun g => { g with preempting := some true }
        else s.modGfx fun g => { g with clusters := n })

/-! ### Composition jobs (R220 to R226) -/

/-- The grain of the master frame at which a head-line count of head `n` lies (R221). -/
def State.countGrain (s : State) (n v : Nat) : Nat :=
  let tm := s.timing n
  s.lineGrain tm (v / tm.hl) (v % tm.hl) % s.frameGrains

/-- The stamp of the warning position of head `n` in this master frame. -/
def State.warnAt (s : State) (n : Nat) : Stamp := s.addGrains ⟨s.now.frame, 0, 0⟩ (s.countGrain n (s.get (gfxDl_WARN n)))
/-- The stamp of the deadline position of head `n` in this master frame. -/
def State.deadAt (s : State) (n : Nat) : Stamp := s.addGrains ⟨s.now.frame, 0, 0⟩ (s.countGrain n (s.get (gfxDl_DEAD n)))

/-- Whether a warning and a deadline count meet R221. -/
def State.positionsOk (s : State) (n warn dead : Nat) : Bool :=
  let w := s.countGrain n warn
  let d := s.countGrain n dead
  s.timingStands n && decide (s.countGrain n (s.timing n).latch < w) && decide (w ≤ d)
    && decide (60 * s.rateNum * s.lines * 32 ≤ (d - w) * 1000000 * s.rateDen) && decide (d ≤ (s.lines - 1) * 32)

/-- A field of the active composition settings of a head (R229). -/
def State.compGet (s : State) (f : RF) : Nat := s.get (f.shift actComp)

/-- Whether the fence of head `n`'s composition is signalled (R222). -/
def State.compFence (s : State) (n : Nat) : Bool :=
  let c := s.compGet (gfxCompCtrl_FENCE_CTX n)
  c == 0 || decide (s.compGet (gfxCompFence_VALUE n) ≤ s.fence c)

/-- The address of surface 0 or 1 of head `n`'s composition. -/
def State.surface (s : State) (n k : Nat) : Nat :=
  (if k = 0 then s.compGet (gfxCompSurf0_ADDR n) else s.compGet (gfxCompSurf1_ADDR n)) * 64

/-- The job of head `n` enters a phase. -/
def State.setJob (s : State) (n : Nat) (p : JobPhase) : State :=
  let code := match p with
    | .none => 0
    | .awaiting => 1
    | .ready => 2
    | .swapped => 3
  (s.modJob n fun j => { j with phase := p, full := j.full && p == .ready }).put (gfxCompStatus_JOB n) code

/-- Whether head `a`'s deadline comes before head `b`'s, on equal positions the lower head (R222). -/
def State.dueBefore (s : State) (a b : Nat) : Bool :=
  let x := s.countGrain a (s.get (gfxDl_DEAD a))
  let y := s.countGrain b (s.get (gfxDl_DEAD b))
  decide (x < y) || (x == y && decide (a < b))

/-- With no job in progress, the ready job with the earliest deadline starts on context 0 (R222). -/
def State.nextJob (s : State) : State :=
  if s.gfx.current.isSome then s
  else
    let ready := (List.range 8).filter fun n => (s.job n).phase == .ready
    match ready.find? fun n => ready.all fun m => m == n || s.dueBefore n m with
    | none => s
    | some n =>
      let a := s.compGet (gfxCompList_ADDR n) * 64
      let s := s.countClusters.modGctx 0 fun x => { GfxCtx.cold with
        stack := [(a, a + 8 * s.compGet (gfxCompLen_LEN n))], loaded := true, history := x.history }
      s.modGfx fun g => { g with current := some n }

/-- Context 0 has finished with head `n`'s job. -/
def State.releaseJob (s : State) (n : Nat) : State :=
  if s.gfx.current = some n then
    let s := (s.countClusters.modGctx 0 fun x => { GfxCtx.cold with history := x.history }).modGfx fun g => { g with current := none }
    s.nextJob.shareClusters
  else s.shareClusters

/-- The job of head `n` becomes ready once its fence is signalled (R222, R223). -/
def State.jobReady (s : State) (n : Nat) : State :=
  if (s.job n).phase == .awaiting && s.compFence n then
    let late := (s.warnAt n).le s.now
    let s := (s.setJob n .ready).modJob n fun j => { j with
      ctime := BitVec.ofNat 64 (s.compGet (gfxCompCtime_WALLTIME n)), full := late }
    s.nextJob.shareClusters
  else s

/-- The latch grain of head `n`: the surface in the pipe's active ADDR0 is shown, and the job of this master frame begins
(R222). -/
def State.jobBegin (s : State) (n : Nat) : State :=
  if s.compGet (gfxCompCtrl_EN n) = 0 then s
  else
    let shown := s.get ((layerAddr_ADDR (s.compGet (gfxCompCtrl_PIPE n)) 0).shift actPipe) * 64
    let s := s.putBit (gfxCompStatus_SHOWN n) (shown == s.surface n 1 && shown != s.surface n 0)
    if s.mode == modeBanked || s.power.warm.isSome || (s.job n).barred then s.setJob n .none
    else
      let s := (s.setJob n .awaiting).modJob n fun j => { j with target := if shown = s.surface n 0 then 1 else 0 }
      s.jobReady n

/-- A job of head `n` is a miss, and its clusters are released (R225, R226). -/
def State.jobMiss (s : State) (n cause : Nat) : State :=
  (((s.raise 197 (n * 256 + cause)).bump (gfxCompMiss_COUNT n)).setJob n .none).releaseJob n

/-- The warning position of head `n` (R223). -/
def State.compWarn (s : State) (n : Nat) : State :=
  match (s.job n).phase with
  | .awaiting => s.raise 196 n
  | .ready => ((s.raise 196 n).modJob n fun j => { j with full := true }).shareClusters
  | _ => s

/-- The deadline position of head `n` (R225). -/
def State.compDeadline (s : State) (n : Nat) : State :=
  match (s.job n).phase with
  | .awaiting => s.jobMiss n (if s.compFence n then 1 else 2)
  | .ready => s.jobMiss n 1
  | _ => s

/-- A completed job swaps: the pipe's shadow takes the surface and its content time, and the head is armed (R224). -/
def State.swap (s : State) (n : Nat) : State :=
  let j := s.job n
  let p := s.compGet (gfxCompCtrl_PIPE n)
  let s := (s.put (layerAddr_ADDR p 0) (s.surface n j.target / 64)).wr (layerCtime p) j.ctime
  let s := s.putBitAt headWallArm_ARM n true
  let s := { s with peat := { s.peat with
    flips := modAt s.peat.flips 2 (· + 1),
    flipFns := match s.headOwner n with
      | some f => setField s.peat.flipFns f 1 1
      | none => s.peat.flipFns } }
  (s.setJob n .swapped).releaseJob n

/-- What becomes of jobs and contexts at a master frame start: cluster time is shown and counted anew, and the scheduler
decides (R217, R218, R226). -/
def State.gfxFrameStart (s : State) : State :=
  let s := s.countClusters
  let s := s.each (List.range 64) fun s c =>
    let s := if c = 0 then s else s.put (gfxCtxUsed_CLUSTER_US c) (s.grainsToUs (s.gctx c).used)
    s.modGctx c fun x => { x with used := 0 }
  let s := s.each (List.range 8) fun s n => s.modJob n fun j => { j with
    barred := j.barred && ((s.headOwner n).elim false fun f => (s.fn f).reset.isSome) }
  (s.applyStaged 0x42000000 0x43000000).schedule false

/-! ### Faults (R215, R220) -/

/-- The function whose DRAM a context reaches: its tenant's; context 0 has the rights of the head's tenant (R220). -/
def State.gfxOwner (s : State) (c : Nat) : Option Nat :=
  if c = 0 then s.gfx.current.bind s.headOwner else s.ctxOwner c

/-- Whether a range lies in the DRAM that a context reaches. -/
def State.gfxMay (s : State) (c a len : Nat) : Bool :=
  match s.gfxOwner c with
  | some f => s.inRange f a len
  | none => c == 0 && s.scanMay none a len

/-- Whether context `c` runs packets now. -/
def State.ctxActive (s : State) (c : Nat) : Bool :=
  if c = 0 then s.gfx.current.isSome else s.runningCtx == c && s.ctxState c == ctxRunning

/-- Context `c` faults at a packet; a fault in a composition list ends its job (R215, R220). -/
def State.ctxFaults (s : State) (c code addr : Nat) : State :=
  if c = 0 then
    match s.gfx.current with
    | some n => (s.raise 198 (n * 256 + code)).jobMiss n 3
    | none => s
  else
    let s := (s.put (gfxCtxState_FAULT c) code).put (gfxCtxFaultAddr_ADDR c) addr
    let s := (s.modGctx c fun x => { x with pass := none }).raise 192 (c * 256 + code)
    s.leaveRunning c ctxFault

/-- The address of the packet at which context `c` stands. -/
def State.packetAddr (s : State) (c : Nat) : Nat := ((s.gctx c).stack.head?.map (·.1)).getD 0

/-- CTX_HANG: no command buffer completed within HANG_MS of running time (R215). -/
def execCtxHang (ctx : Fin 64) (s : State) : Host.Outcome State Fault Refusal :=
  .next (let c := ctx.val
    if c ≠ 0 && s.ctxActive c then (s.raise 193 c).ctxFaults c 6 (s.packetAddr c) else s)

/-! ### Fences (R216) -/

/-- A fence signal of context `c` is made: the counter rises, or FENCE_BACK is raised. Context 0 has no counter to show. -/
def State.signalFence (s : State) (c value : Nat) (event : Bool) : State :=
  let s := if value ≤ s.fence c then s.raise 194 c
    else if c = 0 then s
    else s.wr (gfxCtxFence c) (BitVec.ofNat 64 value)
  if event then s.raise 195 c else s

/-- All fence signals of context `c` that are still to come are made, in order. -/
def State.signalAll (s : State) (c : Nat) : State :=
  let l := (s.gctx c).signals
  (s.modGctx c fun x => { x with signals := [] }).each l fun s e => s.signalFence c e.1 e.2

/-- FENCE_COUNTER_UPDATE: the work before the oldest fence signal of a context has completed (R216). -/
def execFenceCounterUpdate (ctx : Fin 64) (s : State) : Host.Outcome State Fault Refusal :=
  .next (match (s.gctx ctx.val).signals with
    | [] => s
    | e :: rest => (s.modGctx ctx.val fun x => { x with signals := rest }).signalFence ctx.val e.1 e.2)

/-- FENCE_WAIT_SATISFIED: the counter a context waits for has reached its value (R216). -/
def execFenceWaitSatisfied (ctx : Fin 64) (s : State) : Host.Outcome State Fault Refusal :=
  .next (match (s.gctx ctx.val).waiting with
    | some (w, v) =>
      if s.ctxState ctx.val = ctxWaiting ∧ v ≤ s.fence w then
        ((s.modGctx ctx.val fun x => { x with waiting := none }).setCtx ctx.val ctxReady).schedule false
      else s
    | none => s)

/-! ### Command buffers (R212, R213) -/

/-- A called buffer that has ended returns to its caller; the top-level buffer stays. -/
def dropEnded : List (Nat × Nat) → List (Nat × Nat)
  | [] => []
  | [b] => [b]
  | b :: c :: rest => if b.2 ≤ b.1 then dropEnded (c :: rest) else b :: c :: rest

/-- The ring of context `c` in bytes. -/
def State.queueSize (s : State) (c : Nat) : Nat := 2 ^ s.get (gfxCtxCtrl_QLOG2 c)

/-- A running context without a command buffer takes the queue entry at QHEAD (R212). -/
def State.loadEntry (s : State) (c : Nat) : State :=
  if (s.gctx c).loaded || s.get (gfxCtxQhead_POS c) == s.get (gfxCtxQtail_POS c) then s
  else
    let e := s.get (gfxCtxQbase_ADDR c) * 4096 + s.get (gfxCtxQhead_POS c)
    let a := s.loadNat e 8
    let n := s.loadNat (e + 8) 4
    if a % 64 ≠ 0 ∨ n % 8 ≠ 0 ∨ n < 8 ∨ 16777216 < n ∨ s.loadNat (e + 12) 4 ≠ 0 then s.ctxFaults c 1 (e % 2 ^ 48)
    else if !s.gfxMay c a n then s.ctxFaults c 2 (e % 2 ^ 48)
    else s.modGctx c fun x => { x with stack := [(a, a + n)], loaded := true }

/-- Whether the top-level buffer of context `c` has been run to its end. -/
def State.bufferDone (s : State) (c : Nat) : Bool :=
  match dropEnded (s.gctx c).stack with
  | [b] => (s.gctx c).loaded && decide (b.2 ≤ b.1)
  | _ => false

/-- COMMAND_BUFFER_COMPLETE: all work of the buffer has completed and its writes are visible; QHEAD advances (R213). A pass
left open is a fault (R214). -/
def execCommandBufferComplete (ctx : Fin 64) (s : State) : Host.Outcome State Fault Refusal :=
  .next (let c := ctx.val
    if c = 0 || !s.ctxActive c || !s.bufferDone c then s
    else if (s.gctx c).pass.isSome then s.ctxFaults c 7 (s.packetAddr c)
    else
      let s := (s.countClusters.signalAll c).put (gfxCtxQhead_POS c) ((s.get (gfxCtxQhead_POS c) + 16) % s.queueSize c)
      let s := s.modGctx c fun x => { x with stack := [], loaded := false }
      if s.get (gfxCtxQhead_POS c) = s.get (gfxCtxQtail_POS c) then s.leaveRunning c ctxIdle else s)

/-- COMP_JOB_COMPLETE: the work of the job in progress is complete; before its deadline it swaps (R224). -/
def execCompJobComplete (head : Fin 8) (s : State) : Host.Outcome State Fault Refusal :=
  .next (let n := head.val
    if s.gfx.current ≠ some n || !s.bufferDone 0 then s
    else if (s.gctx 0).pass.isSome then s.ctxFaults 0 7 (s.packetAddr 0)
    else (s.signalAll 0).swap n)

/-! ### Resets and modes (R228) -/

/-- A context stops: its work is discarded and it reads IDLE when enabled, else DISABLED. -/
def State.stopCtx (s : State) (c : Nat) : State :=
  let s := s.countClusters
  let s := s.when (s.runningCtx == c) fun s => (s.put gfxStatus_RUNNING 0).modGfx fun g => { g with preempting := none }
  (s.setCtx c (if s.flag (gfxCtxCtrl_EN c) then ctxIdle else ctxDisabled)).modGctx c fun x => { x with
    stack := [], loaded := false, pass := none, signals := [], waiting := none }

/-- A context is reset: its queue empties, its save area and pass history are discarded, its pass registers are cleared; its
fence counter holds (R216, R228, R236). -/
def State.resetCtx (s : State) (c : Nat) : State :=
  let s := ((s.stopCtx c).put (gfxCtxQhead_POS c) 0).put (gfxCtxQtail_POS c) 0
  let s := s.modGctx c fun x => { x with history := [], bound := List.replicate 11 0 }
  s.each [gfxPassMode c, gfxPassWritten c, gfxPassSkipped c, gfxPassPrims c, gfxPassBin c, gfxPassUs c, gfxPassFrags c]
    fun s r => s.wr r 0

/-- The pick port of each pick of a function in flight is freed; PICK_DROPPED cause 2 (R267). -/
def State.dropPicks (s : State) (f : Nat) : State :=
  let mine := s.gfx.picks.filter (·.f == f)
  let s := s.modGfx fun g => { g with picks := g.picks.filter (·.f != f) }
  s.each mine fun s p =>
    let s := s.put (gfxPickStatus_IN_FLIGHT p.port) (s.get (gfxPickStatus_IN_FLIGHT p.port) - 1)
    (s.bump (gfxPickDropCnt_COUNT p.port)).raise 204 (p.port * 256 + 2)

/-- The reset of a tenant is decided: its contexts stop, queued compilations are dropped, jobs of its heads are abandoned with
cause 4, and picks in flight are discarded (R226, R228, R267). -/
def State.gfxResetFunction (s : State) (f : Nat) : State :=
  match s.tenant f with
  | none => s
  | some t =>
    let s := s.each t.contexts State.resetCtx
    let s := s.modGfx fun g => { g with compiles := g.compiles.filter (·.f != f) }
    let s := s.each t.heads fun s n =>
      let s := match (s.job n).phase with
        | .awaiting | .ready => s.jobMiss n 4
        | _ => s
      s.modJob n fun j => { j with barred := true }
    (s.dropPicks f).schedule false

/-- A context is granted: DISABLED, its registers Cold, its fence counter zero (R211, R216). -/
def State.grantCtx (s : State) (c : Nat) : State :=
  let s := s.each [gfxCtxCtrl c, gfxCtxState c, gfxCtxQbase c, gfxCtxQhead c, gfxCtxQtail c, gfxCtxSave c, gfxCtxFence c,
    gfxCtxFaultAddr c, gfxCtxUsed c] State.cold
  s.modGctx c fun _ => GfxCtx.cold

/-- On entry to Banked guest contexts stop and read IDLE; no composition job goes on (R228). -/
def State.gfxBanked (s : State) : State :=
  let s := s.each ((List.range 64).filter fun c => decide (ctxReady ≤ s.ctxState c ∧ s.ctxState c ≤ ctxWaiting)) fun s c => s.stopCtx c
  s.each (List.range 8) fun s n => match (s.job n).phase with
    | .awaiting | .ready => (s.setJob n .none).releaseJob n
    | _ => s

/-- A warm reset: contexts stop, jobs and picks are abandoned without an event (R228). -/
def State.gfxResetWarm (s : State) : State :=
  let s := s.each (List.range 64) fun s c => s.resetCtx c
  s.modGfx fun g => { GfxState.cold with
    ctxs := g.ctxs.map fun x => { GfxCtx.cold with used := x.used }, countedTo := s.now,
    jobs := List.replicate 8 CompJob.cold, nextCompile := g.nextCompile, last := g.last }

/-! ### Opcodes (R230, R231) -/

/-- The target names a guest context. -/
def namesCtx (t : Nat) : Bool := decide (0 < t ∧ t < 64)
/-- Whether the context is the issuing tenant's. -/
def ownsCtx (s : State) (r t : Nat) : Bool := s.ctxOwner t == some r

/-- The checks of CTX_SET (R211, R219, R230). -/
def ctxSetCheck (s : State) (o : Origin) : Option (Nat × Nat) :=
  let c := o.tgt
  if 1 < o.u8 0 then some (stNoResource, 1)
  else if 2 < o.u8 1 then some (stNoResource, 2)
  else if o.u8 2 < 12 ∨ 20 < o.u8 2 then some (stNoResource, 3)
  else if o.u64 8 % 4096 ≠ 0 ∨ 2 ^ 48 ≤ o.u64 8 then some (stNoResource, 9)
  else if o.u8 0 = 0 then
    (if s.ctxState c = ctxIdle ∨ s.ctxState c = ctxFault then none else some (stConflict, 1))
  else if !s.gfxMay c (o.u64 8) (2 ^ o.u8 2) then some (stNoResource, 9)
  else if o.u64 24 % mib2 ≠ 0 ∨ !s.gfxMay c (o.u64 24) mib2 then some (stNoResource, 25)
  else none

def ctxSetRun (s : State) (o : Origin) : State × Effect :=
  let c := o.tgt
  let s := ((s.put (gfxCtxCtrl_EN c) (o.u8 0)).put (gfxCtxCtrl_PRIO c) (o.u8 1)).put (gfxCtxCtrl_QLOG2 c) (o.u8 2)
  let s := (s.put (gfxCtxQbase_ADDR c) (o.u64 8 / 4096)).put (gfxCtxSave_ADDR c) (o.u64 24 / mib2)
  if o.u8 0 = 0 then ((s.stopCtx c), .answer (done 0 0))
  else
    let s := if s.ctxState c = ctxDisabled then s.setCtx c ctxIdle else s
    (s.wakeCtx c, .answer (done 0 0))

def specCtxSet : OpSpec :=
  { opcode := 0x0701, lens := len 32, zero := fun _ => zeroMask [(3, 7), (16, 23)] [], modes := modesPSDT,
    issuer := .tenants, names := namesCtx, owns := ownsCtx, log := .logged, check := ctxSetCheck, run := ctxSetRun }

/-- Whether a queue tail is refused (R213). -/
def State.tailBad (s : State) (c tail : Nat) : Bool := tail % 16 != 0 || decide (s.queueSize c ≤ tail)

/-- The tail of a context's queue moves. -/
def State.kick (s : State) (c tail : Nat) : State := (s.put (gfxCtxQtail_POS c) tail).wakeCtx c

def specGfxKick : OpSpec :=
  { opcode := 0x0702, lens := len 8, zero := fun _ => zeroMask [(4, 7)] [], modes := modesPSDT, issuer := .tenants,
    names := namesCtx, owns := ownsCtx, log := .flip 2,
    check := fun s o => if s.tailBad o.tgt (o.u32 0) then some (stNoResource, 5) else none,
    run := fun s o => (s.kick o.tgt (o.u32 0), .answer (done 0 0)) }

/-- QTAIL_WRITE: the sealed world moves a queue tail; a bad one is refused (R213). Context 0 has no queue registers. -/
def execQtailWrite (who : Requester) (ctx : Fin 64) (value : W32) (s : State) : Host.Outcome State Fault Refusal :=
  .next (let c := ctx.val
    let v := value.toNat % 2 ^ 20
    if s.mayWrite who && decide (worldOf who = .sealed) && c != 0 && s.tailBad c v then
      s.emit (.busError (agentOf who) (gfxCtxQtail c).addr)
    else s.sealedWrite who (gfxCtxQtail c) value.toNat fun s => if c = 0 then s else s.kick c v)

def specCtxReset : OpSpec :=
  { opcode := 0x0703, lens := len 0, modes := modesPSDBT, issuer := .tenants, names := namesCtx, owns := ownsCtx,
    log := .logged, run := fun s o => ((s.resetCtx o.tgt).schedule false, .answer (done 0 0)) }

/-- The target names any context. -/
def namesAnyCtx (t : Nat) : Bool := t < 64

def specCtxQuery : OpSpec :=
  { opcode := 0x0704, lens := len 0, modes := allModes, issuer := .tenants, query := true, names := namesAnyCtx,
    owns := ownsCtx,
    run := fun s o => (s, .answer (if o.tgt = 0 then done 0 0 else
      done ((s.rd (gfxCtxState o.tgt)).toNat + 0x100000000 * (s.rd (gfxCtxUsed o.tgt)).toNat) (s.fence o.tgt))) }

/-- The target names a function, and a function names itself. -/
def namesFn (t : Nat) : Bool := t < 32
def ownsFn (_ : State) (r t : Nat) : Bool := r == t

def specCompile : OpSpec :=
  { opcode := 0x0705, lens := len 40, zero := fun _ => zeroMask [(12, 15), (28, 31)] [], modes := modesPSDT,
    issuer := .tenants, names := namesFn, owns := ownsFn,
    check := fun s o =>
      if !s.inRange o.tgt (o.u64 0) (o.u32 8) then some (stNoResource, 1)
      else if !s.inRange o.tgt (o.u64 16) (o.u32 24) then some (stNoResource, 17)
      else if o.u64 32 % 16 ≠ 0 ∨ !s.inRange o.tgt (o.u64 32) 16 then some (stNoResource, 33)
      else if 4 ≤ (s.gfx.compiles.filter (·.f == o.tgt)).length then some (stNoResource, 0x00F7)
      else none,
    run := fun s o =>
      let n := s.gfx.nextCompile
      (s.modGfx fun g => { g with
        nextCompile := (n + 1) % 0x10000,
        compiles := g.compiles ++ [⟨o.tgt, n, o.u64 16, o.u32 24, o.u64 32⟩] }, .answer (done n 0)) }

/-- COMPILE_COMPLETE: a job ends; its object goes to the output space, and its completion record is written (R227). -/
def execCompileComplete (f : Fin 32) (job : W16) (detail : Fin 5) (size : W32) (object : List Byte) (s : State) :
    Host.Outcome State Fault Refusal :=
  .next (match s.gfx.compiles.find? fun j => j.f == f.val && j.number == job.toNat with
    | none => s
    | some j =>
      let d := if detail.val = 0 ∧ j.capacity < object.length then 3 else detail.val
      let n := if detail.val = 0 then object.length else size.toNat
      let s := s.modGfx fun g => { g with compiles := g.compiles.filter fun x => !(x.f == f.val && x.number == job.toNat) }
      let s := if d = 0 then s.store j.out object else s
      let s := s.store j.record (leBytes 2 (if d = 0 then stDone else stNoResource) ++ leBytes 2 d ++ leBytes 4 n
        ++ leBytes 8 s.now.word.toNat)
      s.raise 199 (f.val * 256 + d))

/-- Whether a composition is enabled on head `n`, in its shadow or its active state. -/
def State.compOn (s : State) (n : Nat) : Bool := s.flag (gfxCompCtrl_EN n) || s.compGet (gfxCompCtrl_EN n) != 0

def specDeadlineSet : OpSpec :=
  { opcode := 0x0706, lens := len 8, zero := fun _ => zeroMask [(4, 7)] [], modes := modesPSDT, issuer := .tenants,
    member := .capable, names := namesHead, owns := ownsHead, log := .logged,
    check := fun s o =>
      let tm := s.timing o.tgt
      if s.compOn o.tgt then some (stConflict, 1)
      else if tm.k * tm.hl ≤ o.u16 0 ∧ 0 < tm.hl then some (stNoResource, 1)
      else if tm.k * tm.hl ≤ o.u16 2 ∧ 0 < tm.hl then some (stNoResource, 3)
      else if s.positionsOk o.tgt (o.u16 0) (o.u16 2) then none else some (stNoResource, 0x00F8),
    land := fun s o => (s.put (gfxDl_WARN o.tgt) (o.u16 0)).put (gfxDl_DEAD o.tgt) (o.u16 2),
    heads := fun _ o => [o.tgt] }

/-- The first payload byte of COMP_SET that is out of range. -/
def compSetRange (o : Origin) : Option Nat :=
  if 1 < o.u8 0 then some 0
  else if 47 < o.u8 1 then some 1
  else if 63 < o.u8 2 then some 2
  else if addrBad (o.u64 8) then some 8
  else if addrBad (o.u64 16) then some 16
  else if addrBad (o.u64 24) then some 24
  else if o.u32 32 % 8 ≠ 0 ∨ o.u32 32 < 8 ∨ 16777216 < o.u32 32 then some 32
  else none

/-- The refusal of a surface that breaks R152 for the pipe's format and geometry (R220, R231). -/
def State.surfaceRefusal (s : State) (o : Origin) (off : Nat) : Option (Nat × Nat) :=
  match s.layerFault { s.layer (o.u8 1) 0 with addr0 := o.u64 off } o.func with
  | some (b, _) => some (stNoResource, if b = 16 then 1 + off else 1 + b)
  | none => none

/-- The checks of COMP_SET in the landing frame (R220, R221, R231). -/
def compSetCheck (s : State) (o : Origin) : Option (Nat × Nat) :=
  let n := o.tgt
  let p := o.u8 1
  let owner := s.headOwner n
  match compSetRange o with
  | some b => some (stNoResource, 1 + b)
  | none =>
    if o.u8 0 = 0 then none
    else if s.get (layerBind_HEAD p) ≠ n ∨ s.pipeOwner p ≠ owner then some (stNotOwner, 2)
    else if ((s.compBound p).elim false fun m => m != n) then some (stConflict, 6)
    else if o.u8 2 ≠ 0 ∧ s.ctxOwner (o.u8 2) ≠ owner then some (stNoResource, 3)
    else match s.surfaceRefusal o 8 with
      | some r => some r
      | none => match s.surfaceRefusal o 16 with
        | some r => some r
        | none =>
          if !s.scanMay owner (o.u64 24) (o.u32 32) then some (stNoResource, 25)
          else if !s.admitted then some (stNoResource, 0xFB)
          else if s.positionsOk n (s.get (gfxDl_WARN n)) (s.get (gfxDl_DEAD n)) then none
          else some (stNoResource, 0x00F8)

def specCompSet : OpSpec :=
  { opcode := 0x0707, lens := len 48, zero := fun _ => zeroMask [(3, 7), (36, 39)] [], modes := modesPSDT,
    issuer := .tenants, member := .capable, names := namesHead, owns := ownsHead, log := .logged, check := compSetCheck,
    land := fun s o =>
      let n := o.tgt
      let s := ((s.put (gfxCompCtrl_EN n) (o.u8 0)).put (gfxCompCtrl_PIPE n) (o.u8 1)).put (gfxCompCtrl_FENCE_CTX n) (o.u8 2)
      let s := ((s.put (gfxCompSurf0_ADDR n) (o.u64 8 / 64)).put (gfxCompSurf1_ADDR n) (o.u64 16 / 64)).put
        (gfxCompList_ADDR n) (o.u64 24 / 64)
      (s.put (gfxCompLen_LEN n) (o.u32 32 / 8)).put (gfxCompFence_VALUE n) (o.u64 40),
    heads := fun _ o => [o.tgt] }

def specCompTime : OpSpec :=
  { opcode := 0x0708, lens := len 8, modes := modesPSDT, issuer := .tenants, member := .capable, names := namesHead,
    owns := ownsHead, log := .flip 2,
    check := fun s o => if (s.commitStamp o).lt (stampOf (BitVec.ofNat 64 (o.u64 0))) then some (stNoResource, 1) else none,
    land := fun s o => s.wr (gfxCompCtime o.tgt) (BitVec.ofNat 64 (o.u64 0)), heads := fun _ o => [o.tgt] }

def specGfxQuery : OpSpec :=
  { opcode := 0x0709, lens := len 0, modes := allModes, issuer := .tenants, query := true, names := namesFn, owns := ownsFn,
    run := fun s o =>
      let used := match s.tenant o.tgt with
        | some t => (t.contexts.map fun c => s.get (gfxCtxUsed_CLUSTER_US c)).sum
        | none => 0
      (s, .answer (done ((s.rd gfxStatus).toNat + 0x100000000 * (used % 2 ^ 32))
        (if o.ring = 32 then s.get gfxPreemptMax_MAX else 0))) }

def specPassQuery : OpSpec :=
  { opcode := 0x070A, lens := len 0, modes := allModes, issuer := .tenants, query := true, names := namesAnyCtx,
    owns := ownsCtx,
    run := fun s o => (s, .answer (done
      ((s.rd (gfxPassMode o.tgt)).toNat + 0x100000000 * (s.rd (gfxPassWritten o.tgt)).toNat)
      ((s.rd (gfxPassSkipped o.tgt)).toNat + 0x100000000 * (s.rd (gfxPassBin o.tgt)).toNat))) }

def execCtxSet (p : Packet) (s : State) : Host.Outcome State Fault Refusal := packetStep specCtxSet p s
def execGfxKick (p : Packet) (s : State) : Host.Outcome State Fault Refusal := packetStep specGfxKick p s
def execCtxReset (p : Packet) (s : State) : Host.Outcome State Fault Refusal := packetStep specCtxReset p s
def execCtxQuery (p : Packet) (s : State) : Host.Outcome State Fault Refusal := packetStep specCtxQuery p s
def execCompile (p : Packet) (s : State) : Host.Outcome State Fault Refusal := packetStep specCompile p s
def execDeadlineSet (p : Packet) (s : State) : Host.Outcome State Fault Refusal := packetStep specDeadlineSet p s
def execCompSet (p : Packet) (s : State) : Host.Outcome State Fault Refusal := packetStep specCompSet p s
def execCompTime (p : Packet) (s : State) : Host.Outcome State Fault Refusal := packetStep specCompTime p s
def execGfxQuery (p : Packet) (s : State) : Host.Outcome State Fault Refusal := packetStep specGfxQuery p s
def execPassQuery (p : Packet) (s : State) : Host.Outcome State Fault Refusal := packetStep specPassQuery p s

end Sys2Proof.Machine
end

