-- ==== Sys2Proof/Machine/Draws.lean ====
section
/-! DEFINITION. Draw packets (R214 to R216): how a context takes the packet it stands at, and the effect of every packet but
the passes (Render.lean) and ray batches (Ray.lean). -/
namespace Sys2Proof.Machine

/-! ### The packet at hand (R214) -/

/-- The length in words of each command; 0 for any. -/
def drawWords (code : Nat) : Option Nat :=
  match code with
  | 0x0000 => some 0
  | 0x0001 => some 3
  | 0x0002 => some 3
  | 0x0010 => some 2
  | 0x0011 => some 2
  | 0x0012 => some 2
  | 0x0013 => some 2
  | 0x0020 => some 2
  | 0x0021 => some 1
  | 0x0030 => some 3
  | 0x0031 => some 4
  | 0x0032 => some 3
  | 0x0040 => some 3
  | 0x0041 => some 2
  | 0x0050 => some 1
  | 0x0060 => some 2
  | 0x0061 => some 2
  | 0x0070 => some 2
  | 0x0080 => some 4
  | 0x0081 => some 3
  | 0x0090 => some 5
  | _ => none

/-- The bits of each command's packet that must be zero: the immediate operand where the command defines none, and the bytes
its row marks zero. -/
def drawZero (code : Nat) : Nat → Nat :=
  match code with
  | 0x0001 | 0x0002 => zeroMask [(4, 7), (20, 23)] []
  | 0x0011 => zeroMask [(5, 7)] [(4, 0xF8)]
  | 0x0020 => zeroMask [(5, 7)] [(4, 0xFC)]
  | 0x0031 => zeroMask [(4, 7), (28, 31)] []
  | 0x0032 => zeroMask [(5, 7)] [(4, 0xFE)]
  | 0x0040 => zeroMask [(4, 7), (20, 23)] []
  | 0x0050 => zeroMask [(5, 7)] [(4, 0xF8)]
  | 0x0060 => zeroMask [(5, 7)] [(4, 0xFE)]
  | 0x0061 => zeroMask [(5, 7)] []
  | 0x0080 => zeroMask [(4, 7), (28, 31)] []
  | 0x0081 => zeroMask [(20, 23)] []
  | 0x0090 => zeroMask [(5, 7), (28, 31)] [(4, 0xF8)]
  | _ => zeroMask [(4, 7)] []

/-- A packet in its buffer: its context, its address, its words and its bytes. -/
structure DrawAt where
  ctx : Nat
  addr : Nat
  words : Nat
  bytes : List Byte
  deriving DecidableEq, Repr

/-- A field of a packet. -/
def DrawAt.u8 (d : DrawAt) (i : Nat) : Nat := leAt d.bytes i 1
def DrawAt.u32 (d : DrawAt) (i : Nat) : Nat := leAt d.bytes i 4
def DrawAt.u64 (d : DrawAt) (i : Nat) : Nat := leAt d.bytes i 8

/-- A packet faults its context. -/
def State.packetFault (s : State) (d : DrawAt) (code : Nat) : State := s.ctxFaults d.ctx code d.addr

/-- The context moves past a packet that has taken effect. -/
def State.past (s : State) (d : DrawAt) : State :=
  s.modGctx d.ctx fun x => { x with stack := match x.stack with
    | b :: rest => (b.1 + 8 * d.words, b.2) :: rest
    | [] => [] }

/-- A context that runs takes the packet it stands at, if that is one of the given command; a malformed packet is fault 1
(R214, R215). -/
def State.takePacket (s : State) (c code : Nat) (run : State → DrawAt → State) : State :=
  if !s.ctxActive c then s
  else
    let s := s.countClusters.loadEntry c
    if !s.ctxActive c then s
    else
      let s := s.modGctx c fun x => { x with stack := dropEnded x.stack }
      match (s.gctx c).stack with
      | [] => s
      | (a, e) :: _ =>
        if e ≤ a then s
        else
          let k := s.loadNat a 2
          let words := s.loadNat (a + 2) 2
          if e < a + 8 then s.ctxFaults c 1 a
          else match drawWords k with
            | none => s.ctxFaults c 1 a
            | some n =>
              if words = 0 ∨ 4096 < words ∨ (n ≠ 0 ∧ words ≠ n) ∨ e < a + 8 * words then s.ctxFaults c 1 a
              else if k ≠ code then s
              else
                let d : DrawAt := ⟨c, a, words, s.load a (8 * min words 5)⟩
                if (firstBad (drawZero code) (if code = 0 then d.bytes.take 8 else d.bytes)).isSome then s.ctxFaults c 1 a
                else run s d

/-- A draw packet's command, as an outcome of the machine. -/
def drawStep (c code : Nat) (run : State → DrawAt → State) (s : State) : Host.Outcome State Fault Refusal :=
  .next (s.takePacket c code run)

/-! ### Flow -/

/-- The buffer a JUMP or CALL names, if it may be entered; else the fault code. -/
def State.branchTarget (s : State) (d : DrawAt) : Except Nat (Nat × Nat) :=
  if d.u32 16 % 8 ≠ 0 then .error 3
  else if !s.gfxMay d.ctx (d.u64 8) (d.u32 16) then .error 2
  else .ok (d.u64 8, d.u64 8 + d.u32 16)

/-- DRAW_PACKET_NOP: the body is ignored. -/
def execDrawPacketNop (ctx : Fin 64) (s : State) : Host.Outcome State Fault Refusal := drawStep ctx.val 0x0000 State.past s

/-- JUMP: the rest of this buffer is not run. -/
def execJump (ctx : Fin 64) (s : State) : Host.Outcome State Fault Refusal :=
  drawStep ctx.val 0x0001 (fun s d => match s.branchTarget d with
    | .error e => s.packetFault d e
    | .ok b => s.modGctx d.ctx fun x => { x with stack := b :: x.stack.tail }) s

/-- CALL: returns to the next packet at the called buffer's end; at most 4 deep. -/
def execCallList (ctx : Fin 64) (s : State) : Host.Outcome State Fault Refusal :=
  drawStep ctx.val 0x0002 (fun s d => match s.branchTarget d with
    | .error e => s.packetFault d e
    | .ok b =>
      if 5 ≤ (s.gctx d.ctx).stack.length then s.packetFault d 3
      else (s.past d).modGctx d.ctx fun x => { x with stack := b :: x.stack }) s

/-! ### Bindings -/

/-- Bound object `i` of a context becomes the one at an address in the tenant's DRAM: 0 pipeline, 1 buffers, 2 dynamic, 3 + k
descriptor set k. -/
def State.bindAt (s : State) (d : DrawAt) (i : Nat) : State :=
  if !s.gfxMay d.ctx (d.u64 8) 1 then s.packetFault d 2
  else (s.past d).modGctx d.ctx fun x => { x with bound := x.bound.set i (d.u64 8) }

/-- SET_PIPELINE: an object that COMPILE did not make, or whose check fails, is fault 5. -/
def execSetPipeline (ctx : Fin 64) (good : Bool) (s : State) : Host.Outcome State Fault Refusal :=
  drawStep ctx.val 0x0010 (fun s d =>
    if s.gfxMay d.ctx (d.u64 8) 1 && !good then s.packetFault d 5 else s.bindAt d 0) s
def execSetDescriptors (ctx : Fin 64) (s : State) : Host.Outcome State Fault Refusal :=
  drawStep ctx.val 0x0011 (fun s d => s.bindAt d (3 + d.u8 4)) s
def execSetBuffers (ctx : Fin 64) (s : State) : Host.Outcome State Fault Refusal :=
  drawStep ctx.val 0x0012 (fun s d => s.bindAt d 1) s
def execSetDynamic (ctx : Fin 64) (s : State) : Host.Outcome State Fault Refusal :=
  drawStep ctx.val 0x0013 (fun s d => s.bindAt d 2) s

/-! ### Draws and dispatches -/

/-- What the shaders did takes effect, unless the packet stands outside a pass (fault 7) or a shader exception stops it
(fault 8); a tiled pass's first flush raises BIN_FLUSH (R215, R238). -/
def State.doWork (s : State) (d : DrawAt) (w : Work) : State :=
  match (s.gctx d.ctx).pass with
  | none => s.packetFault d 7
  | some p =>
    if w.exception || w.writes.any fun x => !s.gfxMay d.ctx x.1.toNat x.2.length then s.packetFault d 8
    else
      let n := if p.tiled then w.flushes.toNat else 0
      let s := s.each w.writes fun s x => s.store x.1.toNat x.2
      let s := s.when (n != 0 && p.flushes == 0) fun s => s.raise 201 d.ctx
      (s.past d).modGctx d.ctx fun x => { x with pass := some { p with
        flushes := p.flushes + n, prims := p.prims + w.prims.toNat, culled := p.culled + w.culled.toNat,
        frags := p.frags + w.frags.toNat, bin := max p.bin w.bin.toNat } }

def execDraw (ctx : Fin 64) (work : Work) (s : State) : Host.Outcome State Fault Refusal :=
  drawStep ctx.val 0x0030 (fun s d => s.doWork d work) s
def execDrawIndexed (ctx : Fin 64) (work : Work) (s : State) : Host.Outcome State Fault Refusal :=
  drawStep ctx.val 0x0031 (fun s d => s.doWork d work) s

/-- DRAW_INDIRECT: the argument blocks, of four or five words at the given stride, lie in the tenant's DRAM. -/
def execDrawIndirect (ctx : Fin 64) (work : Work) (s : State) : Host.Outcome State Fault Refusal :=
  drawStep ctx.val 0x0032 (fun s d =>
    let size := if d.u8 4 % 2 = 1 then 20 else 16
    if d.u64 8 % 4 ≠ 0 then s.packetFault d 1
    else if d.u32 16 ≠ 0 ∧ !s.gfxMay d.ctx (d.u64 8) ((d.u32 16 - 1) * d.u32 20 + size) then s.packetFault d 2
    else s.doWork d work) s

/-- DISPATCH: each group count is 1 to 65,535. -/
def execDispatch (ctx : Fin 64) (work : Work) (s : State) : Host.Outcome State Fault Refusal :=
  drawStep ctx.val 0x0040 (fun s d =>
    if [8, 12, 16].any fun i => d.u32 i == 0 || decide (65535 < d.u32 i) then s.packetFault d 1 else s.doWork d work) s

/-- DISPATCH_INDIRECT: the three group counts lie in the tenant's DRAM. -/
def execDispatchIndirect (ctx : Fin 64) (work : Work) (s : State) : Host.Outcome State Fault Refusal :=
  drawStep ctx.val 0x0041 (fun s d =>
    if d.u64 8 % 4 ≠ 0 then s.packetFault d 1
    else if !s.gfxMay d.ctx (d.u64 8) 12 then s.packetFault d 2
    else s.doWork d work) s

/-! ### Order and memory -/

/-- BARRIER: the model completes each packet before the next, so it waits for nothing. -/
def execBarrier (ctx : Fin 64) (s : State) : Host.Outcome State Fault Refusal := drawStep ctx.val 0x0050 State.past s

/-- FENCE_SIGNAL: the counter is set once all earlier work has completed (R216). -/
def execFenceSignal (ctx : Fin 64) (s : State) : Host.Outcome State Fault Refusal :=
  drawStep ctx.val 0x0060 (fun s d => (s.past d).modGctx d.ctx fun x => { x with
    signals := x.signals ++ [(d.u64 8, d.u8 4 % 2 == 1)] }) s

/-- FENCE_WAIT: the context waits for a context of the same tenant; in a composition list it is fault 4 (R216, R220). -/
def execFenceWait (ctx : Fin 64) (s : State) : Host.Outcome State Fault Refusal :=
  drawStep ctx.val 0x0061 (fun s d =>
    let w := d.u8 4
    if d.ctx = 0 ∨ w = 0 ∨ 63 < w ∨ s.ctxOwner w ≠ s.ctxOwner d.ctx then s.packetFault d 4
    else
      let s := s.past d
      if d.u64 8 ≤ s.fence w then s
      else (s.modGctx d.ctx fun x => { x with waiting := some (w, d.u64 8) }).leaveRunning d.ctx ctxWaiting) s

/-- TIMESTAMP: the WALLTIME is written once prior work has completed. -/
def execTimestamp (ctx : Fin 64) (s : State) : Host.Outcome State Fault Refusal :=
  drawStep ctx.val 0x0070 (fun s d =>
    if d.u64 8 % 8 ≠ 0 then s.packetFault d 1
    else if !s.gfxMay d.ctx (d.u64 8) 8 then s.packetFault d 2
    else (s.store (d.u64 8) (leBytes 8 s.now.word.toNat)).past d) s

/-- COPY: bytes are read, then written. -/
def execCopy (ctx : Fin 64) (s : State) : Host.Outcome State Fault Refusal :=
  drawStep ctx.val 0x0080 (fun s d =>
    let n := d.u32 24
    if !s.gfxMay d.ctx (d.u64 8) n || !s.gfxMay d.ctx (d.u64 16) n then s.packetFault d 2
    else (s.store (d.u64 16) (s.load (d.u64 8) n)).past d) s

/-- FILL: a 32-bit pattern is repeated. -/
def execFill (ctx : Fin 64) (s : State) : Host.Outcome State Fault Refusal :=
  drawStep ctx.val 0x0081 (fun s d =>
    let n := d.u32 16
    if d.u64 8 % 4 ≠ 0 ∨ n % 4 ≠ 0 then s.packetFault d 1
    else if !s.gfxMay d.ctx (d.u64 8) n then s.packetFault d 2
    else (s.store (d.u64 8) ((List.range (n / 4)).flatMap fun _ => bytesAt d.bytes 4 4)).past d) s

end Sys2Proof.Machine
end

