-- ==== Sys2Proof/Machine/Render.lean ====
section
/-! DEFINITION. Rendering passes: the pass descriptor, mode selection, tiles, signatures and statistics (R233 to R254). What
shaders draw is given from outside; what the W8 does with it is here. -/
namespace Sys2Proof.Machine

/-! ### Formats (R240, R241) -/

/-- The bytes per pixel of a render-target format; 0 for a code that is none. -/
def rtBytes (code : Nat) : Nat :=
  match code with
  | 0 | 1 | 2 | 3 => 4
  | 4 => 2
  | 5 => 8
  | 16 => 1
  | 17 | 18 | 32 => 2
  | 19 | 20 | 21 | 33 | 34 => 4
  | 22 => 16
  | 35 => 8
  | _ => 0

/-- A half-float clamped to 0 to 1 as a UNORM of `n` bits: floor(v × (2ⁿ − 1) + 0.5); a NaN gives 0. -/
def halfUnorm (n : Nat) (h : Nat) : Nat :=
  let e := h / 1024 % 32
  let m := h % 1024
  if e = 31 ∧ m ≠ 0 then 0
  else if h / 32768 % 2 = 1 then 0
  else if 15 ≤ e then 2 ^ n - 1
  else
    let v := if e = 0 then m else (1024 + m) * 2 ^ (e - 1)
    (2 * v * (2 ^ n - 1) + 2 ^ 24) / 2 ^ 25

/-- A float clamped to 0 to 1 as a UNORM of `n` bits. -/
def floatUnorm (n : Nat) (f : Nat) : Nat :=
  let e := f / 2 ^ 23 % 256
  let m := f % 2 ^ 23
  if e = 255 ∧ m ≠ 0 then 0
  else if f / 2 ^ 31 % 2 = 1 then 0
  else if 127 ≤ e then 2 ^ n - 1
  else
    let v := if e = 0 then m else (2 ^ 23 + m) * 2 ^ (e - 1)
    (2 * v * (2 ^ n - 1) + 2 ^ 149) / 2 ^ 150

/-- A half-float as a float, exactly. -/
def halfFloat (h : Nat) : Nat :=
  let s := h / 32768 % 2 * 2 ^ 31
  let e := h / 1024 % 32
  let m := h % 1024
  if e = 31 then s + 255 * 2 ^ 23 + m * 2 ^ 13
  else if e ≠ 0 then s + (e + 112) * 2 ^ 23 + m * 2 ^ 13
  else if m = 0 then s
  else
    let k := Nat.log2 m
    s + (103 + k) * 2 ^ 23 + (m * 2 ^ (23 - k) - 2 ^ 23)

/-- The clear value of an attachment record as a pixel of its format (R234, R241). -/
def clearPixel (fmt : Nat) (rec : List Byte) : List Byte :=
  let h (i : Nat) : Nat := leAt rec (16 + 2 * i) 2
  let u (n i : Nat) : Nat := halfUnorm n (h i)
  let f : Nat := leAt rec 16 4
  match fmt with
  | 0 => leBytes 1 (u 8 2) ++ leBytes 1 (u 8 1) ++ leBytes 1 (u 8 0) ++ [0]
  | 1 => leBytes 1 (u 8 2) ++ leBytes 1 (u 8 1) ++ leBytes 1 (u 8 0) ++ leBytes 1 (u 8 3)
  | 2 => leBytes 4 (u 10 2 + 2 ^ 10 * u 10 1 + 2 ^ 20 * u 10 0)
  | 3 => leBytes 4 (u 10 2 + 2 ^ 10 * u 10 1 + 2 ^ 20 * u 10 0 + 2 ^ 30 * u 2 3)
  | 4 => leBytes 2 (u 5 2 + 2 ^ 5 * u 6 1 + 2 ^ 11 * u 5 0)
  | 5 => leBytes 2 (h 0) ++ leBytes 2 (h 1) ++ leBytes 2 (h 2) ++ leBytes 2 (h 3)
  | 16 => leBytes 1 (u 8 0)
  | 17 => leBytes 1 (u 8 0) ++ leBytes 1 (u 8 1)
  | 18 => leBytes 2 (h 0)
  | 19 => leBytes 2 (h 0) ++ leBytes 2 (h 1)
  | 20 => leBytes 4 (halfFloat (h 0))
  | 21 => leBytes 4 (Config.clearUint (BitVec.ofNat 16 (h 0))).toNat
  | 22 => (List.range 4).flatMap fun i => leBytes 4 (halfFloat (h i))
  | 32 => leBytes 2 (floatUnorm 16 f)
  | 33 => leBytes 3 (floatUnorm 24 f) ++ leBytes 1 (leAt rec 20 1)
  | 34 => leBytes 4 f
  | _ => leBytes 4 f ++ leBytes 1 (leAt rec 20 1) ++ [0, 0, 0]

/-! ### The pass descriptor (R233) -/

/-- An attachment of a pass: its record's number, address, stride, format, layout, load and store op, signature table
address, and the record's bytes. -/
structure Attach where
  index : Nat
  addr : Nat
  stride : Nat
  fmt : Nat
  tiled : Bool
  loadOp : Nat
  storeOp : Nat
  table : Nat
  bytes : List Byte
  deriving DecidableEq, Repr

/-- Attachment record `a` of a descriptor. -/
def attachOf (b : List Byte) (a : Nat) : Attach :=
  let r := bytesAt b (32 + 32 * a) 32
  { index := a, addr := leAt r 0 8, stride := leAt r 8 4, fmt := leAt r 12 1, tiled := leAt r 13 1 == 1,
    loadOp := leAt r 14 1, storeOp := leAt r 15 1, table := leAt r 24 8, bytes := r }

/-- The attachments that a descriptor uses, colour first. -/
def attachments (b : List Byte) : List Attach :=
  (List.range (leAt b 1 1)).map (attachOf b) ++ if leAt b 3 1 % 2 = 1 then [attachOf b 4] else []

/-- The width and height of a pass. -/
def passWidth (b : List Byte) : Nat := leAt b 4 2
def passHeight (b : List Byte) : Nat := leAt b 6 2
/-- The screen tiles in a row of a pass, and its rows of tiles. -/
def tileCols (b : List Byte) : Nat := (passWidth b + 31) / 32
def tileRows (b : List Byte) : Nat := (passHeight b + 31) / 32

/-- Whether an attachment record breaks the limits of R233, R240 or R242. -/
def Attach.bad (t : Attach) (b : List Byte) : Bool :=
  let bpp := rtBytes t.fmt
  let tb := 1024 * bpp
  bpp == 0 || (t.fmt / 32 == 1) != (t.index == 4) || leAt t.bytes 13 1 > 1 || t.loadOp > 2 || t.storeOp > 1
    || t.addr % (if t.tiled then 4096 else 64) != 0
    || (if t.tiled then t.stride % tb != 0 || decide (t.stride < tileCols b * tb)
        else t.stride % 64 != 0 || decide (t.stride < passWidth b * bpp))
    || t.table % 64 != 0 || (t.index == 4 && (t.table != 0 || leAt t.bytes 21 3 != 0))

/-- The bytes an attachment occupies (R242). -/
def Attach.footprint (t : Attach) (b : List Byte) : Nat :=
  if t.tiled then tileRows b * t.stride else (passHeight b - 1) * t.stride + passWidth b * rtBytes t.fmt

/-- The bytes of a signature table (R247). -/
def tableSize (b : List Byte) : Nat := 64 + 8 * (tileCols b * tileRows b)

/-- Whether a descriptor, or its use with the given force bits, is fault 1 (R233, R235, R237). -/
def descriptorBad (b : List Byte) (force : Nat) : Bool :=
  let samples := leAt b 2 1
  let bin := leAt b 16 4
  let atts := attachments b
  force == 3 || leAt b 0 1 != 1 || leAt b 1 1 > 4 || (samples != 1 && samples != 4) || leAt b 3 1 > 7
    || passWidth b == 0 || passWidth b > 8192 || passHeight b == 0 || passHeight b > 8192
    || leAt b 8 8 % 4096 != 0 || (bin == 0 && leAt b 8 8 != 0) || bin % 65536 != 0 || bin > 0x40000000
    || leAt b 20 4 != 0 || (leAt b 3 1 / 4 % 2 == 1 && leAt b 24 8 % 64 != 0)
    || atts.any (·.bad b) || (samples == 4 && bin == 0)
    || decide (160 < samples * (atts.map fun t => rtBytes t.fmt).sum)

/-- An attachment of a composition that names one of its surfaces is the surface that the job writes (R222). -/
def State.redirect (s : State) (c : Nat) (t : Attach) : Attach :=
  match (if c = 0 then s.gfx.current else none) with
  | some n =>
    if t.addr = s.surface n 0 ∨ t.addr = s.surface n 1 then { t with addr := s.surface n (s.job n).target } else t
  | none => t

/-- Whether a range named by a descriptor lies outside the DRAM its context reaches: fault 2. -/
def State.descriptorOutside (s : State) (c : Nat) (b : List Byte) : Bool :=
  let sig := leAt b 3 1 / 2 % 2 == 1
  (leAt b 16 4 != 0 && !s.gfxMay c (leAt b 8 8) (leAt b 16 4))
    || (leAt b 3 1 / 4 % 2 == 1 && !s.gfxMay c (leAt b 24 8) 64)
    || (attachments b).any fun t => !s.gfxMay c t.addr (t.footprint b)
        || (sig && t.table != 0 && !s.gfxMay c t.table (tableSize b))

/-! ### Mode selection (R235, R236) -/

/-- The selection step of a pass; `marked` says that the pass history applies step 6. -/
def State.selectStep (s : State) (b : List Byte) (force : Nat) (marked : Bool) : Nat :=
  if leAt b 2 1 = 4 then 1
  else if force % 2 = 1 then 2
  else if force / 2 = 1 then 3
  else if leAt b 16 4 = 0 then 4
  else if tileCols b * tileRows b < s.get gfxTileCfg_TILED_MIN then 5
  else if marked then 6
  else 7

/-- Whether a pass runs tiled. -/
def stepTiled (step : Nat) (b : List Byte) : Bool := step == 1 || (step == 2 && leAt b 16 4 != 0) || step == 7

/-- A run of a descriptor enters the pass history: its entry comes first, one run fewer left at step 6; 16 are kept. -/
def enterHistory (h : List (Nat × Nat)) (desc : Nat) : List (Nat × Nat) :=
  ((desc, (((h.find? fun e => e.1 == desc).map (·.2)).getD 0) - 1) :: h.filter fun e => e.1 != desc).take 16

/-- Whether step 6 applies to a descriptor. -/
def markedIn (h : List (Nat × Nat)) (desc : Nat) : Bool := h.any fun e => e.1 == desc && e.2 != 0

/-- A descriptor's entry is marked for the next 64 runs. -/
def markHistory (h : List (Nat × Nat)) (desc : Nat) : List (Nat × Nat) := h.map fun e => if e.1 = desc then (desc, 64) else e

/-! ### Signature tables (R246 to R249) -/

/-- The key of a signature table (R247). -/
def tableKey (t : Attach) (b : List Byte) : List Byte :=
  leBytes 8 t.addr ++ leBytes 4 t.stride ++ leBytes 1 t.fmt ++ leBytes 1 (if t.tiled then 1 else 0) ++ [0, 0]
    ++ leBytes 2 (passWidth b) ++ leBytes 2 (passHeight b)

/-- Whether an attachment receives signatures in a pass of the given mode. -/
def Attach.signed (t : Attach) (b : List Byte) (tiled : Bool) : Bool :=
  tiled && leAt b 3 1 / 2 % 2 == 1 && t.index != 4 && t.table != 0 && t.storeOp == 0

/-- The tables of a pass are read and made invalid at BEGIN_PASS; the numbers of the usable ones are answered (R248, R249). -/
def State.openTables (s : State) (c : Nat) (b : List Byte) (tiled : Bool) : State × List Bool :=
  let atts := (attachments b).map (s.redirect c)
  let has (t : Attach) : Bool := leAt b 3 1 / 2 % 2 == 1 && t.index != 4 && t.table != 0
  let valid (t : Attach) : Bool := t.signed b tiled && s.loadNat (t.table + 20) 1 % 2 == 1
  let usable (t : Attach) : Bool := valid t && s.load t.table 20 == tableKey t b
  let ok := (List.range 4).map fun a => atts.any fun t => t.index == a && usable t
  let s := s.each (atts.filter fun t => valid t && !usable t) fun s t => s.raise 202 (c * 256 + t.index)
  (s.each (atts.filter has) fun s t => s.store (t.table + 20) [s.byte (t.table + 20) &&& 0xFE], ok)

/-- The signature of a stored tile (R246). -/
def tileSignature (t : Attach) (x y : Nat) (bytes : List Byte) : Nat :=
  crcOf crc64 (leBytes 2 x ++ leBytes 2 y ++ leBytes 1 t.index ++ leBytes 1 t.fmt
    ++ leBytes 1 (if t.tiled then 1 else 0) ++ [0] ++ bytes)

/-! ### Tiles (R234, R242) -/

/-- The address of pixel (x, y) of an attachment. -/
def Attach.pixelAt (t : Attach) (x y : Nat) : Nat :=
  let bpp := rtBytes t.fmt
  if t.tiled then t.addr + y / 32 * t.stride + x / 32 * (1024 * bpp) + (y % 32 * 32 + x % 32) * bpp
  else t.addr + y * t.stride + x * bpp

/-- A pixel of an attachment as the pass loads it. -/
def State.loadedPixel (s : State) (t : Attach) (x y : Nat) : List Byte :=
  match t.loadOp with
  | 0 => s.load (t.pixelAt x y) (rtBytes t.fmt)
  | 1 => clearPixel t.fmt t.bytes
  | _ => List.replicate (rtBytes t.fmt) 0

/-- Pixel (i, j) of screen tile (x, y) as the pass leaves it. -/
def State.finalPixel (s : State) (t : Attach) (given : Option TileData) (x y i j : Nat) : List Byte :=
  match given with
  | some d => bytesAt d.bytes ((j * 32 + i) * rtBytes t.fmt) (rtBytes t.fmt)
  | none => s.loadedPixel t (32 * x + i) (32 * y + j)

/-- The runs of bytes that storing screen tile (x, y) writes, with their addresses: the whole tile, its edge zero, in tiled
layout; the rows inside the area in linear layout (R242). -/
def State.tileRuns (s : State) (t : Attach) (b : List Byte) (given : Option TileData) (x y : Nat) : List (Nat × List Byte) :=
  let inside (i j : Nat) : Bool := decide (32 * x + i < passWidth b ∧ 32 * y + j < passHeight b)
  let px (i j : Nat) : List Byte :=
    if inside i j then s.finalPixel t given x y i j else List.replicate (rtBytes t.fmt) 0
  if t.tiled then
    [(t.pixelAt (32 * x) (32 * y), (List.range 32).flatMap fun j => (List.range 32).flatMap fun i => px i j)]
  else
    ((List.range 32).filter fun j => inside 0 j).map fun j =>
      (t.pixelAt (32 * x) (32 * y + j), ((List.range 32).filter fun i => inside i j).flatMap fun i => px i j)

/-- One tile is stored at the end of a pass, or skipped for its signature (R246, R248); `usable` and `sign` say how its table
stands. Answers whether it was written. -/
def State.storeTile (s : State) (t : Attach) (b : List Byte) (given : Option TileData) (x y : Nat) (sign usable : Bool) :
    State × Bool :=
  let runs := s.tileRuns t b given x y
  let entry := t.table + 64 + 8 * (y * tileCols b + x)
  let sig := tileSignature t x y (runs.flatMap (·.2))
  if sign && usable && s.loadNat entry 8 == sig then (s, false)
  else
    let s := s.each runs fun s r => s.store r.1 r.2
    (if sign then s.store entry (leBytes 8 sig) else s, true)

/-- All tiles of one attachment are stored; answers how many were written and how many skipped. -/
def State.storeAttach (s : State) (t : Attach) (b : List Byte) (tiles : List TileData) (sign usable : Bool) :
    State × Nat × Nat :=
  (List.range (tileRows b)).foldl (fun acc y => (List.range (tileCols b)).foldl (fun acc x =>
    let given := tiles.find? fun d => d.attachment.val == t.index && d.column.toNat == x && d.row.toNat == y
    let (s, wrote) := acc.1.storeTile t b given x y sign usable
    if wrote then (s, acc.2.1 + 1, acc.2.2) else (s, acc.2.1, acc.2.2 + 1)) acc) (s, 0, 0)

/-- The header of a signature table that a run has completed (R247). -/
def tableHeader (t : Attach) (b : List Byte) (time : W64) (written skipped : Nat) : List Byte :=
  tableKey t b ++ [1, 0, 0, 0] ++ leBytes 8 time.toNat ++ leBytes 4 written ++ leBytes 4 skipped ++ List.replicate 24 0

/-! ### BEGIN_PASS and END_PASS -/

/-- BEGIN_PASS: the descriptor is checked, the mode chosen, and the signature tables opened (R233, R235, R248). A pass inside
a pass is fault 7. -/
def execBeginPass (ctx : Fin 64) (s : State) : Host.Outcome State Fault Refusal :=
  drawStep ctx.val 0x0020 (fun s d =>
    let c := d.ctx
    let desc := d.u64 8
    let b := s.load desc 192
    let force := d.u8 4
    if (s.gctx c).pass.isSome then s.packetFault d 7
    else if desc % 64 ≠ 0 then s.packetFault d 1
    else if !s.gfxMay c desc 192 then s.packetFault d 2
    else if descriptorBad b force then s.packetFault d 1
    else if s.descriptorOutside c b then s.packetFault d 2
    else
      let step := s.selectStep b force (markedIn (s.gctx c).history desc)
      let tiled := stepTiled step b
      let ignored := (step == 1 && force / 2 == 1) || (step == 2 && !tiled)
      let s := s.when ignored fun s => s.raise 200 (c * 256 + step)
      let (s, usable) := s.openTables c b tiled
      (s.past d).modGctx c fun x => { x with
        history := enterHistory x.history desc,
        pass := some { desc := desc, bytes := b, tiled := tiled, step := step, usable := usable, flushes := 0, prims := 0,
                       culled := 0, frags := 0, bin := 0, begun := s.now, used := 0 } }) s

/-- The statistics record of a pass (R252). -/
def passRecord (p : PassRun) (us written skipped : Nat) (time : W64) : List Byte :=
  leBytes 1 (if p.tiled then 1 else 0) ++ leBytes 1 p.step ++ leBytes 2 p.flushes ++ leBytes 4 written ++ leBytes 4 skipped
    ++ leBytes 4 p.prims ++ leBytes 4 p.culled ++ leBytes 4 p.bin ++ leBytes 8 p.frags ++ leBytes 4 us ++ [0, 0, 0, 0]
    ++ leBytes 8 p.begun.word.toNat ++ leBytes 8 time.toNat ++ List.replicate 8 0

/-- The statistics of a completed pass go to its context's registers and, when asked for, to memory (R252). -/
def State.passStats (s : State) (c : Nat) (p : PassRun) (written skipped : Nat) : State :=
  let us := s.grainsToUs p.used
  let s := ((s.putBit (gfxPassMode_MODE c) p.tiled).put (gfxPassMode_STEP c) p.step).put (gfxPassMode_FLUSHES c) p.flushes
  let s := ((s.put (gfxPassWritten_VALUE c) written).put (gfxPassSkipped_VALUE c) skipped).put (gfxPassPrims_VALUE c) p.prims
  let s := ((s.put (gfxPassBin_VALUE c) p.bin).put (gfxPassUs_VALUE c) us).put (gfxPassFrags_COUNT c) p.frags
  let s := (s.bumpBy gfxStoreCnt_COUNT written).bumpBy gfxSkipCnt_COUNT skipped
  if leAt p.bytes 3 1 / 4 % 2 = 1 then
    s.store (leAt p.bytes 24 8) (passRecord p us written skipped s.now.word)
  else s

/-- A pass completes: its attachments are stored tile by tile, signature tables are completed, and the statistics are
written. A pass that flushed stores every attachment (R238, R246 to R249, R252). -/
def State.endPass (s : State) (c : Nat) (p : PassRun) (tiles : List TileData) : State :=
  let b := p.bytes
  let atts := ((attachments b).map (s.redirect c)).filter fun t => t.storeOp == 0 || p.flushes != 0
  let (s, written, skipped) := atts.foldl (fun acc t =>
    let sign := t.signed b p.tiled
    let usable := p.usable.getD t.index false && p.flushes == 0 && acc.1.flag gfxTileCfg_SKIP_EN
    let (s, w, k) := acc.1.storeAttach t b tiles sign usable
    let s := s.when sign fun s => s.store t.table (tableHeader t b s.now.word w k)
    if t.index ≠ 4 ∧ t.storeOp = 0 then (s, acc.2.1 + w, acc.2.2 + k) else (s, acc.2.1, acc.2.2)) (s, 0, 0)
  let s := s.passStats c p written skipped
  s.modGctx c fun x => { x with
    pass := none, history := if p.tiled && p.flushes != 0 then markHistory x.history p.desc else x.history }

/-- END_PASS: outside a pass it is fault 7. -/
def execEndPass (ctx : Fin 64) (tiles : List TileData) (s : State) : Host.Outcome State Fault Refusal :=
  drawStep ctx.val 0x0021 (fun s d => match (s.gctx d.ctx).pass with
    | none => s.packetFault d 7
    | some p => (s.endPass d.ctx p tiles).past d) s

end Sys2Proof.Machine
end

