-- ==== Sys2Proof/Machine/Ray.lean ====
section
/-! DEFINITION. Ray traversal (R255 to R263), and touch picks up to their launch (R264 to R267, R270, R271). Rays are evaluated
exactly, on integers: a float is its value times 2^149. -/
namespace Sys2Proof.Machine

/-! ### Numbers -/

/-- Whether a float is finite. -/
def fpFinite (w : Nat) : Bool := w / 2 ^ 23 % 256 != 255

/-- A finite float times 2^149. -/
def fpInt (w : Nat) : Int :=
  let e := w / 2 ^ 23 % 256
  let m := w % 2 ^ 23
  let v : Nat := if e = 0 then m else (2 ^ 23 + m) * 2 ^ (e - 1)
  if w / 2 ^ 31 % 2 = 1 then -(v : Int) else v

/-- The float that is exactly num / den, for den > 0, if there is one. -/
def exactFloat (num : Int) (den : Nat) : Option Nat :=
  let sign := if num < 0 then 2 ^ 31 else 0
  let scaled := num.natAbs * 2 ^ 149
  if den = 0 ∨ scaled % den ≠ 0 then none
  else
    let m := scaled / den
    if m < 2 ^ 23 then some (sign + m)
    else
      let k := Nat.log2 m - 23
      if m % 2 ^ k ≠ 0 ∨ 254 ≤ k then none else some (sign + (k + 1) * 2 ^ 23 + (m / 2 ^ k - 2 ^ 23))

/-- Three coordinates, each times 2^149. -/
structure V3 where
  x : Int
  y : Int
  z : Int
  deriving DecidableEq, Repr

def V3.sub (a b : V3) : V3 := ⟨a.x - b.x, a.y - b.y, a.z - b.z⟩
def V3.dot (a b : V3) : Int := a.x * b.x + a.y * b.y + a.z * b.z
def V3.cross (a b : V3) : V3 := ⟨a.y * b.z - a.z * b.y, a.z * b.x - a.x * b.z, a.x * b.y - a.y * b.x⟩

/-- The vector whose floats stand at an offset of a byte string. -/
def v3At (b : List Byte) (off : Nat) : V3 := ⟨fpInt (leAt b off 4), fpInt (leAt b (off + 4) 4), fpInt (leAt b (off + 8) 4)⟩
/-- Whether the vector at an offset is finite. -/
def v3Finite (b : List Byte) (off : Nat) : Bool := [0, 4, 8].all fun i => fpFinite (leAt b (off + i) 4)

/-- A ray: origin, direction, the bits of tmin and tmax, which faces it culls, and whether it skips no-pick triangles. `odd`
marks one with a number that is not finite, whose result the spec does not state. -/
structure Ray where
  org : V3
  dir : V3
  tmin : Nat
  tmax : Nat
  cullBack : Bool
  cullFront : Bool
  pick : Bool
  odd : Bool
  deriving DecidableEq, Repr

/-- Whether tmin < num / den, for den > 0. -/
def Ray.above (r : Ray) (num : Int) (den : Nat) : Bool :=
  if fpFinite r.tmin then decide (fpInt r.tmin * den < num * 2 ^ 149) else r.tmin == 0xFF800000
/-- Whether num / den ≤ tmax, for den > 0. -/
def Ray.below (r : Ray) (num : Int) (den : Nat) : Bool :=
  if fpFinite r.tmax then decide (num * 2 ^ 149 ≤ fpInt r.tmax * den) else r.tmax == 0x7F800000

/-! ### The scene (R257 to R259) -/

/-- A scene: its hierarchy's base and size, its root and its node count. -/
structure Scene where
  base : Nat
  size : Nat
  root : Nat
  count : Nat
  deriving DecidableEq, Repr

/-- The scene that a descriptor describes, if it meets R257. -/
def State.sceneAt (s : State) (a : Nat) : Option Scene :=
  let b := s.load a 64
  let sc : Scene := ⟨leAt b 8 8, leAt b 16 8, leAt b 24 4, leAt b 4 4⟩
  if leAt b 0 1 = 1 ∧ leAt b 1 3 = 0 ∧ leAt b 28 8 = 0 ∧ (bytesAt b 36 28).all (· == 0) ∧ 1 ≤ sc.count ∧ sc.count ≤ 2 ^ 26
      ∧ sc.base % 64 = 0 ∧ sc.size % 64 = 0 ∧ sc.root < sc.count then some sc
  else none

/-- A hit: the triangle record, t, u and v over a common denominator, object class, identifier and primitive. -/
structure RayHit where
  record : Nat
  t : Int
  u : Int
  v : Int
  den : Nat
  cls : Nat
  object : Nat
  prim : Nat
  deriving DecidableEq, Repr

/-- Whether hit `a` is closer than `b`; among equal t the record with the lower address (R260). -/
def RayHit.closer (a b : RayHit) : Bool :=
  decide (a.t * b.den < b.t * a.den) || (decide (a.t * b.den = b.t * a.den) && decide (a.record < b.record))

/-- What a traversal has seen: nodes visited, triangles tested, hits, the status it ends with at once, whether more than the
budgets' nodes or triangles came up, and whether a triangle's vertices were not finite. -/
structure Trace where
  nodes : Nat
  tris : Nat
  hits : List RayHit
  bad : Option Nat
  spent : Bool
  odd : Bool
  deriving DecidableEq, Repr

/-- The hit of a ray on a triangle record, if it is valid, not culled and not skipped (R259, R260). -/
def triangleHit (r : Ray) (b : List Byte) (j : Nat) : Option RayHit :=
  let v0 := v3At b 0
  let e1 := (v3At b 12).sub v0
  let e2 := (v3At b 24).sub v0
  let p := r.dir.cross e2
  let det := e1.dot p
  let tv := r.org.sub v0
  let q := tv.cross e1
  let sgn : Int := if det < 0 then -1 else 1
  let den := det.natAbs
  let u := sgn * tv.dot p
  let v := sgn * r.dir.dot q
  let t := sgn * e2.dot q
  let flags := leAt b 44 1
  let culled := flags % 2 == 0 && ((r.cullBack && decide (det < 0)) || (r.cullFront && decide (0 < det)))
  if det = 0 ∨ u < 0 ∨ v < 0 ∨ (den : Int) < u + v then none
  else if culled || (r.pick && flags / 2 % 2 == 1) || !r.above t den || !r.below t den then none
  else some ⟨j, t, u, v, den, leAt b 45 1, leAt b 40 4, leAt b 36 4⟩

/-- A triangle record is tested; a bad one ends the ray with status 3 (R261). -/
def State.testTriangle (s : State) (sc : Scene) (r : Ray) (limit : Option Nat) (j : Nat) (tr : Trace) : Trace :=
  if tr.bad.isSome || tr.spent then tr
  else if sc.size < 48 * (j + 1) then { tr with bad := some 3 }
  else
    let b := s.load (sc.base + 48 * j) 48
    if leAt b 44 1 > 3 ∨ leAt b 46 2 ≠ 0 then { tr with bad := some 3 }
    else if (limit.elim false fun n => decide (n ≤ tr.tris)) then { tr with spent := true }
    else
      let tr := { tr with tris := tr.tris + 1 }
      if !(v3Finite b 0 && v3Finite b 12 && v3Finite b 24) then { tr with odd := true }
      else match triangleHit r b j with
        | some h => { tr with hits := tr.hits ++ [h] }
        | none => tr

/-- The slab of one axis as bounds on t: lower and upper, each a fraction with positive denominator; none where the ray runs
beside the box. -/
def slab (o d lo hi : Int) : Option ((Int × Nat) × (Int × Nat)) :=
  if d = 0 then none
  else if 0 < d then some ((lo - o, d.natAbs), (hi - o, d.natAbs))
  else some ((o - hi, d.natAbs), (o - lo, d.natAbs))

/-- Whether a ray meets a box within its bounds (R260). -/
def Ray.meets (r : Ray) (lo hi : V3) : Bool :=
  let inside (o d l h : Int) : Bool := d != 0 || decide (l ≤ o ∧ o ≤ h)
  let bounds := [slab r.org.x r.dir.x lo.x hi.x, slab r.org.y r.dir.y lo.y hi.y, slab r.org.z r.dir.z lo.z hi.z].filterMap id
  inside r.org.x r.dir.x lo.x hi.x && inside r.org.y r.dir.y lo.y hi.y && inside r.org.z r.dir.z lo.z hi.z
    && bounds.all (fun a => r.below a.1.1 a.1.2 && (r.above a.2.1 a.2.2 || decide (fpInt r.tmin * a.2.2 = a.2.1 * 2 ^ 149)))
    && bounds.all (fun a => bounds.all fun b => decide (a.1.1 * b.2.2 ≤ b.2.1 * a.1.2))

/-- Whether a node is malformed: a non-zero byte marked zero, an invalid child kind, or numbers outside R258. -/
def nodeBad (b : List Byte) : Bool :=
  !v3Finite b 0 || leAt b 15 1 != 0 || leAt b 28 4 != 0 || leAt b 56 8 != 0
    || ([0, 1, 2, 3].any fun c => leAt b (24 + c) 1 % 4 == 3 || leAt b (24 + c) 1 / 64 != 0)
    || ([0, 1, 2].any fun i =>
      let e := toSigned 8 (leAt b (12 + i) 1)
      decide (e < -126 ∨ 120 < e) || decide (2 ^ 277 ≤ (fpInt (leAt b (4 * i) 4) + 255 * 2 ^ (e + 149).toNat).natAbs))

/-- The bounds of child `c` of a node (R258). -/
def childBox (b : List Byte) (c : Nat) : V3 × V3 :=
  let o := v3At b 0
  let step (i : Nat) : Int := 2 ^ (toSigned 8 (leAt b (12 + i) 1) + 149).toNat
  let q (i : Nat) : Int := (leAt b (32 + 6 * c + i) 1 : Nat)
  (⟨o.x + q 0 * step 0, o.y + q 1 * step 1, o.z + q 2 * step 2⟩, ⟨o.x + q 3 * step 0, o.y + q 4 * step 1, o.z + q 5 * step 2⟩)

/-- Children of a node that are of a kind, before child `c`; for leaves, their triangles (R258). -/
def childBase (b : List Byte) (c kind : Nat) : Nat :=
  ((List.range c).map fun i =>
    let m := leAt b (24 + i) 1
    if m % 4 = kind then (if kind = 1 then 1 else m / 4 % 16) else 0).sum

/-- A node is visited, its children in order; `levels` is what the stack still holds (R260, R261). -/
def State.visit (s : State) (sc : Scene) (r : Ray) (limits : Option (Nat × Nat)) : Nat → Nat → Trace → Trace
  | 0, _, tr => if tr.bad.isSome || tr.spent then tr else { tr with bad := some 2 }
  | levels + 1, i, tr =>
    if tr.bad.isSome || tr.spent then tr
    else if sc.size < 64 * (i + 1) then { tr with bad := some 3 }
    else if (limits.elim false fun n => decide (n.1 ≤ tr.nodes)) then { tr with spent := true }
    else
      let b := s.load (sc.base + 64 * i) 64
      let tr := { tr with nodes := tr.nodes + 1 }
      if nodeBad b then { tr with bad := some 3 }
      else [0, 1, 2, 3].foldl (fun tr c =>
        let m := leAt b (24 + c) 1
        let box := childBox b c
        if m % 4 = 0 || !r.meets box.1 box.2 then tr
        else if m % 4 = 1 then s.visit sc r limits levels (leAt b 16 4 + childBase b c 1) tr
        else (List.range (m / 4 % 16)).foldl
          (fun tr k => s.testTriangle sc r (limits.map (·.2)) (leAt b 20 4 + childBase b c 2 + k) tr) tr) tr

/-- A ray is traversed through a scene. -/
def State.trace (s : State) (sc : Scene) (r : Ray) (limits : Option (Nat × Nat)) : Trace :=
  s.visit sc r limits 48 sc.root ⟨0, 0, [], none, false, false⟩

/-- The closest of some hits (R260). -/
def closest : List RayHit → Option RayHit
  | [] => none
  | h :: rest => match closest rest with
    | some k => if h.closer k then some h else some k
    | none => some h

/-! ### Results (R261, R263) -/

/-- What a ray ends with: its status and the fields of its result. -/
structure RayResult where
  status : Nat
  cls : Nat
  object : Nat
  prim : Nat
  t : Nat
  u : Nat
  v : Nat
  deriving DecidableEq, Repr

/-- A float field of a result: the exact value where a float has it; else its rounding is open, a free value (log entry 1). -/
def State.floatField (s : State) (num : Int) (den : Nat) : State × Nat :=
  match exactFloat num den with
  | some w => (s, w)
  | none => (s.freeUsed, s.free.toNat % 2 ^ 32)

/-- The result of a hit. -/
def State.hitResult (s : State) (h : RayHit) : State × RayResult :=
  let (s, t) := s.floatField h.t h.den
  let (s, u) := s.floatField h.u h.den
  let (s, v) := s.floatField h.v h.den
  (s, ⟨1, h.cls, h.object, h.prim, t, u, v⟩)

/-- A result the spec does not state: a ray or a triangle met with numbers that are not finite. -/
def State.openResult (s : State) (status : Option Nat) : State × RayResult :=
  let a := s.free.toNat
  let s := s.freeUsed
  let b := s.free.toNat
  let s := s.freeUsed
  let c := s.free.toNat
  let s := s.freeUsed
  let st := status.getD (a % 2)
  (s, if st = 0 then ⟨0, 0, 0, 0, 0, 0, 0⟩
    else ⟨st, a / 2 % 256, a / 2 ^ 32, b % 2 ^ 32, b / 2 ^ 32, c % 2 ^ 32, c / 2 ^ 32⟩)

/-- The result of a completed traversal; with `any`, of any hit (R260, R263). -/
def State.traceResult (s : State) (r : Ray) (tr : Trace) (any : Bool) : State × RayResult :=
  match tr.bad with
  | some b => (s, ⟨b, 0, 0, 0, 0, 0, 0⟩)
  | none =>
    if tr.odd || r.odd then s.openResult none
    else if any ∧ tr.hits ≠ [] then
      match tr.hits[s.free.toNat % tr.hits.length]? with
      | some h => s.freeUsed.hitResult h
      | none => (s, ⟨0, 0, 0, 0, 0, 0, 0⟩)
    else match closest tr.hits with
      | some h => s.hitResult h
      | none => (s, ⟨0, 0, 0, 0, 0, 0, 0⟩)

/-- The 32 bytes of a result record (R263). -/
def RayResult.bytes (r : RayResult) : List Byte :=
  leBytes 1 r.status ++ leBytes 1 r.cls ++ [0, 0] ++ leBytes 4 r.object ++ leBytes 4 r.prim ++ leBytes 4 r.t
    ++ leBytes 4 r.u ++ leBytes 4 r.v ++ List.replicate 8 0

/-! ### RAY_BATCH (R263) -/

/-- The ray of a 32-byte record. -/
def rayOf (b : List Byte) (flags : Nat) : Ray :=
  { org := v3At b 0, dir := v3At b 16, tmin := leAt b 12 4, tmax := leAt b 28 4, cullBack := flags % 2 == 1,
    cullFront := flags / 2 % 2 == 1, pick := false, odd := !(v3Finite b 0 && v3Finite b 16) }

/-- The rays of a batch are cast, in array order; every one has status 3 where the descriptor does not meet R257. -/
def State.castBatch (s : State) (sc : Option Scene) (d : DrawAt) : State :=
  s.each (List.range (d.u32 24)) fun s i =>
    let r := rayOf (s.load (d.u64 16 + 32 * i) 32) (d.u8 4)
    let (s, res) := match sc with
      | some sc => s.traceResult r (s.trace sc r none) (d.u8 4 / 4 % 2 == 1)
      | none => (s, ⟨3, 0, 0, 0, 0, 0, 0⟩)
    s.store (d.u64 32 + 32 * i) res.bytes

def execRayBatch (ctx : Fin 64) (s : State) : Host.Outcome State Fault Refusal :=
  drawStep ctx.val 0x0090 (fun s d =>
    let n := d.u32 24
    let sc := s.sceneAt (d.u64 8)
    if d.u8 4 % 4 = 3 ∨ n = 0 ∨ 1048576 < n ∨ d.u64 8 % 64 ≠ 0 ∨ d.u64 16 % 32 ≠ 0 ∨ d.u64 32 % 32 ≠ 0 then s.packetFault d 1
    else if !s.gfxMay d.ctx (d.u64 8) 64 || !s.gfxMay d.ctx (d.u64 16) (32 * n) || !s.gfxMay d.ctx (d.u64 32) (32 * n)
        || (sc.elim false fun x => !s.gfxMay d.ctx x.base x.size) then s.packetFault d 2
    else (s.castBatch sc d).past d) s

/-! ### Touch picks: registration and launch (R264 to R267) -/

/-- The four items of a pick's result (R268). -/
def pickItems (p : Pick) (r : RayResult) (latency : Nat) : List W64 :=
  [BitVec.ofNat 64 (2 ^ 63 + 0x50 * 2 ^ 56 + r.status % 16 * 2 ^ 52 + p.port * 2 ^ 50 + p.contact % 256 * 2 ^ 40
      + r.cls % 256 * 2 ^ 32 + r.object % 2 ^ 32),
   BitVec.ofNat 64 (2 ^ 63 + p.at_.word.toNat % 2 ^ 63),
   BitVec.ofNat 64 (2 ^ 63 + min latency 65535 * 2 ^ 32 + r.t % 2 ^ 32),
   BitVec.ofNat 64 (2 ^ 63 + r.prim % 2 ^ 32)]

/-- A pick's result is written to its report queue. -/
def State.writePick (s : State) (p : Pick) (r : RayResult) (latency : Nat) : State :=
  let s := (s.appendPacket p.queue (pickItems p r latency)).put (gfxPickStatus_LAST p.port) r.status
  s.bump (gfxPickCnt_COUNT p.port)

/-- A contact is first reported down inside the pick rectangle: a pick is launched; a 17th in flight is dropped with status 5
(R265, R267). -/
def State.launchPick (s : State) (port contact px py : Nat) (zoned : Bool) : State :=
  let inside := decide (s.get (gfxPickMin_X port) ≤ px ∧ px ≤ s.get (gfxPickMax_X port)
    ∧ s.get (gfxPickMin_Y port) ≤ py ∧ py ≤ s.get (gfxPickMax_Y port))
  match s.touchOwner port with
  | none => s
  | some f =>
    if !s.flag (gfxPickCtrl_EN port) || !inside || (s.fn f).reset.isSome then s
    else
      let p : Pick :=
        { port := port, contact := contact, zoned := zoned, f := f, at_ := s.now, px := px, py := py, scene := s.get (gfxPickScene_ADDR port) * 64,
          xf := (List.range 20).map fun k => BitVec.ofNat 32 (s.get (gfxPickXf_VALUE port k)),
          nodes := s.get (gfxPickBudget_NODES port), tris := s.get (gfxPickBudget_TRIS port),
          queue := s.get (gfxPickCtrl_QUEUE port) }
      if 16 ≤ s.get (gfxPickStatus_IN_FLIGHT port) then
        ((s.writePick p ⟨5, 0, 0, 0, 0, 0, 0⟩ 0).bump (gfxPickDropCnt_COUNT port)).raise 204 (port * 256 + 1)
      else
        (s.put (gfxPickStatus_IN_FLIGHT port) (s.get (gfxPickStatus_IN_FLIGHT port) + 1)).modGfx fun g => { g with
          picks := g.picks ++ [p] }

/-- The ray of a pick: the registration's transform at its position, exactly (R265). -/
def Pick.ray (p : Pick) : Ray :=
  let k (i : Nat) : Int := fpInt (p.xf.getD i 0).toNat
  let at_ (base ux uy : Nat) : V3 :=
    ⟨k base + p.px * k ux + p.py * k uy, k (base + 1) + p.px * k (ux + 1) + p.py * k (uy + 1),
     k (base + 2) + p.px * k (ux + 2) + p.py * k (uy + 2)⟩
  { org := at_ 0 3 6, dir := at_ 9 12 15, tmin := (p.xf.getD 18 0).toNat, tmax := (p.xf.getD 19 0).toNat,
    cullBack := false, cullFront := false, pick := true, odd := !((p.xf.take 18).all fun w => fpFinite w.toNat) }

/-- Whether a scene descriptor fails R257 or its hierarchy lies outside the DRAM of a port's tenant (R271). -/
def State.sceneBad (s : State) (port a : Nat) : Bool :=
  match s.touchOwner port with
  | none => true
  | some f => decide (a % 64 ≠ 0) || !s.inRange f a 64 || (match s.sceneAt a with
    | some sc => !s.inRange f sc.base sc.size
    | none => true)

/-! ### Opcodes (R271) -/

/-- The target names a touch port. -/
def namesTouch (t : Nat) : Bool := t < 4
/-- Whether the port is the issuing tenant's. -/
def ownsTouch (s : State) (r t : Nat) : Bool := s.touchOwner t == some r

/-- The checks of PICK_SET. -/
def pickSetCheck (s : State) (o : Origin) : Option (Nat × Nat) :=
  if 1 < o.u8 0 then some (stNoResource, 1)
  else if 31 < o.u8 1 then some (stNoResource, 2)
  else if o.u16 12 = 0 ∨ 256 < o.u16 12 then some (stNoResource, 13)
  else if o.u16 14 = 0 ∨ 512 < o.u16 14 then some (stNoResource, 15)
  else if addrBad (o.u64 96) then some (stNoResource, 97)
  else if s.queueOwner (o.u8 1) ≠ s.touchOwner o.tgt then some (stNotOwner, 2)
  else if s.sceneBad o.tgt (o.u64 96) then some (stNoResource, 0x00F6)
  else none

def specPickSet : OpSpec :=
  { opcode := 0x0880, lens := len 104, zero := fun _ => zeroMask [(2, 3)] [], modes := modesPSDT, issuer := .tenants,
    member := .capable, names := namesTouch, owns := ownsTouch, log := .logged, check := pickSetCheck,
    land := fun s o =>
      let p := o.tgt
      let s := (s.put (gfxPickCtrl_EN p) (o.u8 0)).put (gfxPickCtrl_QUEUE p) (o.u8 1)
      let s := (s.wr (gfxPickMin p) (BitVec.ofNat 64 (o.u32 4))).wr (gfxPickMax p) (BitVec.ofNat 64 (o.u32 8))
      let s := (s.put (gfxPickBudget_NODES p) (o.u16 12)).put (gfxPickBudget_TRIS p) (o.u16 14)
      let s := s.each (List.range 20) fun s k => s.put (gfxPickXf_VALUE p k) (o.u32 (16 + 4 * k))
      s.put (gfxPickScene_ADDR p) (o.u64 96 / 64) }

def specPickScene : OpSpec :=
  { opcode := 0x0881, lens := len 8, modes := modesPSDT, issuer := .tenants, member := .capable, names := namesTouch,
    owns := ownsTouch, log := .flip 3,
    check := fun s o => if addrBad (o.u64 0) then some (stNoResource, 1)
      else if s.sceneBad o.tgt (o.u64 0) then some (stNoResource, 0x00F6) else none,
    land := fun s o => s.put (gfxPickScene_ADDR o.tgt) (o.u64 0 / 64) }

/-- The checks of PICK_CLASSES: entries that are applied name channels of the port's tenant. -/
def pickClassesCheck (s : State) (o : Origin) : Option (Nat × Nat) :=
  let n := o.u16 2
  let entry (i : Nat) : Nat := o.u16 (8 + 2 * i)
  if n % 4 ≠ 0 ∨ n < 4 ∨ 256 < n then some (stNoResource, 3)
  else if 256 < o.u8 0 + n then some (stNoResource, 1)
  else match (List.range n).find? fun i => entry i / 32 % 8 != 0 with
    | some i => some (stNoResource, 1 + (8 + 2 * i))
    | none =>
      ((List.range n).find? fun i => entry i / 8 % 2 == 1 && s.hapOwner (entry i % 8) != s.touchOwner o.tgt).map
        fun i => (stNotOwner, 1 + (8 + 2 * i))

def specPickClasses : OpSpec :=
  { opcode := 0x0882, lens := fun b => [8 + 2 * leAt b 2 2], zero := fun _ => zeroMask [(1, 1), (4, 7)] [],
    modes := modesPSDT, issuer := .tenants, member := .capable, names := namesTouch, owns := ownsTouch, log := .logged,
    check := pickClassesCheck,
    land := fun s o => s.each (List.range (o.u16 2)) fun s i =>
      let c := o.u8 0 + i
      s.put ⟨gfxPickClass o.tgt (c / 2), 16 * (c % 2), 16⟩ (o.u16 (8 + 2 * i)) }

def specPickQuery : OpSpec :=
  { opcode := 0x0883, lens := len 0, modes := allModes, issuer := .tenants, query := true, names := namesTouch,
    owns := ownsTouch,
    run := fun s o => (s, .answer (done
      ((s.rd (gfxPickStatus o.tgt)).toNat + 0x100000000 * (s.rd (gfxPickMaxlat o.tgt)).toNat)
      (s.get (gfxPickScene_ADDR o.tgt) * 64))) }

def execPickSet (p : Packet) (s : State) : Host.Outcome State Fault Refusal := packetStep specPickSet p s
def execPickScene (p : Packet) (s : State) : Host.Outcome State Fault Refusal := packetStep specPickScene p s
def execPickClasses (p : Packet) (s : State) : Host.Outcome State Fault Refusal := packetStep specPickClasses p s
def execPickQuery (p : Packet) (s : State) : Host.Outcome State Fault Refusal := packetStep specPickQuery p s

end Sys2Proof.Machine
end

