-- ==== Sys2Proof/Machine/Haptic.lean ====
section
/-! DEFINITION. Haptic feedback (R298 to R317): effects and plays, braking, triggers, actuator faults and checks, the shared
power stages, and the haptic opcodes. -/
namespace Sys2Proof.Machine

/-! ### Parts -/

/-- The haptics change. -/
def State.modHap (s : State) (f : HapState → HapState) : State := { s with hap := f s.hap }
/-- Channel `n` beside its registers. -/
def State.chan (s : State) (n : Nat) : HapChan := s.hap.chans.getD n HapChan.cold
/-- Channel `n` changes. -/
def State.modChan (s : State) (n : Nat) (f : HapChan → HapChan) : State :=
  s.modHap fun h => { h with chans := modAt h.chans n f }
/-- The play of channel `n` changes. -/
def State.modPlay (s : State) (n : Nat) (f : HapPlay → HapPlay) : State :=
  s.modChan n fun c => { c with play := c.play.map f }

/-- The state codes of a channel (HAP_n_STATUS.STATE). -/
def hapOff : Nat := 0
def hapIdle : Nat := 1
def hapDrive : Nat := 2
def hapBrake : Nat := 3
def hapGap : Nat := 4
def hapFaulted : Nat := 5
def hapCheck : Nat := 6

/-- The state of channel `n`. -/
def State.hapState (s : State) (n : Nat) : Nat := s.get (hapStatus_STATE n)
/-- Channel `n` enters a state. -/
def State.hapEnter (s : State) (n st : Nat) : State := s.put (hapStatus_STATE n) st

/-- Whether the bridges are driven: not in Kindling or Recovery, nor through a warm reset (R313). -/
def State.bridges (s : State) : Bool := decide (2 ≤ s.mode ∧ s.mode ≤ 6) && s.power.warm.isNone

/-! ### Effect records (R301) -/

/-- The 64 bytes of effect record `e` of channel `n`. -/
def State.effect (s : State) (n e : Nat) : List Byte := (List.range 8).flatMap fun k => leBytes 8 (s.rd (hapFx n e k)).toNat

/-- The kind of an effect record. -/
def fxKind (r : List Byte) : Nat := leAt r 1 1
/-- A flag bit of an effect record: 0 overdrive, 1 brake, 2 track resonance. -/
def fxFlag (r : List Byte) (b : Nat) : Bool := leAt r 2 1 / 2 ^ b % 2 == 1
/-- The overdrive half-cycles of a resonant effect. -/
def fxOverdrive (r : List Byte) : Nat := if fxFlag r 0 then leAt r 3 1 else 0
/-- Amplitude A. -/
def fxA (r : List Byte) : Nat := leAt r 4 2
/-- Overdrive amplitude OD. -/
def fxOd (r : List Byte) : Nat := leAt r 6 2
/-- Length. -/
def fxLength (r : List Byte) : Nat := leAt r 8 2
/-- Waveform start. -/
def fxStart (r : List Byte) : Nat := leAt r 10 2
/-- Brake amplitude. -/
def fxBrake (r : List Byte) : Nat := leAt r 12 2
/-- Repeats. -/
def fxRepeats (r : List Byte) : Nat := leAt r 14 1
/-- Gap, in 0.1 ms. -/
def fxGap (r : List Byte) : Nat := leAt r 16 2

/-- The payload offset, less that of the record, of the first byte of an effect record that is out of range (R301). -/
def fxFault (r : List Byte) : Option Nat :=
  let kind := fxKind r
  if leAt r 0 1 ≠ 1 then some 0
  else if 2 < kind then some 1
  else if 7 < leAt r 2 1 then some 2
  else if 8 < leAt r 3 1 then some 3
  else if kind = 0 then none
  else if fxA r = 0 ∨ 12000 < fxA r then some 4
  else if kind = 1 ∧ fxFlag r 0 ∧ (fxOd r < fxA r ∨ 12000 < fxOd r) then some 6
  else if fxLength r = 0 ∨ (if kind = 1 then 4095 else 4096) < fxLength r then some 8
  else if kind = 2 ∧ 4096 < fxStart r + fxLength r then some 10
  else if 12000 < fxBrake r then some 12
  else none

/-! ### The drive level (R299, R302) -/

/-- A level limited to MAX_MV and to 12,000 mV. -/
def State.hapLimit (s : State) (n : Nat) (mv : Int) : Int :=
  let m : Int := (min (s.get (hapLimits_MAX_MV n)) 12000 : Nat)
  max (-m) (min m mv)

/-- Sample `i` of the waveform store of channel `n`. -/
def State.waveAt (s : State) (n i : Nat) : Int := toSigned 16 (s.get (hapWave_SAMPLE n i))

/-- The level of a waveform effect at audio sample `pos` of its drive: linear interpolation from 8 kHz to 48 kHz; past the
last sample there is nothing to interpolate to, and the level is a free value. -/
def State.waveLevel (s : State) (n : Nat) (p : HapPlay) : State × Int :=
  let i := p.pos / 6
  let f : Int := (p.pos % 6 : Nat)
  let a : Int := (fxA p.record : Nat)
  let at_ (j : Nat) : Int := s.waveAt n (fxStart p.record + j)
  if fxLength p.record ≤ i then (s, 0)
  else if f = 0 then (s, (at_ i * a).tdiv 32767)
  else if i + 1 < fxLength p.record then (s, ((at_ i * (6 - f) + at_ (i + 1) * f) * a).tdiv (6 * 32767))
  else (s.freeUsed, toSigned 16 s.free.toNat)

/-- The drive level of channel `n` now: its play's amplitude, in the direction of the half-cycle, or against the motion while
it brakes. -/
def State.hapLevelNow (s : State) (n : Nat) : State × Int :=
  let c := s.chan n
  let level : State × Int := match c.play with
    | none => (s, 0)
    | some p =>
      let signed (up : Bool) (mv : Nat) : Int := if up then (mv : Nat) else -(mv : Nat)
      if s.hapState n = hapDrive then
        if fxKind p.record = 2 then s.waveLevel n p
        else (s, signed p.positive (if p.half < fxOverdrive p.record then p.od else fxA p.record))
      else if s.hapState n = hapBrake then (s, signed (!c.motion) (fxBrake p.record))
      else (s, 0)
  (level.1, if s.bridges then s.hapLimit n level.2 else 0)

/-- The drive level follows the channel's state. -/
def State.hapSetLevel (s : State) (n : Nat) : State :=
  let r := s.hapLevelNow n
  r.1.modChan n fun c => { c with level := r.2 }

/-! ### Plays (R303 to R307) -/

/-- A play begins: its drive starts from half-cycle 0. -/
def State.startPlay (s : State) (n : Nat) (p : HapPlay) : State :=
  let p := { p with half := 0, pos := 0, vbs := [], stalled := 0, clamped := 0, limited := false }
  let s := (s.modChan n fun c => { c with play := some p }).hapEnter n hapDrive
  let s := (s.put (hapStatus_EFFECT n) p.effect).putBit (hapStatus_URGENT n) p.urgent
  ((s.put (hapStatus_ILIM n) 0).bump (hapPlayCnt_COUNT n)).hapSetLevel n

/-- The play of an effect that begins from rest: its first half-cycle is positive (R304). -/
def restPlay (e : Nat) (r : List Byte) (urgent : Bool) : HapPlay :=
  { effect := e, record := r, urgent := urgent, od := fxOd r, positive := true, half := 0, pos := 0, left := fxRepeats r,
    vbs := [], stalled := 0, clamped := 0, limited := false }

/-- The pending slot is emptied. -/
def State.clearPending (s : State) (n : Nat) : State :=
  ((s.modChan n fun c => { c with pending := none }).put (hapStatus_PENDING n) 0).put (hapStatus_PEND_FX n) 0

/-- The channel comes to rest without a play. -/
def State.hapRest (s : State) (n st : Nat) : State :=
  let s := (s.modChan n fun c => { c with play := none, level := 0 }).hapEnter n st
  (s.put (hapStatus_URGENT n) 0).put (hapStatus_ILIM n) 0

/-- A play, its braking included, is over: the pending effect starts, or the repeats go on after their gap, or the channel
returns to IDLE; HAP_END marks the end of the last repeat (R305, R306). -/
def State.finishPlay (s : State) (n : Nat) : State :=
  match (s.chan n).play with
  | none => s.hapRest n hapIdle
  | some p =>
    let s := s.when (p.left == 0) fun s => s.raise 325 (n * 256 + p.effect)
    match (s.chan n).pending with
    | some (e, r) => (s.clearPending n).startPlay n (restPlay e r false)
    | none =>
      if p.left = 0 then s.hapRest n hapIdle
      else if fxGap p.record = 0 then s.startPlay n { p with left := p.left - 1, positive := true, od := fxOd p.record }
      else (s.hapEnter n hapGap).hapSetLevel n

/-- A play of at least 8 half-cycles teaches K: a quarter of the way to the mean of Vb × 256 / A over its last 4 (R304). -/
def State.learnK (s : State) (n : Nat) (p : HapPlay) : State :=
  if fxKind p.record = 1 ∧ 8 ≤ p.half ∧ fxA p.record ≠ 0 then
    let km := openRound (p.vbs.sum * 256) (4 * fxA p.record)
    let k := s.get (hapTrack_K n)
    s.put (hapTrack_K n) (min 65535 ((k : Int) + ((km : Int) - k).fdiv 4).toNat)
  else s

/-- The drive of a play ends: K is learned, and the channel brakes when flag bit 1 is set (R304, R305). -/
def State.endDrive (s : State) (n : Nat) : State :=
  match (s.chan n).play with
  | none => s
  | some p =>
    let s := s.learnK n p
    if fxFlag p.record 1 then (s.hapEnter n hapBrake).hapSetLevel n else s.finishPlay n

/-- What a stop does: the pending effect and the repeats are dropped and the drive ends (R316). -/
def State.stopPlay (s : State) (n : Nat) : State :=
  let s := (s.clearPending n).modPlay n fun p => { p with left := 0 }
  if s.hapState n = hapDrive then s.endDrive n
  else if s.hapState n = hapGap then s.finishPlay n
  else s

/-- HAP_DRIVE_END: the length of a play has passed (R304, R305). -/
def execHapDriveEnd (channel : Fin 8) (s : State) : Host.Outcome State Fault Refusal :=
  .next (if s.hapState channel.val = hapDrive then s.endDrive channel.val else s)

/-- BRAKE_END: braking has lasted BRAKE_MS (R305). -/
def execBrakeEnd (channel : Fin 8) (s : State) : Host.Outcome State Fault Refusal :=
  .next (if s.hapState channel.val = hapBrake then s.finishPlay channel.val else s)

/-- REPEAT_GAP_END: the gap is over and the next repeat plays (R305). -/
def execRepeatGapEnd (channel : Fin 8) (s : State) : Host.Outcome State Fault Refusal :=
  .next (match (s.chan channel.val).play with
    | some p =>
      if s.hapState channel.val = hapGap then
        s.startPlay channel.val { p with left := p.left - 1, positive := true, od := fxOd p.record }
      else s
    | none => s)

/-! ### Float windows (R300, R304, R310) -/

/-- The half-period of a frequency in 0.1 Hz, in units of the channel. -/
def halfPeriod (f : Nat) : Nat := openRound (5 * Config.hapTicks) f

/-- The half-period moves a quarter of the way to the measured one, within F0 ± 20 %; F0_TRK shows it (R304). -/
def State.trackPeriod (s : State) (n tm : Nat) : State :=
  let f0 := s.get (hapCfg_F0 n)
  let t := if (s.chan n).period = 0 then halfPeriod f0 else (s.chan n).period
  let moved := ((t : Int) + ((tm : Int) - t).fdiv 4).toNat
  let lo := openRound (50 * Config.hapTicks) (12 * f0)
  let hi := openRound (50 * Config.hapTicks) (8 * f0)
  let kept := max lo (min hi moved)
  let s := s.modChan n fun c => { c with period := kept }
  let s := s.modPlay n fun p => { p with clamped := if kept = moved then 0 else p.clamped + 1 }
  s.put (hapTrack_F0_TRK n) (openRound (5 * Config.hapTicks) kept)

/-- Whether the back-EMF lies below a percentage of K × A / 256. -/
def State.vbBelow (s : State) (n vb percent : Nat) (p : HapPlay) : Bool :=
  decide (vb * 100 * 256 < percent * (s.get (hapTrack_K n) * fxA p.record))

/-- A half-cycle of a resonant drive ends: the next one takes the other direction (R304). -/
def State.halfCycle (s : State) (n vb tm current : Nat) (p : HapPlay) : State :=
  let stall := decide (fxOverdrive p.record < p.half + 1) && s.vbBelow n vb 10 p && decide (20 < current)
    && s.flag (hapTrack_K n)
  let s := s.modPlay n fun p => { p with
    half := p.half + 1, positive := !p.positive, vbs := (vb :: p.vbs).take 4, stalled := if stall then p.stalled + 1 else 0 }
  let s := s.when (fxFlag p.record 2 && s.flag (hapCfg_TRACK n)) fun s => s.trackPeriod n tm
  s.hapSetLevel n

/-- BACK_EMF_WINDOW: `vb` in mV, `forward` the direction of motion, `tm` the half-period between zero crossings in the
channel's unit, `current` the actuator current in mA. While the channel brakes, a back-EMF below BRAKE_STOP ends the braking
(R300, R304, R305). -/
def execBackEmfWindow (channel : Fin 8) (vb : W16) (forward : Bool) (tm : W32) (current : W16) (s : State) :
    Host.Outcome State Fault Refusal :=
  .next (
    let n := channel.val
    match (s.chan n).play with
    | none => s
    | some p =>
      if s.hapState n = hapDrive ∧ fxKind p.record = 1 then
        let s := s.modChan n fun c => { c with vb := vb.toNat, motion := forward }
        s.halfCycle n vb.toNat tm.toNat current.toNat p
      else if s.hapState n = hapBrake then
        let s := (s.modChan n fun c => { c with vb := vb.toNat, motion := forward }).hapSetLevel n
        if s.vbBelow n vb.toNat (s.get (hapLimits_BRAKE_STOP n)) p then s.finishPlay n else s
      else s)

/-! ### Triggers (R306 to R308) -/

/-- The outcome of a trigger: the detail of HAP_PLAY (R316). -/
def hapStarted : Nat := 0
def hapPending : Nat := 1

/-- A trigger or a pending effect is dropped (R306). -/
def State.hapDrop (s : State) (n cause : Nat) : State := (s.bump (hapDropCnt_COUNT n)).raise 322 (n * 256 + cause)

/-- A pending effect that another trigger displaces is dropped with cause 6 (R306). -/
def State.replacePending (s : State) (n : Nat) : State :=
  if (s.chan n).pending.isSome then (s.clearPending n).hapDrop n 6 else s

/-- The r8 of an urgent cut (R307). -/
def State.cutR8 (s : State) (n a : Nat) : Nat :=
  let k := s.get (hapTrack_K n)
  if k = 0 ∨ a = 0 then 0 else min 256 (65536 * (s.chan n).vb / (k * a))

/-- An urgent trigger cuts a drive or braking (R307). Without overdrive the spec gives the first half-cycle of a resonant
effect no direction. -/
def State.urgentCut (s : State) (n e : Nat) (r : List Byte) : State :=
  let r8 := s.cutR8 n (fxA r)
  let p := restPlay e r true
  let s := s.raise 323 (n * 256 + min r8 255)
  if fxKind r = 1 then
    if fxFlag r 0 then
      let od2 := fxA r + ((fxOd r - fxA r) * (256 - r8) + 128) / 256
      s.startPlay n { p with od := od2, positive := (s.chan n).motion }
    else s.freeUsed.startPlay n { p with positive := s.free.toNat % 2 == 1 }
  else s.startPlay n p

/-- Whether the block of channel `n` works: channels 0 to 5 share one, each power stage is one of its own (R407, R500). -/
def State.chanUp (s : State) (n : Nat) : Bool := if n < 6 then s.blockUp 32 25 else s.blockUp (27 + n) (20 + n)

/-- A trigger acts on a channel: its outcome is started, pending or the cause of a drop (R306). -/
def State.hapAct (s : State) (n e : Nat) (urgent : Bool) : State × Nat :=
  let st := s.hapState n
  let r := s.effect n e
  if st = hapOff ∨ st = hapCheck ∨ !s.bridges ∨ !s.chanUp n then (s.hapDrop n 2, 2)
  else if st = hapFaulted then (s.hapDrop n 3, 3)
  else if 63 < e ∨ (fxKind r ≠ 1 ∧ fxKind r ≠ 2) ∨ (fxKind r = 1 ∧ s.get (hapCfg_TYPE n) = 2) then (s.hapDrop n 4, 4)
  else if st = hapIdle ∨ st = hapGap then ((s.clearPending n).startPlay n (restPlay e r urgent), hapStarted)
  else if urgent then ((s.replacePending n).urgentCut n e r, hapStarted)
  else
    let s := (s.replacePending n).modChan n fun c => { c with pending := some (e, r) }
    ((s.put (hapStatus_PENDING n) 1).put (hapStatus_PEND_FX n) e, hapPending)

/-- A trigger joins those of its grain (R308). -/
def State.trigger (s : State) (t : HapTrigger) : State := s.modHap fun h => { h with due := h.due ++ [t] }

/-- The place of a trigger among those of one grain (R308): urgent first, then zones, picks and packets, then by port and by
zone or contact; packets by the source order of R104. -/
def HapTrigger.rank (t : HapTrigger) : Nat :=
  (if t.urgent then 0 else 1000000) + t.source * 100000 + t.port * 1000
    + (match t.origin with
       | some o => ringRank o.ring
       | none => t.key)

/-- The trigger of a channel that comes first; among equal ones, the earlier (R308). -/
def firstTrigger : List HapTrigger → Option HapTrigger
  | [] => none
  | t :: rest => match firstTrigger rest with
    | some u => if u.rank < t.rank then some u else some t
    | none => some t

/-- The reply of a HAP_PLAY (R316). -/
def State.playReply (s : State) (t : HapTrigger) (outcome : Nat) : State :=
  match t.origin with
  | some o => s.settle o ⟨stDone, outcome, 0, 0⟩
  | none => s

/-- The triggers of this grain for channel `n`: the first acts, the others are dropped with cause 5 (R308). -/
def State.settleChannel (s : State) (n : Nat) (due : List HapTrigger) : State :=
  let mine := due.filter (·.channel == n)
  match firstTrigger mine with
  | none => s
  | some t =>
    let r := s.hapAct n t.effect t.urgent
    (r.1.playReply t r.2).each (mine.erase t) fun s t => (s.hapDrop n 5).playReply t 5

/-- At the end of a grain its triggers are decided. -/
def State.settleTriggers (s : State) : State :=
  let due := s.hap.due
  if due.isEmpty then s
  else (s.modHap fun h => { h with due := [] }).each (List.range 8) fun s n => s.settleChannel n due

/-- A function reset discards its packet triggers that are not yet applied (R59, R313). -/
def State.hapResetFunction (s : State) (f : Nat) : State :=
  s.modHap fun h => { h with due := h.due.filter fun t => match t.origin with
    | some o => o.ring != f
    | none => true }

/-! ### Faults and checks (R310, R311) -/

/-- A channel enters FAULT: its play, its repeats and its pending effect are dropped, without braking (R310). -/
def State.hapFail (s : State) (n code : Nat) : State :=
  let s := (s.clearPending n).hapRest n hapFaulted
  (s.put (hapFault_CODE n) code).raise 320 (n * 256 + code)

/-- Whether a fault of a code is decided now (R310): codes 2 and 3 by the runs of half-cycles counted here, the others by what
the bridge measures. -/
def State.hapFaultHolds (s : State) (n code : Nat) : Bool :=
  let st := s.hapState n
  let p := (s.chan n).play.getD (restPlay 0 [] false)
  let driven := st == hapDrive || st == hapBrake
  if code = 1 then st == hapDrive && decide (1000 ≤ (s.chan n).level.natAbs)
  else if code = 2 then st == hapDrive && decide (8 ≤ p.stalled)
  else if code = 3 then st == hapDrive && decide (16 ≤ p.clamped)
  else if code = 4 then driven
  else code == 5 && (driven || st == hapIdle || st == hapGap)

/-- ACTUATOR_FAULT_DETECT: a criterion of R310 is met. -/
def execActuatorFaultDetect (channel : Fin 8) (code : Fin 6) (s : State) : Host.Outcome State Fault Refusal :=
  .next (if s.hapFaultHolds channel.val code.val then s.hapFail channel.val code.val else s)

/-- A resistance check begins (R311). -/
def State.startCheck (s : State) (n : Nat) : State :=
  let s := s.modChan n fun c => { c with checking := true }
  if s.flag (hapCfg_TYPE n) then (s.clearPending n).hapRest n hapCheck else s

/-- The code with which a check fails, 0 when it passes (R311). -/
def State.checkCode (s : State) (n microamps tenths : Nat) : Nat :=
  let r := if microamps = 0 then 2 ^ 32 else openRound 10000000 microamps
  if 1300 < tenths then 5
  else if s.get (hapRes_R_MAX n) < r then 1
  else if r < s.get (hapRes_R_MIN n) then 4
  else 0

/-- RESISTANCE_CHECK_COMPLETE: the current of the 1 ms pulse of 1,000 mV in µA and the bridge's temperature in 0.1 °C give the
outcome; HAP_CLEAR is answered with it (R311, R316). A resistance that R_MEAS cannot hold leaves it a free value. -/
def execResistanceCheckComplete (channel : Fin 8) (microamps : W32) (tenths : W16) (s : State) :
    Host.Outcome State Fault Refusal :=
  .next (
    let n := channel.val
    if !(s.chan n).checking then s
    else
      let code := s.checkCode n microamps.toNat tenths.toNat
      let r := openRound 10000000 microamps.toNat
      let s := if microamps = 0 ∨ 65535 < r then s.freeUsed.put (hapFault_R_MEAS n) s.free.toNat
        else s.put (hapFault_R_MEAS n) r
      let clears := (s.chan n).clears
      let s := s.modChan n fun c => { c with checking := false, clears := [] }
      let s := if s.hapState n ≠ hapCheck then s
        else if code = 0 then ((s.hapEnter n hapIdle).put (hapFault_CODE n) 0).raise 321 n
        else s.hapFail n code
      s.each clears fun s o => s.settle o ⟨stDone, code, 0, 0⟩)

/-! ### Channel setup (R298, R312, R314) -/

/-- The use codes of a power stage: 1 its haptic channel, 2 its speaker (HAP_STAGE). -/
def stageField (k : Nat) : RF := if k = 0 then hapStage_STAGE0 else hapStage_STAGE1

/-- What a change of TYPE from `old` does once CFG holds the new value (R298, R311, R312). -/
def State.typeChanged (s : State) (n old : Nat) : State :=
  let new := s.get (hapCfg_TYPE n)
  let s := s.when (decide (6 ≤ n) && new != 0) fun s => s.put (stageField (n - 6)) 1
  if new = old then s
  else if new = 0 then (s.clearPending n).hapRest n hapOff
  else if old = 0 then s.startCheck n
  else s

/-- A channel takes new settings; a play in DRIVE first ends as on HAP_STOP (R314). -/
def State.reconfigure (s : State) (n : Nat) (settings : State → State) : State :=
  let old := s.get (hapCfg_TYPE n)
  let s := if s.hapState n = hapDrive then s.stopPlay n else s
  (settings s).typeChanged n old

/-- The haptic part of a master frame start: stages are freed and sealed writes take effect (R312, R314). -/
def State.hapFrameStart (s : State) : State :=
  let s := s.freeStages
  let due := s.staged.filter fun e => decide (0x43400000 ≤ e.1 ∧ e.1 < 0x43400800)
  s.each (List.range 8) fun s n =>
    let lo := (hapCfg n).addr
    if due.any fun e => decide (lo ≤ e.1 ∧ e.1 < lo + 12) then
      s.reconfigure n fun s => s.applyStaged lo (lo + 12)
    else s

/-- Whether a power stage is held by the other feature: `use` 1 haptic, 2 speaker. -/
def State.stageTaken (s : State) (k use : Nat) : Bool := s.get (stageField k) != 0 && s.get (stageField k) != use

/-! ### Resets (R313) -/

/-- A warm reset at its decision: the bridges are off, plays and pending effects are cut. -/
def State.hapWarm (s : State) : State :=
  (s.modHap fun h => { h with due := [] }).each (List.range 8) fun s n =>
    let s := s.each (s.chan n).clears State.dropReply
    let s := (s.clearPending n).modChan n fun c => { c with play := none, level := 0, checking := false, clears := [] }
    (s.put (hapStatus_URGENT n) 0).put (hapStatus_ILIM n) 0

/-- A warm reset completes: FAULT is held, other configured channels are IDLE. -/
def State.hapAfterWarm (s : State) : State :=
  s.each (List.range 8) fun s n =>
    if s.hapState n = hapFaulted ∨ !s.flag (hapCfg_TYPE n) then s else s.hapEnter n hapIdle

/-! ### Opcodes (R315, R316) -/

/-- The target names a haptic channel. -/
def namesHap (t : Nat) : Bool := t < 8
/-- Whether the channel is the issuing tenant's. -/
def ownsHap (s : State) (r t : Nat) : Bool := s.hapOwner t == some r

/-- The first payload byte of HAP_CHANNEL_SET that is out of range. -/
def hapSetFault (o : Origin) : Option Nat :=
  if 2 < o.u8 0 then some 0
  else if 1 < o.u8 1 then some 1
  else if o.u16 2 < 500 ∨ 5000 < o.u16 2 then some 2
  else if o.u16 4 < 100 ∨ 12000 < o.u16 4 then some 4
  else if o.u8 6 < 1 ∨ 8 < o.u8 6 then some 6
  else if o.u8 7 < 1 ∨ 50 < o.u8 7 then some 7
  else none

def specHapChannelSet : OpSpec :=
  { opcode := 0x0901, lens := len 16, zero := fun _ => zeroMask [(12, 15)] [], modes := modesPSDBT, issuer := .tenants,
    member := .capable, names := namesHap, owns := ownsHap, log := .logged,
    check := fun s o => match hapSetFault o with
      | some b => some (stNoResource, 1 + b)
      | none => if 6 ≤ o.tgt ∧ o.u8 0 ≠ 0 ∧ s.stageTaken (o.tgt - 6) 1 then some (stPinTaken, 0) else none,
    land := fun s o => s.reconfigure o.tgt fun s =>
      let s := ((s.put (hapCfg_TYPE o.tgt) (o.u8 0)).put (hapCfg_TRACK o.tgt) (o.u8 1)).put (hapCfg_F0 o.tgt) (o.u16 2)
      let s := (s.put (hapLimits_MAX_MV o.tgt) (o.u16 4)).put (hapLimits_BRAKE_MS o.tgt) (o.u8 6)
      let s := (s.put (hapLimits_BRAKE_STOP o.tgt) (o.u8 7)).put (hapRes_R_MIN o.tgt) (o.u16 8)
      s.put (hapRes_R_MAX o.tgt) (o.u16 10) }

def specHapEffectSet : OpSpec :=
  { opcode := 0x0902, lens := len 72, zero := fun _ => zeroMask [(1, 7), (23, 23), (26, 71)] [], modes := modesPSDBT,
    issuer := .tenants, member := .capable, names := namesHap, owns := ownsHap, log := .logged,
    check := fun _ o =>
      if 63 < o.u8 0 then some (stNoResource, 1)
      else (fxFault (bytesAt o.payload 8 64)).map fun b => (stNoResource, 1 + 8 + b),
    land := fun s o => s.each (List.range 8) fun s k =>
      s.wr (hapFx o.tgt (o.u8 0) k) (BitVec.ofNat 64 (o.u64 (8 + 8 * k))) }

/-- Whether a run of samples overlaps those of a waveform effect that plays or is pending (R303). -/
def State.waveBusy (s : State) (n first count : Nat) : Bool :=
  let hits (r : List Byte) : Bool :=
    fxKind r == 2 && decide (fxStart r < first + count ∧ first < fxStart r + fxLength r)
  (((s.chan n).play.map fun p => hits p.record).getD false) || (((s.chan n).pending.map fun e => hits e.2).getD false)

def specHapWaveWrite : OpSpec :=
  { opcode := 0x0903, lens := fun b => [8 + 2 * leAt b 2 2], zero := fun _ => zeroMask [(4, 7)] [], modes := modesPSDBT,
    issuer := .tenants, names := namesHap, owns := ownsHap, log := .logged,
    check := fun s o =>
      let count := o.u16 2
      if count % 4 ≠ 0 ∨ count < 4 ∨ 2028 < count then some (stNoResource, 3)
      else if 4096 < o.u16 0 + count then some (stNoResource, 1)
      else if s.waveBusy o.tgt (o.u16 0) count then some (stConflict, 1)
      else none,
    run := fun s o => (s.each (List.range (o.u16 2)) fun s i => s.put (hapWave_SAMPLE o.tgt (o.u16 0 + i)) (o.u16 (8 + 2 * i)),
      .answer (done 0 0)) }

def specHapPlay : OpSpec :=
  { opcode := 0x0904, lens := len 8, zero := fun _ => zeroMask [(2, 7)] [], modes := [3, 4, 5, 6], issuer := .tenants,
    names := namesHap, owns := ownsHap, log := .flip 3,
    check := fun _ o => if 63 < o.u8 0 then some (stNoResource, 1) else if 1 < o.u8 1 then some (stNoResource, 2) else none,
    run := fun s o => (s.trigger ⟨o.tgt, o.u8 0, o.u8 1 == 1, 2, 0, 0, some o⟩, .later) }

def specHapStop : OpSpec :=
  { opcode := 0x0905, lens := len 0, modes := [3, 4, 5, 6], issuer := .tenants, names := namesHap, owns := ownsHap,
    log := .flip 3, run := fun s o => (s.stopPlay o.tgt, .answer (done 0 0)) }

def specHapClear : OpSpec :=
  { opcode := 0x0906, lens := len 0, modes := modesPSDBT, issuer := .tenants, names := namesHap, owns := ownsHap,
    log := .logged,
    run := fun s o => ((s.startCheck o.tgt).modChan o.tgt fun c => { c with clears := c.clears ++ [o] }, .later) }

def specHapQuery : OpSpec :=
  { opcode := 0x0907, lens := len 0, modes := allModes, issuer := .tenants, query := true, names := namesHap,
    owns := ownsHap,
    run := fun s o => (s, .answer (done ((s.rd (hapStatus o.tgt)).toNat + 0x100000000 * (s.rd (hapTrack o.tgt)).toNat)
      ((s.rd (hapFault o.tgt)).toNat + 0x100000000 * (s.rd hapStage).toNat))) }

def execHapChannelSet (p : Packet) (s : State) : Host.Outcome State Fault Refusal := packetStep specHapChannelSet p s
def execHapEffectSet (p : Packet) (s : State) : Host.Outcome State Fault Refusal := packetStep specHapEffectSet p s
def execHapWaveWrite (p : Packet) (s : State) : Host.Outcome State Fault Refusal := packetStep specHapWaveWrite p s
def execHapPlay (p : Packet) (s : State) : Host.Outcome State Fault Refusal := packetStep specHapPlay p s
def execHapStop (p : Packet) (s : State) : Host.Outcome State Fault Refusal := packetStep specHapStop p s
def execHapClear (p : Packet) (s : State) : Host.Outcome State Fault Refusal := packetStep specHapClear p s
def execHapQuery (p : Packet) (s : State) : Host.Outcome State Fault Refusal := packetStep specHapQuery p s

end Sys2Proof.Machine
end

