-- ==== Sys2Proof/Machine/Touch.lean ====
section
/-! DEFINITION. Capacitive touch sensing (R273 to R297): baselines, contacts, reports, zones, noise and hopping, electrode
faults, self-test, baseline store and the touch opcodes. -/
namespace Sys2Proof.Machine

/-! ### Parts -/

/-- The drive lines, the sense lines and the nodes of a panel. -/
def drives : Nat := 64
def senses : Nat := 112
def nodes : Nat := 7168

/-- Port `p` beside its registers. -/
def State.tport (s : State) (p : Nat) : TouchPort := s.touch.ports.getD p TouchPort.cold
/-- Port `p` changes. -/
def State.modPort (s : State) (p : Nat) (f : TouchPort → TouchPort) : State :=
  { s with touch := { s.touch with ports := modAt s.touch.ports p f } }

/-- Whether port `p` scans: enabled, its block at work, and not held back by a warm reset (R293). -/
def State.scans (s : State) (p : Nat) : Bool :=
  s.flag (touchCtrl_EN p) && s.blockUp (28 + p) (21 + p) && !(s.tport p).paused && s.power.warm.isNone

/-- Whether a factory baseline is stored for a set of port `p` (TOUCH_FACTORY). -/
def State.factoryStored (s : State) (p set : Nat) : Bool := s.bit touchFactory_VALID (4 * p + set)

/-- The factory baseline of a set of port `p`, node by node. -/
def State.factoryOf (s : State) (p set : Nat) : List Nat :=
  let lo := (4 * p + set) * nodes
  (sreadBy 1 nodes lo (sslice s.touch.factory lo (lo + nodes))).map BitVec.toNat

/-- The running baselines of port `p`, node by node. -/
def State.bases (s : State) (p : Nat) : List Nat :=
  let lo := (touchBase p 0).addr
  (sreadBy 4 nodes lo (sslice s.regs lo (lo + 4 * nodes))).map BitVec.toNat

/-- The last raw counts of port `p`, node by node. -/
def State.raws (s : State) (p : Nat) : List Nat :=
  let lo := (touchRaw p 0).addr
  (sreadBy 2 nodes lo (sslice s.regs lo (lo + 2 * nodes))).map BitVec.toNat

/-- The running baselines take values. -/
def State.setBases (s : State) (p : Nat) (l : List Nat) : State :=
  { s with regs := sputBy s.regs 4 (touchBase p 0).addr (l.map (BitVec.ofNat 64)) }

/-- The raw counts take values. -/
def State.setRaws (s : State) (p : Nat) (l : List Nat) : State :=
  { s with regs := sputBy s.regs 2 (touchRaw p 0).addr (l.map (BitVec.ofNat 64)) }

/-- The raw counts of a window, node by node: those of a sense line whose converter clips read 65,535 (R277). -/
def windowRaws (raw : List W16) (clipped : BitVec 112) : List Nat :=
  (List.range nodes).zipWith (fun i r => if clipped.getLsbD (i % senses) then 65535 else r)
    ((raw.map BitVec.toNat).take nodes ++ List.replicate (nodes - raw.length) 0)

/-! ### The arrangement of the slots (R275, R276) -/

/-- The master lines of `us` microseconds at a raster, rounded up. -/
def linesOf (num den lines us : Nat) : Nat := (us * num * lines + 1000000 * den - 1) / (1000000 * den)

/-- The ranges of master lines that the enabled slots of a port occupy; the lines before a listen slot may lie at the end of
the frame before. -/
def slotRanges (num den lines : Nat) (wins : List Nat) (listen : Option Nat) : List (Nat × Nat) :=
  let lw := linesOf num den lines 250
  let lp := linesOf num den lines 20
  wins.map (fun l => (l, l + lw - 1)) ++ match listen with
    | none => []
    | some l => if lp ≤ l then [(l - lp, l + lw - 1)] else [(0, l + lw - 1), (lines + l - lp, lines - 1)]

/-- Whether no two ranges overlap. -/
def disjoint : List (Nat × Nat) → Bool
  | [] => true
  | a :: rest => (rest.all fun b => decide (a.2 < b.1 ∨ b.2 < a.1)) && disjoint rest

/-- The arrangement rule of R275. -/
def slotsArranged (num den lines : Nat) (wins : List Nat) (listen : Option Nat) : Bool :=
  let lw := linesOf num den lines 250
  (wins.all fun l => decide (l + lw ≤ lines)) && (listen.all fun l => decide (l + lw ≤ lines))
    && disjoint (slotRanges num den lines wins listen)

/-- The rate rule of R275. -/
def slotRateOk (num den count : Nat) : Bool := decide (count * num ≤ 480 * den)

/-- The start lines of the enabled window slots of port `p`. -/
def State.windowLines (s : State) (p : Nat) : List Nat :=
  ((List.range 8).filter fun j => s.flag (touchWin_EN p j)).map fun j => s.get (touchWin_LINE p j)

/-- The start line of the listen slot of port `p`, when it is enabled. -/
def State.listenLine (s : State) (p : Nat) : Option Nat :=
  if s.flag (touchListen_EN p) then some (s.get (touchListen_LINE p)) else none

/-- Whether every enabled port keeps both rules of R275 under a raster (R276). -/
def State.touchRasterOk (s : State) (num den lines : Nat) : Bool :=
  (List.range 4).all fun p => !s.flag (touchCtrl_EN p) ||
    (slotsArranged num den lines (s.windowLines p) (s.listenLine p) && slotRateOk num den (s.windowLines p).length)

/-- The grains from the start of a window to the grain of its last sample: 1,152 samples at 96 times the audio sample clock
(R273). -/
def State.windowGrains (s : State) : Nat :=
  1151 * 32 * s.get wallAudRatio_AUD_DEN / (96 * s.get wallAudRatio_AUD_NUM)

/-! ### Start and stop (R283, R292, R293) -/

/-- The contacts change, and STATUS counts them. -/
def State.setContacts (s : State) (p : Nat) (l : List Contact) : State :=
  (s.modPort p fun t => { t with contacts := l }).put (touchStatus_CONTACTS p) l.length

/-- The suspect nodes change; STATUS and TOUCH_n_SUSPECT follow. -/
def State.setSuspect (s : State) (p : Nat) (l : List (Nat × BitVec 8)) : State :=
  ((s.modPort p fun t => { t with suspect := l }).put (touchSuspect_COUNT p) l.length).putBit (touchStatus_SUSPECT p) (!l.isEmpty)

/-- A port starts: its next window sets the baseline and its next report is a first one. -/
def State.startScan (s : State) (p : Nat) (how : TouchStart) : State :=
  let s := (s.setContacts p []).setSuspect p []
  s.modPort p fun t => { t with
    start := some how, firstReport := true, negative := [], recovering := [], openRuns := [], monitor := [], hop := none,
    hopFrom := none, hopped := false }

/-- A port is enabled: on its comb set, with a self-test first when ST_AT_START asks for one (R283, R292). -/
def State.enableTouch (s : State) (p : Nat) : State :=
  let s := (s.startScan p .factory).put (touchStatus_COMB_CUR p) (s.get (touchCtrl_COMB p))
  s.put (touchStatus_STATE p) (if s.flag (touchCtrl_ST_AT_START p) then 1 else 2)

/-- A port is disabled: its contacts end (R281). -/
def State.disableTouch (s : State) (p : Nat) : State :=
  let s := ((s.setContacts p []).setSuspect p []).put (touchStatus_STATE p) 0
  s.modPort p fun t => { t with ups := [], start := none, firstReport := false, hop := none, hopFrom := none, hopped := false }

/-- What a change of EN from `old` does once CTRL holds the new value. -/
def State.touchEnChanged (s : State) (p : Nat) (old : Bool) : State :=
  let new := s.flag (touchCtrl_EN p)
  if new = old then s else if new then s.enableTouch p else s.disableTouch p

/-- The sealed writes of a port's registers take effect at a master frame start, with a change of EN (R294). -/
def State.applyTouch (s : State) (p : Nat) : State :=
  let old := s.flag (touchCtrl_EN p)
  let lo := (touchCtrl p).addr
  (s.applyStaged lo (lo + 0x40000)).touchEnChanged p old

/-- A hop takes effect at a master frame start (R285). -/
def State.hopNow (s : State) (p : Nat) : State :=
  match (s.tport p).hop with
  | none => s
  | some c =>
    let old := s.get (touchStatus_COMB_CUR p)
    let s := s.modPort p fun t => { t with
      hop := none, hopFrom := some (t.hopFrom.getD old), hopped := true, openRuns := [], monitor := [] }
    (s.put (touchStatus_COMB_CUR p) c).raise 262 (p * 256 + c)

/-- The touch part of a master frame start: sealed writes, hops, and the end of a pause once the warm reset is over (R285,
R293, R294). -/
def State.touchFrameStart (s : State) : State :=
  s.each (List.range 4) fun s p =>
    let s := (s.applyTouch p).hopNow p
    if (s.tport p).paused && s.power.warm.isNone then
      let s := s.modPort p fun t => { t with paused := false }
      if s.flag (touchCtrl_EN p) then (s.startScan p .held).put (touchStatus_STATE p) 2 else s
    else s

/-- A warm reset at its decision: the drive is off and contacts are cleared without up items (R293). -/
def State.touchWarm (s : State) : State :=
  s.each (List.range 4) fun s p =>
    let s := s.each ((s.tport p).tests ++ (((s.tport p).store.map (·.origins)).getD [])) State.dropReply
    ((s.setContacts p []).setSuspect p []).modPort p fun t => { t with paused := true, ups := [], tests := [], store := none }

/-! ### Electrode faults (R290, R291) -/

/-- An electrode: its number, and whether it is a sense line. -/
abbrev Electrode := Nat × Bool

/-- Whether an electrode is excluded. -/
def TouchPort.excludes (t : TouchPort) (e : Electrode) : Bool := (if e.2 then t.exSense else t.exDrive) / 2 ^ e.1 % 2 == 1

/-- Whether node `i` lies on an excluded electrode. -/
def TouchPort.out (t : TouchPort) (i : Nat) : Bool := t.excludes (i / senses, false) || t.excludes (i % senses, true)

/-- The limit below which a node reads as if its electrode were open: a quarter of its factory baseline, or 1,000 counts
(R290); raw counts below it are those with 4 × raw below four times it. -/
def State.openLimits (s : State) (p : Nat) : List Nat :=
  let set := s.get (touchStatus_COMB_CUR p)
  if s.factoryStored p set then s.factoryOf p set else List.replicate nodes 4000

/-- The electrodes all of whose nodes read open: drive lines from 0, sense lines from 64. -/
def openLines (raw limits : List Nat) : List Nat :=
  let low := (raw.zipWith (fun r l => decide (4 * r < l)) limits).toArray
  let at_ (d c : Nat) : Bool := low.getD (senses * d + c) false
  ((List.range drives).filter fun d => (List.range senses).all fun c => at_ d c)
    ++ ((List.range senses).filter fun c => (List.range drives).all fun d => at_ d c).map (drives + ·)

/-- The electrode of a number that counts drive lines from 0 and sense lines from 64. -/
def lineOf (n : Nat) : Electrode := if n < drives then (n, false) else (n - drives, true)

/-- The reading of the drive monitor on line `d` of tone `t`, in mV peak to peak. -/
def tone (m : Array Nat) (d t : Nat) : Nat := m.getD (drives * d + t) 0

/-- The faults that a whole monitor pass shows: code 3 lines shorted to each other, code 4 lines short of their own tone
(R290). -/
def monitorFaults (m : List Nat) : List (Nat × Electrode) :=
  let a := m.toArray
  let leaks (d e : Nat) : Bool := decide (0 < tone a d e ∧ tone a d d ≤ 5 * tone a d e)
  (((List.range drives).filter fun d => (List.range drives).any fun e => d != e && leaks d e && leaks e d).map
      fun d => (3, d, false))
    ++ ((List.range drives).filter fun d => decide (tone a d d < 3000)).map fun d => (4, d, false)

/-- The readings of one window's monitor; a list with none stands for 8 lines that each show their own tone of 6 Vpp alone. -/
def monitorBlock (group : Nat) (readings : List W16) : List Nat :=
  if readings.isEmpty then
    (List.range 512).map fun i => if i % drives = 8 * group + i / drives then 6000 else 0
  else (readings.map BitVec.toNat).take 512 ++ List.replicate (512 - readings.length) 0

/-- An electrode is excluded and reported, once (R291). -/
def State.exclude (s : State) (p code : Nat) (e : Electrode) : State :=
  if (s.tport p).excludes e then s
  else
    let s := s.modPort p fun t =>
      if e.2 then { t with exSense := t.exSense + 2 ^ e.1 } else { t with exDrive := t.exDrive + 2 ^ e.1 }
    (s.put (touchStatus_FAULTED p) 1).raise 264 (p * 4096 + code * 256 + e.1)

/-- The continuous checks of a scanning port: codes 1 and 2 after 16 windows, codes 3 and 4 at the end of a monitor pass. -/
def State.checkElectrodes (s : State) (p : Nat) (raw : List Nat) (monitor : List W16) : State :=
  let t := s.tport p
  let opened := openLines raw (s.openLimits p)
  let runs := opened.map fun n => (n, BitVec.ofNat 8 (min 16 ((sget t.openRuns n).toNat + 1)))
  let pass := t.monitor ++ monitorBlock (t.monitor.length / 512) monitor
  let s := s.modPort p fun t => { t with openRuns := runs, monitor := if pass.length < 4096 then pass else [] }
  let s := s.each (runs.filter fun r => 16 ≤ r.2.toNat) fun s r => s.exclude p (if r.1 < drives then 1 else 2) (lineOf r.1)
  if pass.length < 4096 then s else s.each (monitorFaults pass) fun s f => s.exclude p f.1 f.2

/-! ### Baselines at a first window (R283, R286) -/

/-- The nodes within two electrodes of a contact's peak (R278). -/
def Contact.freezes (c : Contact) (i : Nat) : Bool :=
  let d := i / senses
  let e := i % senses
  decide (d ≤ c.drive + 2 ∧ c.drive ≤ d + 2 ∧ e ≤ c.sense + 2 ∧ c.sense ≤ e + 2)

/-- Whether node `i` is frozen by a contact. -/
def frozen (l : List Contact) (i : Nat) : Bool := l.any fun c => c.freezes i

/-- The baseline source: factory or snapshot (STATUS.BL_SRC). -/
def State.setSource (s : State) (p src : Nat) : State := s.put (touchStatus_BL_SRC p) src

/-- A snapshot: the raw counts of the first window become the baseline. -/
def State.snapshot (s : State) (p : Nat) (raw : List Nat) : State := (s.setBases p (raw.map (256 * ·))).setSource p 2

/-- The baseline of a port that has started, from its first window (R283). -/
def State.startBaseline (s : State) (p : Nat) (raw : List Nat) : State :=
  let set := s.get (touchStatus_COMB_CUR p)
  let go := (s.tport p).start
  let s := s.modPort p fun t => { t with start := none }
  match go with
  | none | some .held => s
  | some .snapshot =>
    let s := s.snapshot p raw
    if s.factoryStored p set then s else s.raise 257 (p * 256 + set)
  | some .factory =>
    if s.factoryStored p set then
      let f := s.factoryOf p set
      let s := (s.setBases p (f.map (256 * ·))).setSource p 1
      let limit := s.get (touchThresh_CONTACT_THRESH p)
      let far := (List.range nodes).zip (raw.zipWith (fun r b => decide (limit < max r b - min r b)) f)
      let l := (far.filter (·.2)).map fun x => (x.1, (1 : BitVec 8))
      (s.setSuspect p l).when (!l.isEmpty) fun s => s.raise 258 (p * 256 + min l.length 255)
    else (s.snapshot p raw).raise 257 (p * 256 + set)

/-- The baseline moves to the set of a hop, from the first window on it (R286). A result outside 16.8 fixed point leaves the
node's baseline a free value. -/
def State.hopBaseline (s : State) (p : Nat) (raw : List Nat) : State :=
  match (s.tport p).hopFrom with
  | none => s
  | some old =>
    let set := s.get (touchStatus_COMB_CUR p)
    let t := s.tport p
    let fits (v : Int) : Nat := if 0 ≤ v ∧ v < 2 ^ 24 then v.toNat else s.free.toNat % 2 ^ 24
    let moved := if s.factoryStored p old && s.factoryStored p set then
        ((s.factoryOf p set).zip (s.factoryOf p old)).zipWith
          (fun f (b : Nat) => fits ((f.1 * 256 : Nat) + ((b : Int) - (f.2 * 256 : Nat)))) (s.bases p)
      else
        ((List.range nodes).zip ((s.bases p).zip (s.raws p))).zipWith
          (fun x r => if frozen t.contacts x.1 then
              fits ((r * 256 : Nat) + (if t.out x.1 then 0 else ((x.2.1 / 256 : Nat) : Int) - x.2.2) * 256)
            else r * 256) raw
    (s.freeUsed.setBases p moved).modPort p fun t => { t with hopFrom := none }

/-! ### Peaks (R278, R279) -/

/-- The delta of each node; that of a node on an excluded electrode is taken as 0 (R278). -/
def deltas (t : TouchPort) (base raw : List Nat) : List Int :=
  (List.range nodes).zipWith (fun i x => if t.out i then 0 else ((x.1 / 256 : Nat) : Int) - (x.2 : Nat)) (base.zip raw)

/-- A peak: its electrodes, its delta, its centroid in 1/256 electrode and its panel position. -/
structure Peak where
  drive : Nat
  sense : Nat
  delta : Int
  cx : Nat
  cy : Nat
  x : Nat
  y : Nat

/-- The electrodes of a node's neighbourhood, the node included, clipped at the panel edge. -/
def around (d c : Nat) : List (Nat × Nat) :=
  ((List.range 3).flatMap fun i => (List.range 3).map fun j => (d + i, c + j)).filterMap fun x =>
    if x.1 = 0 ∨ x.2 = 0 ∨ drives < x.1 ∨ senses < x.2 then none else some (x.1 - 1, x.2 - 1)

/-- Whether node (d, c) is a peak: its delta exceeds those of its neighbours, an earlier one winning a tie (R279). -/
def isPeak (a : Array Int) (hold : Nat) (i : Nat) : Bool :=
  let v := a.getD i 0
  decide ((hold : Int) ≤ v) && (around (i / senses) (i % senses)).all fun x =>
    let j := senses * x.1 + x.2
    j == i || (if j < i then decide (a.getD j 0 < v) else decide (a.getD j 0 ≤ v))

/-- The panel position of a centroid (R279). -/
def State.panel (s : State) (p cx cy : Nat) : Nat × Nat :=
  let xm := s.get (touchScale_X_MAX p)
  let ym := s.get (touchScale_Y_MAX p)
  let x := (cx * xm + 14208) / 28416
  let y := (cy * ym + 8064) / 16128
  let (x, y) := if s.flag (touchCtrl_SWAP_XY p) then (y, x) else (x, y)
  let flip (m v : Nat) : Nat := ofSigned 16 ((m : Int) - (v : Nat))
  (if s.flag (touchCtrl_FLIP_X p) then flip xm x else x, if s.flag (touchCtrl_FLIP_Y p) then flip ym y else y)

/-- The peak at node `i`, with its weighted centroid over the 3 × 3 neighbourhood (R279). -/
def State.peakAt (s : State) (p : Nat) (a : Array Int) (i : Nat) : Peak :=
  let d := i / senses
  let c := i % senses
  let ws := (around d c).map fun x => (x, (a.getD (senses * x.1 + x.2) 0).toNat)
  let sum := (ws.map (·.2)).sum
  let cx := (256 * (ws.map fun w => w.1.2 * w.2).sum + sum / 2) / sum
  let cy := (256 * (ws.map fun w => w.1.1 * w.2).sum + sum / 2) / sum
  let xy := s.panel p cx cy
  ⟨d, c, a.getD i 0, cx, cy, xy.1, xy.2⟩

/-- The peaks of a window, in (d, s) order. -/
def State.peaks (s : State) (p : Nat) (a : Array Int) : List Peak :=
  let hold := s.get (touchThresh_HOLD_THRESH p)
  ((List.range nodes).filter (isPeak a hold)).map (s.peakAt p a)

/-! ### Contacts (R280) -/

/-- The difference of two numbers. -/
def apart (a b : Nat) : Nat := max a b - min a b

/-- The pairs of an existing contact and a peak within TRACK_DIST in both axes: squared distance, contact and peak index. -/
def trackPairs (dist : Nat) (cs : List Contact) (ps : List Peak) : List (Nat × Nat × Nat) :=
  ((List.range cs.length).zip cs).flatMap fun c => ((List.range ps.length).zip ps).filterMap fun q =>
    let dx := apart c.2.cx q.2.cx
    let dy := apart c.2.cy q.2.cy
    if dx ≤ dist ∧ dy ≤ dist then some (dx * dx + dy * dy, c.1, q.1) else none

/-- A pair takes its place: ascending distance, then the order it comes in (contact identifier, then peak order). -/
def insertPair : List (Nat × Nat × Nat) → Nat × Nat × Nat → List (Nat × Nat × Nat)
  | [], x => [x]
  | y :: rest, x => if x.1 < y.1 then x :: y :: rest else y :: insertPair rest x

/-- Pairs are taken in order, each contact and each peak once. -/
def takePairs : List (Nat × Nat × Nat) → List (Nat × Nat) → List (Nat × Nat)
  | [], acc => acc
  | x :: rest, acc =>
    takePairs rest (if acc.any fun y => y.1 == x.2.1 || y.2 == x.2.2 then acc else acc ++ [(x.2.1, x.2.2)])

/-- A contact moves to a peak. -/
def Contact.moveTo (c : Contact) (q : Peak) : Contact :=
  { c with cx := q.cx, cy := q.cy, x := q.x, y := q.y, strength := q.delta.toNat, misses := 0, drive := q.drive, sense := q.sense,
           fresh := false }

/-- A new contact at a peak. -/
def Contact.at_ (id : Nat) (q : Peak) : Contact :=
  { id := id, cx := q.cx, cy := q.cy, x := q.x, y := q.y, strength := q.delta.toNat, misses := 0, drive := q.drive,
    sense := q.sense, fresh := true, long := false, zoned := false }

/-- A contact takes its place by identifier. -/
def insertContact : List Contact → Contact → List Contact
  | [], c => [c]
  | x :: rest, c => if c.id < x.id then c :: x :: rest else x :: insertContact rest c

/-- The contacts after a window, those reported up in it, and the peaks left over (R280). -/
def track (dist up : Nat) (cs : List Contact) (ps : List Peak) : List Contact × List Contact × List Peak :=
  let pairs := takePairs ((trackPairs dist cs ps).foldl insertPair []) []
  let moved := ((List.range cs.length).zip cs).map fun c =>
    match (pairs.find? fun x => x.1 == c.1).bind fun x => ps[x.2]? with
    | some q => c.2.moveTo q
    | none => { c.2 with misses := c.2.misses + 1, fresh := false }
  let spare := ((List.range ps.length).zip ps).filter fun q => !pairs.any fun x => x.2 == q.1
  (moved.filter fun c => c.misses < up, moved.filter fun c => up ≤ c.misses, spare.map (·.2))

/-- The lowest identifier free among contacts and among those reported up in the same frame. -/
def freeId (cs ups : List Contact) : Nat :=
  ((List.range 16).find? fun i => !(cs ++ ups).any fun c => c.id == i).getD 0

/-- New contacts from the peaks left over, in (d, s) order: the contacts, and the peaks beyond the tenth contact. -/
def newContacts (ups : List Contact) : List Peak → List Contact → List Contact × Nat
  | [], cs => (cs, 0)
  | q :: rest, cs =>
    if 10 ≤ cs.length then ((newContacts ups rest cs).1, (newContacts ups rest cs).2 + 1)
    else newContacts ups rest (insertContact cs (Contact.at_ (freeId cs ups) q))

/-! ### Reports (R287) -/

/-- The contact item of a contact in a state; the strength of a contact reported up is not stated. -/
def contactItem (p st strength : Nat) (c : Contact) : W64 :=
  BitVec.ofNat 64 (2 ^ 63 + 0x41 * 2 ^ 56 + st * 2 ^ 54 + p * 2 ^ 52 + c.id % 16 * 2 ^ 44 + min strength 4095 * 2 ^ 32
    + c.y % 65536 * 65536 + c.x % 65536)

/-- The state in which a contact that is down is reported: 0 down, 1 held, 3 held with LONG_TOUCH. -/
def Contact.state (c : Contact) : Nat := if c.fresh then 0 else if c.long then 3 else 1

/-- The flags of the header item, bits 2 to 6 of which have a report written. -/
def State.reportFlags (s : State) (p : Nat) (limited : Bool) : Nat :=
  let t := s.tport p
  let b (v : Bool) (i : Nat) : Nat := if v then 2 ^ i else 0
  b (s.get (touchStatus_BL_SRC p) == 2) 0 + b (!t.suspect.isEmpty) 1 + b t.hopped 2 + b (t.exDrive != 0 || t.exSense != 0) 3
    + b t.firstReport 4 + b limited 5 + b (s.flag (touchStatus_NOISY p)) 6

/-- The report of a touch frame: `ups` are the contacts reported up, `limited` whether the contact limit was reached. -/
def State.report (s : State) (p : Nat) (ups : List Contact) (limited : Bool) : State :=
  let s := s.put (touchFrameCnt_COUNT p) (s.get (touchFrameCnt_COUNT p) + 1)
  let shown := (s.tport p).contacts.filter fun c => c.misses == 0
  let free := s.free.toNat % 4096
  let rows := ups.foldl (fun l c => insertContact l { c with fresh := false, misses := 1 }) shown
  let items := rows.map fun c => if c.misses = 0 then contactItem p c.state c.strength c else contactItem p 2 free c
  let flags := s.reportFlags p limited
  let s := s.when (!ups.isEmpty) State.freeUsed
  if !s.flag (touchCtrl_REPORT_ALL p) && items.isEmpty && flags / 4 == 0 then s
  else
    let header := BitVec.ofNat 64 (2 ^ 63 + 0x40 * 2 ^ 56 + items.length % 16 * 2 ^ 52 + p * 2 ^ 50
      + s.get (touchStatus_COMB_CUR p) * 2 ^ 48 + flags * 2 ^ 40 + s.get (touchFrameCnt_COUNT p))
    let time := BitVec.ofNat 64 (2 ^ 63 + s.now.word.toNat % 2 ^ 63)
    let s := s.appendPacket (s.get (touchCtrl_QUEUE p)) (header :: time :: items)
    let first := (s.tport p).firstReport
    let s := s.modPort p fun t => { t with
      firstReport := false, hopped := false, ups := [], contacts := t.contacts.map fun c => if c.misses = 0 then { c with long := false } else c }
    s.when first fun s => s.raise 256 (p * 256 + s.get (touchStatus_BL_SRC p))

/-! ### Zones and picks (R265, R288) -/

/-- The lowest-numbered enabled zone that holds a position. -/
def State.zoneAt (s : State) (p x y : Nat) : Option Nat :=
  (List.range 64).find? fun z => s.flag (touchZoneFx_EN p z) &&
    decide (s.get (touchZoneMin_X p z) ≤ x ∧ x ≤ s.get (touchZoneMax_X p z)
      ∧ s.get (touchZoneMin_Y p z) ≤ y ∧ y ≤ s.get (touchZoneMax_Y p z))

/-- A contact reported down triggers its zone's effect and launches its pick. -/
def State.contactDown (s : State) (p : Nat) (c : Contact) : State :=
  match s.zoneAt p c.x c.y with
  | some z =>
    let s := s.trigger ⟨s.get (touchZoneFx_CH p z), s.get (touchZoneFx_FX p z), s.flag (touchZoneFx_URG p z), 0, p, z, none⟩
    let s := s.modPort p fun t => { t with contacts := t.contacts.map fun x => if x.id = c.id then { x with zoned := true } else x }
    (s.raise 266 (p * 256 + z)).launchPick p c.id c.x c.y true
  | none => s.launchPick p c.id c.x c.y false

/-! ### Baseline tracking (R278, R282, R283) -/

/-- One node's baseline after a window, and whether rule 3 reset it (R278). -/
def trackNode (t : TouchPort) (shift neg negFrames hold : Nat) (i : Nat) (b raw : Nat) (delta : Int) : Nat × Bool :=
  let target : Int := (raw * 256 : Nat)
  if t.out i then (b, false)
  else if frozen t.contacts i then (b, false)
  else if negFrames ≤ (sget t.negative i).toNat then (raw * 256, true)
  else if sget t.recovering i ≠ 0 then (((b : Int) + (target - b).fdiv 16).toNat, false)
  else if -(neg : Int) < delta ∧ 2 * delta < (hold : Int) then (((b : Int) + (target - b).fdiv (2 ^ shift : Nat)).toNat, false)
  else (b, false)

/-- The consecutive windows in which each node's delta was at most −NEG_THRESH. -/
def negativeRuns (old : List (Nat × BitVec 8)) (neg : Nat) (delta : List Int) : List (Nat × BitVec 8) :=
  (((List.range nodes).zip delta).filter fun x => decide (x.2 ≤ -(neg : Int))).map fun x =>
    (x.1, BitVec.ofNat 8 (min 255 ((sget old x.1).toNat + 1)))

/-- Suspect nodes after a window: a node that has been quiet for 64 windows in a row is suspect no longer (R283). -/
def suspectAfter (old : List (Nat × BitVec 8)) (hold : Nat) (a : Array Int) : List (Nat × BitVec 8) :=
  (old.map fun x => (x.1, if 2 * (a.getD x.1 0).natAbs < hold then x.2 + 1 else 1)).filter fun x => x.2.toNat ≤ 64

/-- The nodes of the regions of contacts reported up recover for 64 windows (R282). -/
def recoverAfter (l : List (Nat × BitVec 8)) (ups : List Contact) : List (Nat × BitVec 8) :=
  ((List.range nodes).filter fun i => frozen ups i).foldl (fun l i => sset l i 64) l

/-- The baselines of a port after a window. -/
def State.trackBases (s : State) (p : Nat) (raw : List Nat) (delta : List Int) : State :=
  let neg := s.get (touchTrack_NEG_THRESH p)
  let hold := s.get (touchThresh_HOLD_THRESH p)
  let s := s.modPort p fun t => { t with negative := negativeRuns t.negative neg delta }
  let t := s.tport p
  let rows := ((List.range nodes).zip (s.bases p)).zipWith (fun x y =>
    trackNode t (s.get (touchTrack_TRACK_SHIFT p)) neg (max 1 (s.get (touchTrack_NEG_FRAMES p))) hold x.1 x.2 y.1 y.2)
    (raw.zip delta)
  let resets := (rows.filter (·.2)).length
  let s := s.setBases p (rows.map (·.1))
  let s := s.modPort p fun t => { t with
    recovering := (t.recovering.map fun x => (x.1, x.2 - 1)).filter fun x => x.2 ≠ 0,
    negative := (t.negative.zip (t.negative.map fun x => ((rows[x.1]?).map (·.2)).getD false)).filterMap fun x =>
      if x.2 then none else some x.1 }
  let s := s.setSuspect p (suspectAfter t.suspect hold delta.toArray)
  s.when (resets != 0) fun s => s.raise 259 (p * 256 + min resets 255)

/-! ### A window (R277 to R288) -/

/-- The window of a scanning port. -/
def State.scanWindow (s : State) (p : Nat) (raw : List Nat) (monitor : List W16) : State :=
  let s := s.checkElectrodes p raw monitor
  let s := ((s.hopBaseline p raw).startBaseline p raw).setRaws p raw
  let delta := deltas (s.tport p) (s.bases p) raw
  let peaks := s.peaks p delta.toArray
  let t := s.tport p
  let tr := track (s.get (touchTiming_TRACK_DIST p)) (max 1 (s.get (touchTrack_UP_FRAMES p))) t.contacts peaks
  let ups := t.ups ++ tr.2.1
  let fresh := tr.2.2.filter fun q =>
    decide ((s.get (touchThresh_CONTACT_THRESH p) : Int) ≤ q.delta) && sget t.recovering (senses * q.drive + q.sense) == 0
  let made := newContacts ups fresh tr.1
  let s := (s.setContacts p made.1).modPort p fun t => { t with recovering := recoverAfter t.recovering tr.2.1 }
  let s := s.each (List.range made.2) fun s _ => (s.bump (touchLimitCnt_COUNT p)).raise 260 p
  let s := s.report p ups (decide (0 < made.2))
  let s := s.each ((s.tport p).contacts.filter (·.fresh)) fun s c => s.contactDown p c
  s.trackBases p raw delta

/-- The window of a baseline store: 16 windows on each set, whose means are kept (R284). -/
def State.storeWindow (s : State) (p : Nat) (raw : List Nat) (b : BaselineStore) : State :=
  if 64 ≤ b.windows then s
  else
    let sums := if b.sums.isEmpty then raw else b.sums.zipWith (· + ·) raw
    let done := (b.windows + 1) % 16 == 0
    let b := { b with
      windows := b.windows + 1, sums := if done then [] else sums,
      means := if done then b.means ++ sums.map fun x => nearRound x 16 else b.means }
    let s := s.modPort p fun t => { t with store := some b }
    s.put (touchStatus_COMB_CUR p) (if b.windows < 64 then b.windows / 16 else b.home)

/-- TOUCH_WINDOW_END on port `p` in an enabled slot: raw counts, clipped converters and the drive monitor's readings. -/
def State.touchWindow (s : State) (p slot : Nat) (raw : List W16) (clipped : BitVec 112) (monitor : List W16) : State :=
  if !s.scans p || !s.flag (touchWin_EN p slot) then s
  else
    let raw := windowRaws raw clipped
    let s := s.each ((List.range senses).filter fun c => clipped.getLsbD c) fun s c => s.raise 267 (p * 256 + c)
    match (s.tport p).store with
    | some b => (s.setRaws p raw).storeWindow p raw b
    | none => if s.get (touchStatus_STATE p) = 2 then s.scanWindow p raw monitor else s.setRaws p raw

/-- LONG_TOUCH: a contact has been down for another LONG_S seconds; the next touch frame reports it with state 3 (R281). -/
def execLongTouch (port : Fin 4) (contact : Fin 16) (s : State) : Host.Outcome State Fault Refusal :=
  .next (
    let p := port.val
    if s.scans p && (s.tport p).contacts.any fun c => c.id == contact.val then
      (s.modPort p fun t => { t with contacts := t.contacts.map fun c => if c.id = contact.val then { c with long := true } else c }).raise
        261 (p * 256 + contact.val)
    else s)

/-! ### Noise and hopping (R285) -/

/-- The noise of a set of port `p`. -/
def State.noise (s : State) (p set : Nat) : Nat :=
  if set % 2 = 0 then s.get (touchNoise_N_LO p (set / 2)) else s.get (touchNoise_N_HI p (set / 2))

/-- The set to hop to: the lowest noise among the other sets below half of the active set's. -/
def State.betterSet (s : State) (p : Nat) : Option Nat :=
  let cur := s.get (touchStatus_COMB_CUR p)
  ((List.range 4).filter fun c => c != cur && decide (2 * s.noise p c < s.noise p cur)).foldl (fun best c => match best with
    | none => some c
    | some b => if s.noise p c < s.noise p b then some c else some b) none

/-- LISTEN_WINDOW_END: the noise of each set is kept, and a hop is decided (R285). -/
def execListenWindowEnd (port : Fin 4) (n0 n1 n2 n3 : W16) (s : State) : Host.Outcome State Fault Refusal :=
  .next (
    let p := port.val
    if !s.scans p || !s.flag (touchListen_EN p) || s.get (touchStatus_STATE p) != 2 then s
    else
      let s := ((s.put (touchNoise_N_LO p 0) n0.toNat).put (touchNoise_N_HI p 0) n1.toNat).put (touchNoise_N_LO p 1) n2.toNat
      let s := s.put (touchNoise_N_HI p 1) n3.toNat
      let cur := s.get (touchStatus_COMB_CUR p)
      if s.noise p cur ≤ s.get (touchHop_HOP_THRESH p) then
        (s.modPort p fun t => { t with noisyRun := 0 }).put (touchStatus_NOISY p) 0
      else
        let run := (s.tport p).noisyRun + 1
        let s := s.modPort p fun t => { t with noisyRun := run }
        if !s.flag (touchCtrl_HOP_EN p) || decide (run < s.get (touchHop_HOP_FRAMES p)) || (s.tport p).hop.isSome then s
        else match s.betterSet p with
          | some c => (s.modPort p fun t => { t with hop := some c, noisyRun := 0 }).put (touchStatus_NOISY p) 0
          | none => if s.flag (touchStatus_NOISY p) then s else (s.put (touchStatus_NOISY p) 1).raise 263 (p * 256 + cur))

/-! ### Self-test (R290 to R292) -/

/-- The faults of a self-test in the order of its windows: open lines and clipped converters, then the monitor's, then the
shorts between sense lines. -/
def State.testFaults (s : State) (p : Nat) (raw : List Nat) (clipped : BitVec 112) (monitor : List W16)
    (bias : List (Byte × Byte)) : List (Nat × Electrode) :=
  ((openLines raw (s.openLimits p)).map fun n => (if n < drives then 1 else 2, lineOf n))
    ++ (((List.range senses).filter fun c => clipped.getLsbD c).map fun c => (6, c, true))
    ++ monitorFaults ((List.range 8).flatMap fun g => monitorBlock g ((monitor.drop (512 * g)).take 512))
    ++ bias.flatMap fun b => [b.1.toNat, b.2.toNat].filterMap fun c => if c < senses then some (5, c, true) else none

/-- The bits of the electrodes of a kind. -/
def electrodeBits (l : List Electrode) (sense : Bool) : Nat :=
  ((l.filter fun e => e.2 == sense).eraseDups.map fun e => 2 ^ e.1).sum

/-- TOUCH_SELFTEST_COMPLETE: results, exclusions, and the replies that waited (R291, R292, R296). `raw` and `clipped` are those
of its first window and of all its windows, `monitor` the 64 × 64 readings of the drive monitor in mV, `bias` the pairs of
sense lines on which a step appears at 10 % or more. -/
def execTouchSelftestComplete (port : Fin 4) (raw : List W16) (clipped : BitVec 112) (monitor : List W16)
    (bias : List (Byte × Byte)) (s : State) : Host.Outcome State Fault Refusal :=
  .next (
    let p := port.val
    let tests := (s.tport p).tests
    if !s.scans p || s.get (touchStatus_STATE p) != 1 then s
    else
      let faults := s.testFaults p (windowRaws raw 0) clipped monitor bias
      let lines := (faults.map (·.2)).eraseDups
      let first := faults.headD (0, 0, false)
      let s := s.put (touchStDrv_FAULT p) (electrodeBits lines false)
      let s := (s.put (touchStSns_FAULT p 0) (electrodeBits lines true)).put (touchStSns_FAULT p 1) (electrodeBits lines true / 2 ^ 64)
      let s := ((s.put (touchStLast_COUNT p) lines.length).put (touchStLast_CODE p) first.1).put (touchStLast_INDEX p) first.2.1
      let s := s.putBit (touchStLast_SENSE p) first.2.2
      let was := s.tport p
      let s := s.each (faults.filter fun f => !was.excludes f.2) fun s f => s.exclude p f.1 f.2
      let s := s.modPort p fun t => { t with
        exDrive := electrodeBits lines false, exSense := electrodeBits lines true, tests := [] }
      let s := (s.putBit (touchStatus_FAULTED p) (!lines.isEmpty)).put (touchStatus_STATE p) 2
      let s := s.raise 265 (p * 256 + lines.length)
      s.each tests fun s o => s.settle o ⟨stDone, lines.length, s.rd (touchStDrv p), s.rd (touchStLast p)⟩)

/-! ### Baseline store (R284) -/

/-- BASELINE_STORE_COMPLETE: the means of the four sets are in flash, and the packet is answered. -/
def execBaselineStoreComplete (port : Fin 4) (s : State) : Host.Outcome State Fault Refusal :=
  .next (
    let p := port.val
    match (s.tport p).store with
    | none => s
    | some b =>
      if b.windows < 64 then s
      else
        let s : State := { s with touch := { s.touch with
          factory := sput s.touch.factory (4 * p * nodes) (b.means.map (BitVec.ofNat 16)) } }
        let s := s.put touchFactory_VALID (setField (s.get touchFactory_VALID) (4 * p) 4 15)
        let s := (s.modPort p fun t => { t with store := none }).put (touchStatus_COMB_CUR p) b.home
        let s := s.when (s.get (touchStatus_STATE p) == 3) fun s => s.put (touchStatus_STATE p) 2
        s.each b.origins fun s o => s.settle o (done 0 0))

/-! ### Opcodes (R295, R296) -/

/-- The window and listen lines of a TOUCH_SET payload; 0xFFFF disables a slot. -/
def slotAt (o : Origin) (off : Nat) : Option Nat := if o.u16 off = 0xFFFF then none else some (o.u16 off)

/-- The first payload byte of TOUCH_SET that is out of range. -/
def touchSetFault (o : Origin) : Option Nat :=
  if 1 < o.u8 0 then some 0
  else if 3 < o.u8 1 then some 1
  else if 63 < o.u8 2 then some 2
  else if 31 < o.u8 3 then some 3
  else if 4095 < o.u16 4 then some 4
  else if o.u16 4 < o.u16 6 then some 6
  else if o.u8 8 < 4 ∨ 14 < o.u8 8 then some 8
  else if o.u8 9 = 0 then some 9
  else if 4095 < o.u16 10 then some 10
  else if o.u16 12 = 0 then some 12
  else if o.u16 14 = 0 then some 14
  else if o.u16 16 = 0 ∨ 4095 < o.u16 16 then some 16
  else if 4095 < o.u16 18 then some 18
  else if o.u8 22 = 0 then some 22
  else if o.u8 23 = 0 ∨ 15 < o.u8 23 then some 23
  else ((List.range 9).map fun j => 24 + 2 * j).find? fun off => (slotAt o off).any fun l => decide (16383 < l)

/-- A slot register takes a line, or is disabled. -/
def State.setSlot (s : State) (line en : RF) (l : Option Nat) : State :=
  match l with
  | some v => (s.put line v).put en 1
  | none => s.put en 0

/-- TOUCH_SET takes effect. -/
def State.landTouch (s : State) (o : Origin) : State :=
  let p := o.tgt
  let old := s.flag (touchCtrl_EN p)
  let f := o.u8 2
  let s := s.wr (touchCtrl p) (BitVec.ofNat 64 (o.u8 0 + 2 * o.u8 1 + 8 * (f % 64) + 512 * o.u8 3))
  let s := (s.put (touchThresh_CONTACT_THRESH p) (o.u16 4)).put (touchThresh_HOLD_THRESH p) (o.u16 6)
  let s := ((s.put (touchTrack_TRACK_SHIFT p) (o.u8 8)).put (touchTrack_NEG_FRAMES p) (o.u8 9)).put (touchTrack_NEG_THRESH p) (o.u16 10)
  let s := ((s.put (touchTrack_UP_FRAMES p) (o.u8 23)).put (touchScale_X_MAX p) (o.u16 12)).put (touchScale_Y_MAX p) (o.u16 14)
  let s := (s.put (touchTiming_LONG_S p) (o.u16 16)).put (touchTiming_TRACK_DIST p) (o.u16 18)
  let s := (s.put (touchHop_HOP_THRESH p) (o.u16 20)).put (touchHop_HOP_FRAMES p) (o.u8 22)
  let s := s.setSlot (touchListen_LINE p) (touchListen_EN p) (slotAt o 24)
  let s := s.each (List.range 8) fun s j => s.setSlot (touchWin_LINE p j) (touchWin_EN p j) (slotAt o (26 + 2 * j))
  s.touchEnChanged p old

def specTouchSet : OpSpec :=
  { opcode := 0x0801, lens := len 48, zero := fun _ => zeroMask [(42, 47)] [], modes := modesPSDBT, issuer := .tenants,
    member := .capable, names := namesTouch, owns := ownsTouch, log := .logged,
    check := fun s o => match touchSetFault o with
      | some b => some (stNoResource, 1 + b)
      | none =>
        let wins := (List.range 8).filterMap fun j => slotAt o (26 + 2 * j)
        if s.queueOwner (o.u8 3) ≠ s.touchOwner o.tgt then some (stNotOwner, 4)
        else if !slotsArranged s.rateNum s.rateDen s.lines wins (slotAt o 24) then some (stNoResource, 0x00F5)
        else if !slotRateOk s.rateNum s.rateDen wins.length then some (stNoResource, 0x00F4)
        else none,
    land := State.landTouch }

/-- The first entry of ZONE_SET with a value out of range, or with a channel of another tenant. -/
def zoneSetCheck (s : State) (o : Origin) : Option (Nat × Nat) :=
  let n := o.u8 1
  if n = 0 ∨ 64 < n then some (stNoResource, 2)
  else match (List.range n).find? fun i => 7 < o.u8 (16 + 16 * i) ∨ 3 < o.u8 (17 + 16 * i) ∨ 63 < o.u8 (18 + 16 * i) with
    | some i =>
      some (stNoResource, 1 + 16 * i + (if 7 < o.u8 (16 + 16 * i) then 16 else if 3 < o.u8 (17 + 16 * i) then 17 else 18))
    | none =>
      ((List.range n).find? fun i => o.u8 (17 + 16 * i) % 2 == 1 && s.hapOwner (o.u8 (16 + 16 * i)) != s.touchOwner o.tgt).map
        fun i => (stNotOwner, 17 + 16 * i)

def specZoneSet : OpSpec :=
  { opcode := 0x0802, lens := fun b => if leAt b 0 1 + leAt b 1 1 ≤ 64 then [8 + 16 * leAt b 1 1] else [],
    zero := fun b => zeroMask ((2, 7) :: (List.range (leAt b 1 1)).map fun i => (19 + 16 * i, 23 + 16 * i)) [],
    modes := modesPSDBT, issuer := .tenants, member := .capable, names := namesTouch, owns := ownsTouch, log := .logged,
    check := zoneSetCheck,
    land := fun s o => s.each (List.range (o.u8 1)) fun s i =>
      let z := o.u8 0 + i
      let e := 8 + 16 * i
      let s := (s.wr (touchZoneMin o.tgt z) (BitVec.ofNat 64 (o.u32 e))).wr (touchZoneMax o.tgt z) (BitVec.ofNat 64 (o.u32 (e + 4)))
      let s := (s.put (touchZoneFx_CH o.tgt z) (o.u8 (e + 8))).put (touchZoneFx_EN o.tgt z) (o.u8 (e + 9))
      (s.put (touchZoneFx_URG o.tgt z) (o.u8 (e + 9) / 2)).put (touchZoneFx_FX o.tgt z) (o.u8 (e + 10)) }

/-- Whether any contact of port `p` is down or pending up. -/
def State.touched (s : State) (p : Nat) : Bool := !(s.tport p).contacts.isEmpty

def specTouchSelftest : OpSpec :=
  { opcode := 0x0803, lens := len 0, modes := modesPSDBT, issuer := .tenants, names := namesTouch, owns := ownsTouch,
    log := .logged, check := fun s o => if s.touched o.tgt then some (stConflict, 1) else none,
    run := fun s o =>
      let s := s.modPort o.tgt fun t => { t with tests := t.tests ++ [o] }
      (s.when (s.flag (touchCtrl_EN o.tgt)) fun s => s.put (touchStatus_STATE o.tgt) 1, .later) }

def specBaselineStore : OpSpec :=
  { opcode := 0x0804, lens := len 0, modes := [2, 6], issuer := .sealedOnly, names := namesTouch, log := .logged,
    check := fun s o => if !s.flag (touchCtrl_EN o.tgt) then some (stNoResource, 2)
      else if s.touched o.tgt then some (stConflict, 1) else none,
    run := fun s o =>
      let b := (s.tport o.tgt).store.getD ⟨0, [], [], s.get (touchStatus_COMB_CUR o.tgt), []⟩
      let s := s.modPort o.tgt fun t => { t with store := some { b with origins := b.origins ++ [o] } }
      ((s.put (touchStatus_STATE o.tgt) 3).when (b.windows == 0) fun s => s.put (touchStatus_COMB_CUR o.tgt) 0, .later) }

def specBaselineReset : OpSpec :=
  { opcode := 0x0805, lens := len 0, modes := modesPSDBT, issuer := .tenants, names := namesTouch, owns := ownsTouch,
    log := .logged,
    run := fun s o =>
      let cs := (s.tport o.tgt).contacts
      let s := if s.flag (touchCtrl_EN o.tgt) then
          ((s.startScan o.tgt .snapshot).modPort o.tgt fun t => { t with ups := t.ups ++ cs })
        else s
      (s, .answer (done 0 0)) }

/-- The result words of TOUCH_QUERY by selector (R296). -/
def State.touchWords (s : State) (p sel : Nat) : Nat × Nat :=
  let r (x : Reg) : Nat := (s.rd x).toNat
  if sel = 0 then (r (touchStatus p) + 0x100000000 * r (touchFrameCnt p), r (touchStLast p) + 0x100000000 * r (touchSuspect p))
  else if sel = 1 then (r (touchStDrv p), 0)
  else if sel = 2 then (r (touchStSns p 0), r (touchStSns p 1))
  else (r (touchNoise p 0) + 0x100000000 * r (touchNoise p 1), r touchFactory)

def specTouchQuery : OpSpec :=
  { opcode := 0x0806, lens := len 8, zero := fun _ => zeroMask [(1, 7)] [], modes := allModes, issuer := .tenants, query := true,
    names := namesTouch, owns := ownsTouch, check := fun _ o => if 3 < o.u8 0 then some (stNoResource, 1) else none,
    run := fun s o => (s, .answer (done (s.touchWords o.tgt (o.u8 0)).1 (s.touchWords o.tgt (o.u8 0)).2)) }

def execTouchSet (p : Packet) (s : State) : Host.Outcome State Fault Refusal := packetStep specTouchSet p s
def execZoneSet (p : Packet) (s : State) : Host.Outcome State Fault Refusal := packetStep specZoneSet p s
def execTouchSelftest (p : Packet) (s : State) : Host.Outcome State Fault Refusal := packetStep specTouchSelftest p s
def execBaselineStore (p : Packet) (s : State) : Host.Outcome State Fault Refusal := packetStep specBaselineStore p s
def execBaselineReset (p : Packet) (s : State) : Host.Outcome State Fault Refusal := packetStep specBaselineReset p s
def execTouchQuery (p : Packet) (s : State) : Host.Outcome State Fault Refusal := packetStep specTouchQuery p s

end Sys2Proof.Machine
end

