-- ==== Sys2Proof/Machine/Picks.lean ====
section
/-! DEFINITION. The end of a touch pick (R266 to R269): its traversal, its result items and the effect of its object's class. -/
namespace Sys2Proof.Machine

/-- The result of a pick's traversal (R261, R266). The order of visits is not stated, so `spent` says whether the budgets ended
it; it can only where a traversal that skips nothing exceeds them. The hit fields of such a result are not stated. -/
def State.pickResult (s : State) (p : Pick) (spent : Bool) : State × RayResult :=
  match s.sceneAt p.scene with
  | none => (s, ⟨3, 0, 0, 0, 0, 0, 0⟩)
  | some sc =>
    if spent && (s.trace sc p.ray (some (p.nodes, p.tris))).spent then s.openResult (some 4)
    else s.traceResult p.ray (s.trace sc p.ray none) false

/-- The grains since a pick's launch, in 0.1 µs of nominal raster time. -/
def State.pickLatency (s : State) (p : Pick) : Nat :=
  s.since p.at_ * 10000000 * s.rateDen / (s.rateNum * s.lines * 32)

/-- The class map entry of a hit's class triggers its effect, unless the contact has triggered a zone (R269, R288). -/
def State.classTrigger (s : State) (p : Pick) (r : RayResult) : State :=
  let e := (s.rd (gfxPickClass p.port (r.cls / 2))).toNat / 2 ^ (16 * (r.cls % 2)) % 65536
  if r.status = 1 ∧ e / 8 % 2 = 1 ∧ !p.zoned then
    s.trigger ⟨e % 8, e / 256, e / 16 % 2 == 1, 1, p.port, p.contact, none⟩
  else s

/-- PICK_COMPLETE: the traversal of a contact's pick ends and its result is written (R266 to R269). -/
def execPickComplete (port : Fin 4) (contact : Fin 16) (spent : Bool) (s : State) : Host.Outcome State Fault Refusal :=
  .next (match s.gfx.picks.find? fun p => p.port == port.val && p.contact == contact.val with
    | none => s
    | some p =>
      let s := s.modGfx fun g => { g with picks := g.picks.erase p }
      let s := s.put (gfxPickStatus_IN_FLIGHT p.port) (s.get (gfxPickStatus_IN_FLIGHT p.port) - 1)
      let (s, r) := s.pickResult p spent
      let latency := s.pickLatency p
      let s := s.writePick p r latency
      let s := s.put (gfxPickMaxlat_MAX p.port) (max (s.get (gfxPickMaxlat_MAX p.port)) (min latency 65535))
      let s := s.when (r.status == 4) fun s => s.raise 203 (p.port * 256 + p.contact)
      let s := s.when (r.status == 2 || r.status == 3) fun s => s.raise 205 (p.port * 256 + r.status)
      let s := s.when (decide (2000 < latency)) fun s => s.raise 206 p.port
      s.classTrigger p r)

end Sys2Proof.Machine
end

