-- ==== Sys2Proof/Machine/Audio.lean ====
section
/-! DEFINITION. Audio routing and mixing (R318 to R341): gains, buses, sinks, guest streams, tones, ducking, the mixing of one
sample, and the audio opcodes. -/
namespace Sys2Proof.Machine

/-! ### Parts -/

/-- The audio engine changes. -/
def State.modAud (s : State) (f : AudState → AudState) : State := { s with aud := f s.aud }
/-- Bus `b` beside its registers. -/
def State.bus (s : State) (b : Nat) : AudBus := s.aud.buses.getD b AudBus.cold
/-- Bus `b` changes. -/
def State.modBus (s : State) (b : Nat) (f : AudBus → AudBus) : State := s.modAud fun a => { a with buses := modAt a.buses b f }
/-- Sink `k` beside its register. -/
def State.sink (s : State) (k : Nat) : AudSink := s.aud.sinks.getD k (AudSink.cold k)
/-- Sink `k` changes. -/
def State.modSink (s : State) (k : Nat) (f : AudSink → AudSink) : State :=
  s.modAud fun a => { a with sinks := modAt a.sinks k f }
/-- Stream `i` beside its registers. -/
def State.stream (s : State) (i : Nat) : AudStream := s.aud.streams.getD i AudStream.cold
/-- Stream `i` changes. -/
def State.modStream (s : State) (i : Nat) (f : AudStream → AudStream) : State :=
  s.modAud fun a => { a with streams := modAt a.streams i f }
/-- Tone `t` beside its registers. -/
def State.tone (s : State) (t : Nat) : AudTone := s.aud.tones.getD t AudTone.cold
/-- Tone `t` changes. -/
def State.modTone (s : State) (t : Nat) (f : AudTone → AudTone) : State :=
  s.modAud fun a => { a with tones := modAt a.tones t f }

/-- The number of the current sample: sample 0 begins with master frame 0 (R29). -/
def State.audNow (s : State) : Nat :=
  s.grains s.now * s.get wallAudRatio_AUD_NUM / (32 * s.get wallAudRatio_AUD_DEN)

/-- The grains from master frame 0 to the start of a sample (R29). -/
def State.sampleGrains (s : State) (n : Nat) : Nat :=
  (n * 32 * s.get wallAudRatio_AUD_DEN + s.get wallAudRatio_AUD_NUM - 1) / s.get wallAudRatio_AUD_NUM

/-- Whether the engine runs: it is stopped in Kindling and Recovery (R336). -/
def State.mixes (s : State) : Bool := decide (2 ≤ s.mode ∧ s.mode ≤ 6)

/-- Full scale of a sample. -/
def fullScale : Nat := 0x7FFFFF
/-- A sample saturated to full scale (R320). -/
def saturate (x : Int) : Int := max (-(fullScale : Int)) (min fullScale x)

/-! ### Gains (R320) -/

/-- Whether 10^(e/40) × 2^24 is at least n − 1/2: whether rounding gives at least `n`. -/
def reachesGain (e : Int) (n : Nat) : Bool :=
  if n = 0 then true
  else if 0 ≤ e then decide ((2 * n - 1) ^ 40 ≤ 2 ^ 1000 * 10 ^ e.toNat)
  else decide ((2 * n - 1) ^ 40 * 10 ^ (-e).toNat ≤ 2 ^ 1000)

/-- The largest number below `2 ^ bits` that satisfies a downward closed test, found bit by bit from the top. -/
def searchBits (test : Nat → Bool) : Nat → Nat → Nat
  | 0, acc => acc
  | b + 1, acc => searchBits test b (if test (acc + 2 ^ b) then acc + 2 ^ b else acc)

/-- The factor of a gain code, with 24 fraction bits: 0 for code 0, else 10^((c − 231) / 40) rounded. -/
def gainFactor (c : Nat) : Nat := if c = 0 then 0 else searchBits (reachesGain ((c : Int) - 231)) 27 0

/-- A signal times a factor with 24 fraction bits; the rounding is not stated. -/
def scaled (x : Int) (factor : Nat) : Int := openQuot (x * factor) 0x1000000

/-- Whether a signal crosses zero: the sample is 0, or its sign differs from that of the sample before it (R327). -/
def crosses (x last : Int) : Bool := x == 0 || (decide (x < 0) != decide (last < 0))

/-- A step waits for a crossing or for the timeout: whether it is made at this sample, and whether at the timeout (R327). -/
def State.stepNow (s : State) (x last : Int) (wait : Nat) : Bool × Bool :=
  if crosses x last then (true, false) else (decide (s.get audCtrl_ZC_TIMEOUT ≤ wait), decide (s.get audCtrl_ZC_TIMEOUT ≤ wait))

/-- A step made at the timeout is counted. -/
def State.countTimeout (s : State) (b : Bool) : State := s.when b fun s => s.bump audZcToCnt_COUNT

/-! ### Tones (R331) -/

/-- The samples of a cadence part of tone `t`. -/
def State.partSamples (s : State) (t part : Nat) : Nat :=
  48 * (if part = 0 then s.get (audToneTime_T1 t) else if part = 1 then s.get (audToneTime_T2 t) else s.get (audToneOff_TOFF t))

/-- The first part from `part` on that is not of 0 ms. -/
def State.partFrom (s : State) (t part : Nat) : Option Nat :=
  [0, 1, 2].find? fun i => decide (part ≤ i) && s.partSamples t i != 0

/-- Tone `t` stops. -/
def State.endTone (s : State) (t : Nat) : State :=
  let s := s.modTone t fun x => { x with stopping := none, left := 0, last := 0 }
  (s.put (audToneCfg_RUN t) 0).raise 354 t

/-- Tone `t` enters a part. -/
def State.enterPart (s : State) (t part : Nat) : State :=
  s.modTone t fun x => { x with part := part, left := s.partSamples t part }

/-- Tone `t` starts: a running one ends first; a cadence without length ends at once. -/
def State.startTone (s : State) (t : Nat) : State :=
  let s := if s.flag (audToneCfg_RUN t) then s.endTone t else s
  let n := s.get (audToneCfg_REPEATS t)
  let s := s.modTone t fun x => { x with
    due := none, phase := 0, stopping := none, last := 0, repeats := if n = 0 then none else some n }
  let s := (s.put (audToneCfg_RUN t) 1).raise 353 t
  match s.partFrom t 0 with
  | some i => s.enterPart t i
  | none => s.endTone t

/-- A part of tone `t` ends: the next part, the next cadence or the end. -/
def State.partEnd (s : State) (t : Nat) : State :=
  if !s.flag (audToneCfg_RUN t) then s
  else match s.partFrom t ((s.tone t).part + 1) with
    | some i => s.enterPart t i
    | none =>
      match (s.tone t).repeats, s.partFrom t 0 with
      | some 0, _ | _, none => s.endTone t
      | r, some i => (s.modTone t fun x => { x with repeats := r.map (· - 1) }).enterPart t i

/-- TONE_PART_END: the samples of a tone's part have passed. -/
def execTonePartEnd (t : Fin 8) (s : State) : Host.Outcome State Fault Refusal := .next (s.partEnd t.val)

/-- A sine of full scale at a phase in 1/48,000 of a cycle; it is 0 at phase 0. -/
def sineAt (p : Nat) : Int :=
  let q (i : Nat) : Int := if i = 0 then 0 else (Config.sineQuarter i).toNat
  let h := p % 24000
  let v := if h ≤ 12000 then q h else q (24000 - h)
  if p % 48000 < 24000 then v else -v

/-- The waveform of a tone at a phase, at full scale. -/
def toneWave (wave p : Nat) : Int :=
  let p := p % 48000
  if wave = 1 then (if p < 24000 then (fullScale : Int) else -(fullScale : Int))
  else if wave = 2 then
    let x : Int := if p < 12000 then (p : Nat) else if p < 36000 then 24000 - (p : Nat) else (p : Nat) - 48000
    openQuot (x * fullScale) 12000
  else sineAt p

/-- The sample that tone `t` generates now; its silent part gives 0. -/
def State.toneSample (s : State) (t : Nat) : Int :=
  let x := s.tone t
  if !s.flag (audToneCfg_RUN t) || x.part == 2 then 0
  else saturate (scaled (toneWave (s.get (audToneCfg_WAVE t)) x.phase) (gainFactor (s.get (audToneCfg_LEVEL t))))

/-- Tone `t` at sample `n`: a due start, the end of a part that has run out, and a stop at its crossing or timeout. -/
def State.toneBegin (s : State) (t n : Nat) : State :=
  let s := if (s.tone t).due.any (· ≤ n) then s.startTone t else s
  let s := if s.flag (audToneCfg_RUN t) ∧ (s.tone t).left = 0 then s.partEnd t else s
  match (s.tone t).stopping with
  | none => s
  | some w =>
    let r := s.stepNow (s.toneSample t) (s.tone t).last w
    if r.1 then s.endTone t else s.modTone t fun x => { x with stopping := some (w + 1) }

/-- Tone `t` after a sample: its phase advances by its frequency, and its part by one sample. -/
def State.toneAdvance (s : State) (t : Nat) : State :=
  if !s.flag (audToneCfg_RUN t) then s
  else
    let f := if (s.tone t).part = 0 then s.get (audToneFreq_F1 t) else if (s.tone t).part = 1 then s.get (audToneFreq_F2 t) else 0
    let v := s.toneSample t
    s.modTone t fun x => { x with phase := (x.phase + f) % 48000, left := x.left - 1, last := v }

/-! ### Guest streams (R330) -/

/-- The sample rate of a rate code. -/
def rateOf (code : Nat) : Nat :=
  match code with
  | 1 => 44100
  | 2 => 32000
  | 3 => 16000
  | 4 => 8000
  | _ => 48000

/-- The bytes of one sample of a stream. -/
def State.sampleBytes (s : State) (i : Nat) : Nat := if s.flag (audStrCtrl_FMT i) then 4 else 2
/-- The ring size of a stream. -/
def State.streamSize (s : State) (i : Nat) : Nat := 2 ^ s.get (audStrCtrl_LOG2 i)

/-- A stream begins at sample `n`: its sample 0 is due at START, or now when START is 0; what lies between its positions has
been written. -/
def State.beginStream (s : State) (i n : Nat) : State :=
  let w := s.get (audStrPos_WPOS i)
  let size := s.streamSize i
  let st := s.get (audStrStart_START i)
  let ahead := (w + size - s.get (audStrPos_RPOS i) % size) % size
  s.modStream i fun _ => ⟨true, if st = 0 then n else st, 0, (ahead : Nat), w, false, 0, false⟩

/-- Stream `i` counts what has been written since it last looked. -/
def State.countWritten (s : State) (i : Nat) : State :=
  let w := s.get (audStrPos_WPOS i)
  let size := s.streamSize i
  s.modStream i fun x => { x with ahead := x.ahead + ((w + size - x.wpos % size) % size : Nat), wpos := w }

/-- A stream's next sample is read, or missed: the position moves on all the same. -/
def State.readStream (s : State) (i : Nat) : State × Int :=
  let x := s.stream i
  let b := s.sampleBytes i
  let rpos := s.get (audStrPos_RPOS i)
  let a := s.get (audStrBase_ADDR i) * 64 + rpos
  let have_ := decide ((b : Int) ≤ x.ahead)
  let v : Int := if have_ then (if b = 2 then toSigned 16 (s.loadNat a 2) * 256 else toSigned 24 (s.loadNat (a + 1) 3)) else 0
  let s := s.put (audStrPos_RPOS i) ((rpos + b) % s.streamSize i)
  let s := s.modStream i fun x => { x with
    next := x.next + 1, ahead := x.ahead - (b : Nat), missing := !have_, underrun := x.underrun || (!have_ && !x.missing) }
  (s.when (!have_ && !x.missing) fun s => s.raise 352 i, v)

/-- The samples of a stream that are due at sample `n`, read in turn; the last is what a 48 kHz stream plays. -/
def State.dueSamples (i n : Nat) : Nat → State × Int → State × Int
  | 0, r => r
  | fuel + 1, r =>
    let x := r.1.stream i
    let rate := rateOf (r.1.get (audStrCtrl_RATE i))
    if (x.start + (x.next * 48000 + rate - 1) / rate) ≤ n then State.dueSamples i n fuel (r.1.readStream i) else r

/-- The position packet of stream `i` (R330). -/
def State.positionReport (s : State) (i : Nat) : State :=
  let x := s.stream i
  let s := s.appendPacket (s.get (audStrCtrl_QUEUE i))
    [BitVec.ofNat 64 (2 ^ 63 + 0x48 * 2 ^ 56 + i * 2 ^ 51 + (if x.underrun then 2 ^ 50 else 0) + s.get (audStrPos_RPOS i)),
     BitVec.ofNat 64 (2 ^ 63 + s.now.word.toNat % 2 ^ 63)]
  s.modStream i fun x => { x with period := 0, underrun := false }

/-- STREAM_POSITION_REPORT: PERIOD samples of a playing stream have passed. -/
def execStreamPositionReport (i : Fin 32) (s : State) : Host.Outcome State Fault Refusal :=
  .next (if s.flag (audStrCtrl_EN i.val) ∧ s.flag (audStrCtrl_PERIOD i.val) then s.positionReport i.val else s)

/-- Stream `i` at sample `n`: what it plays. -/
def State.streamSample (s : State) (i n : Nat) : State × Int :=
  if !s.flag (audStrCtrl_EN i) then (s.modStream i fun x => { x with on := false }, 0)
  else
    let s := if (s.stream i).on then s else s.beginStream i n
    let s := s.countWritten i
    if n < (s.stream i).start then (s, 0)
    else
      let period := s.get (audStrCtrl_PERIOD i)
      let s := if period ≠ 0 ∧ period ≤ (s.stream i).period then s.positionReport i else s
      let s := s.modStream i fun x => { x with period := x.period + 1 }
      State.dueSamples i n 64 (s, 0)

/-! ### The matrix (R321, R332) -/

/-- The gain code in force at a crosspoint. -/
def State.xpGain (s : State) (src b : Nat) : Nat := (sget s.aud.gains (16 * src + b)).toNat

/-- A step at a crosspoint, from the signal of its source (R327). -/
def State.stepXp (s : State) (src b : Nat) (x last : Int) : State :=
  let want := s.get (audXp_GAIN src b)
  let key := 16 * src + b
  if s.xpGain src b = want then s
  else
    let r := s.stepNow x last (sget s.aud.waits key).toNat
    if r.1 then
      (s.modAud fun a => { a with gains := sset a.gains key (BitVec.ofNat 8 want), waits := sset a.waits key 0 }).countTimeout r.2
    else s.modAud fun a => { a with waits := sset a.waits key (sget a.waits key + 1) }

/-- Whether running tone `t` has an open crosspoint into bus `b`. -/
def State.toneIn (s : State) (t b : Nat) : Bool := s.flag (audToneCfg_RUN t) && s.xpGain (32 + t) b != 0

/-- The running tone that passes into a bus with TONE_EXCL: highest PRIO, then lowest number. -/
def State.topTone (s : State) (b : Nat) : Option Nat :=
  ((List.range 8).filter fun t => s.toneIn t b).foldl (fun best t => match best with
    | none => some t
    | some u => if s.get (audToneCfg_PRIO u) < s.get (audToneCfg_PRIO t) then some t else some u) none

/-- A ramp of RAMP samples moves one sample towards its end or back. -/
def rampStep (pos ramp : Nat) (on : Bool) : Nat := if on then min ramp (pos + 1) else min ramp pos - 1

/-- The factor at a position of a ramp that falls linearly from 1 to `low`. -/
def rampFactor (pos ramp low : Nat) : Nat := 0x1000000 - openRound ((0x1000000 - low) * min pos ramp) ramp

/-- Whether bus `b` is to be ducked now. -/
def State.duckWanted (s : State) (b : Nat) : Bool :=
  s.flag (audBusCtrl_DUCK_DB b) &&
    (List.range 8).any fun t => s.toneIn t b && decide (s.get (audBusCtrl_DUCK_PRIO b) ≤ s.get (audToneCfg_PRIO t))

/-- The change of a bus's ducking is reported. -/
def State.duckChange (s : State) (b : Nat) : State :=
  let want := s.duckWanted b
  if want = (s.bus b).ducked then s
  else ((s.modBus b fun x => { x with ducked := want }).putBit (audBusStatus_DUCKED b) want).raise 355
    (b * 256 + if want then 1 else 0)

/-- Whether a stream with an open crosspoint into bus `b` plays through its converter. -/
def State.converting (s : State) (b : Nat) : Bool :=
  (List.range 32).any fun i => s.flag (audStrCtrl_EN i) && s.flag (audStrCtrl_RATE i) && s.xpGain i b != 0

/-- The sum of a bus (R321): sources at 48 kHz times their gains, lowered by ducking and exclusive muting; what the converter
adds is a free value, since its filter is not listed. -/
def State.busSum (s : State) (b : Nat) (src : List Int) : State × Int :=
  let ramp := s.get audCtrl_DUCK_RAMP
  let low := gainFactor (231 - 2 * s.get (audBusCtrl_DUCK_DB b))
  let duck := rampFactor (s.bus b).duck ramp low
  let top := s.topTone b
  let part (i : Nat) : Int :=
    let g := s.xpGain i b
    if g = 0 ∨ (i < 32 ∧ s.flag (audStrCtrl_RATE i)) then 0
    else
      let x := src.getD i 0 * gainFactor g
      if 32 ≤ i ∧ i < 40 then scaled x (rampFactor (sget s.aud.exclusive (8 * b + (i - 32))).toNat ramp 0) else scaled x duck
  let conv : Int := if s.converting b then scaled (toSigned 24 s.free.toNat * 0x1000000) duck else 0
  let total := ((List.range 50).map part).sum + conv
  let s := s.when (s.converting b) State.freeUsed
  let want := (s.bus b).ducked
  let s := s.modBus b fun x => { x with duck := rampStep x.duck ramp want }
  let excl := s.flag (audBusCtrl_TONE_EXCL b)
  let s := s.each (List.range 8) fun s t =>
    let pos := rampStep (sget s.aud.exclusive (8 * b + t)).toNat ramp (excl && s.toneIn t b && top != some t)
    s.modAud fun a => { a with exclusive := sset a.exclusive (8 * b + t) (BitVec.ofNat 16 pos) }
  (s, openQuot total 0x1000000)

/-! ### The bus chain (R322 to R325) -/

/-- One equaliser band in direct form I (R323): its output and its new state. -/
def eqBand (c : List Int) (st : List Int) (x : Int) : Int × List Int :=
  let y := openQuot (c.getD 0 0 * x + c.getD 1 0 * st.getD 0 0 + c.getD 2 0 * st.getD 1 0 - c.getD 3 0 * st.getD 2 0
    - c.getD 4 0 * st.getD 3 0) (2 ^ 28)
  (y, [x, st.getD 0 0, y, st.getD 2 0])

/-- The coefficients of a band. -/
def State.eqCoefs (s : State) (b k : Nat) : List Int := (List.range 5).map fun c => toSigned 32 (s.get (audBusEq_COEF b k c))

/-- The equaliser of a bus. -/
def State.equalise (s : State) (b : Nat) (x : Int) : State × Int :=
  let r := (List.range 5).foldl (fun (acc : Int × List (List Int)) k =>
    let o := eqBand (s.eqCoefs b k) ((s.bus b).eq.getD k []) acc.1
    (o.1, acc.2 ++ [o.2])) (x, [])
  (s.modBus b fun y => { y with eq := r.2 }, r.1)

/-- The highest magnitude a bus with its limiter on puts out: THRESH / 2 dB below full scale (R324). -/
def limitOf (thresh : Nat) : Nat :=
  searchBits (fun n => decide (n ^ 40 * 10 ^ thresh ≤ fullScale ^ 40)) 23 0

/-- The gain that keeps a sample at the threshold. -/
def neededGain (limit : Nat) (x : Int) : Nat := if x.natAbs ≤ limit then 0x1000000 else limit * 0x1000000 / x.natAbs

/-- The plan of the look-ahead's gains when a sample enters that needs gain `g`: linearly down to it over the 32 samples before
it, and never above what was planned. -/
def planGains (plan : List Nat) (g : Nat) : List Nat :=
  let g0 := plan.headD 0x1000000
  ((List.range plan.length).zip plan).map fun x =>
    if g < g0 then min x.2 (g0 - openRound ((g0 - g) * x.1) plan.length) else x.2

/-- The limiter of a bus (R324): a sample enters the look-ahead and the one of 32 samples ago leaves it with its gain. -/
def State.limiter (s : State) (b : Nat) (x : Int) : State × Int :=
  let u := s.bus b
  let limit := limitOf (s.get (audBusCtrl_THRESH b))
  let oldest := u.look.headD 0
  if !s.flag (audBusCtrl_LIM_EN b) then
    let s := s.modBus b fun y => { y with
      look := y.look.tail ++ [x], plan := List.replicate 32 0x1000000, reducing := false }
    (s.put (audBusStatus_GR b) 0, oldest)
  else
    let last := u.plan.getLastD 0x1000000
    let freed := min 0x1000000 (max last (Config.releaseStep last (s.get (audBusDyn_RELEASE b))))
    let g := min freed (neededGain limit x)
    let plan := planGains u.plan g
    let now := min (plan.headD 0x1000000) (neededGain limit oldest)
    let reducing := decide (now < 0x1000000)
    let s := s.modBus b fun y => { y with look := y.look.tail ++ [x], plan := plan.tail ++ [g], reducing := reducing }
    let s := s.when (reducing && !u.reducing) fun s => s.raise 356 b
    let steps := ((List.range 231).find? fun k => decide (gainFactor (231 - k) ≤ now)).getD 231
    let s := s.put (audBusStatus_GR b) (if gainFactor (231 - steps) = now ∨ Config.roundsUp now 0 then steps else steps - 1)
    (s, max (-(limit : Int)) (min limit (scaled oldest now)))

/-- A pending step of the gain of a bus is made or waits on: `r` says whether now, and whether at the timeout (R327). -/
def State.stepBus (s : State) (b : Nat) (r : Bool × Bool) : State :=
  let want := s.get (audBusCtrl_GAIN b)
  if (s.bus b).gain = want then s
  else if r.1 then (s.modBus b fun u => { u with gain := want, gainWait := 0 }).countTimeout r.2
  else s.modBus b fun u => { u with gainWait := u.gainWait + 1 }

/-- The steps of a change of BYPASS at the bus output (R328): mute at a crossing, switch at the next sample, return at a
crossing. -/
def State.switchBus (s : State) (b : Nat) (r : Bool × Bool) : State :=
  let u := s.bus b
  let want := s.flag (audBusCtrl_BYPASS b)
  if u.phase = 0 ∧ u.bypass = want then s
  else if u.phase = 2 then s.modBus b fun u => { u with bypass := want, phase := 3, wait := 0 }
  else if !r.1 then s.modBus b fun u => { u with phase := max u.phase 1, wait := u.wait + 1 }
  else if u.phase = 3 then
    ((s.modBus b fun u => { u with phase := 0, wait := 0 }).countTimeout r.2).raise 360 (b * 256 + if u.bypass then 1 else 0)
  else (s.modBus b fun u => { u with phase := 2, wait := 0 }).countTimeout r.2

/-- A bus output that saturates is reported once per second at most (R320). -/
def State.busClip (s : State) (b n : Nat) (x : Int) : State :=
  if (x.natAbs ≤ fullScale) || ((s.bus b).clipAt.any fun c => decide (n < c + 48000)) then s
  else (s.modBus b fun u => { u with clipAt := some n }).raise 357 b

/-- Bus `b` at sample `n`: sum, processing block, equaliser, delay, gain, limiter, output; a bus in bypass runs only sum, gain
and output (R322). -/
def State.runBus (s : State) (b n : Nat) (src : List Int) : State :=
  let s := s.duckChange b
  let (s, sum) := s.busSum b src
  let x := (s.bus b).block.headD 0
  let s := s.modBus b fun u => { u with block := u.block.tail ++ [sum] }
  let bypass := (s.bus b).bypass
  let (s, x) := if bypass then (s, x) else
    let (s, y) := s.equalise b x
    let s := s.modBus b fun u => { u with hist := (y :: u.hist).take 4801 }
    (s, (s.bus b).hist.getD (s.get (audBusDyn_DELAY b)) 0)
  let s := s.stepBus b (s.stepNow x (s.bus b).pre (s.bus b).gainWait)
  let g := scaled x (gainFactor (s.bus b).gain)
  let s := s.modBus b fun u => { u with pre := x }
  let (s, y) := if bypass then (s, g) else s.limiter b g
  let s := s.busClip b n y
  let y := saturate y
  let s := s.switchBus b (s.stepNow y (s.bus b).last (s.bus b).wait)
  let muted := decide (2 ≤ (s.bus b).phase)
  let s := s.modBus b fun u => { u with last := y, out := if muted then 0 else y }
  s.putBit (audBusStatus_PENDING b) ((s.bus b).phase != 0 || (s.bus b).gain != s.get (audBusCtrl_GAIN b)
    || (List.range 50).any fun i => s.xpGain i b != s.get (audXp_GAIN i b))

/-! ### Sinks (R327, R328, R335) -/

/-- The speaker of sink `k`, if it is one: its power stage. -/
def speakerOf (k : Nat) : Option Nat := if k = 4 ∨ k = 5 then some (k - 4) else none

/-- Whether sink `k` drives its contact: enabled; a speaker neither turned off by a fault nor by a warm reset; a TDM slot that is
sent (R333, R335, R336). -/
def State.sinkDrives (s : State) (k : Nat) : Bool :=
  s.flag (audSinkCtrl_EN k) && s.mixes &&
    (if (speakerOf k).isSome then !s.flag (audSinkCtrl_FAULT k) && s.power.warm.isNone
     else if k < 4 then true
     else s.flag audTdm_EN && decide (k - 6 < 2 * 2 ^ s.get audTdm_SLOTS))

/-- The steps of a sink: a gain change, or a move to another bus (R327, R328). -/
def State.stepSink (s : State) (k : Nat) (r : Bool × Bool) : State :=
  let u := s.sink k
  let gain := s.get (audSinkCtrl_GAIN k)
  let bus := s.get (audSinkCtrl_SINK_BUS k)
  if u.phase = 0 ∧ u.bus = bus then
    if u.gain = gain then s
    else if r.1 then (s.modSink k fun u => { u with gain := gain, wait := 0 }).countTimeout r.2
    else s.modSink k fun u => { u with wait := u.wait + 1 }
  else if u.phase = 2 then s.modSink k fun u => { u with bus := bus, phase := 3, wait := 0 }
  else if !r.1 then s.modSink k fun u => { u with phase := max u.phase 1, wait := u.wait + 1 }
  else if u.phase = 3 then
    ((s.modSink k fun u => { u with phase := 0, gain := gain, wait := 0 }).countTimeout r.2).raise 359 (k * 256 + u.bus)
  else (s.modSink k fun u => { u with phase := 2, wait := 0 }).countTimeout r.2

/-- Sink `k` at a sample: its bus's output times its gain enters the path to the contact. -/
def State.runSink (s : State) (k : Nat) : State :=
  let x := (s.bus (s.sink k).bus).out
  let s := s.stepSink k (s.stepNow x (s.sink k).last (s.sink k).wait)
  let u := s.sink k
  let y := if 2 ≤ u.phase ∨ !s.sinkDrives k then 0 else saturate (scaled x (gainFactor u.gain))
  s.modSink k fun u => { u with last := x, path := u.path.tail ++ [y] }

/-- The level at the contact of sink `k` now. -/
def State.sinkLevel (s : State) (k : Nat) : Int := if s.sinkDrives k then (s.sink k).path.headD 0 else 0

/-! ### One sample (R321 to R333) -/

/-- A line input at full scale is reported once per second at most (R320). -/
def State.lineClip (s : State) (i n : Nat) (x : Int) : State :=
  if x.natAbs < fullScale || ((s.aud.clips.getD i none).any fun c => decide (n < c + 48000)) then s
  else (s.modAud fun a => { a with clips := a.clips.set i (some n) }).raise 358 i

/-- An input's delay line takes a sample and gives its oldest. -/
def shiftIn (l : List Int) (x : Int) : List Int × Int := (l.tail ++ [x], l.headD 0)

/-- The haptic channels at an audio sample: the drive level is updated, and a current limit that acts is reported once in a play
(R299). -/
def State.hapSample (s : State) (n : Nat) (limited : Bool) : State :=
  if s.hapState n = hapDrive ∨ s.hapState n = hapBrake then
    let first := limited && ((s.chan n).play.any fun p => !p.limited)
    let s := s.modPlay n fun p => { p with pos := p.pos + 1, limited := p.limited || limited }
    let s := (s.hapSetLevel n).putBit (hapStatus_ILIM n) limited
    s.when first fun s => s.raise 324 n
  else s

/-- Sample `n` is mixed: `line` and `tdm` are what the inputs convert, `limited` the haptic bridges whose current limit acts. -/
def State.mixSample (s : State) (n : Nat) (line tdm : List Int) (limited : BitVec 8) : State :=
  let s := s.each (List.range 8) fun s c => s.hapSample c (limited.getLsbD c)
  let s := s.modAud fun a => { a with sample := n }
  if !s.mixes then s
  else
    let s := s.each (List.range 2) fun s i => s.lineClip i n (line.getD i 0)
    let s := s.each (List.range 8) fun s t => s.toneBegin t n
    let (s, streams) := (List.range 32).foldl (fun (acc : State × List Int) i =>
      let r := acc.1.streamSample i n
      (r.1, acc.2 ++ [r.2])) (s, [])
    let tones := (List.range 8).map s.toneSample
    let slots := if s.flag audTdm_EN then 2 * 2 ^ s.get audTdm_SLOTS else 0
    let lines := s.aud.lines.zip line
    let tdms := s.aud.tdm.zip ((List.range 8).map fun i => if i < slots then tdm.getD i 0 else 0)
    let src := streams ++ tones ++ lines.map (fun x => x.1.headD 0) ++ tdms.map fun x => x.1.headD 0
    let s := s.modAud fun a => { a with
      lines := lines.map fun x => (shiftIn x.1 x.2).1, tdm := tdms.map fun x => (shiftIn x.1 x.2).1 }
    let last := s.aud.sources
    let s := s.each (List.range 50) fun s i => s.each (List.range 16) fun s b => s.stepXp i b (src.getD i 0) (last.getD i 0)
    let s := s.modAud fun a => { a with sources := src }
    let s := s.each (List.range 16) fun s b => s.runBus b n src
    let s := s.each (List.range 14) fun s k => s.runSink k
    s.each (List.range 8) fun s t => s.toneAdvance t

/-- ZC_TIMEOUT_EXPIRY: no crossing has come within ZC_TIMEOUT, and the pending step at a point is made: a crosspoint (`kind` 0,
`index` 16 × source + bus), the gain of a bus (1), a bypass change (2), a sink (3), or the stop of a tone (4) (R327, R331). -/
def execZcTimeoutExpiry (kind : Fin 5) (index : Fin 800) (s : State) : Host.Outcome State Fault Refusal :=
  .next (
    let i := index.val
    match kind.val with
    | 0 =>
      let want := s.get (audXp_GAIN (i / 16) (i % 16))
      if s.xpGain (i / 16) (i % 16) = want then s
      else (s.modAud fun a => { a with gains := sset a.gains i (BitVec.ofNat 8 want), waits := sset a.waits i 0 }).countTimeout true
    | 1 => s.stepBus i (true, true)
    | 2 => if (s.bus i).phase = 2 then s else s.switchBus i (true, true)
    | 3 => if (s.sink i).phase = 2 then s else s.stepSink i (true, true)
    | _ => if (s.tone i).stopping.isSome then s.endTone i else s)

/-- SPEAKER_FAULT_DETECT: a short (1), DC (2) or a hot bridge (3) turns a speaker off (R335). -/
def execSpeakerFaultDetect (speaker : Fin 2) (code : Fin 4) (s : State) : Host.Outcome State Fault Refusal :=
  .next (
    let k := 4 + speaker.val
    if code.val = 0 || !s.sinkDrives k then s
    else (s.put (audSinkCtrl_FAULT k) code.val).raise 361 (speaker.val * 256 + code.val))

/-- AUD_NOW_READ: a 32-bit read of the low word latches the upper word, as for WALL_NOW (R32, R550). -/
def execAudNowRead (who : Requester) (s : State) : Host.Outcome State Fault Refusal :=
  .next (if s.mayRead who && worldOf who == .opened then s.refuseRead who audNow.addr
  else if s.mayRead who then
    (s.modWall fun w => { w with audUpper := BitVec.ofNat 32 (s.audNow / 2 ^ 32) }).emit
      (.readValue (agentOf who) audNow.addr (BitVec.ofNat 64 (s.audNow % 2 ^ 32)))
  else s.emit (.busError (agentOf who) audNow.addr))

/-! ### Resets (R336, R337) -/

/-- A warm reset: guest streams are disabled. -/
def State.audWarm (s : State) : State :=
  s.each (List.range 32) fun s i => ((s.put (audStrCtrl_EN i) 0).cold (audStrPos i)).modStream i fun x => { x with on := false }

/-- A function reset at its decision disables its tenant's streams. -/
def State.audResetFunction (s : State) (f : Nat) : State :=
  s.each (((s.tenant f).map (·.streams)).getD []) fun s i => s.put (audStrCtrl_EN i) 0

/-! ### Opcodes (R339, R340) -/

/-- The function that owns audio resource `r`; none for the sealed world (R319). -/
def State.audioOwner (s : State) (r : Nat) : Option Nat :=
  if r < 32 then s.tenantWhere fun t => t.streams.contains r
  else if r < 40 then s.tenantWhere fun t => t.tones.contains (r - 32)
  else if s.get (audOwner_OWNER r) < 32 then some (s.get (audOwner_OWNER r)) else none

/-- The kinds of audio resource (R318). -/
def isStream (t : Nat) : Bool := t < 32
def isTone (t : Nat) : Bool := 32 ≤ t && t < 40
def isInput (t : Nat) : Bool := 40 ≤ t && t < 50
def isBus (t : Nat) : Bool := 64 ≤ t && t < 80
def isSink (t : Nat) : Bool := 96 ≤ t && t < 110
/-- Whether a function owns an audio resource. -/
def ownsAudio (s : State) (r t : Nat) : Bool := s.audioOwner t == some r

/-- Whether a packet's source may use an audio resource: the sealed ring any, a tenant its own (R319). -/
def State.audioMay (s : State) (o : Origin) (r : Nat) : Bool := o.ring == 32 || s.audioOwner r == o.func

def specAudAssign : OpSpec :=
  { opcode := 0x0A01, lens := len 8, zero := fun _ => zeroMask [(1, 7)] [], modes := modesPSDT, issuer := .sealedOnly,
    names := fun t => isInput t || isBus t || isSink t, log := .logged,
    check := fun _ o => if 31 < o.u8 0 ∧ o.u8 0 ≠ 63 then some (stNoResource, 1) else none,
    run := fun s o => (s.put (audOwner_OWNER o.tgt) (o.u8 0), .answer (done 0 0)) }

/-- Whether a stream's rate may stand on a bus: 48 kHz, or the bus's RATE on a bus not in bypass (R321). -/
def busTakes (streamRate busRate : Nat) (bypass : Bool) : Bool := streamRate == 0 || (streamRate == busRate && !bypass)

/-- Whether an open crosspoint of stream `i` stands on a bus that a rate does not fit. -/
def State.breach (s : State) (i b streamRate busRate : Nat) (bypass : Bool) : Bool :=
  s.get (audXp_GAIN i b) != 0 && !busTakes streamRate busRate bypass

/-- The checks of ROUTE_SET. -/
def routeSetCheck (s : State) (o : Origin) : Option (Nat × Nat) :=
  let b := o.tgt - 64
  let n := o.u8 0
  if n = 0 ∨ 50 < n then some (stNoResource, 1)
  else match (List.range n).find? fun i => 49 < o.u8 (8 + 4 * i) with
    | some i => some (stNoResource, 9 + 4 * i)
    | none => match (List.range n).find? fun i => !s.audioMay o (o.u8 (8 + 4 * i)) with
      | some i => some (stNotOwner, 9 + 4 * i)
      | none =>
        if (List.range n).any fun i => o.u8 (8 + 4 * i) < 32 && o.u8 (9 + 4 * i) != 0 &&
            !busTakes (s.get (audStrCtrl_RATE (o.u8 (8 + 4 * i)))) (s.get (audBusCtrl_RATE b)) (s.flag (audBusCtrl_BYPASS b)) then
          some (stConflict, 2)
        else none

def specRouteSet : OpSpec :=
  { opcode := 0x0A02, lens := fun b => [8 + 4 * leAt b 0 1],
    zero := fun b => zeroMask ((1, 7) :: (List.range (leAt b 0 1)).map fun i => (10 + 4 * i, 11 + 4 * i)) [],
    modes := modesPSDBT, issuer := .tenants, member := .capable, names := isBus, owns := ownsAudio, log := .logged,
    check := routeSetCheck,
    land := fun s o => s.each (List.range (o.u8 0)) fun s i => s.put (audXp_GAIN (o.u8 (8 + 4 * i)) (o.tgt - 64)) (o.u8 (9 + 4 * i)) }

/-- The first payload byte of BUS_SET that is out of range. -/
def busSetFault (o : Origin) : Option Nat :=
  if 1 < o.u8 0 then some 0
  else if 4 < o.u8 1 then some 1
  else if 7 < o.u8 3 then some 3
  else if 60 < o.u8 4 then some 4
  else if 1 < o.u8 5 then some 5
  else if 4800 < o.u16 6 then some 6
  else if 1 < o.u8 8 then some 8
  else if 80 < o.u8 9 then some 9
  else if o.u16 10 < 10 ∨ 1000 < o.u16 10 then some 10
  else none

def specBusSet : OpSpec :=
  { opcode := 0x0A03, lens := len 16, zero := fun _ => zeroMask [(12, 15)] [], modes := modesPSDBT, issuer := .tenants,
    member := .capable, names := isBus, owns := ownsAudio, log := .logged,
    check := fun s o => match busSetFault o with
      | some b => some (stNoResource, 1 + b)
      | none => if (List.range 32).any fun i => s.breach i (o.tgt - 64) (s.get (audStrCtrl_RATE i)) (o.u8 1) (o.u8 0 == 1) then
          some (stConflict, 2) else none,
    land := fun s o =>
      let b := o.tgt - 64
      let s := ((s.put (audBusCtrl_BYPASS b) (o.u8 0)).put (audBusCtrl_RATE b) (o.u8 1)).put (audBusCtrl_GAIN b) (o.u8 2)
      let s := (s.put (audBusCtrl_DUCK_PRIO b) (o.u8 3)).put (audBusCtrl_DUCK_DB b) (o.u8 4)
      let s := (s.put (audBusCtrl_TONE_EXCL b) (o.u8 5)).put (audBusDyn_DELAY b) (o.u16 6)
      let s := (s.put (audBusCtrl_LIM_EN b) (o.u8 8)).put (audBusCtrl_THRESH b) (o.u8 9)
      s.put (audBusDyn_RELEASE b) (o.u16 10) }

/-- Whether the coefficients of a band make it unstable: |a2| ≥ 1 or |a1| ≥ 1 + a2 (R323). -/
def eqUnstable (a1 a2 : Int) : Bool := decide (2 ^ 28 ≤ a2.natAbs) || decide ((2 ^ 28 : Int) + a2 ≤ a1.natAbs)

def specEqSet : OpSpec :=
  { opcode := 0x0A04, lens := len 24, zero := fun _ => zeroMask [(1, 3)] [], modes := modesPSDBT, issuer := .tenants,
    member := .capable, names := isBus, owns := ownsAudio, log := .logged,
    check := fun _ o => if 4 < o.u8 0 then some (stNoResource, 1)
      else if eqUnstable (toSigned 32 (o.u32 16)) (toSigned 32 (o.u32 20)) then some (stNoResource, 0x00F3) else none,
    land := fun s o => s.each (List.range 5) fun s c => s.put (audBusEq_COEF (o.tgt - 64) (o.u8 0) c) (o.u32 (4 + 4 * c)) }

/-- The checks of SINK_SET. -/
def sinkSetCheck (s : State) (o : Origin) : Option (Nat × Nat) :=
  if 1 < o.u8 0 then some (stNoResource, 1)
  else if 15 < o.u8 1 then some (stNoResource, 2)
  else if !s.audioMay o (64 + o.u8 1) then some (stNotOwner, 2)
  else if o.u8 0 = 1 ∧ (speakerOf (o.tgt - 96)).any fun k => s.stageTaken k 2 then some (stPinTaken, 0)
  else none

/-- What enabling or disabling a sink does: a speaker's fault clears and its stage is claimed; a sink that starts takes its bus
at once (R312, R335). -/
def State.sinkEnabled (s : State) (k : Nat) (old : Bool) : State :=
  if s.flag (audSinkCtrl_EN k) then
    let s := match speakerOf k with
      | some st => (s.put (audSinkCtrl_FAULT k) 0).put (stageField st) 2
      | none => s
    if old then s
    else
      let bus := s.get (audSinkCtrl_SINK_BUS k)
      s.modSink k fun u => { u with bus := bus, phase := 0, wait := 0 }
  else s

def specSinkSet : OpSpec :=
  { opcode := 0x0A05, lens := len 8, zero := fun _ => zeroMask [(3, 7)] [], modes := modesPSDBT, issuer := .tenants,
    member := .capable, names := isSink, owns := ownsAudio, log := .logged, check := sinkSetCheck,
    land := fun s o =>
      let k := o.tgt - 96
      let old := s.flag (audSinkCtrl_EN k)
      (((s.put (audSinkCtrl_EN k) (o.u8 0)).put (audSinkCtrl_SINK_BUS k) (o.u8 1)).put (audSinkCtrl_GAIN k) (o.u8 2)).sinkEnabled k old }

/-- The checks of STREAM_SET. -/
def streamSetCheck (s : State) (o : Origin) : Option (Nat × Nat) :=
  if 1 < o.u8 0 then some (stNoResource, 1)
  else if 1 < o.u8 1 then some (stNoResource, 2)
  else if 4 < o.u8 2 then some (stNoResource, 3)
  else if 31 < o.u8 3 then some (stNoResource, 4)
  else if o.u16 4 % 48 ≠ 0 ∨ 48000 < o.u16 4 then some (stNoResource, 5)
  else if o.u8 6 < 12 ∨ 20 < o.u8 6 then some (stNoResource, 7)
  else if o.u64 8 % 64 ≠ 0 ∨ !((s.audioOwner o.tgt).any fun f => s.inRange f (o.u64 8) (2 ^ o.u8 6)) then some (stNoResource, 9)
  else if o.u64 24 ≠ 0 ∧ o.u64 24 < s.audNow then some (stNoResource, 25)
  else if o.u16 4 ≠ 0 ∧ s.queueOwner (o.u8 3) ≠ s.audioOwner o.tgt then some (stNotOwner, 4)
  else if (List.range 16).any fun b => s.breach o.tgt b (o.u8 2) (s.get (audBusCtrl_RATE b)) (s.flag (audBusCtrl_BYPASS b)) then
    some (stConflict, 2)
  else none

def specStreamSet : OpSpec :=
  { opcode := 0x0A06, lens := len 32, zero := fun _ => zeroMask [(7, 7), (16, 23)] [], modes := modesPSDBT, issuer := .tenants,
    member := .capable, names := isStream, owns := ownsAudio, log := .logged, check := streamSetCheck,
    land := fun s o =>
      let i := o.tgt
      let s := ((s.put (audStrCtrl_EN i) (o.u8 0)).put (audStrCtrl_FMT i) (o.u8 1)).put (audStrCtrl_RATE i) (o.u8 2)
      let s := ((s.put (audStrCtrl_QUEUE i) (o.u8 3)).put (audStrCtrl_PERIOD i) (o.u16 4)).put (audStrCtrl_LOG2 i) (o.u8 6)
      let s := (s.put (audStrBase_ADDR i) (o.u64 8 / 64)).put (audStrStart_START i) (o.u64 24)
      s.modStream i fun x => { x with on := false } }

def specStreamKick : OpSpec :=
  { opcode := 0x0A07, lens := len 8, zero := fun _ => zeroMask [(4, 7)] [], modes := modesPSDBT, issuer := .tenants,
    names := isStream, owns := ownsAudio, log := .flip 3,
    check := fun s o => if o.u32 0 % s.sampleBytes o.tgt ≠ 0 ∨ s.streamSize o.tgt ≤ o.u32 0 then some (stNoResource, 1) else none,
    run := fun s o => (s.put (audStrPos_WPOS o.tgt) (o.u32 0), .answer (done 0 0)) }

/-- The first payload byte of TONE_SET that is out of range. -/
def toneSetFault (o : Origin) : Option Nat :=
  if 2 < o.u8 0 then some 0
  else if 7 < o.u8 1 then some 1
  else if o.u16 4 < 20 ∨ 12000 < o.u16 4 then some 4
  else if o.u16 6 < 20 ∨ 12000 < o.u16 6 then some 6
  else none

def specToneSet : OpSpec :=
  { opcode := 0x0A08, lens := len 16, zero := fun _ => zeroMask [(14, 15)] [], modes := modesPSDBT, issuer := .tenants,
    member := .capable, names := isTone, owns := ownsAudio, log := .logged,
    check := fun _ o => (toneSetFault o).map fun b => (stNoResource, 1 + b),
    land := fun s o =>
      let t := o.tgt - 32
      let s := ((s.put (audToneCfg_WAVE t) (o.u8 0)).put (audToneCfg_PRIO t) (o.u8 1)).put (audToneCfg_LEVEL t) (o.u8 2)
      let s := ((s.put (audToneCfg_REPEATS t) (o.u8 3)).put (audToneFreq_F1 t) (o.u16 4)).put (audToneFreq_F2 t) (o.u16 6)
      ((s.put (audToneTime_T1 t) (o.u16 8)).put (audToneTime_T2 t) (o.u16 10)).put (audToneOff_TOFF t) (o.u16 12) }

/-- A tone is started at a named sample, or at the first sample from now; or stopped at its next crossing (R331). -/
def State.tonePlay (s : State) (o : Origin) : State :=
  let t := o.tgt - 32
  if o.u8 0 = 1 then s.modTone t fun x => { x with due := some (o.u64 8) }
  else s.modTone t fun x => { x with due := none, stopping := if s.flag (audToneCfg_RUN t) then some (x.stopping.getD 0) else none }

def specTonePlay : OpSpec :=
  { opcode := 0x0A09, lens := len 16, zero := fun _ => zeroMask [(1, 7)] [], modes := modesPSDBT, issuer := .tenants,
    member := .capable, names := isTone, owns := ownsAudio, log := .logged,
    check := fun _ o => if 1 < o.u8 0 then some (stNoResource, 1) else none,
    land := State.tonePlay }

def specTdmSet : OpSpec :=
  { opcode := 0x0A0A, lens := len 8, zero := fun _ => zeroMask [(3, 7)] [], modes := [2, 6], issuer := .sealedOnly, log := .logged,
    check := fun _ o => if 1 < o.u8 0 then some (stNoResource, 1) else if 2 < o.u8 1 then some (stNoResource, 2)
      else if 1 < o.u8 2 ∨ (o.u8 2 = 0 ∧ o.u8 1 ≠ 0) then some (stNoResource, 3) else none,
    run := fun s o => (((s.put audTdm_EN (o.u8 0)).put audTdm_SLOTS (o.u8 1)).put audTdm_FMT (o.u8 2), .answer (done 0 0)) }

/-- The result words of AUD_QUERY (R340). -/
def State.audioWords (s : State) (t : Nat) : Nat × Nat :=
  let r (x : Reg) : Nat := (s.rd x).toNat
  if isStream t then (r (audStrCtrl t), if t = 0 then s.audNow else r (audStrPos t))
  else if isTone t then
    (r (audToneCfg (t - 32)) + 0x100000000 * r (audToneFreq (t - 32)), r (audToneTime (t - 32)) + 0x100000000 * r (audToneOff (t - 32)))
  else if isBus t then (r (audBusCtrl (t - 64)) + 0x100000000 * r (audBusDyn (t - 64)), 0)
  else if isSink t then (r (audSinkCtrl (t - 96)), 0)
  else (r (audOwner t), 0)

def specAudQuery : OpSpec :=
  { opcode := 0x0A0B, lens := len 0, modes := allModes, issuer := .tenants, query := true,
    names := fun t => isStream t || isTone t || isInput t || isBus t || isSink t, owns := ownsAudio,
    run := fun s o => (s, .answer (done (s.audioWords o.tgt).1 (s.audioWords o.tgt).2)) }

def execAudAssign (p : Packet) (s : State) : Host.Outcome State Fault Refusal := packetStep specAudAssign p s
def execRouteSet (p : Packet) (s : State) : Host.Outcome State Fault Refusal := packetStep specRouteSet p s
def execBusSet (p : Packet) (s : State) : Host.Outcome State Fault Refusal := packetStep specBusSet p s
def execEqSet (p : Packet) (s : State) : Host.Outcome State Fault Refusal := packetStep specEqSet p s
def execSinkSet (p : Packet) (s : State) : Host.Outcome State Fault Refusal := packetStep specSinkSet p s
def execStreamSet (p : Packet) (s : State) : Host.Outcome State Fault Refusal := packetStep specStreamSet p s
def execStreamKick (p : Packet) (s : State) : Host.Outcome State Fault Refusal := packetStep specStreamKick p s
def execToneSet (p : Packet) (s : State) : Host.Outcome State Fault Refusal := packetStep specToneSet p s
def execTonePlayStart (p : Packet) (s : State) : Host.Outcome State Fault Refusal := packetStep specTonePlay p s
def execTonePlayStop (p : Packet) (s : State) : Host.Outcome State Fault Refusal := packetStep specTonePlay p s
def execTdmSet (p : Packet) (s : State) : Host.Outcome State Fault Refusal := packetStep specTdmSet p s
def execAudQuery (p : Packet) (s : State) : Host.Outcome State Fault Refusal := packetStep specAudQuery p s

end Sys2Proof.Machine
end

