-- ==== Sys2Proof/Machine/Mem.lean ====
section
/-! DEFINITION. The memory system (R366 to R393): address mapping, admission as it reads, refresh, error correction, hot
channels, training, changes of set point, and the memory opcodes. -/
namespace Sys2Proof.Machine

/-- The controller's own state changes. -/
def State.modDramc (s : State) (f : DramcState → DramcState) : State := { s with dramc := f s.dramc }

/-! ### Mapping and admission (R367, R371) -/

/-- The channel of an internal DRAM address (R367). -/
def State.channelOf (s : State) (a : Nat) : Nat := (a - dramBase) / s.grainBytes % 8

/-- The data offset of an internal DRAM address in its channel (R367). -/
def State.channelOffset (s : State) (a : Nat) : Nat :=
  (a - dramBase) / (8 * s.grainBytes) * s.grainBytes + (a - dramBase) % s.grainBytes

/-- The raw channel offset of the check bytes of the data line at an internal DRAM address (R367). -/
def State.checkOffset (s : State) (a : Nat) : Nat := s.usable / 8 + s.channelOffset a / 64 * 8

/-- DRAMC_CH_c_RT as it reads: admitted demand with the reserve, and the cap, in MB/s (R371); zero before the initial
clear. -/
def State.rtNow (s : State) : Nat :=
  if s.flag dramcStatus_INIT_DONE then
    let d := 32 * s.rateDen
    min 0xFFFF (openRound (s.scanDemand + 200000000 * d) (1000000 * d))
      + 0x10000 * openRound (s.get dramcCfg_RT_CAP * seqRate (s.get dramcStatus_SETPOINT)) 1000
  else 0

/-! ### Refresh (R380 to R382) -/

/-- The refresh slots every line must have at the doubled rate: the line period over 244 ns, rounded up (R380). -/
def refreshNeed (num den lines : Nat) : Nat := (den * 1000000000 + num * lines * 244 - 1) / (num * lines * 244)

/-- The set bits of a mask. -/
def popCount (mask : Nat) : Nat := ((List.range 32).filter fun i => mask / 2 ^ i % 2 == 1).length

/-- Whether a refresh plan suffices for a raster (R380). -/
def planOk (mask perSlot num den lines : Nat) : Bool := decide (refreshNeed num den lines ≤ popCount mask * perSlot)

/-- Whether a refresh plan suffices for the raster in use. -/
def State.planFits (s : State) (mask perSlot : Nat) : Bool := planOk mask perSlot s.rateNum s.rateDen s.lines

/-- Whether the plan in force suffices for a raster (R380). -/
def State.planServes (s : State) (num den lines : Nat) : Bool :=
  planOk (s.get dramcRefPlan_MASK) (s.get dramcRefCfg_PER_SLOT) num den lines

/-- Whether channel `c` is in a period of forced refresh. -/
def State.forcing (s : State) (c : Nat) : Bool := s.dramc.forced.toNat / 2 ^ c % 2 == 1

/-- A period of forced refresh of channel `c` begins or ends. -/
def State.setForcing (s : State) (c : Nat) (b : Bool) : State :=
  s.modDramc fun d => { d with forced := BitVec.ofNat 8 (setField d.forced.toNat c 1 (if b then 1 else 0)) }

/-- REFRESH_DUE: a refresh falls due on a channel; at FORCE_AT refresh is forced (R381). -/
def execRefreshDue (channel : Fin 8) (s : State) : Host.Outcome State Fault Refusal :=
  .next (
    let c := channel.val
    let s := s.put (dramcChStatus_OWED c) (min 128 (s.get (dramcChStatus_OWED c) + 1))
    if !s.forcing c && decide (s.get dramcRefCfg_FORCE_AT ≤ s.get (dramcChStatus_OWED c)) then
      (s.setForcing c true).raise 388 c
    else s)

/-- A slot issues refreshes on channel `c`; the forced period ends below half of FORCE_AT (R381). -/
def State.refreshChannel (s : State) (c : Nat) : State :=
  let owed := s.get (dramcChStatus_OWED c)
  let s := s.put (dramcChStatus_OWED c) (owed - min owed (s.get dramcRefCfg_PER_SLOT))
  if s.forcing c && decide (2 * s.get (dramcChStatus_OWED c) < s.get dramcRefCfg_FORCE_AT) then s.setForcing c false else s

/-- REFRESH_SLOT: in a slot grain each channel issues what it owes, up to PER_SLOT, unless RT requests wait on it and refresh
is not forced (R380, R381). No refresh is issued while issue has stopped for a change of set point (R383). -/
def execRefreshSlot (waiting : Byte) (s : State) : Host.Outcome State Fault Refusal :=
  .next (
    if !s.bit dramcRefPlan_MASK s.now.grain || s.dramc.change.any (fun c => c.phase == .stopped) then s
    else s.each (List.range 8) fun s c =>
      if waiting.toNat / 2 ^ c % 2 == 1 && !s.forcing c && s.get (dramcChStatus_OWED c) != 128 then s
      else s.refreshChannel c)

/-- MR4_TEMP_READ: a channel's temperature is read; above 85 °C it is derated, at 80 °C restored (R382). -/
def execMr4TempRead (channel : Fin 8) (temp : Byte) (s : State) : Host.Outcome State Fault Refusal :=
  .next (
    let c := channel.val
    let s := s.put (dramcChStatus_TEMP c) temp.toNat
    if !s.flag (dramcChStatus_DERATE c) && decide (85 < temp.toInt) then
      (s.put (dramcChStatus_DERATE c) 1).raise 389 (c * 256 + 1)
    else if s.flag (dramcChStatus_DERATE c) && decide (temp.toInt ≤ 80) then
      (s.put (dramcChStatus_DERATE c) 0).raise 389 (c * 256)
    else s)

/-! ### Errors and service (R372 to R377) -/

/-- What the check bytes of a line read show (R375). -/
def State.syndrome (s : State) (line : Nat) (kind : Nat) (agent : Nat) : State :=
  if kind = 0 then s
  else
    let c := s.channelOf (line * 64)
    let cls := agent / 0x1000 % 8
    let s := (s.wr (dramcChEccLast c) 0).put (dramcChEccLast_LINE c) line
    let s := (s.put (dramcChEccLast_AGENT c) agent).putBit (dramcChEccLast_UE c) (kind != 1)
    if kind = 1 then (s.raise 384 (c * 256 + cls)).bump (dramcChCeCnt_COUNT c)
    else
      let s := if kind = 3 then (s.raise 386 c).put (dramcChEccLast_ADDR_FAULT c) 1 else s
      (s.raise 385 (c * 256 + cls)).bump (dramcChUeCnt_COUNT c)

/-- PATROL_SCRUB: a line of usable DRAM, or a word of an on-die SRAM, is read and corrected (R377). The scrubber uses one of
the sealed DMA channels 32 to 47 (R41). -/
def execPatrolScrub (region : Fin 8) (line : BitVec 42) (kind : Fin 4) (s : State) : Host.Outcome State Fault Refusal :=
  .next (
    if region.val = 7 then
      if decide (dramBase ≤ line.toNat * 64 ∧ line.toNat * 64 < dramBase + s.usable) && s.flag dramcStatus_INIT_DONE
          && s.flag dramcScrub_SCRUB_H then
        s.freeUsed.syndrome line.toNat kind.val (0xE020 + s.free.toNat % 16)
      else s
    else if kind.val = 0 then s
    else s.raise 395 (region.val * 256 + (if kind.val = 1 then 1 else 2)))

/-- RT_LATE: an RT request is served later than its deadline (R372). -/
def execRtLate (channel : Fin 8) (s : State) : Host.Outcome State Fault Refusal :=
  .next ((s.bump (dramcChLateCnt_COUNT channel.val)).raise 394 channel.val)

/-- HOT_WINDOW_END: HOT_S seconds end. A channel is hot when it carried more than HOT_PCT % of the accesses while at least
80 % of its slots were in use; HOT_CHANNEL is raised when it becomes hot (R373). The accesses of the last second and the
bytes each function moved in it are shown until the next. -/
def execHotWindowEnd (accesses last : List W32) (busy : Byte) (traffic : List (W64 × W64)) (s : State) :
    Host.Outcome State Fault Refusal :=
  .next (
    let n (c : Nat) : Nat := (accesses.getD c 0).toNat
    let total := ((List.range 8).map n).sum
    let s := s.modDramc fun d => { d with traffic := traffic.take 32 }
    s.each (List.range 8) fun s c =>
      let s := s.wr (dramcChAcc c) (BitVec.ofNat 64 (last.getD c 0).toNat)
      let hot := decide (s.get dramcHotCfg_HOT_PCT * total < 100 * n c) && busy.toNat / 2 ^ c % 2 == 1
      let was := s.flag (dramcChStatus_HOT c)
      let s := s.putBit (dramcChStatus_HOT c) hot
      if hot && !was then s.raise 387 c else s)

/-! ### Change of set point (R383 to R386) -/

/-- The master line at whose grain 0 the window of a change begins: six before line L. -/
def State.armLine (s : State) : Nat := (s.get dramcFchg_LINE + s.lines - 6) % s.lines

/-- Decisions deferred by the window of a change are taken (R383). -/
def State.takeDeferred (s : State) : State :=
  let slice := s.dramc.slice
  ((s.modDramc fun d => { d with slice := false }).shareClusters).schedule slice

/-- Grain 0 of line L − 6: the window of a pending change begins, unless training gathers data (R383, R386). -/
def State.changeArms (s : State) : State :=
  if s.dramc.training.isEmpty then
    s.modDramc fun d => { d with change := d.change.map fun c => if c.phase == .waiting then { c with phase := .armed } else c }
  else s

/-- Grain 0 of line L: issue stops, or the change is held for one frame because refreshes are owed (R383). -/
def State.changeLine (s : State) : State :=
  match s.dramc.change with
  | none => s
  | some c =>
    if c.phase != .armed then s
    else if (List.range 8).any fun k => decide (16 < s.get (dramcChStatus_OWED k)) then
      ((s.modDramc fun d => { d with change := some { c with phase := .waiting } }).raise 391 1).takeDeferred
    else s.modDramc fun d => { d with change := some { c with phase := .stopped, line := ⟨s.now.frame, s.now.line, 0⟩ } }

/-- A pending change is no more; one of a packet is answered. -/
def State.endChange (s : State) (a : Answer) : State :=
  match s.dramc.change with
  | none => s
  | some c =>
    let s := (s.modDramc fun d => { d with change := none }).put dramcStatus_FCHG_PENDING 0
    match c.origin with
    | some o => s.settleAt o a (if c.phase == .stopped then c.line.word else s.now.word)
    | none => s

/-- FREQ_CHANGE_COMPLETE: requests resume at the new set point (R383); MEM_FREQ_SET is answered (R392). -/
def execFreqChangeComplete (s : State) : Host.Outcome State Fault Refusal :=
  .next (
    if s.dramc.change.any fun c => c.phase == .stopped then
      let t := s.get dramcFchg_TARGET
      let s := (s.put dramcStatus_SETPOINT t).raise 390 t
      (s.endChange (done t 0)).takeDeferred
    else s)

/-- Whether the warning position of a head with an enabled composition lies in lines L − 6 to L + 2 (R385). -/
def State.warnMeets (s : State) (line : Nat) : Bool :=
  (List.range 8).any fun n => s.flag (gfxCompCtrl_EN n) &&
    decide (((s.warnAt n).line + s.lines + 6 - line) % s.lines ≤ 8)

/-- The refusal of a change to set point `t` at line `line` (R385, R392). A set point still to be trained is judged when its
training ends (R386). -/
def State.changeFault (s : State) (t line : Nat) : Option (Nat × Nat) :=
  if 3 < t then some (stNoResource, 1)
  else if !s.bit dramcStatus_USABLE t && !s.dramc.training.any (fun x => x.1 == t) then some (stNoResource, 1)
  else if s.lines ≤ line then some (stNoResource, 3)
  else if !s.rtFits s.scanDemand t (s.get dramcCfg_RT_CAP) then some (stNoResource, 0xFB)
  else if s.dramc.change.isSome then some (stConflict, 1)
  else if s.mode = modeKindling then none
  else if s.warnMeets line then some (stConflict, 2)
  else if !s.flag dramcCfg_FCHG_EN then some (stConflict, 3)
  else none

/-- A change becomes pending; while training gathers data it is held (R383, R386). -/
def State.askChange (s : State) (t line : Nat) (origin : Option Origin) : State :=
  let s := ((s.put dramcFchg_LINE line).put dramcFchg_TARGET t).put dramcStatus_FCHG_PENDING 1
  let s := s.modDramc fun d => { d with change := some ⟨.waiting, ⟨0, 0, 0⟩, origin⟩ }
  if s.dramc.training.isEmpty then s else s.raise 391 2

/-- The modes in which a change may be asked for (R391). -/
def modesFreq : List Nat := [1, 2, 3, 4, 6]

def specMemFreqSet : OpSpec :=
  { opcode := 0x0B01, lens := len 8, zero := fun _ => zeroMask [(1, 1), (4, 7)] [], modes := modesFreq, issuer := .sealedOnly,
    log := .logged, check := fun s o => s.changeFault (o.u8 0) (o.u16 2),
    run := fun s o => (s.askChange (o.u8 0) (o.u16 2) (some o), .later) }

/-- FCHG_GO_WRITE: a write of DRAMC_FCHG. With GO set the change becomes pending if MEM_FREQ_SET would be accepted (R390). -/
def execFchgGoWrite (who : Requester) (value : W32) (s : State) : Host.Outcome State Fault Refusal :=
  .next (
    let v := value.toNat
    let line := v % 2 ^ 14
    let t := v / 2 ^ 16 % 4
    if s.mayWrite who && worldOf who == .sealed
        && v / 2 ^ 31 == 1 && (!modesFreq.contains s.mode || (s.changeFault t line).isSome) then
      s.refuseWrite who dramcFchg.addr v (s.rd dramcFchg).toNat stConflict
    else s.sealedWrite who dramcFchg v fun s =>
      if v / 2 ^ 31 = 1 then s.askChange t line none else (s.put dramcFchg_LINE line).put dramcFchg_TARGET t)

/-! ### Training (R378, R379, R386) -/

/-- Training begins for every set point, slowest first (R378). -/
def State.beginTraining (s : State) : State :=
  (s.modDramc fun d => { d with training := [(3, none), (2, none), (1, none), (0, none)] }).put dramcStatus_TRAINING 1

/-- The taps of a run with no error; none when its last tap lies below its first. -/
def runWidth (run : Byte × Byte) : Nat := run.2.toNat + 1 - run.1.toNat

/-- The results of a lane at a set point: both runs, their centres, and whether both are at least 16 taps wide (R378). -/
def State.trainLane (s : State) (c l sp : Nat) (rd wrRun : Byte × Byte) : State :=
  let pass := decide (16 ≤ runWidth rd ∧ 16 ≤ runWidth wrRun)
  let s := (s.put (dramcTrn_RD_LEFT c l sp) rd.1.toNat).put (dramcTrn_RD_RIGHT c l sp) rd.2.toNat
  let s := s.put (dramcTrn_RD_CENTRE c l sp) ((rd.1.toNat + rd.2.toNat) / 2)
  let s := (s.put (dramcTrn_WR_LEFT c l sp) wrRun.1.toNat).put (dramcTrn_WR_RIGHT c l sp) wrRun.2.toNat
  let s := (s.put (dramcTrn_WR_CENTRE c l sp) ((wrRun.1.toNat + wrRun.2.toNat) / 2)).putBit (dramcTrn_PASS c l sp) pass
  if pass then s else s.raise 393 (c * 256 + l * 16 + sp)

/-- Whether both lanes of channel `c` passed at a set point. -/
def State.channelPassed (s : State) (c sp : Nat) : Bool := s.flag (dramcTrn_PASS c 0 sp) && s.flag (dramcTrn_PASS c 1 sp)

/-- A channel that fails at every set point is lost, DRAM with it, and the module enters Banked (R379). -/
def State.loseChannels (s : State) : State :=
  let lost := (List.range 8).filter fun c => !s.bit dramcStatus_CH_LOST c && (List.range 4).all fun sp => !s.channelPassed c sp
  let s := s.each lost fun s c => (s.putBitAt dramcStatus_CH_LOST c true).put (dramcChStatus_LOST c) 1
  if lost.isEmpty then s else s.force modeBanked none

/-- The highest usable set point; F3 when none is. -/
def State.bestSetPoint (s : State) : Nat := ((List.range 4).find? fun sp => s.bit dramcStatus_USABLE sp).getD 3

/-- TRAINING_SET_POINT_DONE: the set point under training ends with a read and a write run for each of the 16 lanes (R378).
After boot training the module runs at the highest usable set point; a change that waits for a set point now found unusable
is refused (R386). -/
def execTrainingSetPointDone (runs : List ((Byte × Byte) × (Byte × Byte))) (s : State) : Host.Outcome State Fault Refusal :=
  .next (match s.dramc.training with
    | [] => s
    | (sp, origin) :: rest =>
      let s := s.modDramc fun d => { d with training := rest }
      let s := s.putBit dramcStatus_TRAINING (!rest.isEmpty)
      let s := s.each (List.range 16) fun s i =>
        let r := runs.getD i ((1, 0), (1, 0))
        s.trainLane (i / 2) (i % 2) sp r.1 r.2
      let pass := (List.range 8).all fun c => s.channelPassed c sp
      let s := (s.putBitAt dramcStatus_USABLE sp pass).raise 392 sp
      let booted := origin.isNone && !rest.any fun x => x.2.isNone
      let s := s.when booted fun s => s.put dramcStatus_SETPOINT s.bestSetPoint
      let s := s.when (booted || origin.isSome) State.loseChannels
      let s := match origin with
        | some o => s.settle o ⟨stDone, if pass then 0 else 1, 0, 0⟩
        | none => s
      if rest.isEmpty && s.dramc.change.isSome && !s.bit dramcStatus_USABLE (s.get dramcFchg_TARGET) then
        s.endChange (refusal stNoResource 1)
      else s)

def specMemRetrain : OpSpec :=
  { opcode := 0x0B02, lens := len 8, zero := fun _ => zeroMask [(1, 7)] [], modes := [1, 6], issuer := .sealedOnly,
    log := .logged,
    check := fun s o => if 3 < o.u8 0 then some (stNoResource, 1)
      else if s.get dramcStatus_SETPOINT = o.u8 0 then some (stConflict, 4) else none,
    run := fun s o => ((s.modDramc fun d => { d with training := d.training ++ [(o.u8 0, some o)] }).put dramcStatus_TRAINING 1,
      .later) }

/-- DRAM_INIT_CLEAR_DONE: every usable line has been written with zero (R389). -/
def execDramInitClearDone (s : State) : Host.Outcome State Fault Refusal :=
  .next (
    if s.flag dramcStatus_INIT_DONE || !s.dramc.training.isEmpty || s.flag dramcStatus_CH_LOST || s.mode != modeKindling then s
    else (s.zeroMem dramBase (dramBase + s.usable)).put dramcStatus_INIT_DONE 1)

/-- What a warm reset does to the controller: a change not yet at line L is dropped without reply (R389). -/
def State.dramcResetWarm (s : State) : State :=
  match s.dramc.change with
  | none => s
  | some c =>
    if c.phase == .stopped then s
    else
      let s := (s.modDramc fun d => { d with change := none }).put dramcStatus_FCHG_PENDING 0
      let s := match c.origin with
        | some o => s.dropReply o
        | none => s
      s.takeDeferred

/-! ### Settings (R380, R384, R390, R392) -/

def specMemRefPlan : OpSpec :=
  { opcode := 0x0B03, lens := len 8, zero := fun _ => zeroMask [(6, 7)] [], modes := [1, 2, 6], issuer := .sealedOnly,
    log := .logged,
    check := fun s o => if o.u8 4 = 0 ∨ 4 < o.u8 4 then some (stNoResource, 5)
      else if o.u8 5 < 16 ∨ 112 < o.u8 5 then some (stNoResource, 6)
      else if s.planFits (o.u32 0) (o.u8 4) then none else some (stNoResource, 0xF1),
    run := fun s o =>
      (((s.put dramcRefPlan_MASK (o.u32 0)).put dramcRefCfg_PER_SLOT (o.u8 4)).put dramcRefCfg_FORCE_AT (o.u8 5),
       .answer (done 0 0)) }

/-- Whether every enabled layer would still fit with the cover of R384. -/
def State.coverOk (s : State) : Bool :=
  let s := s.put dramcCfg_FCHG_EN 1
  [0, actPipe].all fun b => (List.range 48).all fun m =>
    let l := s.layer m b
    !l.en || decide (8 ≤ l.head) || decide (s.bufferTwice l ≤ l.gang * 65536)

/-- What DRAMC_CFG may take: a status and a detail, as MEM_CFG is refused (R384, R392). -/
def State.dramcCfgFault (s : State) (grain cap ways fchg : Nat) : Option (Nat × Nat) :=
  if grain < 8 ∨ 16 < grain then some (stNoResource, 1)
  else if cap < 10 ∨ 75 < cap then some (stNoResource, 2)
  else if 8 < ways then some (stNoResource, 5)
  else if s.flag dramcStatus_INIT_DONE ∧ grain ≠ s.get dramcCfg_GRAIN_LOG2 then some (stConflict, 1)
  else if !s.rtFits s.scanDemand (s.get dramcStatus_SETPOINT) cap then some (stNoResource, 0xFB)
  else if fchg = 1 ∧ !s.coverOk then some (stNoResource, 0xF2)
  else none

/-- DRAMC_CFG takes its settings. -/
def State.setDramcCfg (s : State) (grain cap ways fchg : Nat) : State :=
  (((s.put dramcCfg_GRAIN_LOG2 grain).put dramcCfg_RT_CAP cap).put dramcCfg_SEALED_WAYS ways).put dramcCfg_FCHG_EN fchg

def specMemCfg : OpSpec :=
  { opcode := 0x0B04, lens := len 16, zero := fun _ => zeroMask [(7, 15)] [], modes := [1, 2, 6], issuer := .sealedOnly,
    log := .logged,
    check := fun s o =>
      if o.u8 0 < 8 ∨ 16 < o.u8 0 then some (stNoResource, 1)
      else if o.u8 1 < 10 ∨ 75 < o.u8 1 then some (stNoResource, 2)
      else if o.u8 2 < 20 ∨ 100 < o.u8 2 then some (stNoResource, 3)
      else if o.u8 3 = 0 then some (stNoResource, 4)
      else if 8 < o.u8 4 then some (stNoResource, 5)
      else if 1 < o.u8 5 then some (stNoResource, 6)
      else s.dramcCfgFault (o.u8 0) (o.u8 1) (o.u8 4) (o.u8 5),
    run := fun s o =>
      let s := s.setDramcCfg (o.u8 0) (o.u8 1) (o.u8 4) (o.u8 5)
      (((s.put dramcHotCfg_HOT_PCT (o.u8 2)).put dramcHotCfg_HOT_S (o.u8 3)).put dramcScrub_SCRUB_H (o.u8 6),
       .answer (done 0 0)) }

/-- MEM_QUERY (R392). A target that is neither a channel, 8 nor 0xFF has nothing to show. -/
def memQueryRun (s : State) (o : Origin) : State × Effect :=
  let c := o.tgt
  if c < 8 then
    (s, .answer (done ((s.rd (dramcChStatus c)).toNat + 0x100000000 * s.rtNow)
      ((s.rd (dramcChCeCnt c)).toNat + 0x100000000 * (s.rd (dramcChUeCnt c)).toNat)))
  else if c = 8 then (s, .answer (done ((s.rd dramcStatus).toNat + 0x100000000 * (s.rd dramcCfg).toNat) 0))
  else if c = 0xFF then
    let t := if o.ring < 32 then s.dramc.traffic.getD o.ring (0, 0) else (0, 0)
    (s, .answer (done t.1.toNat t.2.toNat))
  else (s, .answer (done 0 0))

def specMemQuery : OpSpec :=
  { opcode := 0x0B05, lens := len 0, modes := allModes, issuer := .any, query := true, names := fun _ => true,
    run := memQueryRun }

def execMemFreqSet (p : Packet) (s : State) : Host.Outcome State Fault Refusal := packetStep specMemFreqSet p s
def execMemRetrain (p : Packet) (s : State) : Host.Outcome State Fault Refusal := packetStep specMemRetrain p s
def execMemRefPlan (p : Packet) (s : State) : Host.Outcome State Fault Refusal := packetStep specMemRefPlan p s
def execMemCfg (p : Packet) (s : State) : Host.Outcome State Fault Refusal := packetStep specMemCfg p s
def execMemQuery (p : Packet) (s : State) : Host.Outcome State Fault Refusal := packetStep specMemQuery p s

end Sys2Proof.Machine
end

