-- ==== Sys2Proof/Machine/Raster.lean ====
section
/-! DEFINITION. Changes of the master raster: RASTER_SET and the write of WALL_CTRL.APPLY (R15, R16, R31, R33, R34). -/
namespace Sys2Proof.Machine

/-! ### The checks of a raster (R13, R16, R29, R91, R162, R276, R380) -/

/-- Whether the composition rates of the enabled heads stay within 5 × 10⁹ pixels per second at a frame rate (R162). -/
def State.compServes (s : State) (num den : Nat) : Bool :=
  decide ((((List.range 8).filter fun n => s.flag (headCtrl_EN n)).map fun n => (s.timing n).pixels).sum * num ≤ 5000000000 * den)

/-- Whether every touch slot keeps its line below the line count, and the slots of enabled ports their rules (R16, R276). -/
def State.touchServes (s : State) (num den lines : Nat) : Bool :=
  ((List.range 4).all fun p => decide (s.get (touchListen_LINE p) < lines)
      && (List.range 8).all fun j => decide (s.get (touchWin_LINE p j) < lines))
    && s.touchRasterOk num den lines

/-- The block whose registers a line count would leave out of place or whose rule a raster breaks: PKT, HEAD, TOUCH, DRAMC, as
bits 31 to 16 of its base (R16, R91, R276, R380). -/
def State.rasterConflict (s : State) (num den lines : Nat) : Option Nat :=
  if lines < 2 * s.get pktCtrl_MARGIN then some 0x4050
  else if (List.range 8).any fun n => decide (lines ≤ s.get (headOffset_O n)) then some 0x4100
  else if !s.touchServes num den lines then some 0x4300
  else if lines ≤ s.get dramcFchg_LINE ∨ !s.planServes num den lines then some 0x4400
  else none

/-- The status and detail with which a raster is refused, if it is (R15, R16, R34, R162). -/
def State.rasterFault (s : State) (num den lines : Nat) : Option (Nat × Nat) :=
  if s.wall.raster.isSome then some (stConflict, 1)
  else match rasterLimit num den lines with
    | some d => some (stNoResource, d)
    | none =>
      if !s.compServes num den then some (stNoResource, 5)
      else (s.rasterConflict num den lines).map fun b => (stConflict, b)

/-- A raster change is accepted: it takes effect at the next master frame start (R15). -/
def State.askRaster (s : State) (r : RasterReq) : State :=
  (s.modWall fun w => { w with raster := some r }).put wallStatus_PENDING 1

def specRasterSet : OpSpec :=
  { opcode := 0x0401, lens := len 16, zero := fun _ => zeroMask [(8, 15)] [], modes := rasterModes, issuer := .managers,
    log := .logged, check := fun s o => s.rasterFault (o.u32 0) (o.u16 4) (o.u16 6),
    run := fun s o =>
      let a := audioPair (o.u32 0) (o.u16 4) (o.u16 6)
      (s.askRaster ⟨o.u32 0, o.u16 4, o.u16 6, a.1, a.2, some o⟩, .later) }

/-- RASTER_SET: answered when the new raster has taken effect (R33). -/
def execRasterSet (p : Packet) (s : State) : Host.Outcome State Fault Refusal := packetStep specRasterSet p s

/-! ### WALL_CTRL.APPLY (R31) -/

/-- The staged value of a WALL register, or the value in use. -/
def State.stagedWall (s : State) (r : Reg) : Nat :=
  ((s.wall.staged.find? fun e => e.1 == r.addr).map (·.2)).getD (s.rd r).toNat

/-- A sealed write of a WALL register that APPLY brings into use is staged (R31). -/
def State.stageWall (s : State) (r : Reg) (value : Nat) : State :=
  s.modWall fun w => { w with staged := (w.staged.filter fun e => e.1 != r.addr) ++ [(r.addr, value)] }

/-- The raster that the staged values give. -/
def State.stagedRaster (s : State) : RasterReq :=
  let audio := s.stagedWall wallAudRatio
  ⟨s.stagedWall wallMrRateNum, s.stagedWall wallMrRateDen, s.stagedWall wallMrLines, audio % 0x10000, audio / 0x10000, none⟩

/-- Whether a raster differs from the one in use. -/
def State.rasterDiffers (s : State) (r : RasterReq) : Bool :=
  r.num != s.rateNum || r.den != s.rateDen || r.lines != s.lines || r.audNum != s.get wallAudRatio_AUD_NUM
    || r.audDen != s.get wallAudRatio_AUD_DEN

/-- Whether a raster's audio pair gives exactly 48 kHz at the nominal rate (R29). -/
def audioExact (r : RasterReq) : Bool :=
  r.audNum != 0 && r.audDen != 0 && r.num * r.lines * r.audNum == 48000 * r.den * r.audDen

/-- The status with which an APPLY is refused, if it is; REF_MULT 3 is refused with NO_RESOURCE (R31). -/
def State.applyFault (s : State) : Option Nat :=
  let r := s.stagedRaster
  if s.stagedWall wallSyncCfg / 8 % 4 = 3 then some stNoResource
  else if !s.rasterDiffers r then none
  else if s.wall.raster.isSome then some stConflict
  else if !rasterModes.contains s.mode then some stMode
  else match s.rasterFault r.num r.den r.lines with
    | some f => some f.1
    | none => if audioExact r then none else some stNoResource

/-- An APPLY that passes: the staged values take effect at the next master frame start. -/
def State.applyStagedWall (s : State) : State :=
  let r := s.stagedRaster
  let sync := s.wall.staged.filter fun e => e.1 == wallSyncCfg.addr
  let s := s.when (s.rasterDiffers r) fun s => s.askRaster r
  let s := s.when (!sync.isEmpty) fun s =>
    (s.modWall fun w => { w with sync := some sync }).put wallStatus_PENDING 1
  s.modWall fun w => { w with staged := [] }

/-- WALL_APPLY_WRITE: a write of WALL_CTRL. Without APPLY it sets RELOCK_MODE alone; an APPLY whose values fail a check discards
them (R31). -/
def execWallApplyWrite (who : Requester) (value : W32) (s : State) : Host.Outcome State Fault Refusal :=
  .next (
    let v := value.toNat
    let reloc (s : State) : State := s.put wallCtrl_RELOCK_MODE (v / 2)
    if v % 2 = 0 ∨ !s.mayWrite who ∨ worldOf who ≠ .sealed then s.sealedWrite who wallCtrl v reloc
    else match s.applyFault with
      | some st =>
        (s.refuseWrite who wallCtrl.addr v (s.rd wallCtrl).toNat st).modWall fun w => { w with staged := [] }
      | none => s.sealedWrite who wallCtrl v fun s => (reloc s).applyStagedWall)

end Sys2Proof.Machine
end

