-- ==== Sys2Proof/Machine/CheckUnits.lean ====
section
/-! DEFINITION. The check-value units: the job queue, dispatch, descriptors, completion and direct use (R420 to R433). -/
namespace Sys2Proof.Machine

/-- The check units' own state changes. -/
def State.modCu (s : State) (f : CuState → CuState) : State := { s with cu := f s.cu }

/-- The job of unit `u`. -/
def State.cuUnit (s : State) (u : Nat) : Option CuJob := (s.cu.units.getD u none)

/-- Unit `u` takes a job or is left without one. -/
def State.setUnit (s : State) (u : Nat) (j : Option CuJob) : State := s.modCu fun c => { c with units := c.units.set u j }

/-! ### Memory a job may use (R423) -/

/-- The actor a job's reads are made for. -/
def CuJob.actor (j : CuJob) : Actor := if j.owner < 32 then .function j.owner else if j.owner = 33 then .opened else .sealed

/-- Whether a job may read a range: a tenant its DRAM, the sealed world any DRAM, sealed SRAM and the Ember store. -/
def State.cuMay (s : State) (j : CuJob) (a len : Nat) : Bool := !inLocalSram a 1 && s.mayAccess j.actor a len

/-- The AGENT_ID of check unit `u` for a job (R40, R41). -/
def CuJob.agent (j : CuJob) (u : Nat) : Nat := (if j.owner = 32 ∨ j.owner = 34 then 0xE040 else 0x6040) + u

/-! ### The queue (R427) -/

/-- The units in the pool. -/
def State.poolSize (s : State) : Nat := ((List.range 8).filter fun u => !s.flag (cuCtrl_DIRECT u)).length

/-- Whether tenant `f`'s jobs have used less than its percentage of pool unit time since the frame start: time in 1/8 ns
against percent × units × nominal frame (R427). -/
def State.underShare (s : State) (f : Nat) : Bool :=
  match s.tenant f with
  | some t => decide (s.cu.used.getD f 0 * 100 * s.get wallMrRateNum_RATE_NUM
      < t.shares.getD 3 0 * s.poolSize * 8000000000 * s.get wallMrRateDen_RATE_DEN)
  | none => false

/-- The rank of a job's owner in the queue (R427). -/
def State.cuRank (s : State) (owner : Nat) : Nat :=
  if owner = 32 then 1 else if owner = 33 then 4 else if s.underShare owner then 2 else 3

/-- The place of a job in the order of service: rank, function after the one served last, arrival. -/
def State.cuKey (s : State) (j : CuJob) : Nat × Nat × Nat :=
  (s.cuRank j.owner, if j.owner < 32 then (j.owner + 31 - s.cu.lastServed) % 32 else 0, j.arrived)

/-- Whether one key orders before another. -/
def keyBefore (a b : Nat × Nat × Nat) : Bool :=
  decide (a.1 < b.1) || (a.1 == b.1 && (decide (a.2.1 < b.2.1) || (a.2.1 == b.2.1 && decide (a.2.2 < b.2.2))))

/-- The job a free pool unit takes. -/
def State.cuNext (s : State) : Option CuJob :=
  s.cu.queue.foldl (fun best j => match best with
    | none => some j
    | some b => if keyBefore (s.cuKey j) (s.cuKey b) then some j else some b) none

/-- The SOURCE code of a job's owner. -/
def cuSource (owner : Nat) : Nat := if owner < 32 then owner else if owner = 32 then 0x40 else if owner = 33 then 0x41 else 0x42

/-- Unit `u` starts or resumes a job. -/
def State.cuStart (s : State) (u : Nat) (j : CuJob) : State :=
  let s := ((s.setUnit u (some j)).put (cuState_STATE u) 1).put (cuState_SOURCE u) (cuSource j.owner)
  (s.put (cuRun_VALUE u) j.run).put (cuBytes_COUNT u) (min j.bytes 0xFFFFFFFF)

/-- Whether unit `u` can take a queued job (R426, R430). -/
def State.cuFree (s : State) (u : Nat) : Bool :=
  (s.cuUnit u).isNone && !s.flag (cuCtrl_DIRECT u) && s.blockUp (36 + u) (32 + u)

/-- A free pool unit takes the next job (R427). -/
def State.cuTake (s : State) (u : Nat) (j : CuJob) : State :=
  let s := s.modCu fun c => { c with
    queue := c.queue.erase j, lastServed := if j.owner < 32 then j.owner else c.lastServed }
  s.cuStart u j

/-- CU_DISPATCH (R427). -/
def execCuDispatch (unit : Fin 8) (s : State) : Host.Outcome State Fault Refusal :=
  .next (match s.cuNext with
    | some j => if s.cuFree unit.val then s.cuTake unit.val j else s
    | none => s)

/-! ### Descriptors (R423 to R425) -/

/-- Pool time is charged to a tenant's job. -/
def State.cuCharge (s : State) (j : CuJob) (time : Nat) : State :=
  if j.owner < 32 then s.modCu fun c => { c with used := modAt c.used j.owner (· + time) } else s

/-- The address of the array entry a job reads next. -/
def CuJob.entry (j : CuJob) : Nat := j.desc + 16 * j.index

/-- The range of the next descriptor, if it and its array entry meet R423; else the address at fault and whether it lies
outside the permitted memory. -/
def State.cuDescriptor (s : State) (j : CuJob) : Except (Nat × Bool) (Nat × Nat) :=
  if !s.cuMay j j.entry 16 then .error (j.entry, true)
  else
    let src := s.loadNat j.entry 8
    let len := s.loadNat (j.entry + 8) 4
    if j.entry % 16 ≠ 0 ∨ s.loadNat (j.entry + 12) 4 ≠ 0 ∨ len = 0 ∨ 16777216 < len then .error (j.entry, false)
    else if !s.cuMay j src len then .error (src, true)
    else .ok (src, len)

/-- The running job's descriptor passes through the unit; what uncorrectable data gives is a free value (R425,
log entry 1). -/
def State.cuProcess (s : State) (u : Nat) (j : CuJob) (src len : Nat) (ue : Bool) : State :=
  let alg := crcAlg j.alg
  let run := if ue then s.free.toNat % 2 ^ alg.width else crcRun alg j.run (s.load src len)
  let s := s.when ue State.freeUsed
  let j := { j with index := j.index + 1, run := run, bytes := j.bytes + len, ue := j.ue || ue }
  let foldTime := if j.index = 1 ∧ j.fold ∧ !j.cont then 8 else 0
  let s := (s.cuCharge j (len + 800 + foldTime)).setUnit u (some j)
  (s.put (cuRun_VALUE u) run).put (cuBytes_COUNT u) (min j.bytes 0xFFFFFFFF)

/-- Whether a running job gives way: a job of rank 1 or 2 waits and its tenant is over its share (R427). -/
def State.cuYields (s : State) (j : CuJob) : Bool :=
  decide (j.owner < 32 ∧ j.index < j.count) && !s.underShare j.owner && s.cu.queue.any fun w => s.cuRank w.owner ≤ 2

/-- A running job is requeued at its place with its RUN, and the unit takes the waiting job (R427). -/
def State.cuYield (s : State) (u : Nat) (j : CuJob) : State :=
  match s.cuNext with
  | some w => ((s.setUnit u none).cuTake u w).modCu fun c => { c with queue := c.queue ++ [j] }
  | none => s

/-- CU_DESCRIPTOR_COMPLETE: the running job ends a descriptor, or stops at one that fails (R425 to R428). -/
def execCuDescriptorComplete (unit : Fin 8) (ue : Bool) (s : State) : Host.Outcome State Fault Refusal :=
  .next (match s.cuUnit unit.val with
    | none => s
    | some j =>
      if j.stop.isSome || decide (j.count ≤ j.index) then s
      else match s.cuDescriptor j with
        | .error (a, outside) =>
          let s := s.setUnit unit.val (some { j with stop := some (1 + j.index) })
          s.when outside fun s => s.violation (j.agent unit.val) a false
        | .ok (src, len) =>
          let s := s.cuProcess unit.val j src len ue
          match s.cuUnit unit.val with
          | some j => if s.cuYields j then s.cuYield unit.val j else s
          | none => s)

/-! ### Completion (R428) -/

/-- The completion record (R428). -/
def CuJob.completion (j : CuJob) (time : W64) : List Byte :=
  let status := if j.stop.isSome then stNoResource else stDone
  leBytes 2 status ++ leBytes 2 (j.stop.getD (if j.ue then 1 else 0)) ++ leBytes 4 (min j.bytes 0xFFFFFFFF)
    ++ leBytes 8 (j.run ^^^ (crcAlg j.alg).xorOut) ++ leBytes 8 j.run ++ leBytes 8 time.toNat

/-- The AGENT_ID of the channel that writes a ring's records (R41). -/
def channelAgent (ring : Nat) : Nat := if ring < 32 then 0x6000 + ring else if ring = 32 then 0xE020 else 0x6030

/-- The completion record of a queued job is written, unless its issuer was reset since (R56, R428). -/
def State.cuRecord (s : State) (j : CuJob) : State :=
  if j.owner = 34 ∨ (j.owner < 32 && s.ringGen j.owner != j.gen) then s
  else
    let s := if s.cuMay j j.record 32 then s.store j.record (j.completion s.now.word)
      else s.violation (channelAgent j.owner) j.record true
    s.raise 448 (cuSource j.owner * 256 + (if j.stop.isSome then stNoResource else stDone))

/-- CU_JOB_COMPLETE: the job of a unit is complete or has stopped. -/
def execCuJobComplete (unit : Fin 8) (s : State) : Host.Outcome State Fault Refusal :=
  .next (match s.cuUnit unit.val with
    | none => s
    | some j =>
      let u := unit.val
      if j.stop.isNone && decide (j.index < j.count) then s
      else
        let s := (s.setUnit u none).put (cuState_STATE u) (if j.stop.isSome then 3 else 2)
        let s := s.put (cuState_DETAIL u) (j.stop.getD (if j.ue then 1 else 0))
        let s := s.when j.stop.isNone fun s => s.put (cuResult_VALUE u) (j.run ^^^ (crcAlg j.alg).xorOut)
        let s := s.when j.ue fun s => s.raise 450 u
        let s := s.when j.stop.isSome fun s => s.raise 449 (u * 256 + cuSource j.owner)
        s.cuRecord j)

/-! ### Resets (R429) -/

/-- A unit stops at once without a record; a direct-mode unit keeps the RUN of its last whole 8-byte step, which lies
somewhere between two descriptors: a free value (log entry 1). -/
def State.cuHalt (s : State) (u : Nat) : State :=
  match s.cuUnit u with
  | none => s
  | some j =>
    let s := (s.setUnit u none).put (cuState_STATE u) 0
    if j.owner = 34 then (s.put (cuRun_VALUE u) (s.free.toNat % 2 ^ (crcAlg j.alg).width)).freeUsed else s

/-- A tenant's reset drops its queued jobs and stops its running ones (R429). -/
def State.cuResetFunction (s : State) (f : Nat) : State :=
  let s := s.modCu fun c => { c with queue := c.queue.filter fun j => j.owner != f }
  s.each (List.range 8) fun s u => match s.cuUnit u with
    | some j => if j.owner = f then s.cuHalt u else s
    | none => s

/-- A warm reset drops every queued job and stops every unit (R429). -/
def State.cuResetWarm (s : State) : State :=
  let s := s.modCu fun c => { c with queue := [] }
  s.each (List.range 8) fun s u => (s.cuHalt u).put (cuState_STATE u) 0

/-- At a master frame start the pool time of the frame that ends is kept for CU_QUERY, and the count restarts (R427). -/
def State.cuFrameStart (s : State) : State :=
  s.modCu fun c => { c with usedLast := c.used, used := List.replicate 32 0 }

/-! ### Direct use (R424, R426, R431) -/

/-- The RUN value a job starts from, and the bytes its fold word counts (R424). -/
def cuInitial (alg : Nat) (fold cont : Bool) (foldWord run : Nat) : Nat × Nat :=
  let a := crcAlg alg
  if cont then (run % 2 ^ a.width, 0)
  else if fold then (crcRun a a.init (leBytes 8 foldWord), 8) else (a.init, 0)

/-- A direct job starts with the unit's registers. -/
def State.cuGo (s : State) (u : Nat) : State :=
  let alg := s.get (cuCtrl_ALG u)
  let start := cuInitial alg (s.flag (cuCtrl_FOLD_EN u)) (s.flag (cuCtrl_CONT u)) (s.get (cuFold_VALUE u)) (s.get (cuRun_VALUE u))
  s.cuStart u
    { number := 0, owner := 34, gen := 0, alg := alg, fold := s.flag (cuCtrl_FOLD_EN u), cont := s.flag (cuCtrl_CONT u),
      foldWord := s.get (cuFold_VALUE u), desc := s.get (cuDesc_ADDR u) * 16, count := s.get (cuCount_COUNT u), index := 0,
      run := start.1, bytes := start.2, record := 0, ue := false, stop := none, arrived := 0 }

/-- CU_DIRECT_GO: a write of CU_CTRL_n. A write that changes DIRECT while the unit runs, or one that would start a job with
CONT and FOLD_EN both set, ends in a bus error; a write that changes only GO is not recorded (R424, R426, R431, R437). -/
def execCuDirectGo (who : Requester) (unit : Fin 8) (value : W32) (s : State) : Host.Outcome State Fault Refusal :=
  .next (
    let u := unit.val
    let old := (s.rd (cuCtrl u)).toNat
    let new := value.toNat &&& 0x11E
    let running := (s.cuUnit u).isSome
    let starts := value.toNat % 2 == 1 && new / 256 == 1 && !running
    if !s.mayWrite who then s.emit (.busError (agentOf who) (cuCtrl u).addr)
    else if worldOf who = .opened then s.refuseWrite who (cuCtrl u).addr value.toNat old stWorld
    else if running && new / 256 != old / 256 then s.emit (.busError (agentOf who) (cuCtrl u).addr)
    else if starts && new / 8 % 4 == 3 then s.emit (.busError (agentOf who) (cuCtrl u).addr)
    else if new != old && s.writeBarred who (cuCtrl u).addr then s.emit (.busError (agentOf who) (cuCtrl u).addr)
    else
      let s := s.wr (cuCtrl u) (BitVec.ofNat 64 new)
      let s := s.when (new != old) fun s => s.noteWrite who (cuCtrl u).addr value.toNat old
      if starts then s.cuGo u else s)

/-! ### Opcodes (R432) -/

/-- The first payload byte of CU_JOB that is out of range. -/
def cuJobFault (s : State) (o : Origin) : Option Nat :=
  if 3 < o.u8 0 then some 0
  else if 2 < o.u8 1 then some 1
  else if o.u32 4 = 0 ∨ 4096 < o.u32 4 then some 4
  else if o.u64 32 % 32 ≠ 0 ∨ (o.ring < 32 && !s.inRange o.ring (o.u64 32) 32) then some 32
  else none

/-- The checks of CU_JOB (R424, R427, R432). -/
def cuJobCheck (s : State) (o : Origin) : Option (Nat × Nat) :=
  match cuJobFault s o with
  | some b => some (stNoResource, 1 + b)
  | none =>
    if o.ring < 32 ∧ 4 ≤ (s.cu.queue.filter fun j => j.owner == o.ring).length then some (stNoResource, 0xEF)
    else if 32 ≤ s.cu.queue.length then some (stNoResource, 0xEE)
    else none

/-- The job of a CU_JOB packet. -/
def State.cuNewJob (s : State) (o : Origin) : CuJob :=
  let fold := o.u8 1 % 2 == 1
  let cont := o.u8 1 / 2 == 1
  let start := cuInitial (o.u8 0) fold cont (o.u64 16) (o.u64 24)
  { number := s.cu.nextNumber, owner := o.ring, gen := s.ringGen o.ring, alg := o.u8 0, fold := fold, cont := cont,
    foldWord := o.u64 16, desc := o.u64 8, count := o.u32 4, index := 0, run := start.1, bytes := start.2,
    record := o.u64 32, ue := false, stop := none, arrived := s.cu.arrivals }

/-- The target of a check-unit opcode: the issuing function's number, or 0 from an internal ring (R432). -/
def cuTarget (_ : State) (r t : Nat) : Bool := r == t

def specCuJob : OpSpec :=
  { opcode := 0x0E01, lens := len 48, zero := fun _ => zeroMask [(2, 3), (40, 47)] [], modes := [2, 3, 4, 6, 7],
    issuer := .mailboxes, names := fun t => t < 32, owns := cuTarget, check := cuJobCheck,
    run := fun s o =>
      let j := s.cuNewJob o
      let s := s.modCu fun c => { c with
        queue := c.queue ++ [j], nextNumber := (c.nextNumber + 1) % 0x10000, arrivals := c.arrivals + 1 }
      (s, .answer (done j.number 0)) }

def specCuQuery : OpSpec :=
  { opcode := 0x0E02, lens := len 0, modes := allModes, issuer := .mailboxes, query := true, names := fun t => t < 32,
    owns := cuTarget,
    run := fun s o =>
      let queued := (s.cu.queue.filter fun j => j.owner == o.ring).length
      let running := ((List.range 8).filter fun u => (s.cuUnit u).any fun j => j.owner == o.ring).length
      (s, .answer (done (queued + 256 * running) (s.cu.usedLast.getD o.ring 0 / 8000))) }

def execCuJob (p : Packet) (s : State) : Host.Outcome State Fault Refusal := packetStep specCuJob p s
def execCuQuery (p : Packet) (s : State) : Host.Outcome State Fault Refusal := packetStep specCuQuery p s

end Sys2Proof.Machine
end

