-- ==== Sys2Proof/Machine/Ports.lean ====
section
/-! DEFINITION. Guest ports and functions (R37 to R71): links, doorbells, BAR 2, function resets, tenants and dual homing. -/
namespace Sys2Proof.Machine

/-! ### Ports -/

/-- A host port changes. -/
def State.modHostPort (s : State) (p : Nat) (f : PortState → PortState) : State := { s with ports := modAt s.ports p f }

/-- The functions of a port. -/
def portFns (p : Nat) : List Nat := (List.range 16).map (16 * p + ·)

/-- Whether a port counts as lost (R66). -/
def State.portLost (s : State) (p : Nat) : Bool := s.flag (hpLink_LOST p)

/-! ### Function resets (R55 to R60) -/

/-- Work a function has under way that its reset discards: transactions of them are discarded, in a number the spec does not
state (R56, log entry 1). -/
def State.discardWork (s : State) (f : Nat) : State :=
  let exports := s.peat.exports.filter fun e => e.2.2.2.ring == f
  let embers := s.display.emberLoads.filter fun e => e.2.2.2.ring == f
  let loads := s.power.loads.filter fun l => l.origin.ring == f
  let origins := exports.map (·.2.2.2) ++ embers.map (·.2.2.2) ++ loads.map (·.origin)
  if origins.isEmpty then s
  else
    let s : State := { s with
      peat := { s.peat with exports := s.peat.exports.filter fun e => e.2.2.2.ring != f },
      display := { s.display with emberLoads := s.display.emberLoads.filter fun e => e.2.2.2.ring != f },
      power := { s.power with loads := s.power.loads.filter fun l => l.origin.ring != f } }
    (s.each origins State.dropReply).freeUsed.bumpBy (hpDiscardCnt_COUNT (portOf f)) (s.free.toNat % 2 ^ 32)

/-- The generation increments, passing from 255 to 1, and what remains of the function's work is squashed (R56, R59, R60). -/
def State.squash (s : State) (f : Nat) : State :=
  let gen := s.get (fnStatus_GEN f)
  let s := s.putStatus (fnStatus_GEN f) f (if gen = 255 then 1 else gen + 1)
  let s := (s.gfxResetFunction f).discardWork f
  s.modFn f fun x => { x with reset := x.reset.map fun r => { r with phase := .running } }

/-- A function reset begins, in the grain of its decision: doorbells, packets and caravans not yet sampled are dropped, mailboxes
are flushed, locks and deliveries released; a tenant of class L drains, any other is squashed at once (R59, R60). -/
def State.decideReset (s : State) (f : Nat) : State :=
  match (s.fn f).reset with
  | none => s
  | some r =>
    let drains := (s.tenant f).any fun t => t.cls == 2
    let s := (s.raise 133 (f * 256 + r.source)).putStatus (fnStatus_RST f) f 1
    let s : State := { s with pkt := { s.pkt with
      tails := s.pkt.tails.set f (s.get (fnCmdHead_HEAD f)), bells := s.pkt.bells.set f [] } }
    let s := ((s.nextEpoch f).dropCaravans f).mbqResetFunction f
    let s := (((s.stopDelivery f).cuResetFunction f).audResetFunction f).hapResetFunction f
    if drains then s.modFn f fun x => { x with reset := some { r with phase := .draining } } else s.squash f

/-- A reset of function `f` is requested, with the packets to be answered at its end and the TENANT_DESTROY that follows it. A
request that meets a reset in progress or waiting is merged into it; one within 16 µs of the last waits (R57, R58). -/
def State.requestReset (s : State) (f source : Nat) (replies : List Origin) (destroy : Option Origin) : State :=
  match (s.fn f).reset with
  | some r =>
    s.modFn f fun x => { x with reset := some { r with
      merged := r.merged + 1, replies := r.replies ++ replies, destroy := r.destroy <|> destroy } }
  | none =>
    let s' := s.modFn f fun x => { x with reset := some ⟨.waiting, source, 0, replies, destroy⟩ }
    if (s.fn f).spacing then s' else s'.decideReset f

/-- DRAIN_END: the drain of a class L function ends, and what remains is squashed (R60). -/
def execDrainEnd (f : Fin 32) (s : State) : Host.Outcome State Fault Refusal :=
  .next (match (s.fn f.val).reset with
    | some r => if r.phase == .draining then s.squash f.val else s
    | none => s)

/-- RESET_SPACING_END: 16 µs after the last reset of a function completed, a reset that waits begins (R57). -/
def execResetSpacingEnd (f : Fin 32) (s : State) : Host.Outcome State Fault Refusal :=
  .next ((s.modFn f.val fun x => { x with spacing := false }).decideReset f.val)

/-- TAG_TIMEOUT: an internal DMA tag of a function passes 1 ms (R57). -/
def execTagTimeout (f : Fin 32) (s : State) : Host.Outcome State Fault Refusal :=
  .next ((s.bump (hpDiscardCnt_COUNT (portOf f.val))).raise 136 f.val)

/-! ### Giving a tenant back (R50) -/

/-- The units of the MBQ that are a function's pass to another owner code; in every mailbox's ALLOW mask the bit of the function
moves with them when they pass to a function (R342). -/
def State.passUnits (s : State) (f heir : Nat) : State :=
  let s := s.each (List.range 64) fun s m =>
    let s := if s.get (mbqMbCfg_RX m) = f then s.put (mbqMbCfg_RX m) heir else s
    if heir < 32 ∧ s.bit (mbqMbAllow_FUNC m) f then (s.putBitAt (mbqMbAllow_FUNC m) f false).putBitAt (mbqMbAllow_FUNC m) heir true
    else s
  let s := s.each (List.range 32) fun s q => if s.get (mbqQCfg_OWNER q) = f then s.put (mbqQCfg_OWNER q) heir else s
  s.each (List.range 64) fun s l => if s.get (mbqLockPeek_OWNER l) = f then s.put (mbqLockPeek_OWNER l) heir else s

/-- The primary whose tenant acts on function `f`, if one does. -/
def State.primaryOf (s : State) (f : Nat) : Option Nat :=
  (List.range 32).find? fun q => s.flag (hpHome_MOVED (portOf q) (q % 16)) && s.get (hpHome_ALT (portOf q) (q % 16)) == f

/-- The home register of function `q` returns to no alternate. -/
def State.clearHome (s : State) (q : Nat) : State := s.cold (hpHome (portOf q) (q % 16))

/-- The clear of a destroyed tenant's DRAM has ended: its pages are open, its range is free, and TENANT_DESTROY is answered. -/
def State.clearDone (s : State) (f : Nat) : State :=
  match (s.fn f).clearing with
  | none => s
  | some (base, size, origin) =>
    let s := s.zeroMem (dramBase + base * mib2) (dramBase + (base + size) * mib2)
    let s := (s.when (size != 0) fun s => s.setOwner base size 1).cold (worldFnRange f)
    let s := s.modFn f fun x => { x with clearing := none }
    match origin with
    | some o => s.settle o (done 0 0)
    | none => s

/-- A tenant is gone: every pooled resource returns to its pool, its pipes dark at once (R142); its DRAM is cleared first. -/
def State.giveBack (s : State) (f : Nat) (origin : Option Origin) : State :=
  match s.tenant f with
  | none => s
  | some t =>
    let s := s.each t.pipes State.pipeDark
    let s := s.passUnits f 63
    let s := s.clearHome ((s.primaryOf f).getD f)
    let base := s.get (worldFnRange_BASE f)
    let size := s.get (worldFnRange_SIZE f)
    let s := s.modFn f fun x => { x with tenant := none, clearing := some (base, size, origin), returning := false }
    let s := ((s.putStatus (fnStatus_TENANT f) f 0).putStatus (fnStatus_CLASS f) f 0).putStatus (fnStatus_ACTING f) f 0
    if size = 0 then s.clearDone f else s

/-- DRAM_CLEAR_COMPLETE: the DRAM of a destroyed tenant is zero (R50). -/
def execDramClearComplete (f : Fin 32) (s : State) : Host.Outcome State Fault Refusal := .next (s.clearDone f.val)

/-- The ring registers of a function, its packet sequence and its send ports return to their Warm values; FN_BAR2_OFF and the
MSI-X table are kept (R59 step 5). -/
def State.ringsWarm (s : State) (f : Nat) : State :=
  let s := s.each [fnCmdBase f, fnCmdSize f, fnCmdHead f, fnRplBase f, fnRplSize f, fnRplTail f, fnRplHead f, fnMirrorAddr f,
    pktSeq f] State.cold
  let s := (s.putBitAt pktSeqSet_SET f false).mbqResetDone f
  { s with pkt := { s.pkt with
    tails := s.pkt.tails.set f 0, bells := s.pkt.bells.set f [], stopped := s.pkt.stopped.set f false } }

/-- FUNC_RESET_COMPLETE: the last two steps of R59. -/
def execFuncResetComplete (f : Fin 32) (s : State) : Host.Outcome State Fault Refusal :=
  .next (match (s.fn f.val).reset with
    | none => s
    | some r =>
      if r.phase != .running then s
      else
        let s := (s.ringsWarm f.val).modFn f.val fun x => { x with reset := none, spacing := true }
        let s := (s.putStatus (fnStatus_RST f.val) f.val 0).raise 134 (f.val * 256 + min r.merged 255)
        let s := s.each r.replies fun s o => s.settle o (done 0 0)
        match r.destroy with
        | some o => s.giveBack f.val (some o)
        | none => s)

/-! ### Links (R37, R39, R55) -/

/-- Every function of a port is reset, and VF Enable clears with the link's configuration. -/
def State.resetPort (s : State) (p source : Nat) : State :=
  (s.modHostPort p fun x => { x with vfEnable := false, numVfs := 0 }).each (portFns p) fun s f => s.requestReset f source [] none

/-- LINK_UP: a link has trained (R37). -/
def State.regainPort (s : State) (p : Nat) : State :=
  if s.portLost p && !(s.hostPort p).linkOut && (!s.flag (hpCfg_HB_EN p) || !(s.hostPort p).heartbeatOut) then
    (s.put (hpLink_LOST p) 0).each (portFns (1 - p)) fun s f => s.putStatus (fnStatus_PORT_LOST f) f 0
  else s

def execLinkUp (port : Fin 2) (speed width : Fin 5) (s : State) : Host.Outcome State Fault Refusal :=
  .next (
    let p := port.val
    if !s.portPowered p || s.flag (hpLink_DL_UP p) || speed.val = 0 || !([1, 2, 4].contains width.val) then s
    else
      let d := p * 256 + speed.val * 16 + width.val
      let s := ((s.put (hpLink_SPEED p) speed.val).put (hpLink_WIDTH p) width.val).put (hpLink_DL_UP p) 1
      let s := (s.modHostPort p fun x => { x with linkOut := false }).raise 128 d
      let s := s.when (speed.val != 4 || width.val != 4) fun s => s.raise 130 d
      s.regainPort p)

/-- A port's data link layer goes down: all its functions are reset (R55). -/
def State.dropLink (s : State) (p : Nat) : State :=
  if s.flag (hpLink_DL_UP p) then
    let s := ((s.put (hpLink_SPEED p) 0).put (hpLink_WIDTH p) 0).put (hpLink_DL_UP p) 0
    ((s.modHostPort p fun x => { x with linkOut := true }).raise 129 p).resetPort p 3
  else s

/-- LINK_DOWN (R55, R71). -/
def execLinkDown (port : Fin 2) (s : State) : Host.Outcome State Fault Refusal := .next (s.dropLink port.val)

/-- HOT_RESET: all 16 functions of the port are reset; the link retrains by events of its own (R55). -/
def execHotReset (port : Fin 2) (s : State) : Host.Outcome State Fault Refusal :=
  .next (if s.flag (hpLink_DL_UP port.val) then s.resetPort port.val 3 else s)

/-- FUNCTION_LEVEL_RESET: of a virtual function alone, or of a physical function with all virtual ones of its port (R55). -/
def execFunctionLevelReset (f : Fin 32) (s : State) : Host.Outcome State Fault Refusal :=
  .next (if !s.onLink f.val then s
    else if f.val % 16 = 0 then s.resetPort (portOf f.val) 1
    else s.requestReset f.val 1 [] none)

/-- VF_ENABLE_CHANGE: the virtual functions that leave the link are reset (R39, R55). -/
def execVfEnableChange (port : Fin 2) (enable : Bool) (numVfs : Fin 16) (s : State) : Host.Outcome State Fault Refusal :=
  .next (
    let p := port.val
    if !s.barUp (16 * p) then s
    else
      let x := s.hostPort p
      let leaving := (List.range 16).filter fun i =>
        decide (0 < i) && x.vfEnable && decide (i ≤ x.numVfs) && !(enable && decide (i ≤ numVfs.val))
      let s := s.modHostPort p fun x => { x with vfEnable := enable, numVfs := numVfs.val }
      s.each leaving fun s i => s.requestReset (16 * p + i) 2 [] none)

/-! ### Loss of a port (R66, R69) -/

/-- A port is lost: the other port's functions show it (R67, R71). -/
def State.losePort (s : State) (p cause : Nat) : State :=
  if s.portLost p then s
  else
    let s := (s.put (hpLink_LOST p) 1).modHostPort p fun x => { x with heartbeatOut := true }
    let s := s.each (portFns (1 - p)) fun s f => s.putStatus (fnStatus_PORT_LOST f) f 1
    s.raise 131 (p * 256 + cause)

/-- PORT_LINK_LOSS_TIMEOUT: a link has been out of L0 for HOME_LOSS_MS (R66). -/
def execPortLinkLossTimeout (port : Fin 2) (s : State) : Host.Outcome State Fault Refusal :=
  .next (if (s.hostPort port.val).linkOut then s.losePort port.val 1 else s)

/-- HEARTBEAT_TIMEOUT: no heartbeat for HEARTBEAT_MS (R66). -/
def execHeartbeatTimeout (port : Fin 2) (s : State) : Host.Outcome State Fault Refusal :=
  .next (if s.flag (hpCfg_HB_EN port.val) then s.losePort port.val 2 else s)

/-- FN_HEARTBEAT_WRITE: on a physical function it restarts the port's timer, which may regain the port (R66, R69). -/
def execFnHeartbeatWrite (f : Fin 32) (_value : W32) (s : State) : Host.Outcome State Fault Refusal :=
  .next (s.barWrite f.val fun s =>
    if f.val % 16 = 0 then
      (s.modHostPort (portOf f.val) fun x => { x with heartbeatOut := false }).regainPort (portOf f.val)
    else s)

/-! ### Doorbells and BAR 2 (R43, R45) -/

/-- A doorbell write to a ring: a bad one is discarded and reported, a good one moves the tail (R43, R97). -/
def State.ringBell (s : State) (r tail : Nat) : State :=
  if !s.flag (ringEn r) || tail % 8 ≠ 0 || s.ringSize r ≤ tail then s.raise 138 r
  else { s with pkt := { s.pkt with
    tails := s.pkt.tails.set r tail, bells := modAt s.pkt.bells r (· ++ [(tail, s.now)]) } }

/-- FN_DOORBELL_WRITE: ignored while the function or the module is being reset (R58, R64). -/
def execFnDoorbellWrite (f : Fin 32) (tail : W32) (s : State) : Host.Outcome State Fault Refusal :=
  .next (s.barWrite f.val fun s => if s.resetting f.val then s else s.ringBell f.val (tail.toNat % 2 ^ 20))

/-- RING_READ_RESUME: reply space has returned (R76). -/
def execRingReadResume (ring : Fin 34) (s : State) : Host.Outcome State Fault Refusal :=
  .next (if s.replyRoom ring.val then { s with pkt := { s.pkt with stopped := s.pkt.stopped.set ring.val false } } else s)

/-- BAR2_ACCESS: a host access to tenant memory. `ecc` is what the check bytes of the line read show: uncorrectable data is
carried poisoned (R45, R64, R375, R376). -/
def execBar2Access (f : Fin 32) (offset : BitVec 26) (data : List Byte) (len : Fin 4097) (write : Bool) (ecc : Fin 4)
    (s : State) : Host.Outcome State Fault Refusal :=
  .next (
    let n := if write then data.length else len.val
    if !s.onLink f.val || !(s.tenant f.val).any (·.bar2) then s
    else if s.power.warm.isSome then (if write then s else s.emit (.readData f.val (List.replicate n 0xFF)))
    else
      let at_ := s.get (fnBar2Off_OFF f.val) * mib2 + offset.toNat
      let a := (s.range f.val).1 + at_
      if (s.range f.val).2 < at_ + n ∨ 2 ^ 26 < offset.toNat + n then (s.emit (.completerAbort f.val)).raise 137 f.val
      else if !s.mayAccess (.function f.val) a n then (s.emit (.completerAbort f.val)).violation f.val a write
      else if write then s.store a data
      else
        let s := s.syndrome (a / 64) ecc.val f.val
        s.emit (if 2 ≤ ecc.val then .poisoned f.val n else .readData f.val (s.load a n)))

/-! ### Tenants (R46 to R51) -/

/-- Whether a packet's ring manages a function: the physical function of its port, or of the other port while that port is
lost; none while both are lost (R51, R69). -/
def State.manages (s : State) (r f : Nat) : Bool :=
  r % 16 == 0 && !(s.portLost 0 && s.portLost 1) && (portOf r == portOf f || s.portLost (portOf f))

/-- Whether a target carries a tenant that is not being destroyed (R51). -/
def State.liveTenant (s : State) (f : Nat) : Bool :=
  (s.tenant f).isSome && !(s.fn f).reset.any fun r => r.destroy.isSome

/-- The check of R51 for opcodes that need a tenant; the sealed ring passes step 12 on any function. -/
def needsTenant (s : State) (o : Origin) : Option (Nat × Nat) :=
  if s.liveTenant o.tgt then none else some (stNotOwner, o.ring)

/-- The units of a kind that tenants hold. -/
def State.grantedUnits (s : State) (sel : Tenant → List Nat) : List Nat :=
  (List.range 32).flatMap fun f => ((s.tenant f).map sel).getD []

/-- The sum of what tenants hold of a kind. -/
def State.grantedSum (s : State) (sel : Tenant → Nat) : Nat :=
  ((List.range 32).map fun f => ((s.tenant f).map sel).getD 0).sum

/-- The units of a pool that are free, in ascending order. -/
def State.freeUnits (s : State) (sel : Tenant → List Nat) (pool : Nat) : List Nat :=
  let used := s.grantedUnits sel
  (List.range pool).filter fun u => !used.contains u

/-- The bits set in a mask byte. -/
def maskUnits (m : Nat) : List Nat := (List.range 8).filter fun i => m / 2 ^ i % 2 == 1

/-- The lowest start at which a run of `n` fits below `top` among occupied runs (start, length), from `low` upwards. -/
def lowestRun (occupied : List (Nat × Nat)) (low top n : Nat) : Option Nat :=
  let fits (p : Nat) : Bool :=
    decide (low ≤ p ∧ p + n ≤ top) && occupied.all fun r => decide (p + n ≤ r.1 ∨ r.1 + r.2 ≤ p)
  ((low :: occupied.map fun r => r.1 + r.2).filter fits).foldl (fun best p => match best with
    | none => some p
    | some b => some (min b p)) none

/-- Where a tenant range of `n` units of 2 MiB is placed: the lowest free run at or above W (R398). -/
def State.placeRange (s : State) (n : Nat) : Option Nat :=
  lowestRun ((List.range 32).map fun f => (s.get (worldFnRange_BASE f), s.get (worldFnRange_SIZE f)))
    (s.get worldWmark_W) (s.usable / mib2) n

/-- The run of contexts granted: the lowest free run of `n` (R209). -/
def State.placeContexts (s : State) (n : Nat) : Option Nat :=
  lowestRun ((s.grantedUnits (·.contexts)).map fun c => (c, 1)) 1 64 n

/-- The Ember store bytes granted: the lowest free run of `n` KiB. -/
def State.placeEmber (s : State) (n : Nat) : Option Nat :=
  lowestRun ((List.range 32).map fun f =>
    ((s.tenant f).map fun t => (t.emberBase / 1024, t.emberBytes / 1024)).getD (0, 0)) 0 8192 n

/-- The MBQ units of a kind that TENANT_CREATE may grant: not granted, and still the sealed world's (R342). -/
def State.sealedUnits (s : State) (owner : Nat → RF) (sel : Tenant → List Nat) (pool : Nat) : List Nat :=
  (s.freeUnits sel pool).filter fun u => s.get (owner u) == 63

/-- The row of R47's table for a resource byte: whether a request of class `c` fits its class and the free pool; a named unit
that is owned is a conflict (R46 to R48). -/
def State.resourceFault (s : State) (o : Origin) (byte : Nat) : Option (Nat × Nat) :=
  let c := o.u8 0
  let v := o.u8 byte
  let heads := (maskUnits (o.u8 9)).length
  let count (small medium large free : Nat) : Option (Nat × Nat) :=
    if (if c = 0 then small else if c = 1 then medium else large) < v ∨ free < v then some (stNoResource, 1 + byte) else none
  let named (lowest : Nat) (sel : Tenant → List Nat) : Option (Nat × Nat) :=
    if c < lowest ∧ v ≠ 0 then some (stNoResource, 1 + byte)
    else if (maskUnits v).any fun u => (s.grantedUnits sel).contains u then some (stConflict, 1 + byte) else none
  match byte with
  | 8 => (count 4 16 63 (s.freeUnits (·.contexts) 63).length).orElse fun _ =>
      if v ≠ 0 ∧ (s.placeContexts v).isNone then some (stNoResource, 9) else none
  | 9 => named 2 (·.heads)
  | 10 => count 0 0 (2 * heads) (16 - s.grantedSum (·.embers))
  | 11 => count 0 0 (12 * heads) (s.freeUnits (·.pipes) 48).length
  | 12 => count 0 0 4 (s.freeUnits (·.wbs) 4).length
  | 13 => count 2 8 32 (s.sealedUnits mbqQCfg_OWNER (·.queues) 32).length
  | 14 => count 8 8 8 (s.sealedUnits mbqMbCfg_RX (·.mailboxes) 64).length
  | 15 => count 4 16 64 (s.sealedUnits mbqLockPeek_OWNER (·.locks) 64).length
  | 16 => if v < 16 then named 1 (·.touches) else some (stNoResource, 17)
  | 17 => named 1 (·.haptics)
  | 18 => count 2 8 32 (s.freeUnits (·.streams) 32).length
  | 19 => count 0 8 8 (s.freeUnits (·.tones) 8).length
  | _ => none

/-- The checks of TENANT_CREATE, in payload order (R46 to R48, R209, R398). -/
def createCheck (s : State) (o : Origin) : Option (Nat × Nat) :=
  let c := o.u8 0
  let units := o.u32 4
  if (s.tenant o.tgt).isSome || (s.fn o.tgt).clearing.isSome then some (stConflict, 0)
  else if 2 < c then some (stNoResource, 1)
  else if (c = 0 ∧ 512 < units) ∨ (c = 1 ∧ 4096 < units) ∨ (units ≠ 0 ∧ (s.placeRange units).isNone) then
    some (stNoResource, 5)
  else match ((List.range 12).map (8 + ·)).findSome? (s.resourceFault o) with
    | some f => some f
    | none =>
      if (c < 2 ∧ o.u32 20 ≠ 0) ∨ 8192 < o.u32 20 ∨ (s.placeEmber (o.u32 20)).isNone then some (stNoResource, 21)
      else if o.u8 24 = 0 ∨ 32 < o.u8 24 then some (stNoResource, 25)
      else none

/-- The tenant a TENANT_CREATE makes: units named in masks as asked, all others the lowest free ones (R142, R209, R342). -/
def State.newTenant (s : State) (o : Origin) : Tenant :=
  let first := (s.placeContexts (o.u8 8)).getD 1
  { cls := o.u8 0, bar2 := o.u8 1 % 2 == 1, contexts := (List.range (o.u8 8)).map (first + ·), heads := maskUnits (o.u8 9),
    embers := o.u8 10, pipes := (s.freeUnits (·.pipes) 48).take (o.u8 11), wbs := (s.freeUnits (·.wbs) 4).take (o.u8 12),
    queues := (s.sealedUnits mbqQCfg_OWNER (·.queues) 32).take (o.u8 13),
    mailboxes := (s.sealedUnits mbqMbCfg_RX (·.mailboxes) 64).take (o.u8 14),
    locks := (s.sealedUnits mbqLockPeek_OWNER (·.locks) 64).take (o.u8 15), touches := maskUnits (o.u8 16),
    haptics := maskUnits (o.u8 17), streams := (s.freeUnits (·.streams) 32).take (o.u8 18),
    tones := (s.freeUnits (·.tones) 8).take (o.u8 19),
    emberBase := if o.u32 20 = 0 then 0 else (s.placeEmber (o.u32 20)).getD 0 * 1024, emberBytes := o.u32 20 * 1024,
    vectors := o.u8 24, shares := [0, 0, 0, 0], nextShares := [0, 0, 0, 0] }

/-- TENANT_CREATE takes effect (R48, R56, R398, R399). -/
def createRun (s : State) (o : Origin) : State × Effect :=
  let f := o.tgt
  let t := s.newTenant o
  let units := o.u32 4
  let base := if units = 0 then 0 else (s.placeRange units).getD 0
  let s := (s.put (worldFnRange_BASE f) base).put (worldFnRange_SIZE f) units
  let s := s.when (units != 0) fun s => s.setOwner base units (0x20 + f)
  let s := s.each t.contexts State.grantCtx
  let s := s.each t.mailboxes fun s m => s.put (mbqMbCfg_RX m) f
  let s := s.each t.queues fun s q => s.put (mbqQCfg_OWNER q) f
  let s := s.each t.locks fun s l => s.put (mbqLockPeek_OWNER l) f
  let s := s.modFn f fun x => { x with tenant := some t }
  let s := ((s.putStatus (fnStatus_GEN f) f 1).putStatus (fnStatus_TENANT f) f 1).putStatus (fnStatus_CLASS f) f t.cls
  (s, .answer (done (if units = 0 then 0 else dramBase + base * mib2)
    (t.cls + 0x100 + 0x10000 * (t.contexts.headD 0) + 0x1000000 * t.contexts.length)))

def specTenantCreate : OpSpec :=
  { opcode := 0x0201, lens := len 32, zero := fun _ => zeroMask [(2, 3), (25, 31)] [(1, 0xFE)], modes := [2],
    issuer := .functions, names := fun t => t < 32, owns := fun s r t => s.manages r t, log := .logged, check := createCheck,
    run := createRun }

def specTenantDestroy : OpSpec :=
  { opcode := 0x0202, lens := len 0, modes := [2], issuer := .functions, names := fun t => t < 32,
    owns := fun s r t => s.manages r t && s.liveTenant t, log := .logged, check := needsTenant,
    run := fun s o => (s.requestReset o.tgt 6 [] (some o), .later) }

/-- The sum of a share kind over all tenants but one, as they will be at the next master frame start (R49). -/
def State.shareSum (s : State) (kind but : Nat) : Nat :=
  ((List.range 32).map fun f => if f = but then 0 else ((s.tenant f).map fun t => t.nextShares.getD kind 0).getD 0).sum

def specTenantShare : OpSpec :=
  { opcode := 0x0203, lens := len 8, zero := fun _ => zeroMask [(2, 7)] [], modes := modesPSD, issuer := .functions,
    names := fun t => t < 32, owns := fun s r t => s.manages r t && s.liveTenant t, log := .logged,
    check := fun s o => match needsTenant s o with
      | some f => some f
      | none =>
        if 3 < o.u8 0 then some (stNoResource, 1)
        else if 100 < s.shareSum (o.u8 0) o.tgt + o.u8 1 then some (stNoResource, o.u8 0)
        else none,
    run := fun s o =>
      (s.modTenant o.tgt fun t => { t with nextShares := t.nextShares.set (o.u8 0) (o.u8 1) }, .answer (done 0 0)) }

def specFuncReset : OpSpec :=
  { opcode := 0x0204, lens := len 0, modes := modesPSDB, issuer := .functions, names := fun t => t < 32,
    owns := fun s r t => r == t || s.manages r t,
    run := fun s o =>
      if o.ring = o.tgt then (s.requestReset o.tgt 4 [] none, .silent) else (s.requestReset o.tgt 4 [o] none, .later) }

/-- The four shares of a function's tenant, one byte each (R51). -/
def State.shareBytes (s : State) (f : Nat) : Nat :=
  ((List.range 4).map fun k => ((s.tenant f).map fun t => t.shares.getD k 0).getD 0 * 256 ^ k).sum

def specTenantQuery : OpSpec :=
  { opcode := 0x0205, lens := len 0, modes := allModes, issuer := .functions, query := true, names := fun t => t < 32,
    owns := fun s r t => r == t || s.manages r t,
    run := fun s o => (s, .answer (done ((s.rd (fnStatus o.tgt)).toNat + 0x100000000 * s.get (worldFnRange_SIZE o.tgt))
      (s.shareBytes o.tgt))) }

/-! ### Dual homing (R65 to R69) -/

/-- The home register that holds the alternate of the tenant on function `f`. -/
def State.homeRow (s : State) (f : Nat) : Nat := (s.primaryOf f).getD f

/-- Whether function `a` is named as an alternate by a tenant other than the one whose home is `q`. -/
def State.namedAlternate (s : State) (a q : Nat) : Bool :=
  (List.range 32).any fun x => x != q && s.flag (hpHome_DUAL (portOf x) (x % 16)) && s.get (hpHome_ALT (portOf x) (x % 16)) == a

/-- Whether a HOME_SET returns a moved tenant to its original primary (R68). -/
def State.returns (s : State) (o : Origin) : Bool := o.u8 0 == 1 && s.primaryOf o.tgt == some (o.u16 2)

/-- The checks of HOME_SET (R65). -/
def homeCheck (s : State) (o : Origin) : Option (Nat × Nat) :=
  let a := o.u16 2
  match needsTenant s o with
  | some f => some f
  | none =>
    if 1 < o.u8 0 then some (stConflict, 0)
    else if o.u8 0 = 0 || s.returns o then none
    else if 32 ≤ a || portOf a == portOf o.tgt || (s.tenant a).isSome || s.namedAlternate a (s.homeRow o.tgt) then
      some (stConflict, 0)
    else none

/-- HOME_SET: an alternate is named or removed, or a return is asked for (R65, R68). -/
def homeRun (s : State) (o : Origin) : State × Effect :=
  let f := o.tgt
  let s :=
    if s.returns o then s.modFn f fun x => { x with returning := true }
    else
      let s := (s.clearHome (s.homeRow f)).putStatus (fnStatus_ACTING f) f 0
      let s := s.modFn f fun x => { x with returning := false }
      s.when (o.u8 0 == 1) fun s =>
        (s.put (hpHome_ALT (portOf f) (f % 16)) (o.u16 2)).put (hpHome_DUAL (portOf f) (f % 16)) 1
  (s, .answer (done 0 0))

def specHomeSet : OpSpec :=
  { opcode := 0x0206, lens := len 8, zero := fun _ => zeroMask [(1, 1), (4, 7)] [], modes := modesPSD, issuer := .functions,
    names := fun t => t < 32, owns := fun s r t => s.manages r t && s.liveTenant t, log := .logged, check := homeCheck,
    run := homeRun }

/-- A tenant moves from a function to another: the old one is reset, at once squashed, and everything passes (R67). The source
code of that reset is not stated, a free value (log entry 1). -/
def State.moveTenant (s : State) (src dst primary : Nat) : State :=
  let s := s.freeUsed.requestReset src (s.free.toNat % 256) [] none
  let s := if (s.fn src).reset.any fun r => r.phase == .draining then s.squash src else s
  let t := s.tenant src
  let gen := s.get (fnStatus_GEN src)
  let range := (s.get (worldFnRange_BASE src), s.get (worldFnRange_SIZE src))
  let s := s.modFn src fun x => { x with tenant := none, returning := false }
  let s := s.modFn dst fun x => { x with tenant := t }
  let s := (s.cold (worldFnRange src)).put (worldFnRange_BASE dst) range.1
  let s := s.put (worldFnRange_SIZE dst) range.2
  let s := s.when (range.2 != 0) fun s => s.setOwner range.1 range.2 (0x20 + dst)
  let s := s.passUnits src dst
  let s := s.each (List.range 128) fun s r => if s.get (audOwner_OWNER r) = src then s.put (audOwner_OWNER r) dst else s
  let s := s.put (hpHome_MOVED (portOf primary) (primary % 16)) (if dst = primary then 0 else 1)
  let s := ((s.putStatus (fnStatus_TENANT src) src 0).putStatus (fnStatus_CLASS src) src 0).putStatus (fnStatus_ACTING src) src 0
  let s := ((s.putStatus (fnStatus_GEN dst) dst gen).putStatus (fnStatus_TENANT dst) dst 1).putStatus (fnStatus_CLASS dst) dst
    ((t.map Tenant.cls).getD 0)
  let s := s.putStatus (fnStatus_ACTING dst) dst (if dst = primary then 0 else 1)
  let s := s.occur 132 (src * 256 + dst)
  (s.log (s.eventRecord 132 (src * 256 + dst) 0x8FFF true (if s.logRefuses 1 then stLogFull else 0))).1

/-- Whether a tenant may pass from one function to another. -/
def State.mayMove (s : State) (src dst : Nat) : Bool :=
  s.liveTenant src && (s.tenant dst).isNone && (s.fn dst).clearing.isNone && !s.portLost (portOf dst)

/-- At a master frame start the tenants with an alternate move or return (R67 to R69). -/
def State.moveHomes (s : State) : State :=
  let s := s.each (List.range 32) fun s q =>
    if s.flag (hpHome_DUAL (portOf q) (q % 16)) then
      let a := s.get (hpHome_ALT (portOf q) (q % 16))
      if s.flag (hpHome_MOVED (portOf q) (q % 16)) then
        if ((s.fn a).returning || s.portLost (portOf a)) && s.mayMove a q then s.moveTenant a q q else s
      else if s.portLost (portOf q) && s.mayMove q a then s.moveTenant q a q
      else s
    else s
  s.each (List.range 32) fun s f => s.modFn f fun x => { x with returning := false }

/-- Shares take effect at a master frame start (R49). -/
def State.takeShares (s : State) : State :=
  s.each (List.range 32) fun s f => s.modTenant f fun t => { t with shares := t.nextShares }

def execTenantCreate (p : Packet) (s : State) : Host.Outcome State Fault Refusal := packetStep specTenantCreate p s
def execTenantDestroy (p : Packet) (s : State) : Host.Outcome State Fault Refusal := packetStep specTenantDestroy p s
def execTenantShare (p : Packet) (s : State) : Host.Outcome State Fault Refusal := packetStep specTenantShare p s
def execFuncReset (p : Packet) (s : State) : Host.Outcome State Fault Refusal := packetStep specFuncReset p s
def execTenantQuery (p : Packet) (s : State) : Host.Outcome State Fault Refusal := packetStep specTenantQuery p s
def execHomeSet (p : Packet) (s : State) : Host.Outcome State Fault Refusal := packetStep specHomeSet p s

end Sys2Proof.Machine
end

