-- ==== Sys2Proof/Machine/Cpc.lean ====
section
/-! DEFINITION. Clock and power requests (R407, R408, R486) and block software reset (R500, R501). -/
namespace Sys2Proof.Machine

/-! ### Domains -/

/-- Whether a number is in the table of CPC domains. -/
def cpcDomain (d : Nat) : Bool := d < 12 || (16 ≤ d && d < 25) || (28 ≤ d && d < 49)

/-- Whether a domain is a control core. -/
def coreDomain (d : Nat) : Bool := 44 ≤ d && d < 48

/-- Whether graphics work is under way on the clusters. -/
def State.clustersBusy (s : State) : Bool := s.runningCtx != 0 || s.gfx.current.isSome || !s.gfx.picks.isEmpty

/-- Whether a haptic channel is neither OFF nor IDLE. -/
def State.chanBusy (s : State) (n : Nat) : Bool := s.hapState n != hapOff && s.hapState n != hapIdle

/-- Whether a domain is busy, by the table of CPC domains. -/
def State.domainBusy (s : State) (d : Nat) : Bool :=
  if d < 12 then s.clustersBusy
  else if d < 24 then s.running (d - 16) && s.engine (d - 16) == d - 16
  else if d = 24 then s.get ymxSpare_STATE == 1 || s.spareBusy
  else if d < 32 then s.flag (touchCtrl_EN (d - 28))
  else if d = 32 then (List.range 6).any s.chanBusy
  else if d = 33 then s.get hapStage_STAGE0 != 0
  else if d = 34 then s.get hapStage_STAGE1 != 0
  else if d = 35 then (List.range 14).any fun k => s.flag (audSinkCtrl_EN k)
  else if d < 44 then (s.cuUnit (d - 36)).isSome
  else if d < 48 then true
  else s.flag audTdm_EN

/-- The bit of SYS_SWRST of a domain's block; control cores have none. -/
def swrstOf (d : Nat) : Option Nat :=
  if d < 12 then some (9 + d) else if 16 ≤ d ∧ d < 25 then some (d - 16) else if 28 ≤ d ∧ d < 32 then some (d - 7)
  else if d = 32 then some 25 else if d = 33 then some 26 else if d = 34 then some 27 else if d = 35 then some 28
  else if 36 ≤ d ∧ d < 44 then some (d - 4) else if d = 48 then some 29 else none

/-- The domain of a bit of SYS_SWRST; HPA and HPB have none. -/
def domainOf (bit : Nat) : Option Nat := (List.range 49).find? fun d => cpcDomain d && swrstOf d == some bit

/-- A bit of SYS_SWRST, or of SYS_SWRST_PEND. -/
def State.blockBit (s : State) (r : Reg) (bit : Nat) : Bool := (s.rd r).toNat / 2 ^ bit % 2 == 1

/-- A bit of SYS_SWRST, or of SYS_SWRST_PEND, takes a truth value. -/
def State.putBlockBit (s : State) (r : Reg) (bit : Nat) (b : Bool) : State :=
  s.wr r (BitVec.ofNat 64 (setField (s.rd r).toNat bit 1 (if b then 1 else 0)))

/-! ### A block's registers take their Cold values (R500) -/

/-- The registers from an address up to but not including another take their Cold values; staged writes to them are
forgotten. -/
def State.coldRange (s : State) (lo hi : Nat) : State :=
  { s with regs := sclear s.regs lo hi, staged := s.staged.filter fun e => !decide (lo ≤ e.1 ∧ e.1 < hi) }

/-- A haptic channel takes its Cold values. -/
def State.coldChannel (s : State) (n : Nat) : State :=
  let s := (s.coldRange (hapCfg n).addr (hapCfg (n + 1)).addr).coldRange (hapFx n 0 0).addr (hapFx (n + 1) 0 0).addr
  let s := s.coldRange (hapWave n 0).addr (hapWave (n + 1) 0).addr
  s.modHap fun h => { h with chans := h.chans.set n HapChan.cold }

/-- The block of a bit of SYS_SWRST takes its Cold values; display engines and shader clusters have no registers of their
own. -/
def State.coldBlock (s : State) (bit : Nat) : State :=
  if 21 ≤ bit ∧ bit < 25 then
    let p := bit - 21
    (s.coldRange (touchCtrl p).addr (touchCtrl (p + 1)).addr).modPort p fun _ => TouchPort.cold
  else if bit = 25 then s.each (List.range 6) State.coldChannel
  else if bit = 26 then (s.coldChannel 6).put hapStage_STAGE0 0
  else if bit = 27 then (s.coldChannel 7).put hapStage_STAGE1 0
  else if bit = 28 then
    let tdm := s.rd audTdm
    ((s.coldRange audCtrl.addr 0x44000000).wr audTdm tdm).modAud fun a => { AudState.cold with sample := a.sample }
  else if bit = 29 then s.cold audTdm
  else if bit = 30 ∨ bit = 31 then s.coldRange (hpLink (bit - 30)).addr (hpLink (bit - 29)).addr
  else if 32 ≤ bit then s.coldRange (cuCtrl (bit - 32)).addr (cuCtrl (bit - 31)).addr
  else s

/-! ### CPC requests (R407, R408) -/

/-- The row of R407's table that decides a request. -/
def State.cpcResult (s : State) (who : Requester) (d action : Nat) : Nat :=
  if !cpcDomain d then 5
  else if worldOf who = .opened ∧ coreDomain d then 3
  else if worldOf who = .opened ∧ s.bit worldClaim_CLAIM d then 2
  else if action % 2 = 0 ∧ s.domainBusy d then 4
  else 1

/-- The record of a refusal under rows 2 and 3, which a full log drops and counts (R408, R436). -/
def State.cpcRecord (s : State) (d result agent : Nat) : State :=
  let s := s.when (s.logRefuses 1) fun s => s.bump worldCpcUnlogged_COUNT
  (s.log (s.eventRecord 417 (d * 256 + result) agent false 0)).1

/-- A write of WORLD_CPC_REQ is decided in the grain of its capture; what is carried out takes effect at grain 0 of the next
master line (R407). -/
def State.cpcRequest (s : State) (who : Requester) (d action : Nat) : State :=
  let agent := agentOf who
  if !s.mayWrite who || s.writeBarred who worldCpcReq.addr then s.emit (.busError agent worldCpcReq.addr)
  else
    let result := s.cpcResult who d action
    let s := ((s.put worldCpcStatus_RESULT result).put worldCpcStatus_DOMAIN d).put worldCpcStatus_ACTION action
    let s := s.put worldCpcStatus_AGENT agent
    if result = 1 then
      let s : State := { s with world := { s.world with cpcDue := s.world.cpcDue ++ [(d, action)] } }
      s.noteWrite who worldCpcReq.addr (d + 64 * action) 0
    else
      let s := (s.emit (.busError agent worldCpcReq.addr)).raise 417 (d * 256 + result)
      s.when (result == 2 || result == 3) fun s => s.cpcRecord d result agent

/-- CPC_CLOCK_STOP (R407). -/
def execCpcClockStop (who : Requester) (domain : Fin 64) (s : State) : Host.Outcome State Fault Refusal :=
  .next (s.cpcRequest who domain.val 0)
/-- CPC_CLOCK_RUN (R407). -/
def execCpcClockRun (who : Requester) (domain : Fin 64) (s : State) : Host.Outcome State Fault Refusal :=
  .next (s.cpcRequest who domain.val 1)
/-- CPC_POWER_OFF (R407). -/
def execCpcPowerOff (who : Requester) (domain : Fin 64) (s : State) : Host.Outcome State Fault Refusal :=
  .next (s.cpcRequest who domain.val 2)
/-- CPC_POWER_ON (R407). -/
def execCpcPowerOn (who : Requester) (domain : Fin 64) (s : State) : Host.Outcome State Fault Refusal :=
  .next (s.cpcRequest who domain.val 3)

/-- One action takes effect: a power on of an unpowered domain queues for a slot (R486). -/
def State.cpcApply (s : State) (d action : Nat) : State :=
  match action with
  | 0 => s.putBitAt worldCpcClk_ON d false
  | 1 => s.putBitAt worldCpcClk_ON d true
  | 2 => s.putBitAt worldCpcPwr_ON d false
  | _ =>
    if s.bit worldCpcPwr_ON d || s.world.cpcSlots.contains d then s
    else { s with world := { s.world with cpcSlots := s.world.cpcSlots ++ [d] } }

/-- At grain 0 of a master line the requests decided in the line before take effect, in the order of their decision. -/
def State.cpcLine (s : State) : State :=
  let due := s.world.cpcDue
  ({ s with world := { s.world with cpcDue := [] } } : State).each due fun s x => s.cpcApply x.1 x.2

/-- DOMAIN_POWER_SLOT: the next domain in decision order is powered in its slot, and its block's release begins (R486). -/
def execDomainPowerSlot (domain : Fin 64) (s : State) : Host.Outcome State Fault Refusal :=
  .next (
    let d := domain.val
    if s.world.cpcSlots.head? ≠ some d then s
    else
      let s : State := { s with world := { s.world with cpcSlots := s.world.cpcSlots.tail } }
      let s := (s.putBitAt worldCpcPwr_ON d true).raise 12 d
      match swrstOf d with
      | some bit => if s.blockBit sysSwrst bit then s else s.putBlockBit sysSwrstPend bit true
      | none => s)

/-- The claims change; a covered domain that is stopped or unpowered is started again (R408). -/
def State.setClaim (s : State) (mask : Nat) : State :=
  let s := s.put worldClaim_CLAIM mask
  s.each ((List.range 49).filter fun d => cpcDomain d && mask / 2 ^ d % 2 == 1
      && !(s.bit worldCpcClk_ON d && s.bit worldCpcPwr_ON d)) fun s d =>
    let s : State := { s with world := { s.world with cpcDue := s.world.cpcDue ++ [(d, 1), (d, 3)] } }
    s.raise 418 d

def specClaimSet : OpSpec :=
  { opcode := 0x0111, lens := len 16, zero := fun _ => zeroMask [(8, 15)] [], modes := allModes, issuer := .sealedOnly,
    log := .logged, check := fun _ o => if 2 ^ 49 ≤ o.u64 0 then some (stNoResource, 1) else none,
    run := fun s o => (s.setClaim (o.u64 0), .answer (done 0 0)) }

def execClaimSet (p : Packet) (s : State) : Host.Outcome State Fault Refusal := packetStep specClaimSet p s

/-! ### Block software reset (R500, R501) -/

/-- The bits of SYS_SWRST in use. -/
def swrstMask : Nat := 2 ^ 40 - 1

/-- The bits of a mask of SYS_SWRST. -/
def swrstBits (m : Nat) : List Nat := (List.range 40).filter fun b => m / 2 ^ b % 2 == 1

/-- A bit of SYS_SWRST is set: the block is held, and a release of it that waits is cancelled; HPA and HPB go as if their
link had gone down. -/
def State.holdBlock (s : State) (bit : Nat) : State :=
  let s := (s.putBlockBit sysSwrst bit true).putBlockBit sysSwrstPend bit false
  let s : State := { s with power := { s.power with stuck := setField s.power.stuck bit 1 0 } }
  if bit = 30 then s.dropLink 0 else if bit = 31 then s.dropLink 1 else s

/-- A bit of SYS_SWRST is cleared: the release waits for the block's clock. -/
def State.releaseBlock (s : State) (bit : Nat) : State :=
  (s.putBlockBit sysSwrst bit false).putBlockBit sysSwrstPend bit true

/-- SWRST_WRITE: a write of SYS_SWRST; a newly set bit of a busy block ends in a bus error (R500). -/
def execSwrstWrite (who : Requester) (value : W64) (s : State) : Host.Outcome State Fault Refusal :=
  .next (
    let old := (s.rd sysSwrst).toNat
    let new := value.toNat % 2 ^ 40
    let set := swrstBits (new &&& (swrstMask ^^^ old))
    let clear := swrstBits (old &&& (swrstMask ^^^ new))
    let busy := set.any fun b => match domainOf b with
      | some d => s.domainBusy d
      | none => false
    if busy && s.mayWrite who && worldOf who == .sealed then s.refuseWrite who sysSwrst.addr value.toNat old stConflict
    else s.sealedWrite who sysSwrst value.toNat fun s =>
      (s.each set State.holdBlock).each clear State.releaseBlock)

/-- SWRST_RELEASE: the clock of a block that waits for it is good; its registers take their Cold values (R500, R501). -/
def execSwrstRelease (bit : Fin 40) (s : State) : Host.Outcome State Fault Refusal :=
  .next (
    let good := match domainOf bit.val with
      | some d => s.bit worldCpcPwr_ON d && s.bit worldCpcClk_ON d
      | none => true
    if s.blockBit sysSwrstPend bit.val && good then
      let s := (s.coldBlock bit.val).putBlockBit sysSwrstPend bit.val false
      { s with power := { s.power with stuck := setField s.power.stuck bit.val 1 0 } }
    else s)

/-- SWRST_STUCK: a release has been pending for 10 ms; it is reported once (R501). -/
def execSwrstStuck (bit : Fin 40) (s : State) : Host.Outcome State Fault Refusal :=
  .next (if s.blockBit sysSwrstPend bit.val && s.power.stuck / 2 ^ bit.val % 2 = 0 then
      ({ s with power := { s.power with stuck := setField s.power.stuck bit.val 1 1 } } : State).raise 13 bit.val
    else s)

end Sys2Proof.Machine
end

