-- ==== Sys2Proof/Machine/Modes.lean ====
section
/-! DEFINITION. The system opcodes (R88, R89), modes and their transitions (R475 to R481), and the ends of regime switches
(R401, R402). -/
namespace Sys2Proof.Machine

/-- Power and modes change beside their registers. -/
def State.modPower (s : State) (f : PowerState → PowerState) : State := { s with power := f s.power }

/-! ### System opcodes (R88, R89) -/

def specSysQuery : OpSpec :=
  { opcode := 0x0101, lens := len 0, modes := allModes, issuer := .any, query := true,
    run := fun s _ => (s, .answer (done (s.mode + 0x100 * s.variant) s.power.firmware.toNat)) }

def specNop : OpSpec :=
  { opcode := 0x0103, lens := fun _ => [0, 16], modes := allModes, issuer := .any, query := true,
    run := fun s o => (s, .answer (done (o.u64 0) (o.u64 8))) }

/-- SEQ_SYNC returns the number its ring expected before it, and whether one was set (R81, R89). -/
def specSeqSync (expected : Nat) (wasSet : Bool) : OpSpec :=
  { opcode := 0x0104, lens := len 0, modes := allModes, issuer := .any, query := true,
    run := fun s _ => (s, .answer (done (expected + (if wasSet then 0x100000000 else 0)) 0)) }

def specMarginSet : OpSpec :=
  { opcode := 0x0105, lens := len 8, zero := fun _ => zeroMask [(2, 7)] [], modes := [2], issuer := .managers, log := .logged,
    check := fun s o =>
      if o.u16 0 < 16 ∨ 1024 < o.u16 0 ∨ s.lines < 2 * o.u16 0 then some (stNoResource, 1) else none,
    run := fun s o => ({ s with pkt := { s.pkt with margin := some (o.u16 0) } }, .answer (done 0 0)) }

def execSysQuery (p : Packet) (s : State) : Host.Outcome State Fault Refusal := packetStep specSysQuery p s
def execNop (p : Packet) (s : State) : Host.Outcome State Fault Refusal := packetStep specNop p s
def execSeqSync (p : Packet) (s : State) : Host.Outcome State Fault Refusal :=
  packetStep (specSeqSync (s.get (pktSeq_EXPECT p.ring.val)) (s.seqSet p.ring.val)) p s
def execMarginSet (p : Packet) (s : State) : Host.Outcome State Fault Refusal := packetStep specMarginSet p s

/-- What packet service does at a master frame start: a new PKT_CTRL or margin applies (R89, R107). -/
def State.pktFrameStart (s : State) : State :=
  let s := match s.pkt.ctrl with
    | some v => s.wr pktCtrl (BitVec.ofNat 64 v)
    | none => s
  let s := match s.pkt.margin with
    | some m => s.put pktCtrl_MARGIN m
    | none => s
  { s with pkt := { s.pkt with ctrl := none, margin := none } }

/-! ### Placing the internal rings (R77, R107, R553) -/

/-- Whether an internal ring's range is where R77 wants it: the sealed ring in sealed SRAM, the open ring in open memory. -/
def State.ringPlaced (s : State) (w base log2 : Nat) : Bool :=
  if w = 0 then inSealedSram base (2 ^ log2) else s.openMemory base (2 ^ log2)

/-- The nearer limit of a ring's size: 2^12 to 2^20 bytes. -/
def ringClamp (log2 : Nat) : Nat := max 12 (min 20 log2)

/-- The write of a ring's size register takes effect; EN stays 0 where the ring is not accepted. -/
def State.setRingSize (s : State) (w : Nat) (reply : Bool) (value : Nat) : State :=
  let base := s.get (if reply then pktIrRplBase_ADDR w else pktIrCmdBase_ADDR w) % 2 ^ 36 * 4096
  let log2 := ringClamp (value % 32)
  let en := value / 2 ^ 31 % 2 == 1 && s.ringPlaced w base log2
  if reply then (s.put (pktIrRplSize_LOG2 w) log2).putBit (pktIrRplSize_EN w) en
  else (s.put (pktIrCmdSize_LOG2 w) log2).putBit (pktIrCmdSize_EN w) en

/-- INTERNAL_RING_ENABLE_WRITE: both worlds write the open ring's group, the sealed world alone that of the sealed ring
(R107). -/
def execInternalRingEnableWrite (who : Requester) (world : World) (reply : Bool) (value : W32) (s : State) :
    Host.Outcome State Fault Refusal :=
  .next (
    let w := if world = .sealed then 0 else 1
    let r := if reply then pktIrRplSize w else pktIrCmdSize w
    let old := (s.rd r).toNat
    if !s.mayWrite who then s.emit (.busError (agentOf who) r.addr)
    else if worldOf who = .opened && w == 0 then s.refuseWrite who r.addr value.toNat old stWorld
    else if s.writeBarred who r.addr then s.emit (.busError (agentOf who) r.addr)
    else (s.setRingSize w reply value.toNat).noteWrite who r.addr value.toNat old)

/-! ### Transitions (R477) -/

/-- Who may request a transition by MODE_REQUEST, in the present state: nobody, the sealed ring alone, or functions 0 and 16
as well (R477). Degraded is not requested; Kindling and Recovery are left only by a cold reset. -/
inductive Requesters where
  | nobody | sealedRing | managing
  deriving DecidableEq, Repr

/-- The row of the table of mode transitions for a request. -/
def State.transition (s : State) (target : Nat) : Requesters :=
  match s.mode, target with
  | 1, 2 => if s.flag dramcStatus_INIT_DONE && s.power.imagesPassed then .sealedRing else .nobody
  | 1, 5 | 3, 5 | 4, 5 => .sealedRing
  | 1, 7 | 2, 7 | 5, 7 | 6, 7 => .sealedRing
  | 2, 3 => .managing
  | 4, 3 => .managing
  | 5, 3 => if s.flag dramcStatus_CH_LOST then .nobody else .sealedRing
  | 2, 6 => .sealedRing
  | 6, 2 => .sealedRing
  | 3, 2 | 4, 2 | 5, 2 => .managing
  | 2, 0 | 3, 0 | 4, 0 | 5, 0 | 6, 0 => if s.power.vstbyGood then .managing else .nobody
  | _, _ => .nobody

/-- The checks of MODE_REQUEST (R89, R477). -/
def modeCheck (s : State) (o : Origin) : Option (Nat × Nat) :=
  if 7 < o.u8 0 then some (stNoResource, 1)
  else match s.power.pending with
    | some p => some (stMode, 0x100 + p.mode)
    | none =>
      match s.transition (o.u8 0) with
      | .nobody => some (stMode, s.mode)
      | .sealedRing => if o.ring = 32 then none else some (stNotOwner, o.ring)
      | .managing => none

/-- Dormant is entered by request: the event and the change of mode are logged with the reply, and the rails turn off once
they are durable (R476, R487). -/
def State.enterDormant (s : State) : State :=
  let s := (s.raise 14 ((s.rd sysWakeCfg).toNat % 8)).raise 3 (s.mode * 256)
  let s := ((s.put sysMode_PREV s.mode).put sysMode_MODE 0).abortCommitted
  s.modPower fun p => { p with stage := .entering }

/-- MODE_REQUEST takes effect: Dormant at once, any other mode at a master frame start (R476); a request for Service in
Degraded clears FORCED (R479). -/
def modeRun (s : State) (o : Origin) : State × Effect :=
  let m := o.u8 0
  if m = 0 then (s.enterDormant, .answer (done 0 0))
  else if s.mode = modeDegraded ∧ m = modeService then
    ((s.put sysMode_FORCED 0).modPower fun p => { p with pending := some ⟨m, some o, false⟩ }, .later)
  else
    let s := s.when (m == modeRecovery) fun s => s.modPower fun p => { p with cause := 3 }
    (s.beginMode m (some o), .later)

def specModeRequest : OpSpec :=
  { opcode := 0x0102, lens := len 8, zero := fun _ => zeroMask [(1, 7)] [], modes := allModes, issuer := .managers,
    log := .logged, check := modeCheck, run := modeRun }

def execModeRequest (p : Packet) (s : State) : Host.Outcome State Fault Refusal := packetStep specModeRequest p s

/-! ### A mode takes effect (R476) -/

/-- The bridges go off without braking, and what played is cut (R313). -/
def State.hapCut (s : State) : State :=
  s.each (List.range 8) fun s n =>
    if s.hapState n = hapOff ∨ s.hapState n = hapFaulted ∨ s.hapState n = hapCheck then s
    else
      let s := (s.clearPending n).modChan n fun c => { c with play := none, level := 0 }
      ((s.put (hapStatus_URGENT n) 0).put (hapStatus_ILIM n) 0).hapEnter n hapIdle

/-- A mode takes effect: caravans not yet sampled are refused except between Service and Degraded, the sealed debug enables
follow R410, Banked acts on the blocks (R149, R228), and Recovery is reported with its cause. -/
def State.enterMode (s : State) (m : Nat) : State :=
  let old := s.mode
  let s := ((s.put sysMode_PREV old).put sysMode_MODE m).raise 3 (old * 256 + m)
  let between := (old == 3 && m == 4) || (old == 4 && m == 3)
  let s := (s.when (!between) State.abortCommitted).debugModeEntered
  let s := s.when (m == modeBanked) fun s => s.pipesBanked.gfxBanked
  s.when (m == modeRecovery) fun s => s.hapCut.raise 15 s.power.cause

/-- The Degraded condition (R478). -/
def State.degradedNow (s : State) : Bool :=
  s.flag sysMode_FORCED ||
    (List.range 8).any fun n => s.flag (headCtrl_EN n) &&
      ((s.engine n == 8 && s.spareBusy) || s.engine n == 15 || s.flag (integVstate_HOLD n))

/-- Service and Degraded are evaluated at every master frame start, but not during a warm reset (R478). -/
def State.evaluateMode (s : State) : State :=
  if s.power.warm.isSome || !(s.mode == modeService || s.mode == modeDegraded) then s
  else
    let m := if s.degradedNow then modeDegraded else modeService
    if m = s.mode then s else s.enterMode m

/-- The pending transition takes effect if no switch of it runs; its packet is answered. A request for Service in Degraded takes
whatever the evaluation gives (R476, R479). -/
def State.pendingMode (s : State) : State :=
  match s.power.pending with
  | none => s.evaluateMode
  | some p =>
    if p.switching then s.evaluateMode
    else
      let s := s.modPower fun x => { x with pending := none }
      let s := if p.mode = modeService ∧ (s.mode = modeService ∨ s.mode = modeDegraded) then s else s.enterMode p.mode
      let s := s.evaluateMode
      match p.origin with
      | some o => s.settle o (done 0 0)
      | none => s

/-- A forced change that waited is made, or skipped where R477 does not allow it (R479). -/
def State.makeForced (s : State) (f : ForcedMode) : State :=
  let s := s.modPower fun x => { x with forced := none }
  if forceAllowed s.mode f.mode then s.applyForced f.mode else s.skipped f.entry

/-- What a master frame start does to the mode: a forced change that waited while a switch ran follows the requested mode by a
frame, one that met a request replaces it, and one that met a warm reset is made at its completion (R479, R499). -/
def State.modeFrameStart (s : State) : State :=
  match s.power.forced with
  | none => s.pendingMode
  | some f =>
    if s.power.warm.isSome then s.pendingMode
    else match s.power.pending with
      | some p =>
        if p.switching || f.after then
          (s.when (!p.switching) fun s => s.modPower fun x => { x with forced := some { f with after := false } }).pendingMode
        else
          let s := s.modPower fun x => { x with pending := none }
          let s := match p.origin with
            | some o => s.settle o (refusal stMode (0x100 + f.mode))
            | none => s
          (s.makeForced f).pendingMode
      | none => (s.makeForced f).pendingMode

/-! ### Regime switches (R401 to R403) -/

/-- The switch is over. -/
def State.switchDone (s : State) : State :=
  let s := (s.put worldStatus_SWITCHING 0).modPower fun p => { p with
    pending := p.pending.map fun m => { m with switching := false } }
  { s with world := { s.world with switching := none } }

/-- REGIME_SWITCH_END: the check of R401 ends, in the watermark regime or in a refusal of the request, or the table write of
R402 ends. -/
def execRegimeSwitchEnd (s : State) : Host.Outcome State Fault Refusal :=
  .next (match s.world.switching with
    | none => s
    | some false => ((s.writeOwnerTable.switchDone).put worldStatus_REGIME 0).raise 424 0
    | some true =>
      match s.firstBadPage with
      | none =>
        let s : State := { s with world := { s.world with wInForce := s.get worldWmark_W } }
        ((s.switchDone).put worldStatus_REGIME 1).raise 424 1
      | some (page, code) =>
        let origin := s.power.pending.bind (·.origin)
        let s := s.switchDone.modPower fun p => { p with pending := none }
        match origin with
        | some o => s.settle o ⟨stMode, 0x4500, BitVec.ofNat 64 page, BitVec.ofNat 64 code⟩
        | none => s)

end Sys2Proof.Machine
end

