-- ==== Sys2Proof/Machine/Peat.lean ====
section
/-! DEFINITION. The peat log (R434 to R451): committing records, summaries, policy, release, export and the start check. -/
namespace Sys2Proof.Machine

/-- The peat log's own state changes. -/
def State.modPeat (s : State) (f : PeatState → PeatState) : State := { s with peat := f s.peat }

/-! ### Records in the bank (R434, R435) -/

/-- Bytes 0 to 59 of record number `n` (R434). -/
def recordBytes (r : PeatRec) (n boot : Nat) : List Byte :=
  leBytes 8 r.time.toNat ++ leBytes 4 n ++ leBytes 4 boot ++ leBytes 2 r.origin ++ leBytes 1 r.kind ++ leBytes 1 r.gen
    ++ leBytes 2 (r.status % 256) ++ leBytes 2 r.aux ++ leBytes 4 r.caravan.toNat ++ leBytes 4 r.target.toNat
    ++ bytesAt r.data 0 28

/-- The CRC of a record's first 60 bytes after a record with CRC `prev` (R435). -/
def recordCrc (prev : Nat) (bytes : List Byte) : Nat := crc32cFold (leBytes 4 prev ++ leBytes 4 0) bytes

/-- The address of a record's slot in the bank (R434). -/
def slotAddr (n : Nat) : Nat := n % logSlots * 64

/-- Bytes of the bank. -/
def State.bankBytes (s : State) (a len : Nat) : List Byte := (List.range len).map fun i => sget s.peat.bank (a + i)

/-- The 64 bytes of record `n` as stored. -/
def State.storedRecord (s : State) (n : Nat) : List Byte := s.bankBytes (slotAddr n) 64

/-- The CRC stored in record `n`. -/
def State.storedCrc (s : State) (n : Nat) : Nat := leNat (s.bankBytes (slotAddr n + 60) 4)

/-! ### Fill (R441 to R443) -/

/-- The records held. -/
def State.logHeld (s : State) : Nat := s.get peatNext_VALUE - s.get peatOldest_VALUE

/-- A fill threshold: its event is raised on reaching it, and again only after falling below it (R443). -/
def State.fillMark (s : State) (threshold detail : Nat) (raised : Bool) (set : Bool → PeatState → PeatState) : State :=
  if s.logHeld < threshold then s.modPeat (set false)
  else if raised then s
  else (s.modPeat (set true)).raise 451 detail

/-- The status flags and fill events follow the number of records held and the policy (R441 to R443). -/
def State.refill (s : State) : State :=
  let s := s.fillMark 786432 75 s.peat.raised75 fun b p => { p with raised75 := b }
  let s := s.fillMark 943719 90 s.peat.raised90 fun b p => { p with raised90 := b }
  let stop := !s.flag peatCtrl_WRAP
  let full := stop && decide (logFull ≤ s.logHeld)
  let was := s.flag peatStatus_FULL
  let s := (s.putBit peatStatus_FULL full).putBit peatStatus_RESERVE_OUT (stop && decide (logSlots ≤ s.logHeld))
  let s := s.when (!full) fun s => s.modPeat fun p => { p with raisedOut := false }
  if full && !was then s.raise 452 0 else s

/-! ### Commit (R445) -/

/-- In the wrap policy a record that would pass the bank's slots overwrites the oldest (R442). -/
def State.makeSlot (s : State) : State :=
  if s.logHeld < logSlots then s
  else
    let s := s.put peatOldest_VALUE (s.get peatOldest_VALUE + 1)
    if s.peat.raisedWrap then s else (s.modPeat fun p => { p with raisedWrap := true }).raise 453 0

/-- A record is written to MRAM, then NEXT and LAST_CRC are committed (R435, R445). -/
def State.commitRecord (s : State) (r : PeatRec) : State :=
  let s := s.makeSlot
  let n := s.get peatNext_VALUE
  let bytes := recordBytes r n (s.get peatBoot_VALUE)
  let crc := recordCrc (if n = 0 then 0 else s.get peatLastCrc_VALUE) bytes
  let s := s.modPeat fun p => { p with bank := storeBytes p.bank (slotAddr n) (bytes ++ leBytes 4 crc) }
  let s := (s.put peatNext_VALUE (n + 1)).put peatLastCrc_VALUE crc
  s.refill

/-- The oldest queued record becomes durable, and the reply that waited for it is written (R438, R445). -/
def State.commitNext (s : State) : State :=
  match s.peat.queue with
  | [] => s
  | r :: rest =>
    let s := (s.modPeat fun p => { p with queue := rest }).commitRecord r
    match r.reply with
    | some d => s.answer d.origin d.answer d.time
    | none => s

/-- Every queued record becomes durable. -/
def State.commitAll : Nat → State → State
  | 0, s => s
  | fuel + 1, s => if s.peat.queue.isEmpty then s else State.commitAll fuel s.commitNext

/-- PEAT_RECORD_COMMIT (R445). -/
def execPeatRecordCommit (s : State) : Host.Outcome State Fault Refusal := .next s.commitNext

/-! ### Summaries (R440) -/

/-- The 28 bytes of a summary's counts (R434, kind 3). -/
def PeatState.counts (p : PeatState) : List Byte :=
  ((List.range 4).flatMap fun g => leBytes 4 (min (p.flips.getD g 0) 0xFFFFFFFF))
    ++ leBytes 4 (min p.violations 0xFFFFFFFF) ++ leBytes 4 p.flipFns ++ leBytes 4 (min p.unwritten 0xFFFFFFFF)

/-- The summary of a master frame start: at A(F) of every master frame F with F mod SUM_FRAMES = 0, if a count is not zero and
the log is not full (R440, R441). -/
def State.summary (s : State) : State :=
  if s.now.line ≠ 0 ∨ s.now.grain ≠ 0 ∨ s.now.frame % s.get peatCtrl_SUM_FRAMES ≠ 0 then s
  else if (s.peat.counts.all (· == 0)) || s.logRefuses 1 then s
  else
    let r : PeatRec := {
      time := s.now.word, origin := 0x8FFF, kind := 3, gen := s.get wallStatus_RASTER_GEN, status := 0,
      aux := min 65535 ((s.peat.elapsed + 500000000000) / 1000000000000), caravan := 0, target := 0,
      data := s.peat.counts, order := 900, reserve := false, reply := none }
    let s := (s.log r).1
    s.modPeat fun p => { p with flips := [0, 0, 0, 0], violations := 0, flipFns := 0, unwritten := 0, elapsed := 0 }

/-- SUMMARY_RECORD: the summary that is due now; each master frame start writes its own (R440). -/
def execSummaryRecord (s : State) : Host.Outcome State Fault Refusal := .next s.summary

/-- The nominal duration of the frame that ends is added to the time since the last summary (R440). -/
def State.peatFrameStart (s : State) : State :=
  s.modPeat fun p => { p with
    elapsed := p.elapsed + 1000000000000 * s.get wallMrRateDen_RATE_DEN / s.get wallMrRateNum_RATE_NUM }

/-! ### Policy and release (R442, R444) -/

/-- The policy changes; each change writes marker 3 (R442, R446). -/
def State.setPolicy (s : State) (wrap : Bool) (agent order : Nat) : State :=
  if s.flag peatCtrl_WRAP = wrap then s
  else
    let s := s.putBit peatCtrl_WRAP wrap
    let s := s.when wrap fun s => s.modPeat fun p => { p with raisedWrap := false }
    (s.marker 3 agent [] order).refill

/-- PEAT_WRAP_WRITE: a write of PEAT_CTRL; it is recorded, into the reserve when the log is full (R441, R449). -/
def execPeatWrapWrite (who : Requester) (value : W32) (s : State) : Host.Outcome State Fault Refusal :=
  .next (
    let old := (s.rd peatCtrl).toNat
    if !s.mayWrite who then s.emit (.busError (agentOf who) peatCtrl.addr)
    else if worldOf who = .opened then s.refuseWrite who peatCtrl.addr value.toNat old stWorld
    else (s.setPolicy (value.toNat % 2 == 1) (agentOf who) 5050).noteWrite who peatCtrl.addr value.toNat old)

def specLogQuery : OpSpec :=
  { opcode := 0x0C01, lens := len 0, modes := allModes, issuer := .any, query := true,
    run := fun s _ => (s, .answer (done (s.get peatNext_VALUE + 0x100000000 * s.get peatOldest_VALUE)
      ((s.rd peatStatus).toNat + 0x100000000 * s.get peatLastCrc_VALUE))) }

def specLogPolicy : OpSpec :=
  { opcode := 0x0C03, lens := len 8, zero := fun _ => zeroMask [(1, 7)] [], modes := allModes, issuer := .sealedOnly,
    log := .reserve, check := fun _ o => if 1 < o.u8 0 then some (stNoResource, 1) else none,
    run := fun s o => (s.setPolicy (o.u8 0 == 1) o.agent (packetOrder o.ring), .answer (done 0 0)) }

/-- The records below `n` are released, and marker 4 ties them to the rest; for n = 0 there is no record n − 1, and its
number and CRC are free values (R444, R446, log entry 1). -/
def State.release (s : State) (n : Nat) (o : Origin) : State :=
  let freed := n - s.get peatOldest_VALUE
  let s := s.put peatOldest_VALUE n
  let data := if n = 0 then leBytes 8 s.free.toNat else leBytes 4 (n - 1) ++ leBytes 4 (s.storedCrc (n - 1))
  let s := s.when (n == 0) State.freeUsed
  ((s.refill).marker 4 o.agent data (packetOrder o.ring)).raise 456 (min freed 0xFFFF)

def specLogRelease : OpSpec :=
  { opcode := 0x0C04, lens := len 8, zero := fun _ => zeroMask [(4, 7)] [], modes := allModes, issuer := .sealedOnly,
    log := .reserve,
    check := fun s o =>
      if o.u32 0 < s.get peatOldest_VALUE ∨ s.get peatNext_VALUE < o.u32 0 then some (stNoResource, 1) else none,
    run := fun s o => (s.release (o.u32 0) o, .answer (done 0 0)) }

/-- LOG_MARK's record is its marker 5, outside the reserve; its reply follows the marker (R441, R446, R450). -/
def markRun (s : State) (o : Origin) : State × Effect :=
  if s.logRefuses 1 then (s.bump peatRefused_COUNT, .answer (refusal stLogFull 0))
  else
    let r : PeatRec := {
      time := s.now.word, origin := o.agent, kind := 6, gen := s.get wallStatus_RASTER_GEN, status := 0, aux := 0,
      caravan := 0, target := 0, data := changeData (leBytes 4 5 ++ bytesAt o.payload 0 24), order := packetOrder o.ring,
      reserve := false, reply := some ⟨o, done 0 0, s.now.word⟩ }
    ((s.log r).1, .silent)

def specLogMark : OpSpec :=
  { opcode := 0x0C05, lens := len 32, zero := fun _ => zeroMask [(24, 31)] [], modes := allModes, issuer := .managers,
    run := markRun }

/-! ### Export (R448) -/

/-- Whether a range of records is held in whole (R448). -/
def State.recordsHeld (s : State) (first count : Nat) : Bool :=
  decide (s.get peatOldest_VALUE ≤ first) && decide (first + count ≤ s.get peatNext_VALUE)

def specLogExport : OpSpec :=
  { opcode := 0x0C02, lens := len 24, zero := fun _ => zeroMask [(16, 23)] [], modes := allModes, issuer := .managers,
    check := fun s o =>
      if o.u32 4 = 0 ∨ logSlots < o.u32 4 then some (stNoResource, 5)
      else if o.u64 8 % 64 ≠ 0 then some (stNoResource, 9)
      else if s.recordsHeld (o.u32 0) (o.u32 4) then none else some (stNoResource, 1),
    run := fun s o =>
      (s.modPeat fun p => { p with exports := p.exports ++ [(o.u32 0, o.u32 4, o.u64 8, o)] }, .later) }

/-- Records go out, each as stored, in ascending number: to the function's host memory, or to internal memory for the sealed
ring. -/
def State.copyRecords (s : State) (o : Origin) (first count dest : Nat) : State :=
  s.each (List.range count) fun s i =>
    let bytes := s.storedRecord (first + i)
    if o.ring < 32 then s.emit (.hostWrite o.ring (dest + 64 * i) bytes) else s.store (dest + 64 * i) bytes

/-- LOG_EXPORT_COMPLETE: the oldest export of a ring ends. When records were overwritten before they were copied, how many
were copied is a free value (R448, log entry 1). -/
def execLogExportComplete (ring : Fin 34) (s : State) : Host.Outcome State Fault Refusal :=
  .next (match s.peat.exports.find? fun e => e.2.2.2.ring == ring.val with
    | none => s
    | some (first, count, dest, o) =>
      let whole := s.recordsHeld first count
      let n := if whole then count else s.free.toNat % count
      let s := s.when (!whole) State.freeUsed
      let s := s.modPeat fun p => { p with exports := p.exports.erase (first, count, dest, o) }
      let s := if s.ringGen o.ring != o.gen then s
        else s.copyRecords o first n dest
      s.settle o ⟨stDone, if whole then 0 else 1, BitVec.ofNat 64 n,
        BitVec.ofNat 64 (if n = 0 then 0 else s.storedCrc (first + n - 1))⟩)

def execLogQuery (p : Packet) (s : State) : Host.Outcome State Fault Refusal := packetStep specLogQuery p s
def execLogExport (p : Packet) (s : State) : Host.Outcome State Fault Refusal := packetStep specLogExport p s
def execLogPolicy (p : Packet) (s : State) : Host.Outcome State Fault Refusal := packetStep specLogPolicy p s
def execLogRelease (p : Packet) (s : State) : Host.Outcome State Fault Refusal := packetStep specLogRelease p s
def execLogMark (p : Packet) (s : State) : Host.Outcome State Fault Refusal := packetStep specLogMark p s

/-! ### Cold start (R446, R447) -/

/-- The number of the first of the last 16 records held whose number or CRC does not fit the chain (R447). The CRC before
the oldest held record is known only when the bank still holds that record's predecessor, so that link is not checked
(log entry 12). -/
def State.chainFault (s : State) : Option Nat :=
  let next := s.get peatNext_VALUE
  let old := s.get peatOldest_VALUE
  let first := if next - old ≤ 16 then old else next - 16
  ((List.range (next - first)).map (first + ·)).find? fun n =>
    let bytes := s.storedRecord n
    leAt bytes 8 4 != n
      || ((n != old || n == 0) && leAt bytes 60 4 != recordCrc (if n = 0 then 0 else s.storedCrc (n - 1)) (bytes.take 60))
      || (n + 1 == next && leAt bytes 60 4 != s.get peatLastCrc_VALUE)

/-- The chain is checked, BOOT is counted and marker 1 carries the reset cause code (R446, R447). -/
def State.peatColdStart (s : State) (code : Nat) : State :=
  let s := s.put peatBoot_VALUE (s.get peatBoot_VALUE + 1)
  let s := match s.chainFault with
    | some n =>
      ((s.put peatStatus_CHAIN_BAD 1).raise 455 (n - s.get peatOldest_VALUE)).marker 6 0x8FFF (leBytes 4 n) 900
    | none => s
  s.marker 1 0x8FFF (leBytes 4 code) 900

end Sys2Proof.Machine
end

