-- ==== Sys2Proof/Machine/Power.lean ====
section
/-! DEFINITION. Power, cold reset and start (R482 to R495), wake (R487, R488), GPIO (R502), Recovery loads (R504) and the power
opcodes (R506, R507). -/
namespace Sys2Proof.Machine

/-! ### Cold reset (R489 to R491) -/

/-- Whether the module is powered: its start has begun and its rails are not off. -/
def State.powered (s : State) : Bool :=
  match s.power.stage with
  | .working | .boot | .entering => true
  | .slot _ _ => true
  | _ => false

/-- A register keeps the value it had before a reset. -/
def State.keep (s old : State) (r : Reg) : State := s.wr r (old.rd r)

/-- Everything takes its cold state but for what lies in the always-on domain, in fuses, in MRAM and in flash (R411, R449, R491,
R505): registers Cold, DRAM and on-die memories zero, master frame 0. The start stands at a stage. -/
def State.wipe (s : State) (stage : PowerStage) : State :=
  let base : State := { State.reset with
    variant := s.variant, touch := TouchState.cold s.touch.factory, out := s.out, freeCtr := s.freeCtr, pending := s.pending,
    peat := { PeatState.cold s.peat.bank with
      raised75 := s.peat.raised75, raised90 := s.peat.raised90, raisedFull := s.peat.raisedFull, raisedOut := s.peat.raisedOut,
      raisedWrap := s.peat.raisedWrap },
    power := { PowerState.cold stage s.power.flash with
      vmainGood := s.power.vmainGood, vstbyGood := s.power.vstbyGood, railFaults := s.power.railFaults,
      railFaultSlot := s.power.railFaultSlot } }
  let base := base.each [sysResetCause, sysWakeCfg, debugFuse, peatNext, peatOldest, peatLastCrc, peatBoot, touchFactory] fun b r =>
    b.keep s r
  let base := base.put peatCtrl_WRAP (s.get peatCtrl_WRAP)
  let base := (base.put peatStatus_FULL (s.get peatStatus_FULL)).put peatStatus_RESERVE_OUT (s.get peatStatus_RESERVE_OUT)
  if s.supv.levelA then base.emit (.contact "HEALTH_A" 0) else base

/-- A cold reset with a code: the start begins at slot 0 when the rails are cycled, else the blocks are released from slot 1. -/
def State.coldReset (s : State) (code : Nat) (cycled : Bool) : State :=
  let s := s.wipe (.slot (if cycled then 0 else 1) cycled)
  ((s.put sysResetCause_CODE code).put sysResetCause_WAKE 0).put sysResetCause_MERGED 0

/-- A cold source acts on a powered module (R490). -/
def State.coldSource (s : State) (code : Nat) (cycled : Bool) : State := if s.powered then s.coldReset code cycled else s

/-- The rails are off: everything but the always-on domain is lost, and the mode is Dormant. -/
def State.powerOff (s : State) (code : Nat) (stage : PowerStage) : State :=
  let s := (s.wipe stage).put sysMode_MODE 0
  ((s.put sysResetCause_CODE code).put sysResetCause_WAKE 0).put sysResetCause_MERGED 0

/-- The always-on domain has lost its state: SYS_RESET_CAUSE and SYS_WAKE_CFG read as after the loss of both supplies (R491). -/
def State.alwaysOnLost (s : State) : State := (s.cold sysResetCause).cold sysWakeCfg

/-- POWER_ON: VMAIN is good after both supplies were lost (R489). -/
def execPowerOn (s : State) : Host.Outcome State Fault Refusal :=
  .next (
    let s := s.modPower fun p => { p with vmainGood := true, railFaults := 0, railFaultSlot := none }
    (s.wipe (.slot 0 true)).alwaysOnLost)

/-! ### Supplies (R482) -/

/-- VMAIN_LOW_DETECT: below 10.5 V for 1 ms; `mv10` is VMAIN in 10 mV. -/
def execVmainLowDetect (mv10 : BitVec 12) (s : State) : Host.Outcome State Fault Refusal :=
  .next (if !s.powered || s.flag sysPower_LOW then s
    else
      let s := ((s.put sysPower_VMAIN mv10.toNat).put sysPower_LOW 1).put sysPower_VMAIN_OK 0
      s.raise 5 (openRound mv10.toNat 10))

/-- VMAIN_RECOVERY: above 10.8 V for 1 s after VMAIN_LOW. -/
def execVmainRecovery (mv10 : BitVec 12) (s : State) : Host.Outcome State Fault Refusal :=
  .next (if !s.powered || !s.flag sysPower_LOW then s
    else
      let s := ((s.put sysPower_VMAIN mv10.toNat).put sysPower_LOW 0).put sysPower_VMAIN_OK 1
      s.raise 6 (openRound mv10.toNat 10))

/-- BROWN_OUT: VMAIN or an internal rail below its limit. Where VMAIN is lost the module rests in Dormant on VSTBY, or is
without any supply (R477, R482, R487). -/
def execBrownOut (vmainLost : Bool) (s : State) : Host.Outcome State Fault Refusal :=
  .next (if !vmainLost then s.coldSource 2 true
    else
      let code := if s.powered then 2 else s.get sysResetCause_CODE
      let s := s.modPower fun p => { p with vmainGood := false }
      if s.power.vstbyGood then s.powerOff code .dormant else (s.powerOff code .unpowered).alwaysOnLost)

/-- VSTBY_LOSS_DETECT: below 2.9 V for 1 ms. The always-on domain then lives on VMAIN, or is lost. -/
def execVstbyLossDetect (s : State) : Host.Outcome State Fault Refusal :=
  .next (if !s.power.vstbyGood then s
    else
      let s := s.modPower fun p => { p with vstbyGood := false }
      if s.powered then (s.put sysPower_VSTBY_OK 0).raise 7 0
      else if s.power.vmainGood then s
      else (s.powerOff (s.get sysResetCause_CODE) .unpowered).alwaysOnLost)

/-- VSTBY_GOOD_DETECT: above 3.0 V for 1 s. -/
def execVstbyGoodDetect (s : State) : Host.Outcome State Fault Refusal :=
  .next (if s.power.vstbyGood then s
    else
      let s := s.modPower fun p => { p with vstbyGood := true }
      if s.powered then (s.put sysPower_VSTBY_OK 1).raise 8 0 else s)

/-! ### Power-up slots (R483 to R485) -/

/-- The start is over: Kindling is entered and reported, a rail fault of an earlier start as well, the chain of the peat log is
checked and marker 1 written (R446, R476, R485, R508). -/
def State.slotsDone (s : State) : State :=
  let s := s.modPower fun p => { p with stage := .boot }
  let s := (s.putBit sysPower_VMAIN_OK s.power.vmainGood).putBit sysPower_VSTBY_OK s.power.vstbyGood
  let s := (s.raise 0 ((s.rd sysResetCause).toNat % 0x10000)).raise 3 1
  let s := match s.power.railFaultSlot with
    | some n => s.raise 11 n
    | none => s
  (s.modPower fun p => { p with railFaults := 0, railFaultSlot := none }).peatColdStart (s.get sysResetCause_CODE)

/-- POWER_SLOT_END: a slot ends with its rails good and its blocks released. The TAPSEL strap is sampled at the end of slot 1,
REC_N at the end of slot 6 (R483, R495). -/
def execPowerSlotEnd (recLow tapSel : Bool) (s : State) : Host.Outcome State Fault Refusal :=
  .next (match s.power.stage with
    | .slot n cycled =>
      let s := s.when (n == 1) fun s => s.putBit sysStrap_TAPSEL tapSel
      let s := s.when (n == 6) fun s => (s.putBit sysStrap_REC recLow).modPower fun p => { p with recN := recLow }
      if 16 ≤ n then s.slotsDone else s.modPower fun p => { p with stage := .slot (n + 1) cycled }
    | _ => s)

/-- RAIL_FAULT_TIMEOUT: a rail is not good after 10 ms; after three in a row the module stays off (R485). -/
def execRailFaultTimeout (s : State) : Host.Outcome State Fault Refusal :=
  .next (match s.power.stage with
    | .slot n true =>
      let count := s.power.railFaults + 1
      let s := (s.powerOff 9 (if 3 ≤ count then .lockout else .retry)).put sysResetCause_SLOT n
      s.modPower fun p => { p with railFaults := count, railFaultSlot := some n }
    | _ => s)

/-- RAIL_FAULT_RETRY: 1 s after a rail fault the start is tried again (R485). -/
def execRailFaultRetry (s : State) : Host.Outcome State Fault Refusal :=
  .next (if s.power.stage = .retry then (s.put sysMode_MODE 1).modPower fun p => { p with stage := .slot 0 true } else s)

/-- A start from rails that are off; SYS_RESET_CAUSE keeps its code and takes the wake source. -/
def State.startFrom (s : State) (wake : Nat) : State :=
  let s := ((s.put sysResetCause_WAKE wake).put sysMode_MODE 1).put sysMode_PREV 0
  s.modPower fun p => { p with stage := .slot 0 true, wake := none }

/-- The module off after three rail faults starts anew (R485). -/
def State.leaveLockout (s : State) (wake : Nat) : State :=
  (s.modPower fun p => { p with railFaults := 0 }).startFrom wake

/-! ### Boot (R414, R495, R503) -/

/-- The boot ROM enters Recovery with a cause (R503). -/
def State.romRecovery (s : State) (cause : Nat) : State :=
  (s.modPower fun p => { p with bootRom := true, cause := cause }).beginMode modeRecovery none

/-- Sealed firmware runs from a slot, verified under a root hash: the supervisor starts and DRAM is trained (R414, R378). -/
def State.startFirmware (s : State) (slotB hash0 : Bool) (version : W32) : State :=
  let s : State := { s with world := { s.world with rootHash0 := hash0 }, supv := { s.supv with kickAt := s.now } }
  (s.modPower fun p => { p with stage := .working, slotB := slotB, firmware := version }).beginTraining

/-- The event detail of the first of two images that fails (R419). -/
def imageFault (k1 : Nat) (c1 : Nat) (k2 : Nat) (c2 : Nat) : Option Nat :=
  if c1 ≠ 0 then some (k1 * 256 + c1) else if c2 ≠ 0 then some (k2 * 256 + c2) else none

/-- BOOT_ROM_CHAIN: the boot ROM tries slot A, then slot B. The operands are the causes of R413 for images of kinds 1 and 2 in each
slot, 0 where an image passes; whether the images passed under root key hash 0; and the version of the sealed firmware. -/
def execBootRomChain (a1 a2 b1 b2 : Fin 6) (hash0 : Bool) (version : W32) (s : State) : Host.Outcome State Fault Refusal :=
  .next (if s.power.stage ≠ .boot ∨ s.power.pending.isSome ∨ s.power.bootRom then s
    else if s.power.recN then s.romRecovery 4
    else match imageFault 1 a1.val 2 a2.val with
      | none => s.startFirmware false hash0 version
      | some d =>
        let s := s.raise 421 d
        match imageFault 1 b1.val 2 b2.val with
        | none => (s.raise 422 0).startFirmware true hash0 version
        | some d => (s.raise 421 d).romRecovery 1)

/-- FIRMWARE_IMAGE_CHECK: sealed firmware has verified kinds 4 and 3 after training (R414, R477). -/
def execFirmwareImageCheck (k4 k3 : Fin 6) (s : State) : Host.Outcome State Fault Refusal :=
  .next (if s.power.stage ≠ .working ∨ s.mode ≠ modeKindling ∨ !s.flag dramcStatus_INIT_DONE then s
    else match imageFault 4 k4.val 3 k3.val with
      | none => s.modPower fun p => { p with imagesPassed := true }
      | some d =>
        let s := (s.raise 421 d).modPower fun p => { p with cause := 2 }
        if s.power.pending.isSome then s else s.beginMode modeRecovery none)

/-! ### Thermal (R492) -/

/-- THERMAL_TRIP: 125 °C for 1 ms; the rails stay off. -/
def execThermalTrip (s : State) : Host.Outcome State Fault Refusal :=
  .next (if s.powered then s.powerOff 3 .tripped else s)

/-- THERMAL_RESTART: the die reads 95 °C or less after a trip. -/
def execThermalRestart (s : State) : Host.Outcome State Fault Refusal :=
  .next (if s.power.stage = .tripped then s.startFrom 0 else s)

/-- DIE_TEMP_SAMPLE: the temperatures are read, and WARN_C is compared (R492). -/
def execDieTempSample (die plate : Byte) (s : State) : Host.Outcome State Fault Refusal :=
  .next (if !s.powered then s
    else
      let s := (s.put sysTherm_DIE die.toNat).put sysTherm_PLATE plate.toNat
      let warn : Int := s.get sysTherm_WARN_C
      if !s.flag sysTherm_WARN && decide (warn ≤ die.toInt) then (s.put sysTherm_WARN 1).raise 9 die.toNat
      else if s.flag sysTherm_WARN && decide (die.toInt ≤ warn - 5) then
        (s.put sysTherm_WARN 0).raise 10 (die.signExtend 32).toNat
      else s)

/-! ### Dormant and wake (R487, R488) -/

/-- DORMANT_POWER_DOWN: what was logged on entry is durable, and the rails are off (R487). -/
def execDormantPowerDown (s : State) : Host.Outcome State Fault Refusal :=
  .next (if s.power.stage = .entering then (State.commitAll s.peat.queue.length s).powerOff 8 .dormant else s)

/-- A wake source fires in Dormant: the first is latched, and the start begins once VMAIN is good. -/
def State.latchWake (s : State) (source : Nat) : State :=
  let first := s.power.wake.getD source
  if s.power.vmainGood then s.startFrom first else s.modPower fun p => { p with wake := some first }

/-- WAKE_N_ASSERT: low for 10 ms. -/
def execWakeNAssert (s : State) : Host.Outcome State Fault Refusal :=
  .next (if s.power.stage = .lockout then s.leaveLockout 0
    else if s.power.stage = .dormant ∧ s.flag sysWakeCfg_ON_WAKE_N then s.latchWake 1
    else s)

/-- PERST_RISING_EDGE of Port A or Port B. -/
def execPerstRisingEdge (port : Fin 2) (s : State) : Host.Outcome State Fault Refusal :=
  .next (if s.power.stage = .dormant ∧ s.flag sysWakeCfg_ON_PERST then s.latchWake (3 + port.val) else s)

/-- VMAIN_WAKE: VMAIN becomes good; after a request for Dormant only where ON_VMAIN lets it wake. -/
def execVmainWake (s : State) : Host.Outcome State Fault Refusal :=
  .next (
    let s := s.modPower fun p => { p with vmainGood := true }
    if s.power.stage = .lockout then s.leaveLockout 0
    else if s.power.stage ≠ .dormant then s
    else if s.flag sysWakeCfg_ON_VMAIN ∨ s.get sysResetCause_CODE ≠ 8 then s.latchWake 2
    else match s.power.wake with
      | some w => s.startFrom w
      | none => s)

/-! ### GPIO (R502) -/

/-- Whether a contact is held as TE by a DSI port (R124). -/
def State.teHolds (s : State) (contact : Nat) : Bool := (contact == 6 || contact == 7) && (s.link contact).teHeld

/-- A contact becomes an input or an output at a level. -/
def State.setGpio (s : State) (i op : Nat) : State :=
  let s := (s.putBitAt sysGpio_CLAIM i true).putBitAt sysGpio_DIR i (op != 1)
  if op = 1 then s
  else (s.putBitAt sysGpio_OUT i (op == 3)).emit (.contact (["GPIO_0", "GPIO_1", "GPIO_2", "GPIO_3", "GPIO_4", "GPIO_5",
    "GPIO_6", "GPIO_7"].getD i "") (op - 2))

/-- GPIO_SET: a claim takes effect at once, a release at the next master frame start; a contact held as TE refuses both, and the
refusal is logged. -/
def gpioRun (s : State) (o : Origin) : State × Effect :=
  if s.teHolds (o.u8 0) then (s, .refuseLogged (refusal stPinTaken 0))
  else if o.u8 1 = 0 then (s.modPower fun p => { p with gpioDue := p.gpioDue ++ [(o.u8 0, some o)] }, .later)
  else (s.setGpio (o.u8 0) (o.u8 1), .answer (done 0 0))

def specGpioSet : OpSpec :=
  { opcode := 0x0123, lens := len 8, zero := fun _ => zeroMask [(2, 7)] [], modes := modesPSDBT, issuer := .managers,
    log := .logged,
    check := fun _ o => if 7 < o.u8 0 then some (stNoResource, 1) else if 3 < o.u8 1 then some (stNoResource, 2) else none,
    run := gpioRun }

/-- Releases of GPIO contacts take effect at a master frame start. -/
def State.gpioFrameStart (s : State) : State :=
  let due := s.power.gpioDue
  (s.modPower fun p => { p with gpioDue := [] }).each due fun s d =>
    let s := s.putBitAt sysGpio_CLAIM d.1 false
    match d.2 with
    | some o => s.settle o (done 0 0)
    | none => s

/-! ### Recovery loads (R504) -/

/-- The bytes of a boot flash slot, 32 MiB, and where it begins (R414). -/
def slotBytes : Nat := 0x2000000
def slotBase (slot : Nat) : Nat := if slot = 0 then 0x100000 else 0x2100000

def specRecoveryLoad : OpSpec :=
  { opcode := 0x0121, lens := len 24, zero := fun _ => zeroMask [(1, 3), (16, 23)] [], modes := [7], issuer := .managers,
    log := .reserve,
    check := fun s o =>
      if 1 < o.u8 0 then some (stNoResource, 1)
      else if o.u32 4 % 4096 ≠ 0 ∨ slotBytes < o.u32 4 then some (stNoResource, 5)
      else if o.u64 8 % 4096 ≠ 0 then some (stNoResource, 9)
      else if !s.power.bootRom && (o.u8 0 == 1) == s.power.slotB then some (stConflict, 1)
      else none,
    run := fun s o =>
      (s.modPower fun p => { p with loads := p.loads ++ [⟨o.u8 0, o.u32 4, o.u64 8, o⟩] }, .later) }

/-- RECOVERY_LOAD_COMPLETE: the oldest load of a ring ends. `cause` is that of the first image that fails the first pass, of kind
`kind`, or any cause with kind 0 where an image is missing; 0 where all pass; `readBack` whether the read-back passes; `image`
what the function's host memory held. -/
def execRecoveryLoadComplete (ring : Fin 34) (kind : Fin 5) (cause : Fin 6) (readBack : Bool) (image : List Byte)
    (s : State) : Host.Outcome State Fault Refusal :=
  .next (match s.power.loads.find? fun l => l.origin.ring == ring.val with
    | none => s
    | some l =>
      let s := s.modPower fun p => { p with loads := p.loads.erase l }
      if cause.val ≠ 0 then
        let d := kind.val * 256 + cause.val
        let s := s.when (kind.val != 0) fun s => s.raise 421 d
        s.settle l.origin (refusal stNoResource (if kind.val = 0 then 0xFF else d))
      else
        let base := slotBase l.slot
        let erased := sclear s.power.flash base (base + slotBytes)
        if !readBack then
          (s.modPower fun p => { p with flash := erased }).settle l.origin (refusal stNoResource 0xFE)
        else
          let bytes := if ring.val < 32 then bytesAt image 0 l.length else s.load l.source l.length
          (s.modPower fun p => { p with flash := sput erased base bytes }).settle l.origin (done l.length 0))

/-! ### The other power opcodes (R506, R507) -/

def specWakeSet : OpSpec :=
  { opcode := 0x0122, lens := len 8, zero := fun _ => zeroMask [(1, 7)] [], modes := allModes, issuer := .managers,
    log := .logged, check := fun _ o => if 7 < o.u8 0 then some (stNoResource, 1) else none,
    run := fun s o => (s.wr sysWakeCfg (BitVec.ofNat 64 (o.u8 0)), .answer (done 0 0)) }

def specPowerQuery : OpSpec :=
  { opcode := 0x0124, lens := len 0, modes := allModes, issuer := .any, query := true,
    run := fun s _ => (s, .answer (done ((s.rd sysPower).toNat + 0x100000000 * (s.rd sysTherm).toNat)
      ((s.rd sysResetCause).toNat + 0x100000000 * (s.rd sysMode).toNat))) }

def execGpioSet (p : Packet) (s : State) : Host.Outcome State Fault Refusal := packetStep specGpioSet p s
/-- GPIO_RELEASE: the GPIO_SET packet whose byte 1 is 0. -/
def execGpioRelease (p : Packet) (s : State) : Host.Outcome State Fault Refusal := packetStep specGpioSet p s
def execRecoveryLoad (p : Packet) (s : State) : Host.Outcome State Fault Refusal := packetStep specRecoveryLoad p s
def execWakeSet (p : Packet) (s : State) : Host.Outcome State Fault Refusal := packetStep specWakeSet p s
def execPowerQuery (p : Packet) (s : State) : Host.Outcome State Fault Refusal := packetStep specPowerQuery p s

end Sys2Proof.Machine
end

