-- ==== Sys2Proof/Machine/Resets.lean ====
section
/-! DEFINITION. Warm resets (R496 to R499), the sources that reset the module (R489, R490) and the control-core watchdog
(R493). -/
namespace Sys2Proof.Machine

/-! ### Reach of a warm reset (R496) -/

/-- A field takes its Warm value, if its register's table gives one. SWITCHING is left to the switch that runs (R499). -/
def State.warmField (s : State) (x : FieldInfo) : State :=
  match x.warm with
  | .val v => if x.f = worldStatus_SWITCHING then s else s.put x.f v
  | _ => s

/-- The registers that hold other than their Cold value take their Warm values (R6); those of BAR 0 follow their function's
reset. -/
def State.warmRegisters (s : State) : State :=
  s.each s.regs fun s e => match regAt e.1 with
    | some (i, _) => if i.block = .fn then s else s.each i.fields State.warmField
    | none => s

/-- The internal packet rings are reset: what was posted or under way on them is dropped without reply (R107). -/
def State.dropInternal (s : State) (r : Nat) : State :=
  let s := (s.nextEpoch r).setCaravans (s.pkt.caravans.filter fun c => c.ring != r)
  { s with pkt := { s.pkt with
      tails := s.pkt.tails.set r 0, bells := s.pkt.bells.set r [], stopped := s.pkt.stopped.set r false } }

/-- Blocks that SYS_SWRST holds, or whose release waits, are released as it takes its Warm value. -/
def State.releaseAll (s : State) : State :=
  let held := swrstBits ((s.rd sysSwrst).toNat ||| (s.rd sysSwrstPend).toNat)
  (s.each held State.coldBlock).modPower fun p => { p with stuck := 0 }

/-- A warm reset is decided (R497). What a reset of a function does follows for all 32 of them. -/
def State.beginWarm (s : State) (code : Nat) : State :=
  let s := ((s.put sysResetCause_CODE code).put sysResetCause_MERGED 0).raise 1 code
  let s := s.modPower fun p => { p with warm := some ⟨code, false, false⟩ }
  let s := (((s.hapWarm).touchWarm).audWarm).gfxResetWarm
  let s := ((s.cuResetWarm).wbCut).dramcResetWarm
  let s := s.each (List.range 32) fun s f => s.requestReset f 5 [] none
  let s := (s.mbqResetWarm).each (List.range 32) State.stopDelivery
  let s := (s.dropInternal 32).dropInternal 33
  let s := s.each (List.range 4) State.detach
  let s := s.releaseAll.warmRegisters
  s.each (List.range 8) fun s n => (s.put (headStatus_ASH n) 1).ashFromNext n

/-- A warm source: merged into a warm reset in progress, a cold reset with rails kept during the slots, in Kindling and in
boot-ROM Recovery, else a warm reset (R490). -/
def State.warmSource (s : State) (code : Nat) : State :=
  match s.power.stage with
  | .slot _ _ | .boot => s.coldReset (code + 0x80) false
  | .working =>
    if s.mode = modeKindling ∨ (s.mode = modeRecovery ∧ s.power.bootRom) then s.coldReset (code + 0x80) false
    else if s.power.warm.isSome then s.bump sysResetCause_MERGED
    else s.beginWarm code
  | _ => s

/-- A reset the supervisor asked for in the grain is carried out at its end (R464, R489). -/
def State.supervisorReset (s : State) : State :=
  match s.supv.reset with
  | none => s
  | some code =>
    let s : State := { s with supv := { s.supv with reset := none } }
    if code < 0x10 then s.coldSource code false else s.warmSource code

/-- WARM_RESET_READY: every function reset is complete and firmware is ready. `k3` is the cause with which the open image fails, 0
where it passes; a failure makes Recovery the mode at completion (R497). -/
def execWarmResetReady (k3 : Fin 6) (s : State) : Host.Outcome State Fault Refusal :=
  .next (match s.power.warm with
    | none => s
    | some w =>
      if w.ready || s.fns.any fun x => x.reset.isSome then s
      else
        let bad := k3.val ≠ 0
        let s := s.modPower fun p => { p with warm := some { w with ready := true, recovery := bad } }
        if bad then s.raise 421 (3 * 256 + k3.val) else s)

/-- The first master frame start after firmware is ready completes the warm reset: marker 2, WARM_DONE, ports and bridges back,
the records it held routed, Recovery entered if the open image failed (R446, R497, R499). -/
def State.warmFrameStart (s : State) : State :=
  match s.power.warm with
  | none => s
  | some w =>
    if !w.ready then s
    else
      let code := s.get sysResetCause_CODE
      let s := s.marker 2 0x8FFF (leBytes 4 code) 900
      let s := s.modPower fun p => { p with warm := none, ccKick := s.now }
      let s := (s.raise 2 (code * 256 + min (s.get sysResetCause_MERGED) 255)).routeHeld
      let s := s.portsAfterWarm.hapAfterWarm
      s.when w.recovery fun s => (s.modPower fun p => { p with cause := 2 }).beginMode modeRecovery none

/-! ### Sources (R489) -/

/-- RESET_N_ASSERT: low for 10 µs, and high again; the module off after rail faults starts anew (R485). -/
def execResetNAssert (s : State) : Host.Outcome State Fault Refusal :=
  .next (if s.power.stage = .lockout then s.leaveLockout 0 else s.coldSource 5 false)

/-- WARM_N_ASSERT: low for 10 µs. -/
def execWarmNAssert (s : State) : Host.Outcome State Fault Refusal := .next (s.warmSource 0x11)

/-- SUPV_WD_EXPIRED: no kick for WD_MS (R461). -/
def execSupvWdExpired (s : State) : Host.Outcome State Fault Refusal :=
  .next (if s.supervised && s.elapsedUs s.supv.kickAt (s.get supvCtrl_WD_MS * 1000) then
    ((s.modSupv fun v => { v with kickAt := s.now }).raise 480 (s.get supvCtrl_WD_MS)).warmSource 0x12
  else s)

/-- LOCKSTEP_RESET_DELAY: 10 ms after a lockstep fault the supervisor's cold reset follows (R460). -/
def execLockstepResetDelay (s : State) : Host.Outcome State Fault Refusal :=
  .next (if s.supv.halted then s.coldSource 4 false else s)

/-- SYS_CC_KICK_WRITE: either world restarts the control-core watchdog with KEY 0x5A (R493). -/
def execSysCcKickWrite (who : Requester) (value : W32) (s : State) : Host.Outcome State Fault Refusal :=
  .next (if !s.mayWrite who then s.emit (.busError (agentOf who) sysCcKick.addr)
    else if value.toNat % 256 = 0x5A then s.modPower fun p => { p with ccKick := s.now } else s)

/-- CC_WATCHDOG_EXPIRY: TIMEOUT_MS without a kick (R493). -/
def execCcWatchdogExpiry (s : State) : Host.Outcome State Fault Refusal :=
  .next (if s.flag sysCcWdog_EN && s.power.warm.isNone
      && s.elapsedUs s.power.ccKick (s.get sysCcWdog_TIMEOUT_MS * 1000) then s.warmSource 0x13 else s)

/-- A write of SYS_RESET_CMD: with any key but 0xA5 it is ignored (R505). -/
def State.resetCommand (s : State) (who : Requester) (key kind : Nat) : State :=
  s.sealedWrite who sysResetCmd (key + 0x100 * kind) fun s => s

/-- RESET_CMD_WARM: SYS_RESET_CMD kind 1. -/
def execResetCmdWarm (who : Requester) (key : Byte) (s : State) : Host.Outcome State Fault Refusal :=
  .next (
    let acts := s.mayWrite who && worldOf who == .sealed && !s.writeBarred who sysResetCmd.addr && key.toNat == 0xA5
    let s := s.resetCommand who key.toNat 1
    if acts then s.warmSource 0x14 else s)

/-- RESET_CMD_COLD: SYS_RESET_CMD kind 2. -/
def execResetCmdCold (who : Requester) (key : Byte) (s : State) : Host.Outcome State Fault Refusal :=
  .next (
    let acts := s.mayWrite who && worldOf who == .sealed && !s.writeBarred who sysResetCmd.addr && key.toNat == 0xA5
    let s := s.resetCommand who key.toNat 2
    if acts then s.coldSource 6 false else s)

/-- MODULE_RESET: its record, in the reserve if need be, is made durable, and the reset follows; there is no reply (R506). -/
def specModuleReset : OpSpec :=
  { opcode := 0x0120, lens := len 8, zero := fun _ => zeroMask [(1, 7)] [], modes := allModes, issuer := .romManagers,
    check := fun _ o => if o.u8 0 = 1 ∨ o.u8 0 = 2 then none else some (stNoResource, 1),
    run := fun s o =>
      let s := s.recordPacket { o with logged := true, reserve := true } stDone none
      let s := State.commitAll s.peat.queue.length s
      (if o.u8 0 = 2 then s.coldSource 6 false else s.warmSource 0x14, .silent) }

/-- MODULE_RESET_WARM: kind 1. -/
def execModuleResetWarm (p : Packet) (s : State) : Host.Outcome State Fault Refusal := packetStep specModuleReset p s
/-- MODULE_RESET_COLD: kind 2. -/
def execModuleResetCold (p : Packet) (s : State) : Host.Outcome State Fault Refusal := packetStep specModuleReset p s

end Sys2Proof.Machine
end

