-- ==== Sys2Proof/Machine/Time.lean ====
section
/-! DEFINITION. The passing of wall time: what happens at a master frame start (R127), what falls due at a raster position
(R28), the tick of one grain, and the commands that name a raster position. -/
namespace Sys2Proof.Machine

/-! ### Caravan members -/

/-- The opcodes that caravans carry (R93). -/
def memberSpecs : List OpSpec :=
  [specCaravanTime, specCaravanFence, specCaravanEnd, specHeadShow, specHeadOutputSet, specHeadGammaSet, specLayerSet,
   specLayerAddr, specLayerColour, specWbSet, specGuardSet, specFreshTime, specRectSet, specRectExpect, specEmberSet,
   specEmberPalette, specEmberExpect, specIntegCfg, specDeadlineSet, specCompSet, specCompTime]
  ++ [specTouchSet, specZoneSet, specPickSet, specPickScene, specPickClasses, specHapChannelSet, specHapEffectSet, specRouteSet,
   specBusSet, specEqSet, specSinkSet, specStreamSet, specToneSet, specTonePlay]

/-- What the spec says of a caravan member's opcode. -/
def memberSpec : SpecTable := fun opcode => memberSpecs.find? fun sp => sp.opcode == opcode

/-- CARAVAN_VALIDATION_DONE: validation of a committed caravan completes (R98). -/
def execCaravanValidationDone (ring : Fin 34) (id : W32) (s : State) : Host.Outcome State Fault Refusal :=
  .next (s.validated memberSpec ring.val id)

/-! ### Master frame start (R127, R476) -/

/-- The frame that ends is accounted for, under the raster and the mode it had. -/
def State.closeFrame (s : State) : State :=
  let s := s.each (List.range 8) fun s n => s.relock n s.wall.jumping
  s.supvFrameStart.peatFrameStart.cuFrameStart.takeShares.gfxFrameStart

/-- Settings staged for this frame start apply, a warm reset that is ready completes, and the mode changes before the arm
sample (R476, R497). -/
def State.openFrame (s : State) : State :=
  s.wallFrameStart.pktFrameStart.warmFrameStart.modeFrameStart.hapFrameStart.touchFrameStart.gpioFrameStart.teRelease

/-- What happens in grain 0 of line 0 of a master frame: caravans land, then the armed heads are sampled (R127); the spare loads;
tenants move home. -/
def State.frameStart (s : State) : State :=
  (((((s.closeFrame.openFrame).armCaravans memberSpec).armHeads).spareFrameStart).moveHomes).summary

/-! ### What falls due in a grain -/

/-- The latch position of head `n`: an armed head latches, with the settings of its composition, and the composition's job
begins (R128, R130, R222, R229). -/
def State.latchDue (s : State) (n : Nat) : State :=
  if !s.flag (headStatus_ARMED n) && s.compGet (gfxCompCtrl_EN n) == 0 then s
  else if s.now ≠ s.latchAt n then s
  else
    let s := s.when (s.flag (headStatus_ARMED n)) fun s =>
      (s.copyRegs (gfxCompCtrl n).addr ((gfxCompCtrl n).addr + actComp) 0x38).latch n
    s.jobBegin n

/-- The warning and deadline positions of head `n`'s composition (R223, R225). -/
def State.compDue (s : State) (n : Nat) : State :=
  if s.compGet (gfxCompCtrl_EN n) = 0 then s
  else
    let s := s.when (s.now == s.warnAt n) fun s => s.compWarn n
    s.when (s.now == s.deadAt n) fun s => s.compDeadline n

/-- When head frame `kf` at stamp `t` has, by R25, begun: a step that the head carries into it shifts the instant alone (R115). -/
def State.plannedStart (s : State) (n : Nat) (t : Stamp) : Stamp :=
  if (s.head n).carry then s.moveStamp t (s.head n).shift else t

/-- Head line 0: the next head frame begins, or a head that was disabled stops at the end of its frame (R114, R138, R140). -/
def State.headDue (s : State) (n : Nat) : State :=
  match s.nextStart n with
  | some (t, kf) => if t.le s.now then s.headFrameStart n kf (s.plannedStart n t) else s
  | none =>
    let h := s.head n
    if s.running n && h.ending && (s.lineStamp n h.frame h.tm.hl).le s.now then s.stopHead n else s

/-- Whether the transfer of the current frame of head `n` has begun, where it needs one (R122). -/
def State.sending (s : State) (n : Nat) : Bool := !s.dsiCommand n || (s.head n).xfer.isSome

/-- Where the current frame of head `n` reaches a head line, in DSI command mode counted from the start of its transfer. -/
def State.sentLine (s : State) (n line : Nat) : Stamp :=
  s.lineStamp n (s.head n).frame (line + (s.head n).xfer.getD 0)

/-- The head line TE_WAIT at which a transfer of port `p` starts without a TE edge (R122). -/
def State.teAt (s : State) (p : Nat) : Stamp := s.lineStamp p (s.head p).frame (s.get (ymxPortDsi_TE_WAIT p))

/-- Whether the current frame of port `p` still waits for its TE edge. -/
def State.awaitsTe (s : State) (p : Nat) : Bool := s.dsiCommand p && s.running p && (s.head p).xfer.isNone

/-- A transfer that has waited until TE_WAIT starts (R123). -/
def State.teDue (s : State) (p : Nat) : State := if s.awaitsTe p && (s.teAt p).le s.now then s.teTimeout p else s

/-- Where the layer of pipe `m` is evaluated by the Mirage Guard (R181). -/
def State.mirageAt (s : State) (m : Nat) : Stamp :=
  let l := s.layer m scanPipe
  s.sentLine l.head l.dy

/-- A C1 layer whose first scanned line has begun is evaluated (R181). -/
def State.mirageDue (s : State) (m : Nat) : State :=
  if s.guarded m && s.sending (s.layer m scanPipe).head && (s.mirageAt m).le s.now then s.evaluate m else s

/-- What is placed at the start of grain 0 of a master line: domain changes and the line of a change of set point (R28, R383,
R407). -/
def State.lineDue (s : State) : State :=
  let s := s.cpcLine
  let s := s.when (s.now.line == s.armLine) State.changeArms
  s.when (s.now.line == s.get dramcFchg_LINE) State.changeLine

/-- What takes effect at the start of a grain, before any event captured in it (R28). -/
def State.grainStart (s : State) : State :=
  let s := s.when (s.now.grain == 0) State.lineDue
  let s := s.each (List.range 8) fun s n => (s.latchDue n).compDue n
  let s := s.each (List.range 8) fun s n => (s.headDue n).teDue n
  s.each (List.range 48) State.mirageDue

/-! ### What ends a grain -/

/-- Where the check of plane `p` of head `n` is complete: its last output line has been blended (R189). -/
def State.c0At (s : State) (n p : Nat) : Stamp :=
  let q := s.plane n p scanWin
  s.sentLine n (q.y + q.h * q.scale)

/-- Where the verdict of head `n` is made: two lines after the last line sent; an earlier frame's, by head line 1 (R199). -/
def State.verdictAt (s : State) (n : Nat) : Stamp :=
  if (s.head n).last.isSome then s.lineStamp n (s.head n).frame 1 else s.sentLine n ((s.head n).tm.vactive + 2)

/-- Whether head `n` still owes a verdict. -/
def State.verdictOwed (s : State) (n : Nat) : Bool :=
  s.running n && s.power.warm.isNone && ((s.head n).last.isSome || (!(s.head n).frame.judged && s.sending n))

/-- Checks and verdicts whose position has come and which no command has made: nothing went wrong on their way. -/
def State.checksDue (s : State) : State :=
  s.each (List.range 8) fun s n =>
    if s.running n then
      let s := s.each [0, 1] fun s p => if s.c0Due n p && s.sending n && (s.c0At n p).le s.now then s.c0Check n p 0 else s
      if s.verdictOwed n && (s.verdictAt n).le s.now then s.headVerdict n [] [] [] false else s
    else s

/-- The end of a grain: checks due, the triggers of the grain, its events, and a reset the supervisor asked for. -/
def State.grainEnd (s : State) : State := (s.checksDue.settleTriggers.flushGrain).supervisorReset

/-! ### Ticks -/

/-- Whether the WALL block runs: from the third power-up slot on (R23, R483). -/
def State.clocked (s : State) : Bool :=
  match s.power.stage with
  | .working | .boot | .entering => true
  | .slot n _ => decide (1 < n)
  | _ => false

/-- The stamp of the next grain. -/
def State.nextStamp (s : State) : Stamp :=
  if s.now.grain < 31 then { s.now with grain := s.now.grain + 1 }
  else if s.now.line + 1 < s.lines then ⟨s.now.frame, s.now.line + 1, 0⟩
  else ⟨s.now.frame + 1, 0, 0⟩

/-- One grain passes. -/
def State.tick (s : State) : State :=
  if !s.clocked then s
  else
    let s := s.grainEnd
    if !s.clocked then s
    else
      let s : State := { s with now := s.nextStamp }
      let s := s.when (s.now.line == 0 && s.now.grain == 0) State.frameStart
      s.grainStart

/-- A number of grains pass. -/
def State.advance : Nat → State → State
  | 0, s => s
  | n + 1, s => State.advance n s.tick

/-- Time passes up to a stamp; never backwards. -/
def State.advanceTo (s : State) (t : Stamp) : State := State.advance (s.grains t - s.grains s.now) s

/-- A position of the current master frame, or of the next one when it has passed. -/
def State.upcoming (s : State) (t : Stamp) : Stamp := if t.lt s.now then { t with frame := t.frame + 1 } else t

/-! ### Commands that name a position -/

/-- MASTER_FRAME_START: time passes up to the next arm instant (R127). -/
def execMasterFrameStart (s : State) : Host.Outcome State Fault Refusal := .next (s.advanceTo ⟨s.now.frame + 1, 0, 0⟩)

/-- WARM_RESET_COMPLETE: a warm reset whose firmware is ready completes at the next frame start (R497). -/
def execWarmResetComplete (s : State) : Host.Outcome State Fault Refusal :=
  .next (if s.power.warm.any (·.ready) then s.advanceTo ⟨s.now.frame + 1, 0, 0⟩ else s)

/-- HEAD_LATCH: the raster reaches the latch position of a head (R128). -/
def execHeadLatch (head : Fin 8) (s : State) : Host.Outcome State Fault Refusal :=
  .next (s.advanceTo (s.upcoming (s.latchAt head.val)))

/-- HEAD_FRAME_START: the raster reaches head line 0 of a head (R114). -/
def execHeadFrameStart (head : Fin 8) (s : State) : Host.Outcome State Fault Refusal :=
  .next (
    let n := head.val
    if s.running n && s.now == s.lineStamp n (s.head n).frame 0 then s
    else match s.nextStart n with
      | some (t, _) => s.advanceTo t
      | none => s)

/-- TE_TIMEOUT: the raster reaches TE_WAIT while a transfer waits (R123). -/
def execTeTimeout (port : Fin 8) (s : State) : Host.Outcome State Fault Refusal :=
  .next (if s.awaitsTe port.val then s.advanceTo (s.teAt port.val) else s)

/-- COMP_JOB_READY: a composition job whose fence is signalled becomes ready (R222). -/
def execCompJobReady (head : Fin 8) (s : State) : Host.Outcome State Fault Refusal := .next (s.jobReady head.val)

/-- COMP_WARN: the raster reaches a head's warning position (R223). -/
def execCompWarn (head : Fin 8) (s : State) : Host.Outcome State Fault Refusal :=
  .next (s.advanceTo (s.upcoming (s.warnAt head.val)))

/-- COMP_DEADLINE: the raster reaches a head's deadline position (R225). -/
def execCompDeadline (head : Fin 8) (s : State) : Host.Outcome State Fault Refusal :=
  .next (s.advanceTo (s.upcoming (s.deadAt head.val)))

/-- FREQ_CHANGE_LINE: the raster reaches grain 0 of line L (R383). -/
def execFreqChangeLine (s : State) : Host.Outcome State Fault Refusal :=
  .next (s.advanceTo (s.upcoming ⟨s.now.frame, s.get dramcFchg_LINE, 0⟩))

/-- MIRAGE_EVALUATION: the raster reaches the first scanned line of a C1 layer (R181). -/
def execMirageEvaluation (pipe : Fin 48) (s : State) : Host.Outcome State Fault Refusal :=
  .next (if s.guarded pipe.val && s.sending (s.layer pipe.val scanPipe).head then s.advanceTo (s.mirageAt pipe.val) else s)

/-- LAYER_FIRST_LINE: the raster reaches a layer's first destination line; a layer that is not ready is treated as an underrun at
its first pixel (R166). -/
def execLayerFirstLine (pipe : Fin 48) (ready : Bool) (s : State) : Host.Outcome State Fault Refusal :=
  .next (
    let m := s.leadPipe pipe.val
    if !s.layerShown m || !s.sending (s.layer m scanPipe).head || (s.mirageAt m).lt s.now then s
    else
      let s := s.advanceTo (s.mirageAt m)
      let l := s.layer m scanPipe
      if !ready && s.layerShown m && (s.pipe m).offAt.isNone then s.underrun m l.dy l.dx 41 else s)

/-- C0_CHECK_COMPLETE: a plane's last line has been blended and its check completes (R189). -/
def execC0CheckComplete (head : Fin 8) (plane : Fin 2) (err : W32) (s : State) : Host.Outcome State Fault Refusal :=
  .next (if s.c0Due head.val plane.val && s.sending head.val then
    (s.advanceTo (s.c0At head.val plane.val)).c0Check head.val plane.val err.toNat else s)

/-- HEAD_VERDICT: the verdict of a head is made at its position (R199). -/
def execHeadVerdict (head : Fin 8) (pin tap spare : List W32) (lost : Bool) (s : State) : Host.Outcome State Fault Refusal :=
  .next (if s.verdictOwed head.val then
    (s.advanceTo (s.verdictAt head.val)).headVerdict head.val (pin.map (·.toNat)) (tap.map (·.toNat)) (spare.map (·.toNat)) lost
  else s)

/-- TOUCH_WINDOW_END: an integration window of a port ends (R273, R280). -/
def execTouchWindowEnd (port : Fin 4) (slot : Fin 8) (raw : List W16) (clipped : BitVec 112) (monitor : List W16) (s : State) :
    Host.Outcome State Fault Refusal :=
  .next (
    let p := port.val
    if !s.scans p || !s.flag (touchWin_EN p slot.val) then s
    else
      let t := s.addGrains ⟨s.now.frame, s.get (touchWin_LINE p slot.val), 0⟩ s.windowGrains
      (s.advanceTo (s.upcoming t)).touchWindow p slot.val raw clipped monitor)

/-- AUDIO_SAMPLE: the next sample clock; the sample is mixed (R29, R329). The engine is held while its domain or its bit of
SYS_SWRST holds it. -/
def execAudioSample (line0 line1 : BitVec 24) (tdm : List (BitVec 24)) (limited : Byte) (s : State) :
    Host.Outcome State Fault Refusal :=
  .next (
    let n := max (s.aud.sample + 1) s.audNow
    let s := s.advance (s.sampleGrains n - s.grains s.now)
    if s.blockUp 35 28 then
      s.mixSample n [toSigned 24 line0.toNat, toSigned 24 line1.toNat] (tdm.map fun x => toSigned 24 x.toNat) limited
    else s)

end Sys2Proof.Machine
end

