-- ==== Sys2Proof/Machine/Bus.lean ====
section
/-! DEFINITION. The register bus: REGISTER_READ and REGISTER_WRITE, by a control core, a debug session, or a host through BAR 0
(R4, R5, R42, R548 to R552), with the rule each block gives its own registers. -/
namespace Sys2Proof.Machine

/-! ### Where an access falls (R549, R550) -/

/-- The bytes of an access. -/
def widthBytes : Width → Nat
  | .w8 => 1
  | .w16 => 2
  | .w32 => 4
  | .w64 => 8

/-- A register as an access finds it: at its own address or as its active copy, `act` bytes above it. -/
structure Hit where
  info : RegInfo
  act : Nat
  active : Bool
  deriving DecidableEq, Repr

/-- The address at which a register was found. -/
def hitAddr (h : Hit) : Nat := if h.active then h.info.reg.addr + h.act else h.info.reg.addr

/-- The register that begins at an address. -/
def hitAt (a : Nat) : Option Hit :=
  match regAt a with
  | some x => some ⟨x.1, x.2, false⟩
  | none => (regActiveAt a).map fun i => ⟨i, a - i.reg.addr, true⟩

/-- The registers that an access of `n` bytes overlaps, in ascending address; every register lies within 8 aligned bytes. -/
def hitsIn (a n : Nat) : List Hit :=
  ((List.range 4).filterMap fun k => hitAt (a / 8 * 8 + 2 * k)).filter fun h =>
    decide (hitAddr h < a + n) && decide (a < hitAddr h + h.info.width / 8)

/-- The part of a register that an access covers: `bits` bits from bit `low`, which stand at bit `at_` of the data. -/
structure Part where
  hit : Hit
  low : Nat
  bits : Nat
  at_ : Nat
  deriving DecidableEq, Repr

/-- The parts an access covers; none where its width or alignment is not allowed (R550). -/
def partsOf (a n : Nat) : Option (List Part) :=
  if a % n ≠ 0 then none
  else match hitsIn a n with
    | [] => some []
    | [h] =>
      if h.info.width = 8 * n ∧ hitAddr h = a then some [⟨h, 0, 8 * n, 0⟩]
      else if h.info.width = 64 ∧ n = 4 then some [⟨h, (a - hitAddr h) * 8, 32, 0⟩]
      else none
    | [h, k] =>
      if h.info.width = 16 ∧ k.info.width = 16 ∧ hitAddr h = a then some [⟨h, 0, 16, 0⟩, ⟨k, 0, 16, 16⟩] else none
    | _ => none

/-- The bank address of a byte of a send port (R345). -/
def txAddr (bank off : Nat) : Nat := (mbqTxData bank 0).addr + off

/-- Whether an address lies in the banked send port, +0x8000 to +0x804F of the MBQ block. -/
def inSendPort (a : Nat) : Bool := decide (0x40608000 ≤ a ∧ a < 0x40608050)

/-- Where an internal access to a banked register goes: a core's own copy; none for a requester that has no copy. -/
def bankAddr (who : Requester) (a : Nat) : Option Nat :=
  if inSendPort a then (txBank who 0).map fun b => txAddr b (a - 0x40608000)
  else if a / 4 * 4 = 0x47000020 then (scopeBank who).map fun b => (peatScope b).addr + a % 4
  else some a

/-- The register behind an offset of BAR 0 (R42, R343); none where the offset behaves as reserved. -/
def State.hostAddr (s : State) (f off : Nat) : Option Nat :=
  if off < 0x8000 then some (fnBank + 0x10000 * f + off)
  else if off < 0xC000 then
    let k := (off - 0x8000) / 0x800
    let w := off % 0x800
    match s.windowBox f k with
    | none => none
    | some m =>
      if w < 0x50 then some (0x40600000 + m * 0x100 + 0x40 + w)
      else if 0x100 ≤ w ∧ w < 0x150 then some (txAddr (8 + 8 * f + k) (w - 0x100))
      else if 0x200 ≤ w ∧ w < 0x220 then (s.windowLock f (k * 8 + (w - 0x200) / 4)).map fun l => (mbqLock l).addr + w % 4
      else none
  else none

/-! ### What a register reads as -/

/-- Sealed writes to these registers take effect at the next master frame start: TOUCH_n_CTRL to TOUCH_n_HOP and the zones,
HAP_n_CFG to HAP_n_RES, and the pick registrations (R264, R294, R314). -/
def stagedAddr (a : Nat) : Bool :=
  (decide (0x42005000 ≤ a ∧ a < 0x42006000))
    || (decide (0x43000000 ≤ a ∧ a < 0x43100000) && (decide (a % 0x40000 < 0x54) || decide (0x30000 ≤ a % 0x40000)))
    || (decide (0x43400000 ≤ a ∧ a < 0x43400800) && decide (a % 0x100 < 0xC))

/-- The WALL registers that APPLY brings into use (R31). -/
def wallStaged (a : Nat) : Bool := decide (0x40100004 ≤ a ∧ a ≤ 0x40100014)

/-- The value last written to a register that takes it later, or the value in use. -/
def State.written (s : State) (r : Reg) : Nat :=
  if wallStaged r.addr then s.stagedWall r
  else if r.addr = pktCtrl.addr then s.pkt.ctrl.getD (s.rd r).toNat
  else if stagedAddr r.addr then
    match s.staged.find? fun e => e.1 == r.addr with
    | some e => (e.2 ^^^ BitVec.ofNat 64 r.cold).toNat
    | none => (s.rd r).toNat
  else (s.rd r).toNat

/-- The levels on the GPIO contacts: an output shows its own level, an input what stands on the contact (R502). -/
def State.gpioNow (s : State) : Nat :=
  let dir := BitVec.ofNat 8 (s.get sysGpio_DIR)
  ((BitVec.ofNat 8 (s.get sysGpio_OUT) &&& dir) ||| (s.free.truncate 8 &&& ~~~dir)).toNat

/-- Eight bytes of the record that PEAT_RD_IDX names, zero where none is held (R448). -/
def State.recordWord (s : State) (i : Nat) : Nat :=
  let n := s.get peatRdIdx_INDEX
  if s.get peatOldest_VALUE ≤ n ∧ n < s.get peatNext_VALUE then leNat (((s.storedRecord n).drop (8 * i)).take 8) else 0

/-- The registers of context 0's window, which hold nothing (R209). -/
def ctxZero (a : Nat) : Bool := decide (0x42001000 ≤ a ∧ a < 0x42001040)

/-- The value a register reads as. -/
def State.regShown (s : State) (h : Hit) : Nat :=
  let r := h.info.reg
  let a := r.addr
  if h.active then (s.rd ⟨a + h.act, r.cold⟩).toNat
  else match h.info.block with
    | .sys =>
      if a = sysId.addr then s.variant + Config.dieRev % 256 * 0x100 + Config.moduleRev % 256 * 0x10000
      else if a = sysGpio.addr then setField (s.rd r).toNat 24 8 s.gpioNow
      else (s.rd r).toNat
    | .wall =>
      if a = wallNow.addr then s.now.word.toNat
      else if a = wallHoldTime.addr then (s.holdTime.rd r).toNat
      else s.written r
    | .head =>
      if a < 0x41080000 ∧ a % 0x10000 = 0x44 then s.headPosNow ((a - 0x41000000) / 0x10000)
      else if a < 0x41080000 ∧ a % 0x10000 = 0x48 then s.pclkKhz (s.timing ((a - 0x41000000) / 0x10000))
      else (s.rd r).toNat
    | .gfx => if ctxZero a then 0 else s.written r
    | .aud => if a = Sys2Proof.Machine.audNow.addr then s.audNow else (s.rd r).toNat
    | .dramc =>
      if (dramcChRt 0).addr ≤ a ∧ a ≤ (dramcChRt 7).addr ∧ a % 0x100 = 4 then s.rtNow else (s.rd r).toNat
    | .peat => if (peatRdRec 0).addr ≤ a then s.recordWord ((a - (peatRdRec 0).addr) / 8) else (s.rd r).toNat
    | .supv => if a = supvStatus.addr then s.supvStatusNow else (s.rd r).toNat
    | _ => s.written r

/-- What a completed read changes: RC fields within the part clear (R4, R5), and open levels have been used. -/
def State.readDone (s : State) (p : Part) : State :=
  let s := s.when (p.hit.info.reg.addr == sysGpio.addr) State.freeUsed
  if p.hit.active then s
  else p.hit.info.fields.foldl (fun s f =>
    if f.acc = .rc ∧ p.low < f.f.lsb + f.f.width ∧ f.f.lsb < p.low + p.bits then s.put f.f 0 else s) s

/-- A read of `n` bytes: the data, and the state after it; none where the width or alignment is not allowed (R550). -/
def State.readAt (s : State) (a n : Nat) : Option (State × Nat) :=
  if 0x40600000 ≤ a ∧ a < 0x40604000 ∧ 0x40 ≤ a % 0x100 ∧ a % 0x100 < 0x80 then
    if (n = 4 ∨ n = 8) ∧ a % n = 0 then
      some (s, leNat (((s.oldest ((a - 0x40600000) / 0x100)).drop (a % 0x100 - 0x40)).take n))
    else none
  else if txAddr 0 0 ≤ a ∧ a < txAddr 264 0 ∧ a % 0x10000 = 0x8040 then (if n = 4 then some (s, 0) else none)
  else if txAddr 0 0 ≤ a ∧ a < txAddr 264 0 ∧ 0x8048 ≤ a % 0x10000 then
    if (n = 4 ∨ n = 8) ∧ a % n = 0 then
      let m := s.get (mbqTxStatus_MB ((a - txAddr 0 0) / 0x10000))
      some (s, (s.rd (mbqMbPeer m)).toNat / 2 ^ (a % 8 * 8) % 2 ^ (8 * n))
    else none
  else if n = 4 ∧ a = wallNow.addr + 4 then some (s, s.wall.nowUpper.toNat)
  else if n = 4 ∧ a = Sys2Proof.Machine.audNow.addr + 4 then some (s, s.wall.audUpper.toNat)
  else (partsOf a n).map fun ps =>
    (ps.foldl State.readDone s, (ps.map fun p => s.regShown p.hit / 2 ^ p.low % 2 ^ p.bits * 2 ^ p.at_).sum)

/-! ### What a write stores (R4) -/

/-- What a field stores for a value, by the Meaning column. -/
def limited : Lim → Nat → Nat
  | .any, v => v
  | .clamp lo hi, v => max lo (min hi v)
  | .over top repl, v => if top < v then repl else v
  | .overBut top keep repl, v => if v ≤ top ∨ v = keep then v else repl
  | .lanes, v => if v = 1 ∨ v = 2 ∨ v = 4 then v else 4

/-- One field after a write of `bits` bits `v` from bit `low` of a register that held `old` (R4). -/
def fieldAfter (f : FieldInfo) (old low bits v : Nat) : Nat :=
  let was := old / 2 ^ f.f.lsb % 2 ^ f.f.width
  let mine := v * 2 ^ low / 2 ^ f.f.lsb % 2 ^ f.f.width
  if f.f.lsb + f.f.width ≤ low ∨ low + bits ≤ f.f.lsb then was
  else match f.acc with
    | .rw => limited f.lim (setField old low bits v / 2 ^ f.f.lsb % 2 ^ f.f.width)
    | .w1c => was - (was &&& mine)
    | .w1s => was ||| mine
    | _ => was

/-- A register that held `old` after a write to a part of it (R4). -/
def regAfter (info : RegInfo) (old low bits v : Nat) : Nat :=
  info.fields.foldl (fun acc f => setField acc f.f.lsb f.f.width (fieldAfter f old low bits v)) old

/-- A register that held `old` after a write of data to a part of it. -/
def partAfter (p : Part) (old v : Nat) : Nat := regAfter p.hit.info old p.low p.bits (v / 2 ^ p.at_ % 2 ^ p.bits)

/-- What the rule of a block says of a write: it goes on; it ends in a bus error; or it is also logged with a status, and
reported by an event with a detail. -/
inductive Verdict where
  | pass
  | error
  | logged (status : Nat) (event : Option (Nat × Nat))
  deriving DecidableEq, Repr

/-- The head with which a shadow register latches (R126, R174, R205, R229). -/
def State.latchHead (s : State) (h : Hit) : Option Nat :=
  let a := h.info.reg.addr
  if h.act = 0 then none
  else match h.info.block with
    | .head => some ((a - 0x41000000) / 0x10000)
    | .layer =>
      if a < 0x41431000 then some (s.get (layerBind_HEAD ((a - 0x41400000) / 0x1000)))
      else some (s.get (layerWbCtrl_HEAD ((a - 0x41431000) / 0x100)))
    | .integ => some ((a - 0x41800000) / 0x10000)
    | .gfx => some ((a - 0x42000200) / 0x40)
    | _ => none

/-- Whether R129 locks a shadow register now. -/
def State.shadowLock (s : State) (h : Hit) : Option Nat :=
  match s.latchHead h with
  | some n => if n < 8 ∧ s.flag (headStatus_ARMED n) then some n else none
  | none => none

/-- Whether an effect record plays or is pending on a channel (R303). -/
def State.effectBusy (s : State) (n e : Nat) : Bool :=
  ((s.chan n).play.any fun p => p.effect == e) || (s.chan n).pending.any fun p => p.1 == e

/-- The rule of each block on a sealed write that would make a register hold `new` (R70 to R505). -/
def State.verdict (s : State) (h : Hit) (new : Nat) : Verdict :=
  let a := h.info.reg.addr
  if h.active then .pass
  else match s.shadowLock h with
  | some n => .logged stConflict (some (38, n))
  | none =>
    match h.info.block with
    | .sys =>
      if a = sysGpio.addr ∧ (List.range 8).any (fun i => new / 2 ^ i % 2 == 1 && !s.bit sysGpio_CLAIM i && s.teHolds i) then
        .logged stPinTaken none
      else .pass
    | .head =>
      if a < 0x41080000 ∧ 0x10 ≤ a % 0x10000 ∧ a % 0x10000 < 0x28 ∧ s.flag (headCtrl_EN ((a - 0x41000000) / 0x10000)) then .error
      else .pass
    | .ymx =>
      if (6 : Nat) ≤ (a - 0x41200100) / 0x40 ∧ a % 0x40 = 8 ∧ 0x41200100 ≤ a ∧ new / 2 % 2 = 1
          ∧ s.bit sysGpio_CLAIM ((a - 0x41200100) / 0x40) then .logged stPinTaken none
      else .pass
    | .gfx =>
      if 0x42000100 ≤ a ∧ a < 0x42000140 ∧ s.compGet (gfxCompCtrl_EN ((a - 0x42000100) / 8)) ≠ 0 then .error else .pass
    | .touch =>
      if 0x20000 ≤ a % 0x40000 ∧ a % 0x40000 < 0x30000 ∧ s.flag (touchCtrl_EN ((a - 0x43000000) / 0x40000)) then .error else .pass
    | .hap =>
      let n := (a - 0x43400000) / 0x100
      if a < 0x43400800 ∧ a % 0x100 = 0 ∧ 6 ≤ n ∧ new % 4 ≠ 0 ∧ s.stageTaken (n - 6) 1 then
        .logged stPinTaken (some (326, (n - 6) * 256 + 1))
      else if 0x43410000 ≤ a ∧ a < 0x43418000 ∧ s.effectBusy ((a - 0x43410000) / 0x1000) (a % 0x1000 / 0x40) then .error
      else if 0x43420000 ≤ a ∧ s.waveBusy ((a - 0x43420000) / 0x2000) ((a - 0x43420000) % 0x2000 / 2) 1 then .error
      else .pass
    | .aud =>
      let k := (a - (audSinkCtrl 0).addr) / ((audSinkCtrl 1).addr - (audSinkCtrl 0).addr)
      match (if (audSinkCtrl 0).addr ≤ a ∧ k < 14 ∧ a = (audSinkCtrl k).addr ∧ new % 2 = 1 then speakerOf k else none) with
      | some st => if s.stageTaken st 2 then .logged stPinTaken (some (326, st * 256 + 2)) else .pass
      | none => .pass
    | .dramc =>
      if a = dramcCfg.addr ∧ s.flag dramcStatus_INIT_DONE ∧ new % 32 ≠ s.get dramcCfg_GRAIN_LOG2 then .error else .pass
    | .world =>
      if a = worldWmark.addr then
        match s.wmarkFault (new % 2 ^ worldWmark_W.width) with
        | some f => .logged f.1 none
        | none => .pass
      else .pass
    | .debug => if a = debugEn.addr ∧ (s.debugFault (new % 16)).isSome then .error else .pass
    | .cu =>
      if 8 ≤ a % 0x100 ∧ a % 0x100 < 0x28 ∧ (s.cuUnit ((a - 0x46000000) / 0x100)).isSome then .error else .pass
    | _ => .pass

/-! ### What a write does beside storing -/

/-- SYS_GPIO is written: new claims are made, claimed contacts take DIR and OUT, and a claim given up is released at the next
master frame start (R502). -/
def State.writeGpio (s : State) (new : Nat) : State :=
  s.each (List.range 8) fun s i =>
    let want := new / 2 ^ i % 2 == 1
    let had := s.bit sysGpio_CLAIM i
    let s := s.when (want || had) fun s =>
      let dir := new / 2 ^ (8 + i) % 2
      let out := new / 2 ^ (16 + i) % 2
      let s := ((s.putBitAt sysGpio_CLAIM i true).putBitAt sysGpio_DIR i (dir == 1)).putBitAt sysGpio_OUT i (out == 1)
      s.when (dir == 1) fun s => s.emit (.contact (["GPIO_0", "GPIO_1", "GPIO_2", "GPIO_3", "GPIO_4", "GPIO_5", "GPIO_6",
        "GPIO_7"].getD i "") out)
    s.when (had && !want) fun s => s.modPower fun p => { p with gpioDue := p.gpioDue ++ [(i, none)] }

/-- GFX_CTX_n_CTRL.EN has been written: a disabled context becomes idle, an idle or faulted one is disabled (R211). -/
def State.ctxWritten (s : State) (c : Nat) : State :=
  if s.flag (gfxCtxCtrl_EN c) then (if s.ctxState c = ctxDisabled then s.setCtx c ctxIdle else s).wakeCtx c
  else if s.ctxState c = ctxIdle ∨ s.ctxState c = ctxFault then s.stopCtx c
  else s

/-- The number in a field of a register that held `old`. -/
def oldField (f : RF) (old : Nat) : Nat := old / 2 ^ f.lsb % 2 ^ f.width

/-- What follows the write of a register that held `old`, in the blocks of the module's own settings. -/
def State.afterWrite (s : State) (h : Hit) (old : Nat) : State :=
  let a := h.info.reg.addr
  match h.info.block with
  | .sys =>
    s.when (a == sysCcWdog.addr && oldField sysCcWdog_EN old == 0 && s.flag sysCcWdog_EN) fun s =>
      s.modPower fun p => { p with ccKick := s.now }
  | .evt =>
    let f := (a - 0x40202000) / 0x80
    if 0x40202000 ≤ a ∧ a % 0x80 = 0x58 ∧ oldField (evtFnRcfg_EN f) old ≠ s.get (evtFnRcfg_EN f) then
      (if s.flag (evtFnRcfg_EN f) then s.enableDelivery f else s.stopDelivery f)
    else s
  | .hp => s.when (a % 0x100000 == 4) fun s => s.regainPort ((a - 0x40300000) / 0x100000)
  | .mbq =>
    if a < 0x40604000 ∧ a % 0x100 = 0 then
      s.each ([old % 64, s.get (mbqMbCfg_RX ((a - 0x40600000) / 0x100))].filter (· < 32)) State.mirrorDue
    else
      let q := (a - 0x40610000) / 0x100
      s.when (decide (0x40610000 ≤ a) && a % 0x100 == 0 && decide (a < 0x40612000) && oldField (mbqQCfg_HOST q) old == 0
        && s.flag (mbqQCfg_HOST q)) fun s => s.put (mbqQDeliv_COUNT q) 0
  | .head =>
    let n := (a - 0x41000000) / 0x10000
    s.when (decide (a < 0x41080000) && decide (0x10 ≤ a % 0x10000) && decide (a % 0x10000 < 0x28) && (s.link n).failed
      && (s.rd h.info.reg).toNat != old) fun s => s.startTraining n
  | .ymx =>
    if a = ymxSpare.addr then s.renominate (oldField ymxSpare_NOMINATE old)
    else if 0x41200100 ≤ a then
      let p := (a - 0x41200100) / 0x40
      if a % 0x40 = 0 then
        (s.when (decide (p < 6)) fun s => s.put (ymxPortCfg_TYPE p) 0).portChanged p (BitVec.ofNat 64 old)
      else s.when (a % 0x40 == 8 && decide (6 ≤ p) && s.flag (ymxPortDsi_TE_EN p)) fun s =>
        s.modLink p fun l => { l with teHeld := true }
    else s
  | .layer =>
    s.when (decide (0x41431000 ≤ a) && h.act != 0) fun s =>
      s.modWb ((a - 0x41431000) / 0x100) fun w => { w with touched := true }
  | .gfx => s.when (decide (0x42001000 ≤ a ∧ a < 0x42002000) && a % 0x40 == 0) fun s => s.ctxWritten ((a - 0x42001000) / 0x40)
  | .aud =>
    let k := (a - (audSinkCtrl 0).addr) / 0x10
    let i := (a - (audStrCtrl 0).addr) / 0x40
    if (audSinkCtrl 0).addr ≤ a ∧ k < 14 then s.sinkEnabled k (old % 2 == 1)
    else if (audStrCtrl 0).addr ≤ a ∧ i < 32 ∧ a % 0x40 = 0 ∧ oldField (audStrCtrl_EN i) old ≠ s.get (audStrCtrl_EN i) then
      s.modStream i fun x => { x with on := false }
    else s
  | .supv =>
    s.when (decide ((supvPol 0).addr ≤ a ∧ a ≤ (supvPol 31).addr)) fun s =>
      { s with supv := { s.supv with history := s.supv.history.set ((a - (supvPol 0).addr) / 4) [] } }
  | .fn =>
    let f := (a - fnBank) / 0x10000
    let v := (a % 0x10000 - 0x2000) / 0x10
    if 0x2000 ≤ a % 0x10000 ∧ a % 0x10000 < 0x2200 ∧ a % 0x10 = 0xC ∧ !s.flag (fnMsixCtrl_MASK f v) ∧ s.bit (fnPba_PEND f) v then
      (s.putBitAt (fnPba_PEND f) v false).emit (.msix f v)
    else s
  | _ => s

/-- The events in use of a route register (R452); none for another register. -/
def routeMask (a : Nat) : Option Nat :=
  if 0x40200040 ≤ a ∧ a < 0x402000C0 then some (usedMask ((a - 0x40200040) / 4 % 16))
  else if 0x40202000 ≤ a ∧ a < 0x40203000 ∧ a % 0x80 < 0x40 then some (usedMask (a % 0x80 / 4))
  else none

/-- A register takes the value `new` of a write, at once or when its block says. -/
def State.storeReg (s : State) (h : Hit) (new : Nat) : State :=
  let r := h.info.reg
  let a := r.addr
  let old := (s.rd r).toNat
  if h.active then s
  else if a = pktCtrl.addr then
    let margin := min (new % 2 ^ 11) (s.lines / 2)
    { s with pkt := { s.pkt with ctrl := some (setField new 0 11 margin), margin := none } }
  else if wallStaged a then s.stageWall r new
  else if stagedAddr a then
    { s with staged := (s.staged.filter fun e => e.1 != a) ++ [(a, BitVec.ofNat 64 new ^^^ BitVec.ofNat 64 r.cold)] }
  else if a = sysGpio.addr then s.writeGpio new
  else if a = worldClaim.addr then s.setClaim (new % 2 ^ 49)
  else if a = debugEn.addr then s.setDebug (new % 16)
  else if a = dramcCfg.addr then
    let g := oldField dramcCfg_GRAIN_LOG2 new
    let c := oldField dramcCfg_RT_CAP new
    let w := oldField dramcCfg_SEALED_WAYS new
    let f := oldField dramcCfg_FCHG_EN new
    if (s.dramcCfgFault g c w f).isSome then s else s.setDramcCfg g c w f
  else if a = dramcRefPlan.addr ∧ !s.planFits new (s.get dramcRefCfg_PER_SLOT) then s
  else if ctxZero a then s
  else match routeMask a with
    | some m => (s.keepRoute r).wr r (BitVec.ofNat 64 (new &&& m))
    | none => (s.wr r (BitVec.ofNat 64 new)).afterWrite h old

/-! ### Which accesses the open world may make (R362, R552) -/

/-- Whether a block's rule lets the open world write or use what stands at an address: SYS_CC_KICK, WORLD_CPC_REQ, the PKT_IR2
and EVT_IR_1 groups, the receive registers of mailboxes with RX 62, the send port, the ports of queues with OWNER 62, and the
locks. -/
def State.openUses (s : State) (a : Nat) : Bool :=
  a / 4 * 4 == sysCcKick.addr || a / 4 * 4 == worldCpcReq.addr
    || decide (0x40500340 ≤ a ∧ a < 0x4050036C) || decide (0x40200140 ≤ a ∧ a < 0x40200154)
    || (decide (0x40600000 ≤ a ∧ a < 0x40604000) && decide (0x40 ≤ a % 0x100 ∧ a % 0x100 < 0x90)
        && s.get (mbqMbCfg_RX ((a - 0x40600000) / 0x100)) == 62)
    || inSendPort a
    || (decide (0x40610000 ≤ a ∧ a < 0x40612000) && decide (0x20 ≤ a % 0x100 ∧ a % 0x100 < 0x30)
        && s.get (mbqQCfg_OWNER ((a - 0x40610000) / 0x100)) == 62)
    || (decide (0x40620000 ≤ a ∧ a < 0x40620200) && decide (a % 8 < 4))

/-- Whether the open world may read an address: also what both worlds may read, and the state of a lock (R360, R505, R552). -/
def State.openReads (s : State) (a : Nat) : Bool :=
  s.openUses a || [sysId.addr, sysMode.addr, debugFuse.addr].contains (a / 4 * 4)
    || decide (0x40620000 ≤ a ∧ a < 0x40620200)

/-- The data-path registers, whose sealed writes are neither recorded nor refused by a full log (R437). -/
def dataPath (a : Nat) : Bool :=
  decide (0x40200000 ≤ a ∧ a < 0x40200040) || a == 0x40500328 || a == 0x40500368 || a == 0x40200110 || a == 0x40200150
    || inSendPort a || (decide (0x46000000 ≤ a ∧ a < 0x46000800) && decide (8 ≤ a % 0x100 ∧ a % 0x100 < 0x28))
    || a == peatRdIdx.addr || a / 4 * 4 == 0x47000020

/-! ### Memory on the bus (R366, R395, R400, R548) -/

/-- Whether an address lies in a memory region (R548). -/
def State.inMemory (s : State) (a : Nat) : Bool :=
  decide ((emberBase ≤ a ∧ a < emberBase + 0x800000) ∨ (sealedBase ≤ a ∧ a < sealedBase + 0x200000)
    ∨ (localBase ≤ a ∧ a < localBase + 0x200000) ∨ (dramBase ≤ a ∧ a < dramBase + s.usable))

/-- A load or store of `n` bytes: outside the world's reach it has no effect, ends in a bus error and is a violation; one that
leaves its region ends in a bus error. -/
def State.accessMemory (s : State) (who : Requester) (a n : Nat) (write : Bool) (effect : State → State) : State :=
  if !s.inMemory (a + n - 1) then s.emit (.busError (agentOf who) a)
  else if !s.mayAccess (actorOf who) a n then (s.emit (.busError (agentOf who) a)).violation (agentOf who) a write
  else effect s

/-- Whether an address lies in a register block's window (R549). -/
def inWindows (a : Nat) : Bool := decide (0x40000000 ≤ a ∧ a < 0x48100000)

/-! ### REGISTER_READ -/

/-- The register read of an internal requester. -/
def State.busRead (s : State) (who : Requester) (a n : Nat) : State :=
  let agent := agentOf who
  if !s.mayRead who then s.emit (.busError agent a)
  else if s.inMemory a then
    s.accessMemory who a n false fun s => s.emit (.readValue agent a (BitVec.ofNat 64 (s.loadNat a n)))
  else if !inWindows a then s.emit (.busError agent a)
  else if decide (worldOf who = .opened) && !s.openReads a then s.refuseRead who a
  else match (bankAddr who a).bind fun b => s.readAt b n with
    | none => s.emit (.busError agent a)
    | some r => r.1.emit (.readValue agent a (BitVec.ofNat 64 r.2))

/-- The register read of a host through BAR 0 (R42, R550). -/
def State.hostRead (s : State) (f off n : Nat) : State :=
  let shownAt := fnBank + 0x10000 * f + off
  if 0x10000 ≤ off then s
  else s.barRead f shownAt (8 * n) fun s =>
    match s.hostAddr f off with
    | none => s.emit (.readValue f shownAt 0)
    | some b => match s.readAt b n with
      | none => s.emit (.completerAbort f)
      | some r => r.1.emit (.readValue f shownAt (BitVec.ofNat 64 r.2))

/-- A read of a register with a row of its own goes to that row's meaning. -/
def readRow (a : Access) (s : State) : Option (Host.Outcome State Fault Refusal) :=
  let x := a.addr.toNat
  match a.who with
  | .host _ =>
    let w := x % 0x800
    if 0x8000 ≤ x ∧ x < 0xC000 ∧ 0x200 ≤ w ∧ w < 0x220 ∧ w % 4 = 0 ∧ a.width = .w32 then
      some (execLockRead a.who (Fin.ofNat 64 ((x - 0x8000) / 0x800 * 8 + (w - 0x200) / 4)) s)
    else none
  | _ =>
    if !s.mayRead a.who then none
    else if x = wallNow.addr ∧ a.width = .w32 then some (execWallNowRead a.who s)
    else if x = audNow.addr ∧ a.width = .w32 then some (execAudNowRead a.who s)
    else if 0x40610000 ≤ x ∧ x < 0x40612000 ∧ x % 0x100 / 8 = 4 then
      some (execQueueRead a.who (Fin.ofNat 32 ((x - 0x40610000) / 0x100)) (if x % 8 = 0 then a.width else .w32) s)
    else if 0x40620000 ≤ x ∧ x < 0x40620200 ∧ x % 8 = 0 ∧ a.width = .w32 then
      some (execLockRead a.who (Fin.ofNat 64 ((x - 0x40620000) / 8)) s)
    else none

/-- REGISTER_READ (R4, R5, R548 to R552). -/
def execRegisterRead (a : Access) (s : State) : Host.Outcome State Fault Refusal :=
  match readRow a s with
  | some o => o
  | none => .next (match a.who with
    | .host f => s.hostRead f.val a.addr.toNat (widthBytes a.width)
    | _ => s.busRead a.who a.addr.toNat (widthBytes a.width))

/-! ### REGISTER_WRITE -/

/-- The parts of a write take their values, after the rules of their blocks and of a full log (R4, R436, R441). -/
def State.writeParts (s : State) (who : Requester) (a v : Nat) (ps : List Part) : State :=
  let agent := agentOf who
  let old := (ps.map fun p => s.regShown p.hit / 2 ^ p.low % 2 ^ p.bits * 2 ^ p.at_).sum
  let verdicts := ps.map fun p => s.verdict p.hit (partAfter p (s.written p.hit.info.reg) v)
  match verdicts.find? fun x => x != .pass with
  | some (.logged st event) =>
    let s := match event with
      | some e => s.raise e.1 e.2
      | none => s
    s.refuseWrite who a v old st
  | some .error => s.emit (.busError agent a)
  | _ =>
    if !dataPath a && s.writeBarred who a then s.emit (.busError agent a)
    else
      let s := ps.foldl (fun s p => s.storeReg p.hit (partAfter p (s.written p.hit.info.reg) v)) s
      s.when (!dataPath a) fun s => s.noteWrite who a v old

/-- The register write of an internal requester. -/
def State.busWrite (s : State) (who : Requester) (a n v : Nat) : State :=
  let agent := agentOf who
  if !s.mayWrite who then s.emit (.busError agent a)
  else if s.inMemory a then s.accessMemory who a n true fun s => s.store a (leBytes n v)
  else if !inWindows a then s.emit (.busError agent a)
  else if decide (worldOf who = .opened) && !s.openUses a then
    s.refuseWrite who a v (((s.readAt a n).map (·.2)).getD 0) stWorld
  else match (bankAddr who a).bind fun b => partsOf b n with
    | none => s.emit (.busError agent a)
    | some [] => s
    | some ps => s.writeParts who a v ps

/-- The register write of a host through BAR 0: a request of another width is reported as a Completer Abort (R550). -/
def State.hostWrite (s : State) (f off n v : Nat) : State :=
  if 0x10000 ≤ off then s
  else s.barWrite f fun s =>
    match s.hostAddr f off with
    | none => s
    | some b => match partsOf b n with
      | none => s.emit (.completerAbort f)
      | some ps => ps.foldl (fun s p => s.storeReg p.hit (partAfter p (s.written p.hit.info.reg) v)) s

/-- A host's write of a register with a row of its own goes to that row's meaning. -/
def hostWriteRow (f : Fin 32) (x v : Nat) (s : State) : Option (Host.Outcome State Fault Refusal) :=
  let w := x % 0x800
  if x = 0x8 then some (execFnHeartbeatWrite f (BitVec.ofNat 32 v) s)
  else if x = 0x1000 then some (execFnDoorbellWrite f (BitVec.ofNat 32 v) s)
  else if 0x8000 ≤ x ∧ x < 0xC000 then
    let k := (x - 0x8000) / 0x800
    if w = 0x44 then some (execMailboxPop (.host f) (Fin.ofNat 64 k) (BitVec.ofNat 32 v) s)
    else if w = 0x140 then some (execMailboxPost (.host f) (Fin.ofNat 8 k) (BitVec.ofNat 32 v) s)
    else if 0x200 ≤ w ∧ w < 0x220 ∧ w % 4 = 0 then
      some (execLockReleaseWrite (.host f) (Fin.ofNat 64 (k * 8 + (w - 0x200) / 4)) s)
    else none
  else none

/-- A ring doorbell or a ring size of the internal rings, a mailbox or lock, and the other 32-bit registers that have a row of
their own. -/
def coreWriteRow (who : Requester) (x v : Nat) (s : State) : Option (Host.Outcome State Fault Refusal) :=
  let v32 : W32 := BitVec.ofNat 32 v
  if x = wallCtrl.addr then some (execWallApplyWrite who v32 s)
  else if x = (pktIrCmdSize 0).addr then some (execInternalRingEnableWrite who .sealed false v32 s)
  else if x = (pktIrCmdSize 1).addr then some (execInternalRingEnableWrite who .opened false v32 s)
  else if x = (pktIrRplSize 0).addr then some (execInternalRingEnableWrite who .sealed true v32 s)
  else if x = (pktIrRplSize 1).addr then some (execInternalRingEnableWrite who .opened true v32 s)
  else if x = (evtIrSize 0).addr then some (execEvtRingEnableWrite who .sealed v32 s)
  else if x = (evtIrSize 1).addr then some (execEvtRingEnableWrite who .opened v32 s)
  else if x = 0x40608040 then some (execMailboxPost who 0 v32 s)
  else if 0x40600000 ≤ x ∧ x < 0x40604000 ∧ x % 0x100 = 0x84 then
    some (execMailboxPop who (Fin.ofNat 64 ((x - 0x40600000) / 0x100)) v32 s)
  else if 0x40620000 ≤ x ∧ x < 0x40620200 ∧ x % 8 = 0 then
    some (execLockReleaseWrite who (Fin.ofNat 64 ((x - 0x40620000) / 8)) s)
  else if x = supvKick.addr then some (execSupvKickWrite who v32 s)
  else if x = peatCtrl.addr then some (execPeatWrapWrite who v32 s)
  else if x = worldCpcReq.addr then
    let d : Fin 64 := Fin.ofNat 64 v
    some (match v / 64 % 4 with
      | 0 => execCpcClockStop who d s
      | 1 => execCpcClockRun who d s
      | 2 => execCpcPowerOff who d s
      | _ => execCpcPowerOn who d s)
  else if 0x46000000 ≤ x ∧ x < 0x46000800 ∧ x % 0x100 = 0 then
    some (execCuDirectGo who (Fin.ofNat 8 ((x - 0x46000000) / 0x100)) v32 s)
  else if 0x41000000 ≤ x ∧ x < 0x41080000 ∧ x % 0x10000 = 0 then
    some (execHeadEnWrite who (Fin.ofNat 8 ((x - 0x41000000) / 0x10000)) v32 s)
  else if x = headWallArm.addr then some (execHeadWallArmWrite who v32 s)
  else if 0x42001000 ≤ x ∧ x < 0x42002000 ∧ x % 0x40 = 0x14 then
    some (execQtailWrite who (Fin.ofNat 64 ((x - 0x42001000) / 0x40)) v32 s)
  else if x = dramcFchg.addr then some (execFchgGoWrite who v32 s)
  else if x = sysCcKick.addr then some (execSysCcKickWrite who v32 s)
  else if x = sysResetCmd.addr ∧ v / 0x100 % 4 = 1 then some (execResetCmdWarm who (BitVec.ofNat 8 v) s)
  else if x = sysResetCmd.addr ∧ v / 0x100 % 4 = 2 then some (execResetCmdCold who (BitVec.ofNat 8 v) s)
  else none

/-- The doorbells of the internal rings: a data-path write of either world where R107 lets it write (R43, R107, R437). -/
def State.internalBell (s : State) (who : Requester) (w v : Nat) : State :=
  if !s.mayWrite who then s.emit (.busError (agentOf who) (pktIrDoorbell w).addr)
  else if worldOf who = .opened ∧ w = 0 then s.refuseWrite who (pktIrDoorbell w).addr v 0 stWorld
  else s.ringBell (32 + w) (v % 2 ^ 20)

/-- A write of a register with a row of its own goes to that row's meaning. -/
def writeRow (a : Access) (value : W64) (s : State) : Option (Host.Outcome State Fault Refusal) :=
  let x := a.addr.toNat
  let v := value.toNat
  match a.who, a.width with
  | .host f, .w32 => hostWriteRow f x v s
  | .host _, _ => none
  | who, .w32 =>
    if x = (pktIrDoorbell 0).addr then some (.next (s.internalBell who 0 v))
    else if x = (pktIrDoorbell 1).addr then some (.next (s.internalBell who 1 v))
    else if x = sysSwrst.addr then
      some (execSwrstWrite who (BitVec.ofNat 64 (setField (s.rd sysSwrst).toNat 0 32 v)) s)
    else if x = sysSwrst.addr + 4 then
      some (execSwrstWrite who (BitVec.ofNat 64 (setField (s.rd sysSwrst).toNat 32 32 v)) s)
    else if 0x40610000 ≤ x ∧ x < 0x40612000 ∧ (x % 0x100 = 0x28 ∨ x % 0x100 = 0x2C) then
      some (execQueueItemWrite who (Fin.ofNat 32 ((x - 0x40610000) / 0x100))
        (BitVec.ofNat 64 (v % 2 ^ 32 * 2 ^ (x % 8 * 8))) s)
    else coreWriteRow who x v s
  | who, .w64 =>
    if x = sysSwrst.addr then some (execSwrstWrite who value s)
    else if 0x40610000 ≤ x ∧ x < 0x40612000 ∧ x % 0x100 = 0x28 then
      some (execQueueItemWrite who (Fin.ofNat 32 ((x - 0x40610000) / 0x100)) value s)
    else none
  | _, _ => none

/-- REGISTER_WRITE (R4, R548 to R552). -/
def execRegisterWrite (a : Access) (value : W64) (s : State) : Host.Outcome State Fault Refusal :=
  match writeRow a value s with
  | some o => o
  | none =>
    let n := widthBytes a.width
    let v := value.toNat % 2 ^ (8 * n)
    .next (match a.who with
      | .host f => s.hostWrite f.val a.addr.toNat n v
      | _ => s.busWrite a.who a.addr.toNat n v)

end Sys2Proof.Machine
end

