-- ==== Sys2Proof/Machine/Dispatch.lean ====
section
/-! DEFINITION. One arm per command of the W8. -/
namespace Sys2Proof.Machine

/-- The effect of a command on everything but the queue. -/
def exec (i : Instr) (s : State) : Host.Outcome State Fault Refusal :=
  match i with
  | .masterFrameStart => Sys2Proof.Machine.execMasterFrameStart s
  | .houseSyncReference detected pos16 period freq freqErr phase16 => Sys2Proof.Machine.execHouseSyncReference detected pos16 period freq freqErr phase16 s
  | .syncLost => Sys2Proof.Machine.execSyncLost s
  | .holdoverLimit => Sys2Proof.Machine.execHoldoverLimit s
  | .rasterSet p => Sys2Proof.Machine.execRasterSet p s
  | .syncSet p => Sys2Proof.Machine.execSyncSet p s
  | .wallQuery p => Sys2Proof.Machine.execWallQuery p s
  | .wallApplyWrite who value => Sys2Proof.Machine.execWallApplyWrite who value s
  | .wallNowRead who => Sys2Proof.Machine.execWallNowRead who s
  | .audNowRead who => Sys2Proof.Machine.execAudNowRead who s
  | .registerWrite a value => Sys2Proof.Machine.execRegisterWrite a value s
  | .linkUp port speed width => Sys2Proof.Machine.execLinkUp port speed width s
  | .linkDown port => Sys2Proof.Machine.execLinkDown port s
  | .hotReset port => Sys2Proof.Machine.execHotReset port s
  | .functionLevelReset f => Sys2Proof.Machine.execFunctionLevelReset f s
  | .vfEnableChange port enable numVfs => Sys2Proof.Machine.execVfEnableChange port enable numVfs s
  | .fnHeartbeatWrite f value => Sys2Proof.Machine.execFnHeartbeatWrite f value s
  | .portLinkLossTimeout port => Sys2Proof.Machine.execPortLinkLossTimeout port s
  | .heartbeatTimeout port => Sys2Proof.Machine.execHeartbeatTimeout port s
  | .fnDoorbellWrite f tail => Sys2Proof.Machine.execFnDoorbellWrite f tail s
  | .ringReadResume ring => Sys2Proof.Machine.execRingReadResume ring s
  | .bar2Access f offset data len write ecc => Sys2Proof.Machine.execBar2Access f offset data len write ecc s
  | .tagTimeout f => Sys2Proof.Machine.execTagTimeout f s
  | .resetSpacingEnd f => Sys2Proof.Machine.execResetSpacingEnd f s
  | .drainEnd f => Sys2Proof.Machine.execDrainEnd f s
  | .funcResetComplete f => Sys2Proof.Machine.execFuncResetComplete f s
  | .tenantCreate p => Sys2Proof.Machine.execTenantCreate p s
  | .tenantDestroy p => Sys2Proof.Machine.execTenantDestroy p s
  | .dramClearComplete f => Sys2Proof.Machine.execDramClearComplete f s
  | .tenantShare p => Sys2Proof.Machine.execTenantShare p s
  | .funcReset p => Sys2Proof.Machine.execFuncReset p s
  | .tenantQuery p => Sys2Proof.Machine.execTenantQuery p s
  | .homeSet p => Sys2Proof.Machine.execHomeSet p s
  | .sysQuery p => Sys2Proof.Machine.execSysQuery p s
  | .modeRequest p => Sys2Proof.Machine.execModeRequest p s
  | .nop p => Sys2Proof.Machine.execNop p s
  | .seqSync p => Sys2Proof.Machine.execSeqSync p s
  | .marginSet p => Sys2Proof.Machine.execMarginSet p s
  | .caravanTime p => Sys2Proof.Machine.execCaravanTime p s
  | .caravanFence p => Sys2Proof.Machine.execCaravanFence p s
  | .caravanAbort p => Sys2Proof.Machine.execCaravanAbort p s
  | .caravanQuery p => Sys2Proof.Machine.execCaravanQuery p s
  | .caravanEnd p => Sys2Proof.Machine.execCaravanEnd p s
  | .caravanValidationDone ring id => Sys2Proof.Machine.execCaravanValidationDone ring id s
  | .caravanExpired ring id => Sys2Proof.Machine.execCaravanExpired ring id s
  | .internalRingEnableWrite who world reply value => Sys2Proof.Machine.execInternalRingEnableWrite who world reply value s
  | .hpdPlug port maxRate lanes sinkCount => Sys2Proof.Machine.execHpdPlug port maxRate lanes sinkCount s
  | .hpdUnplug port => Sys2Proof.Machine.execHpdUnplug port s
  | .hpdIrq port cr eq sym => Sys2Proof.Machine.execHpdIrq port cr eq sym s
  | .linkTrainAttemptEnd port cr eq sym => Sys2Proof.Machine.execLinkTrainAttemptEnd port cr eq sym s
  | .auxReadComplete port result data => Sys2Proof.Machine.execAuxReadComplete port result data s
  | .teEdge port => Sys2Proof.Machine.execTeEdge port s
  | .teTimeout port => Sys2Proof.Machine.execTeTimeout port s
  | .dsiErrPoll port report => Sys2Proof.Machine.execDsiErrPoll port report s
  | .headLatch head => Sys2Proof.Machine.execHeadLatch head s
  | .headFrameStart head => Sys2Proof.Machine.execHeadFrameStart head s
  | .headEnWrite who head value => Sys2Proof.Machine.execHeadEnWrite who head value s
  | .headWallArmWrite who value => Sys2Proof.Machine.execHeadWallArmWrite who value s
  | .engineDatapathFault engine => Sys2Proof.Machine.execEngineDatapathFault engine s
  | .engineTimingWatchdog engine => Sys2Proof.Machine.execEngineTimingWatchdog engine s
  | .engineBistComplete engine pass => Sys2Proof.Machine.execEngineBistComplete engine pass s
  | .spareTestComplete pass => Sys2Proof.Machine.execSpareTestComplete pass s
  | .headTimingSet p => Sys2Proof.Machine.execHeadTimingSet p s
  | .headEnable p => Sys2Proof.Machine.execHeadEnable p s
  | .headDisable p => Sys2Proof.Machine.execHeadDisable p s
  | .portConfig p => Sys2Proof.Machine.execPortConfig p s
  | .portRetrain p => Sys2Proof.Machine.execPortRetrain p s
  | .sinkRead p => Sys2Proof.Machine.execSinkRead p s
  | .dsiConfig p => Sys2Proof.Machine.execDsiConfig p s
  | .headShow p => Sys2Proof.Machine.execHeadShow p s
  | .headQuery p => Sys2Proof.Machine.execHeadQuery p s
  | .spareSet p => Sys2Proof.Machine.execSpareSet p s
  | .spareTakeover p => Sys2Proof.Machine.execSpareTakeover p s
  | .spareRestore p => Sys2Proof.Machine.execSpareRestore p s
  | .spareTest p => Sys2Proof.Machine.execSpareTest p s
  | .layerUnderrun pipe line pixel => Sys2Proof.Machine.execLayerUnderrun pipe line pixel s
  | .layerFirstLine pipe ready => Sys2Proof.Machine.execLayerFirstLine pipe ready s
  | .wbCaptureComplete unit => Sys2Proof.Machine.execWbCaptureComplete unit s
  | .wbOverflow unit lines => Sys2Proof.Machine.execWbOverflow unit lines s
  | .layerList p => Sys2Proof.Machine.execLayerList p s
  | .layerSet p => Sys2Proof.Machine.execLayerSet p s
  | .layerAddr p => Sys2Proof.Machine.execLayerAddr p s
  | .layerColour p => Sys2Proof.Machine.execLayerColour p s
  | .layerQuery p => Sys2Proof.Machine.execLayerQuery p s
  | .wbSet p => Sys2Proof.Machine.execWbSet p s
  | .wbQuery p => Sys2Proof.Machine.execWbQuery p s
  | .headOutputSet p => Sys2Proof.Machine.execHeadOutputSet p s
  | .headGammaSet p => Sys2Proof.Machine.execHeadGammaSet p s
  | .mirageEvaluation pipe => Sys2Proof.Machine.execMirageEvaluation pipe s
  | .c0CheckComplete head plane err => Sys2Proof.Machine.execC0CheckComplete head plane err s
  | .headVerdict head pin tap spare lost => Sys2Proof.Machine.execHeadVerdict head pin tap spare lost s
  | .rbSelftestDue port => Sys2Proof.Machine.execRbSelftestDue port s
  | .rbSelftestComplete port pass => Sys2Proof.Machine.execRbSelftestComplete port pass s
  | .sinkCrcSample head supported ok crc => Sys2Proof.Machine.execSinkCrcSample head supported ok crc s
  | .guardSet p => Sys2Proof.Machine.execGuardSet p s
  | .freshTime p => Sys2Proof.Machine.execFreshTime p s
  | .rectSet p => Sys2Proof.Machine.execRectSet p s
  | .rectExpect p => Sys2Proof.Machine.execRectExpect p s
  | .emberSet p => Sys2Proof.Machine.execEmberSet p s
  | .emberPalette p => Sys2Proof.Machine.execEmberPalette p s
  | .emberExpect p => Sys2Proof.Machine.execEmberExpect p s
  | .emberWrite p => Sys2Proof.Machine.execEmberWrite p s
  | .emberLoad p => Sys2Proof.Machine.execEmberLoad p s
  | .emberLoadComplete ring => Sys2Proof.Machine.execEmberLoadComplete ring s
  | .integCfg p => Sys2Proof.Machine.execIntegCfg p s
  | .integResume p => Sys2Proof.Machine.execIntegResume p s
  | .rbSelftest p => Sys2Proof.Machine.execRbSelftest p s
  | .integQuery p => Sys2Proof.Machine.execIntegQuery p s
  | .ageQuery p => Sys2Proof.Machine.execAgeQuery p s
  | .ctxSet p => Sys2Proof.Machine.execCtxSet p s
  | .gfxKick p => Sys2Proof.Machine.execGfxKick p s
  | .qtailWrite who ctx value => Sys2Proof.Machine.execQtailWrite who ctx value s
  | .ctxReset p => Sys2Proof.Machine.execCtxReset p s
  | .ctxQuery p => Sys2Proof.Machine.execCtxQuery p s
  | .compile p => Sys2Proof.Machine.execCompile p s
  | .compileComplete f job detail size object => Sys2Proof.Machine.execCompileComplete f job detail size object s
  | .deadlineSet p => Sys2Proof.Machine.execDeadlineSet p s
  | .compSet p => Sys2Proof.Machine.execCompSet p s
  | .compTime p => Sys2Proof.Machine.execCompTime p s
  | .gfxQuery p => Sys2Proof.Machine.execGfxQuery p s
  | .passQuery p => Sys2Proof.Machine.execPassQuery p s
  | .schedSliceExpiry => Sys2Proof.Machine.execSchedSliceExpiry s
  | .ctxHang ctx => Sys2Proof.Machine.execCtxHang ctx s
  | .preemptionComplete tenths saved => Sys2Proof.Machine.execPreemptionComplete tenths saved s
  | .commandBufferComplete ctx => Sys2Proof.Machine.execCommandBufferComplete ctx s
  | .fenceCounterUpdate ctx => Sys2Proof.Machine.execFenceCounterUpdate ctx s
  | .fenceWaitSatisfied ctx => Sys2Proof.Machine.execFenceWaitSatisfied ctx s
  | .compJobReady head => Sys2Proof.Machine.execCompJobReady head s
  | .compWarn head => Sys2Proof.Machine.execCompWarn head s
  | .compJobComplete head => Sys2Proof.Machine.execCompJobComplete head s
  | .compDeadline head => Sys2Proof.Machine.execCompDeadline head s
  | .drawPacketNop ctx => Sys2Proof.Machine.execDrawPacketNop ctx s
  | .jump ctx => Sys2Proof.Machine.execJump ctx s
  | .callList ctx => Sys2Proof.Machine.execCallList ctx s
  | .setPipeline ctx good => Sys2Proof.Machine.execSetPipeline ctx good s
  | .setDescriptors ctx => Sys2Proof.Machine.execSetDescriptors ctx s
  | .setBuffers ctx => Sys2Proof.Machine.execSetBuffers ctx s
  | .setDynamic ctx => Sys2Proof.Machine.execSetDynamic ctx s
  | .beginPass ctx => Sys2Proof.Machine.execBeginPass ctx s
  | .endPass ctx tiles => Sys2Proof.Machine.execEndPass ctx tiles s
  | .draw ctx work => Sys2Proof.Machine.execDraw ctx work s
  | .drawIndexed ctx work => Sys2Proof.Machine.execDrawIndexed ctx work s
  | .drawIndirect ctx work => Sys2Proof.Machine.execDrawIndirect ctx work s
  | .dispatch ctx work => Sys2Proof.Machine.execDispatch ctx work s
  | .dispatchIndirect ctx work => Sys2Proof.Machine.execDispatchIndirect ctx work s
  | .barrier ctx => Sys2Proof.Machine.execBarrier ctx s
  | .fenceSignal ctx => Sys2Proof.Machine.execFenceSignal ctx s
  | .fenceWait ctx => Sys2Proof.Machine.execFenceWait ctx s
  | .timestamp ctx => Sys2Proof.Machine.execTimestamp ctx s
  | .copy ctx => Sys2Proof.Machine.execCopy ctx s
  | .fill ctx => Sys2Proof.Machine.execFill ctx s
  | .rayBatch ctx => Sys2Proof.Machine.execRayBatch ctx s
  | .pickComplete port contact ended => Sys2Proof.Machine.execPickComplete port contact ended s
  | .pickSet p => Sys2Proof.Machine.execPickSet p s
  | .pickScene p => Sys2Proof.Machine.execPickScene p s
  | .pickClasses p => Sys2Proof.Machine.execPickClasses p s
  | .pickQuery p => Sys2Proof.Machine.execPickQuery p s
  | .touchWindowEnd port slot raw clipped monitor => Sys2Proof.Machine.execTouchWindowEnd port slot raw clipped monitor s
  | .listenWindowEnd port n0 n1 n2 n3 => Sys2Proof.Machine.execListenWindowEnd port n0 n1 n2 n3 s
  | .longTouch port contact => Sys2Proof.Machine.execLongTouch port contact s
  | .touchSelftestComplete port raw clipped monitor bias => Sys2Proof.Machine.execTouchSelftestComplete port raw clipped monitor bias s
  | .baselineStoreComplete port => Sys2Proof.Machine.execBaselineStoreComplete port s
  | .touchSet p => Sys2Proof.Machine.execTouchSet p s
  | .zoneSet p => Sys2Proof.Machine.execZoneSet p s
  | .touchSelftest p => Sys2Proof.Machine.execTouchSelftest p s
  | .baselineStore p => Sys2Proof.Machine.execBaselineStore p s
  | .baselineReset p => Sys2Proof.Machine.execBaselineReset p s
  | .touchQuery p => Sys2Proof.Machine.execTouchQuery p s
  | .hapDriveEnd channel => Sys2Proof.Machine.execHapDriveEnd channel s
  | .brakeEnd channel => Sys2Proof.Machine.execBrakeEnd channel s
  | .repeatGapEnd channel => Sys2Proof.Machine.execRepeatGapEnd channel s
  | .backEmfWindow channel vb forward tm current => Sys2Proof.Machine.execBackEmfWindow channel vb forward tm current s
  | .actuatorFaultDetect channel code => Sys2Proof.Machine.execActuatorFaultDetect channel code s
  | .resistanceCheckComplete channel microamps tenths => Sys2Proof.Machine.execResistanceCheckComplete channel microamps tenths s
  | .hapChannelSet p => Sys2Proof.Machine.execHapChannelSet p s
  | .hapEffectSet p => Sys2Proof.Machine.execHapEffectSet p s
  | .hapWaveWrite p => Sys2Proof.Machine.execHapWaveWrite p s
  | .hapPlay p => Sys2Proof.Machine.execHapPlay p s
  | .hapStop p => Sys2Proof.Machine.execHapStop p s
  | .hapClear p => Sys2Proof.Machine.execHapClear p s
  | .hapQuery p => Sys2Proof.Machine.execHapQuery p s
  | .audioSample line0 line1 tdm limited => Sys2Proof.Machine.execAudioSample line0 line1 tdm limited s
  | .zcTimeoutExpiry kind index => Sys2Proof.Machine.execZcTimeoutExpiry kind index s
  | .tonePartEnd t => Sys2Proof.Machine.execTonePartEnd t s
  | .streamPositionReport stream => Sys2Proof.Machine.execStreamPositionReport stream s
  | .speakerFaultDetect speaker code => Sys2Proof.Machine.execSpeakerFaultDetect speaker code s
  | .audAssign p => Sys2Proof.Machine.execAudAssign p s
  | .routeSet p => Sys2Proof.Machine.execRouteSet p s
  | .busSet p => Sys2Proof.Machine.execBusSet p s
  | .eqSet p => Sys2Proof.Machine.execEqSet p s
  | .sinkSet p => Sys2Proof.Machine.execSinkSet p s
  | .streamSet p => Sys2Proof.Machine.execStreamSet p s
  | .streamKick p => Sys2Proof.Machine.execStreamKick p s
  | .toneSet p => Sys2Proof.Machine.execToneSet p s
  | .tonePlayStart p => Sys2Proof.Machine.execTonePlayStart p s
  | .tonePlayStop p => Sys2Proof.Machine.execTonePlayStop p s
  | .tdmSet p => Sys2Proof.Machine.execTdmSet p s
  | .audQuery p => Sys2Proof.Machine.execAudQuery p s
  | .mailboxPost who window value => Sys2Proof.Machine.execMailboxPost who window value s
  | .mailboxPop who unit value => Sys2Proof.Machine.execMailboxPop who unit value s
  | .queueRead who q width => Sys2Proof.Machine.execQueueRead who q width s
  | .queueItemWrite who q item => Sys2Proof.Machine.execQueueItemWrite who q item s
  | .queueHostDelivery q => Sys2Proof.Machine.execQueueHostDelivery q s
  | .lockRead who unit => Sys2Proof.Machine.execLockRead who unit s
  | .lockReleaseWrite who unit => Sys2Proof.Machine.execLockReleaseWrite who unit s
  | .mbAllow p => Sys2Proof.Machine.execMbAllow p s
  | .mbQuery p => Sys2Proof.Machine.execMbQuery p s
  | .qSet p => Sys2Proof.Machine.execQSet p s
  | .qQuery p => Sys2Proof.Machine.execQQuery p s
  | .lockTake p => Sys2Proof.Machine.execLockTake p s
  | .lockGive p => Sys2Proof.Machine.execLockGive p s
  | .refreshSlot waiting => Sys2Proof.Machine.execRefreshSlot waiting s
  | .mr4TempRead channel temp => Sys2Proof.Machine.execMr4TempRead channel temp s
  | .freqChangeLine => Sys2Proof.Machine.execFreqChangeLine s
  | .freqChangeComplete => Sys2Proof.Machine.execFreqChangeComplete s
  | .fchgGoWrite who value => Sys2Proof.Machine.execFchgGoWrite who value s
  | .patrolScrub region line kind => Sys2Proof.Machine.execPatrolScrub region line kind s
  | .rtLate channel => Sys2Proof.Machine.execRtLate channel s
  | .hotWindowEnd accesses last busy traffic => Sys2Proof.Machine.execHotWindowEnd accesses last busy traffic s
  | .trainingSetPointDone runs => Sys2Proof.Machine.execTrainingSetPointDone runs s
  | .dramInitClearDone => Sys2Proof.Machine.execDramInitClearDone s
  | .memFreqSet p => Sys2Proof.Machine.execMemFreqSet p s
  | .memRetrain p => Sys2Proof.Machine.execMemRetrain p s
  | .memRefPlan p => Sys2Proof.Machine.execMemRefPlan p s
  | .memCfg p => Sys2Proof.Machine.execMemCfg p s
  | .memQuery p => Sys2Proof.Machine.execMemQuery p s
  | .regimeSwitchEnd => Sys2Proof.Machine.execRegimeSwitchEnd s
  | .cpcClockStop who domain => Sys2Proof.Machine.execCpcClockStop who domain s
  | .cpcClockRun who domain => Sys2Proof.Machine.execCpcClockRun who domain s
  | .cpcPowerOff who domain => Sys2Proof.Machine.execCpcPowerOff who domain s
  | .cpcPowerOn who domain => Sys2Proof.Machine.execCpcPowerOn who domain s
  | .domainPowerSlot domain => Sys2Proof.Machine.execDomainPowerSlot domain s
  | .debugSessionAttach session world invasive => Sys2Proof.Machine.execDebugSessionAttach session world invasive s
  | .wmarkSet p => Sys2Proof.Machine.execWmarkSet p s
  | .claimSet p => Sys2Proof.Machine.execClaimSet p s
  | .debugSet p => Sys2Proof.Machine.execDebugSet p s
  | .fuseBlow p => Sys2Proof.Machine.execFuseBlow p s
  | .fuseBlowComplete => Sys2Proof.Machine.execFuseBlowComplete s
  | .worldQuery p => Sys2Proof.Machine.execWorldQuery p s
  | .cuJob p => Sys2Proof.Machine.execCuJob p s
  | .cuQuery p => Sys2Proof.Machine.execCuQuery p s
  | .cuDispatch unit => Sys2Proof.Machine.execCuDispatch unit s
  | .cuDirectGo who unit value => Sys2Proof.Machine.execCuDirectGo who unit value s
  | .cuJobComplete unit => Sys2Proof.Machine.execCuJobComplete unit s
  | .peatRecordCommit => Sys2Proof.Machine.execPeatRecordCommit s
  | .summaryRecord => Sys2Proof.Machine.execSummaryRecord s
  | .peatWrapWrite who value => Sys2Proof.Machine.execPeatWrapWrite who value s
  | .logQuery p => Sys2Proof.Machine.execLogQuery p s
  | .logExport p => Sys2Proof.Machine.execLogExport p s
  | .logExportComplete ring => Sys2Proof.Machine.execLogExportComplete ring s
  | .logPolicy p => Sys2Proof.Machine.execLogPolicy p s
  | .logRelease p => Sys2Proof.Machine.execLogRelease p s
  | .logMark p => Sys2Proof.Machine.execLogMark p s
  | .evtRingEnableWrite who world value => Sys2Proof.Machine.execEvtRingEnableWrite who world value s
  | .eventHostDelivery f => Sys2Proof.Machine.execEventHostDelivery f s
  | .evtRoute p => Sys2Proof.Machine.execEvtRoute p s
  | .evtRingSet p => Sys2Proof.Machine.execEvtRingSet p s
  | .evtQuery p => Sys2Proof.Machine.execEvtQuery p s
  | .supvPolicySet p => Sys2Proof.Machine.execSupvPolicySet p s
  | .supvQuery p => Sys2Proof.Machine.execSupvQuery p s
  | .supvKickWrite who value => Sys2Proof.Machine.execSupvKickWrite who value s
  | .supvWdExpired => Sys2Proof.Machine.execSupvWdExpired s
  | .lockstepMismatch => Sys2Proof.Machine.execLockstepMismatch s
  | .lockstepResetDelay => Sys2Proof.Machine.execLockstepResetDelay s
  | .rasterStall => Sys2Proof.Machine.execRasterStall s
  | .oscCompare ppm => Sys2Proof.Machine.execOscCompare ppm s
  | .healthAHalfPeriod => Sys2Proof.Machine.execHealthAHalfPeriod s
  | .healthBFrame => Sys2Proof.Machine.execHealthBFrame s
  | .policyAlarmExpiry => Sys2Proof.Machine.execPolicyAlarmExpiry s
  | .powerSlotEnd recLow tapSel => Sys2Proof.Machine.execPowerSlotEnd recLow tapSel s
  | .railFaultTimeout => Sys2Proof.Machine.execRailFaultTimeout s
  | .railFaultRetry => Sys2Proof.Machine.execRailFaultRetry s
  | .bootRomChain a1 a2 b1 b2 hash0 version => Sys2Proof.Machine.execBootRomChain a1 a2 b1 b2 hash0 version s
  | .vmainLowDetect mv10 => Sys2Proof.Machine.execVmainLowDetect mv10 s
  | .vmainRecovery mv10 => Sys2Proof.Machine.execVmainRecovery mv10 s
  | .brownOut vmainLost => Sys2Proof.Machine.execBrownOut vmainLost s
  | .vstbyLossDetect => Sys2Proof.Machine.execVstbyLossDetect s
  | .vstbyGoodDetect => Sys2Proof.Machine.execVstbyGoodDetect s
  | .thermalTrip => Sys2Proof.Machine.execThermalTrip s
  | .thermalRestart => Sys2Proof.Machine.execThermalRestart s
  | .dieTempSample die plate => Sys2Proof.Machine.execDieTempSample die plate s
  | .resetNAssert => Sys2Proof.Machine.execResetNAssert s
  | .warmNAssert => Sys2Proof.Machine.execWarmNAssert s
  | .warmResetReady k3 => Sys2Proof.Machine.execWarmResetReady k3 s
  | .warmResetComplete => Sys2Proof.Machine.execWarmResetComplete s
  | .wakeNAssert => Sys2Proof.Machine.execWakeNAssert s
  | .perstRisingEdge port => Sys2Proof.Machine.execPerstRisingEdge port s
  | .vmainWake => Sys2Proof.Machine.execVmainWake s
  | .dormantPowerDown => Sys2Proof.Machine.execDormantPowerDown s
  | .sysCcKickWrite who value => Sys2Proof.Machine.execSysCcKickWrite who value s
  | .ccWatchdogExpiry => Sys2Proof.Machine.execCcWatchdogExpiry s
  | .resetCmdWarm who key => Sys2Proof.Machine.execResetCmdWarm who key s
  | .resetCmdCold who key => Sys2Proof.Machine.execResetCmdCold who key s
  | .swrstWrite who value => Sys2Proof.Machine.execSwrstWrite who value s
  | .swrstRelease bit => Sys2Proof.Machine.execSwrstRelease bit s
  | .swrstStuck bit => Sys2Proof.Machine.execSwrstStuck bit s
  | .moduleResetWarm p => Sys2Proof.Machine.execModuleResetWarm p s
  | .moduleResetCold p => Sys2Proof.Machine.execModuleResetCold p s
  | .recoveryLoad p => Sys2Proof.Machine.execRecoveryLoad p s
  | .recoveryLoadComplete ring kind cause readBack image => Sys2Proof.Machine.execRecoveryLoadComplete ring kind cause readBack image s
  | .wakeSet p => Sys2Proof.Machine.execWakeSet p s
  | .gpioSet p => Sys2Proof.Machine.execGpioSet p s
  | .gpioRelease p => Sys2Proof.Machine.execGpioRelease p s
  | .powerQuery p => Sys2Proof.Machine.execPowerQuery p s
  | .registerRead a => Sys2Proof.Machine.execRegisterRead a s
  | .refreshDue channel => Sys2Proof.Machine.execRefreshDue channel s
  | .expectedReferenceMissing => Sys2Proof.Machine.execExpectedReferenceMissing s
  | .cuDescriptorComplete unit ue => Sys2Proof.Machine.execCuDescriptorComplete unit ue s
  | .undefinedOpcode opcode p => Sys2Proof.Machine.execUndefinedOpcode opcode p s
  | .powerOn => Sys2Proof.Machine.execPowerOn s
  | .firmwareImageCheck k4 k3 => Sys2Proof.Machine.execFirmwareImageCheck k4 k3 s

end Sys2Proof.Machine
end

