-- ==== Sys2Proof/Machine/Step.lean ====
section
/-! DEFINITION. The step of the W8: the command at the front of the queue is taken, or, when none waits, one grain of wall time
passes. -/
namespace Sys2Proof.Machine

/-- One step. With a command waiting, its effect on the machine whose queue is the rest (FIRST IN, FIRST OUT); on an empty queue
one grain passes (log entry 5). -/
def step (s : State) : Host.Outcome State Fault Refusal :=
  match s.pending with
  | [] => .next s.tick
  | c :: rest => exec c { s with pending := rest }

/-- The command that a word of the opcode table spells is put at the front of the queue; no row of the table has bits, so no word
spells one. -/
def State.withFetchWord (s : State) (nbits w : Nat) : State :=
  match Sys2Proof.decodeTableWord nbits w with
  | some c => { s with pending := c :: s.pending }
  | none => s

end Sys2Proof.Machine
end

