-- ==== Sys2Proof/Safety.lean ====
section
/-! DEFINITION. What counts as a safe state and a safe run of the W8, in the terms claims use. -/
namespace Sys2Proof.Machine

/-- Every sparse store of a state is in canonical form: the register file, memory, the peat bank, boot flash and the factory
baselines. -/
def State.canonical (s : State) : Bool :=
  swf s.regs && swf s.mem && swf s.peat.bank && swf s.power.flash && swf s.touch.factory

/-- A run is safe while no command stops it. -/
def Outcome.safe (o : Host.Outcome State Fault Refusal) : Bool :=
  match o with
  | .next _ => true
  | _ => false

/-- Two fields share no bit of a register. -/
def RF.apart (f g : RF) : Prop :=
  f.reg.addr ≠ g.reg.addr ∨ (f.reg = g.reg ∧ (f.lsb + f.width ≤ g.lsb ∨ g.lsb + g.width ≤ f.lsb))

/-- From `s` to `t` no register field changes but those listed and what they overlap. -/
def State.keeps (s t : State) (written : List RF) : Prop :=
  ∀ f : RF, (∀ g ∈ written, f.apart g) → t.get f = s.get f

/-- A field lies within its 64-bit register. -/
def RF.fits (f : RF) : Prop := f.lsb + f.width ≤ 64

/-! ### Entries that pass the checks of R79 -/

/-- The machine with a ring that is read again (R76). -/
def reading (p : Packet) (s : State) : State :=
  { s with pkt := { s.pkt with stopped := s.pkt.stopped.set p.ring.val false } }

/-- The entry of a packet stands whole at the head of a ring that is served and has reply space, is a caravan member or not, and
passes steps 1 to 12 of the check order of R79 for its opcode. -/
def accepted (sp : OpSpec) (p : Packet) (s : State) (isMember : Bool) : Prop :=
  s.served p.ring.val = true ∧ s.replyRoom p.ring.val = true
  ∧ p.length.toNat % 8 = 0 ∧ p.length.toNat ≤ 4064 ∧ entrySize p + 8 ≤ s.ringSize p.ring.val
  ∧ entrySize p ≤ s.unread p.ring.val ∧ p.trailer.toNat = entryCrc p sp.opcode
  ∧ p.source.toNat = ringSource p.ring.val ∧ p.version = 0x01 ∧ headerFault p = none ∧ (p.flags.toNat % 2 == 1) = isMember
  ∧ (s.seqSet p.ring.val = false ∨ sp.opcode = 0x0104 ∨ p.seq.toNat = s.get (pktSeq_EXPECT p.ring.val))
  ∧ (reading p s).checks sp (entryOrigin p sp s) isMember = none

/-- The machine once the W8 has read an entry: its ring is no longer stopped, expects the next sequence number and has its
consumer position behind the entry (R73, R76, R81). -/
def readBy (p : Packet) (s : State) : State :=
  ((reading p s).expect p.ring.val (p.seq.toNat + 1)).consume p

/-- A packet that is no caravan member, is accepted, passes the checks of its own opcode (step 13) and is not refused by a full
log (step 14). -/
def passes (sp : OpSpec) (p : Packet) (s : State) : Prop :=
  accepted sp p s false ∧ sp.check (readBy p s) (entryOrigin p sp s) = none
  ∧ (sp.log = .logged → (readBy p s).logRefuses 1 = false)

/-! ### Member-capable packets (R92 to R97) -/

/-- The commit stamp of an entry: the grain of the doorbell that first covered the whole of it (R97). -/
def coverStamp (p : Packet) (s : State) : Stamp := ((reading p s).expect p.ring.val (p.seq.toNat + 1)).coveredAt p

/-- The caravans of a state that wait for their arm instant. -/
def State.waiting (s : State) : List Caravan := s.pkt.caravans.filter fun c => c.state == .committed || c.state == .ready

/-- A member-capable packet outside every caravan is accepted in the frame of its commit stamp, and there is room for its
caravan (R97). -/
def lone (sp : OpSpec) (p : Packet) (s : State) : Prop :=
  accepted sp p s false ∧ (coverStamp p s).frame = s.now.frame
  ∧ ((readBy p s).waiting.filter fun c => c.ring == p.ring.val).length < 8 ∧ (readBy p s).waiting.length < 64

/-- The caravan of one that carries such a packet: it targets the frame after its commit stamp (R93, R97). -/
def loneCaravan (sp : OpSpec) (p : Packet) (s : State) : Caravan :=
  { ring := p.ring.val, id := 0, state := .committed, members := [entryOrigin p sp s], count := 1, fail := none,
    lastFrame := s.now.frame, commit := coverStamp p s, frame := (coverStamp p s).frame + 1, named := none, slides := 0,
    limit := 8, fences := [], last := some (entryOrigin p sp s), landedAt := s.now, awaits := [] }

/-- The machine that has read such a packet and committed its caravan. -/
def carried (sp : OpSpec) (p : Packet) (s : State) : State :=
  (readBy p s).setCaravans ((readBy p s).pkt.caravans ++ [loneCaravan sp p s])

/-! ### Draw packets (R212, R214) -/

/-- The machine when context `c` looks for its next packet: cluster time is counted, a context without a buffer has taken its queue
entry, and called buffers that have ended have returned. -/
def State.looking (s : State) (c : Nat) : State :=
  (s.countClusters.loadEntry c).modGctx c fun x => { x with stack := dropEnded x.stack }

/-- Context `c` runs and stands at the whole and well-formed packet `d` of a command (R214). -/
def stands (s : State) (c code : Nat) (d : DrawAt) : Prop :=
  s.ctxActive c = true ∧ (s.countClusters.loadEntry c).ctxActive c = true ∧ d.ctx = c
  ∧ d.bytes = (s.looking c).load d.addr (8 * min d.words 5)
  ∧ (∃ e rest, ((s.looking c).gctx c).stack = (d.addr, e) :: rest ∧ d.addr + 8 * d.words ≤ e)
  ∧ (s.looking c).loadNat d.addr 2 = code ∧ (s.looking c).loadNat (d.addr + 2) 2 = d.words
  ∧ 1 ≤ d.words ∧ d.words ≤ 4096 ∧ (drawWords code = some 0 ∨ drawWords code = some d.words)
  ∧ firstBad (drawZero code) (if code = 0 then d.bytes.take 8 else d.bytes) = none

end Sys2Proof.Machine
end

