-- ==== Sys2Proof/Certificates/Slice0/Obligations.lean ====
section
/-! DEFINITION. The statements about the W8 that are to be proved. Those of a command say which next state `exec` answers on the
states and operands for which the spec gives the command its effect, as an equation wherever the effect is short: what the
equation does not change is unchanged. `passes` and `readBy` (Safety.lean) say when a packet has passed every check and what
reading its entry does; `conclude` and `defer` write its record and its reply (statements on packet service). -/

open Sys2Proof Sys2Proof.Machine

/-- The lock loop (R18 to R22): a valid reference in LOCKED is counted and keeps the lock; the last of the run that R19 asks for
enters LOCKED and raises event 16; a reference expected and missing is counted; enough of them enter HOLDOVER and raise 17; the
limit of R21 raises 21, once in a holdover. -/
def Obligations.WallLockLoop : Prop :=
  (∀ (s : State) (d : Fin 4) (pos period freq freqErr phase : Int), s.canonical = true →
    s.get wallSyncCfg_TYPE = d.val → d.val ≠ 0 → s.wall.anchor = true → s.get wallStatus_STATE = 2 →
    period.natAbs ≤ 20000 → pos.natAbs ≤ 1024 → phase.natAbs ≤ 32 → freqErr.natAbs ≤ 100 →
    -32768 ≤ freq → freq < 32768 →
    exec (.houseSyncReference d pos period freq freqErr phase) s = .next
      (((((s.put wallStatus_MISMATCH 0).put wallPhase_PHASE_ERR (ofSigned 16 phase)).put wallPhase_FREQ_OFF
          (ofSigned 16 freq)).put wallStatus_RANGE 0).modWall fun w =>
        { w with missRun := 0, goodRun := w.goodRun + 1, freqs := (freq :: w.freqs).take 64, slew := 0 }))
  ∧ (∀ (s : State) (d : Fin 4) (pos period freq freqErr phase : Int), s.canonical = true →
    s.get wallSyncCfg_TYPE = d.val → d.val ≠ 0 → s.wall.anchor = true → s.get wallStatus_STATE = 1 → 15 ≤ s.wall.goodRun →
    period.natAbs ≤ 20000 → pos.natAbs ≤ 1024 → phase.natAbs ≤ 32 → freqErr.natAbs ≤ 100 →
    -32768 ≤ freq → freq < 32768 →
    exec (.houseSyncReference d pos period freq freqErr phase) s = .next
      (((((((s.put wallStatus_MISMATCH 0).put wallPhase_PHASE_ERR (ofSigned 16 phase)).put wallPhase_FREQ_OFF
          (ofSigned 16 freq)).put wallStatus_RANGE 0).modWall fun w =>
        { w with missRun := 0, goodRun := w.goodRun + 1, freqs := (freq :: w.freqs).take 64, slew := 0 }).put
        wallStatus_STATE 2).raise 16 (ofSigned 16 phase)))
  ∧ (∀ s : State, s.get wallSyncCfg_TYPE ≠ 0 →
    exec .expectedReferenceMissing s = .next (s.modWall fun w => { w with missRun := w.missRun + 1, goodRun := 0 }))
  ∧ (∀ s : State, s.canonical = true → s.get wallSyncCfg_LOSS_COUNT ≤ s.wall.missRun →
      (s.get wallStatus_STATE = 1 ∨ s.get wallStatus_STATE = 2) →
    exec .syncLost s = .next
      (((((s.put wallStatus_STATE 3).put wallStatus_HOLDOVER 1).put wallHoldTime_HOLD_SEC 0).modWall fun w =>
        { w with anchor := false, missRun := 0, holdSince := s.now, limitRaised := false, slew := 0 }).raise 17
        (s.get wallSyncCfg_LOSS_COUNT)))
  ∧ (∀ s : State, s.canonical = true → s.get wallStatus_STATE = 3 → s.wall.limitRaised = false →
      60 * s.get wallLockCfg_HOLD_LIMIT ≤ s.grainsToUs (s.since s.wall.holdSince) / 1000000 →
      s.grainsToUs (s.since s.wall.holdSince) / 1000000 < 2 ^ 32 →
    exec .holdoverLimit s = .next
      (((s.put wallHoldTime_HOLD_SEC (s.grainsToUs (s.since s.wall.holdSince) / 1000000)).modWall fun w =>
        { w with limitRaised := true }).raise 21 (s.get wallLockCfg_HOLD_LIMIT)))

/-- The wall-time opcodes (R33 to R35): RASTER_SET asks for a raster with the audio pair of R29 and is answered once it has taken
effect; SYNC_SET stages the house sync configuration and is answered at once; WALL_QUERY returns WALL_STATUS with WALL_PHASE, and
WALL_HOLD_TIME with the line count. -/
def Obligations.WallPackets : Prop :=
  (∀ (s : State) (p : Packet), passes specRasterSet p s →
    let o := entryOrigin p specRasterSet s
    let a := audioPair (o.u32 0) (o.u16 4) (o.u16 6)
    exec (.rasterSet p) s = .next ((((readBy p s).modWall fun w =>
      { w with raster := some ⟨o.u32 0, o.u16 4, o.u16 6, a.1, a.2, some o⟩ }).put wallStatus_PENDING 1).defer o))
  ∧ (∀ (s : State) (p : Packet), passes specSyncSet p s →
    let o := entryOrigin p specSyncSet s
    exec (.syncSet p) s = .next (((readBy p s).modWall fun w =>
      { w with sync := some [(wallSyncCfg.addr, o.u8 0 + 4 * o.u8 1 + 8 * o.u8 2 + 0x100 * o.u8 3 + 0x10000 * o.u16 4),
                             (wallCtrl.addr, o.u8 6), (wallLockCfg.addr, o.u8 7 + 0x100 * o.u8 8)] }).conclude o (done 0 0)))
  ∧ (∀ (s : State) (p : Packet), passes specWallQuery p s →
    let u := readBy p s
    exec (.wallQuery p) s = .next (u.conclude (entryOrigin p specWallQuery s)
      (done ((u.rd wallStatus).toNat + 0x100000000 * (u.rd wallPhase).toNat)
        ((u.rd wallHoldTime).toNat + 0x100000000 * u.get wallMrLines_MR_LINES))))

/-- Reads and writes of the WALL block: a 32-bit read of the low word of WALL_NOW, or of AUD_NOW, returns it and latches the upper
word (R32, R550); a sealed write of WALL_CTRL without APPLY sets RELOCK_MODE, one with APPLY brings the staged values into use at
the next master frame start, and one whose staged values fail a check is refused and discards them (R31). -/
def Obligations.WallRegisters : Prop :=
  (∀ (s : State) (who : Requester), s.mayRead who = true → worldOf who = .sealed →
    exec (.wallNowRead who) s = .next ((s.modWall fun w => { w with nowUpper := BitVec.ofNat 32 (s.now.word.toNat / 2 ^ 32) }).emit
      (.readValue (agentOf who) wallNow.addr (BitVec.ofNat 64 (s.now.word.toNat % 2 ^ 32)))))
  ∧ (∀ (s : State) (who : Requester), s.mayRead who = true → worldOf who = .sealed →
    exec (.audNowRead who) s = .next ((s.modWall fun w => { w with audUpper := BitVec.ofNat 32 (s.audNow / 2 ^ 32) }).emit
      (.readValue (agentOf who) audNow.addr (BitVec.ofNat 64 (s.audNow % 2 ^ 32)))))
  ∧ (∀ (s : State) (who : Requester) (v : W32), s.mayWrite who = true → worldOf who = .sealed →
      s.writeBarred who wallCtrl.addr = false → v.toNat % 2 = 0 →
    exec (.wallApplyWrite who v) s = .next ((s.put wallCtrl_RELOCK_MODE (v.toNat / 2)).noteWrite who wallCtrl.addr v.toNat
      (s.rd wallCtrl).toNat))
  ∧ (∀ (s : State) (who : Requester) (v : W32), s.mayWrite who = true → worldOf who = .sealed →
      s.writeBarred who wallCtrl.addr = false → v.toNat % 2 = 1 → s.applyFault = none →
      s.rasterDiffers s.stagedRaster = false → s.wall.staged.any (·.1 == wallSyncCfg.addr) = true → s.canonical = true →
    exec (.wallApplyWrite who v) s = .next ((((s.put wallCtrl_RELOCK_MODE (v.toNat / 2)).modWall fun w =>
      { w with sync := some (w.staged.filter fun e => e.1 == wallSyncCfg.addr), staged := [] }).put wallStatus_PENDING 1).noteWrite
        who wallCtrl.addr v.toNat (s.rd wallCtrl).toNat))
  ∧ (∀ (s : State) (who : Requester) (v : W32) (st : Nat), s.mayWrite who = true → worldOf who = .sealed →
      v.toNat % 2 = 1 → s.applyFault = some st →
    exec (.wallApplyWrite who v) s = .next ((s.refuseWrite who wallCtrl.addr v.toNat (s.rd wallCtrl).toNat st).modWall fun w =>
      { w with staged := [] }))

/-- Links and losses of the guest ports (R37, R55, R66 to R71): a link that trains shows its rate and width and raises 128, and 130
when it is not Gen 4 by four lanes; a link that goes down clears them, raises 129 and resets the port's functions; a hot reset
resets them; a link out of L0 too long, or a heartbeat too late, loses the port, which the other port's functions show; a heartbeat
restarts the timer. -/
def Obligations.PortLinks : Prop :=
  (∀ (s : State) (p : Fin 2) (speed width : Fin 5), s.canonical = true → s.portPowered p.val = true →
      s.get (hpLink_DL_UP p.val) = 0 → s.get (hpLink_LOST p.val) = 0 → speed.val ≠ 0 →
      (width.val = 1 ∨ width.val = 2 ∨ width.val = 4) →
    exec (.linkUp p speed width) s = .next
      (let t := ((((s.put (hpLink_SPEED p.val) speed.val).put (hpLink_WIDTH p.val) width.val).put (hpLink_DL_UP p.val) 1).modHostPort
        p.val fun x => { x with linkOut := false }).raise 128 (p.val * 256 + speed.val * 16 + width.val)
       if speed.val = 4 ∧ width.val = 4 then t else t.raise 130 (p.val * 256 + speed.val * 16 + width.val)))
  ∧ (∀ (s : State) (p : Fin 2), s.get (hpLink_DL_UP p.val) = 1 →
    exec (.linkDown p) s = .next
      ((((((s.put (hpLink_SPEED p.val) 0).put (hpLink_WIDTH p.val) 0).put (hpLink_DL_UP p.val) 0).modHostPort p.val fun x =>
        { x with linkOut := true }).raise 129 p.val).resetPort p.val 3))
  ∧ (∀ (s : State) (p : Fin 2), s.get (hpLink_DL_UP p.val) = 1 →
    exec (.hotReset p) s = .next
      ((s.modHostPort p.val fun x => { x with vfEnable := false, numVfs := 0 }).each ((List.range 16).map (16 * p.val + ·)) fun s f =>
        s.requestReset f 3 [] none))
  ∧ (∀ (s : State) (p : Fin 2), (s.hostPort p.val).linkOut = true → s.get (hpLink_LOST p.val) = 0 →
    exec (.portLinkLossTimeout p) s = .next
      ((((s.put (hpLink_LOST p.val) 1).modHostPort p.val fun x => { x with heartbeatOut := true }).each
        ((List.range 16).map (16 * (1 - p.val) + ·)) fun s f => s.putStatus (fnStatus_PORT_LOST f) f 1).raise 131 (p.val * 256 + 1)))
  ∧ (∀ (s : State) (p : Fin 2), s.get (hpCfg_HB_EN p.val) = 1 → s.get (hpLink_LOST p.val) = 0 →
    exec (.heartbeatTimeout p) s = .next
      ((((s.put (hpLink_LOST p.val) 1).modHostPort p.val fun x => { x with heartbeatOut := true }).each
        ((List.range 16).map (16 * (1 - p.val) + ·)) fun s f => s.putStatus (fnStatus_PORT_LOST f) f 1).raise 131 (p.val * 256 + 2)))
  ∧ (∀ (s : State) (f : Fin 32) (v : W32), s.onLink f.val = true → s.power.warm = none → f.val % 16 = 0 →
      s.get (hpLink_LOST (portOf f.val)) = 0 →
    exec (.fnHeartbeatWrite f v) s = .next (s.modHostPort (portOf f.val) fun x => { x with heartbeatOut := false }))

/-- Requests for a function reset (R55, R57, R58): a function-level reset of a virtual function requests a reset of that function, of
a physical one a reset of every function of its port; VFs that leave the link are reset; a request that meets a reset is merged
into it, one within 16 µs of the last reset waits, any other begins at once; the end of those 16 µs lets a reset that waits begin. -/
def Obligations.ResetRequests : Prop :=
  (∀ (s : State) (f : Fin 32), s.onLink f.val = true → f.val % 16 ≠ 0 →
    exec (.functionLevelReset f) s = .next (s.requestReset f.val 1 [] none))
  ∧ (∀ (s : State) (f : Fin 32), s.onLink f.val = true → f.val % 16 = 0 →
    exec (.functionLevelReset f) s = .next
      ((s.modHostPort (portOf f.val) fun x => { x with vfEnable := false, numVfs := 0 }).each
        ((List.range 16).map (16 * portOf f.val + ·)) fun s f => s.requestReset f 1 [] none))
  ∧ (∀ (s : State) (p : Fin 2) (numVfs : Fin 16), s.barUp (16 * p.val) = true → (s.hostPort p.val).vfEnable = false →
    exec (.vfEnableChange p true numVfs) s = .next (s.modHostPort p.val fun x =>
      { x with vfEnable := true, numVfs := numVfs.val }))
  ∧ (∀ (s : State) (p : Fin 2) (numVfs : Fin 16), s.barUp (16 * p.val) = true → (s.hostPort p.val).vfEnable = true →
    exec (.vfEnableChange p false numVfs) s = .next
      ((s.modHostPort p.val fun x => { x with vfEnable := false, numVfs := numVfs.val }).each
        ((List.range 16).filter fun i => decide (0 < i ∧ i ≤ (s.hostPort p.val).numVfs)) fun s i =>
          s.requestReset (16 * p.val + i) 2 [] none))
  ∧ (∀ (s : State) (f source : Nat) (l : List Origin) (d : Option Origin) (r : FnReset), (s.fn f).reset = some r →
    s.requestReset f source l d = s.modFn f fun x => { x with reset := some { r with
      merged := r.merged + 1, replies := r.replies ++ l, destroy := r.destroy <|> d } })
  ∧ (∀ (s : State) (f source : Nat) (l : List Origin) (d : Option Origin), (s.fn f).reset = none →
    s.requestReset f source l d =
      (let w := s.modFn f fun x => { x with reset := some ⟨.waiting, source, 0, l, d⟩ }
       if (s.fn f).spacing then w else w.decideReset f))
  ∧ (∀ (s : State) (f : Fin 32), exec (.resetSpacingEnd f) s = .next
      ((s.modFn f.val fun x => { x with spacing := false }).decideReset f.val))

/-- Doorbells, reply space and BAR 2 (R43, R45, R76, R97): a good doorbell moves the tail and is kept with its stamp, a bad one raises
138 and does nothing else; a ring with reply space is read again; a host access inside the tenant's range stores its bytes or returns
what they hold, one outside it is aborted with 137, or as a violation where the pages are not the tenant's. -/
def Obligations.DoorbellsAndBar2 : Prop :=
  (∀ (s : State) (f : Fin 32) (tail : W32), s.onLink f.val = true → s.power.warm = none → s.resetting f.val = false →
      s.get (fnCmdSize_EN f.val) = 1 → tail.toNat < 2 ^ 20 → tail.toNat % 8 = 0 → tail.toNat < s.ringSize f.val →
    exec (.fnDoorbellWrite f tail) s = .next { s with pkt := { s.pkt with
      tails := s.pkt.tails.set f.val tail.toNat, bells := modAt s.pkt.bells f.val (· ++ [(tail.toNat, s.now)]) } })
  ∧ (∀ (s : State) (f : Fin 32) (tail : W32), s.onLink f.val = true → s.power.warm = none → s.resetting f.val = false →
      tail.toNat < 2 ^ 20 → (s.get (fnCmdSize_EN f.val) = 0 ∨ tail.toNat % 8 ≠ 0 ∨ s.ringSize f.val ≤ tail.toNat) →
    exec (.fnDoorbellWrite f tail) s = .next (s.raise 138 f.val))
  ∧ (∀ (s : State) (r : Fin 34), s.replyRoom r.val = true →
    exec (.ringReadResume r) s = .next { s with pkt := { s.pkt with stopped := s.pkt.stopped.set r.val false } })
  ∧ (∀ (s : State) (f : Fin 32) (off : BitVec 26) (data : List Byte) (n : Fin 4097), s.onLink f.val = true →
      (s.tenant f.val).any (·.bar2) = true → s.power.warm = none →
      s.get (fnBar2Off_OFF f.val) * mib2 + off.toNat + data.length ≤ (s.range f.val).2 → off.toNat + data.length ≤ 2 ^ 26 →
      s.mayAccess (.function f.val) ((s.range f.val).1 + (s.get (fnBar2Off_OFF f.val) * mib2 + off.toNat)) data.length = true →
    exec (.bar2Access f off data n true 0) s = .next
      (s.store ((s.range f.val).1 + (s.get (fnBar2Off_OFF f.val) * mib2 + off.toNat)) data))
  ∧ (∀ (s : State) (f : Fin 32) (off : BitVec 26) (data : List Byte) (n : Fin 4097), s.onLink f.val = true →
      (s.tenant f.val).any (·.bar2) = true → s.power.warm = none →
      s.get (fnBar2Off_OFF f.val) * mib2 + off.toNat + n.val ≤ (s.range f.val).2 → off.toNat + n.val ≤ 2 ^ 26 →
      s.mayAccess (.function f.val) ((s.range f.val).1 + (s.get (fnBar2Off_OFF f.val) * mib2 + off.toNat)) n.val = true →
    exec (.bar2Access f off data n false 0) s = .next
      (s.emit (.readData f.val (s.load ((s.range f.val).1 + (s.get (fnBar2Off_OFF f.val) * mib2 + off.toNat)) n.val))))
  ∧ (∀ (s : State) (f : Fin 32) (off : BitVec 26) (data : List Byte) (n : Fin 4097) (ecc : Fin 4), s.onLink f.val = true →
      (s.tenant f.val).any (·.bar2) = true → s.power.warm = none →
      (s.range f.val).2 < s.get (fnBar2Off_OFF f.val) * mib2 + off.toNat + data.length →
    exec (.bar2Access f off data n true ecc) s = .next ((s.emit (.completerAbort f.val)).raise 137 f.val))

/-- The course of a function reset (R50, R56 to R60): the end of a drain squashes the function, whose generation passes from 255 to 1;
the last steps return the ring registers to their Warm values, clear RST, raise 134 and answer the packets that asked; the end of
the clear of a destroyed tenant's DRAM leaves its bytes zero, opens its pages, frees its range and answers TENANT_DESTROY; a tag that
times out is counted and raises 136. -/
def Obligations.ResetCourse : Prop :=
  (∀ (s : State) (f : Fin 32) (r : FnReset), (s.fn f.val).reset = some r → r.phase = .draining →
    exec (.drainEnd f) s = .next
      ((((s.putStatus (fnStatus_GEN f.val) f.val (if s.get (fnStatus_GEN f.val) = 255 then 1 else s.get (fnStatus_GEN f.val) + 1))
        |>.gfxResetFunction f.val).discardWork f.val).modFn f.val fun x =>
          { x with reset := x.reset.map fun r => { r with phase := .running } }))
  ∧ (∀ (s : State) (f : Fin 32) (r : FnReset), (s.fn f.val).reset = some r → r.phase = .running → r.destroy = none →
    exec (.funcResetComplete f) s = .next
      (((((s.ringsWarm f.val).modFn f.val fun x => { x with reset := none, spacing := true }).putStatus (fnStatus_RST f.val) f.val
        0).raise 134 (f.val * 256 + min r.merged 255)).each r.replies fun s o => s.settle o (done 0 0)))
  ∧ (∀ (s : State) (f : Fin 32) (r : FnReset) (o : Origin), (s.fn f.val).reset = some r → r.phase = .running → r.destroy = some o →
    exec (.funcResetComplete f) s = .next
      ((((((s.ringsWarm f.val).modFn f.val fun x => { x with reset := none, spacing := true }).putStatus (fnStatus_RST f.val) f.val
        0).raise 134 (f.val * 256 + min r.merged 255)).each r.replies fun s o => s.settle o (done 0 0)).giveBack f.val (some o)))
  ∧ (∀ (s : State) (f : Fin 32) (base size : Nat) (o : Origin), (s.fn f.val).clearing = some (base, size, some o) → size ≠ 0 →
    exec (.dramClearComplete f) s = .next
      (((((s.zeroMem (dramBase + base * mib2) (dramBase + (base + size) * mib2)).setOwner base size 1).cold
        (worldFnRange f.val)).modFn f.val fun x => { x with clearing := none }).settle o (done 0 0)))
  ∧ (∀ (s : State) (f : Fin 32), exec (.tagTimeout f) s = .next
      ((s.bump (hpDiscardCnt_COUNT (portOf f.val))).raise 136 f.val))

/-- The tenant opcodes (R46 to R51, R62, R65): TENANT_CREATE places the DRAM range, grants the units, sets generation, TENANT and
CLASS, and returns the range's base with class and contexts; TENANT_DESTROY requests a reset after which the tenant goes;
TENANT_SHARE changes one share of the next frame; FUNC_RESET requests a reset, answered at its end unless the function asks for its
own; TENANT_QUERY returns FN_STATUS with the range's size, and the shares; HOME_SET names or removes an alternate. -/
def Obligations.TenantPackets : Prop :=
  (∀ (s : State) (p : Packet), passes specTenantCreate p s →
    let o := entryOrigin p specTenantCreate s
    let f := o.tgt
    let t := (readBy p s).newTenant o
    let base := if o.u32 4 = 0 then 0 else ((readBy p s).placeRange (o.u32 4)).getD 0
    let u := ((readBy p s).put (worldFnRange_BASE f) base).put (worldFnRange_SIZE f) (o.u32 4)
    let u := if o.u32 4 = 0 then u else u.setOwner base (o.u32 4) (0x20 + f)
    let u := u.each t.contexts State.grantCtx
    let u := u.each t.mailboxes fun u m => u.put (mbqMbCfg_RX m) f
    let u := u.each t.queues fun u q => u.put (mbqQCfg_OWNER q) f
    let u := u.each t.locks fun u l => u.put (mbqLockPeek_OWNER l) f
    let u := u.modFn f fun x => { x with tenant := some t }
    exec (.tenantCreate p) s = .next
      ((((u.putStatus (fnStatus_GEN f) f 1).putStatus (fnStatus_TENANT f) f 1).putStatus (fnStatus_CLASS f) f t.cls).conclude o
        (done (if o.u32 4 = 0 then 0 else dramBase + base * mib2)
          (t.cls + 0x100 + 0x10000 * (t.contexts.headD 0) + 0x1000000 * t.contexts.length))))
  ∧ (∀ (s : State) (p : Packet), passes specTenantDestroy p s →
    let o := entryOrigin p specTenantDestroy s
    exec (.tenantDestroy p) s = .next (((readBy p s).requestReset o.tgt 6 [] (some o)).defer o))
  ∧ (∀ (s : State) (p : Packet), passes specTenantShare p s →
    let o := entryOrigin p specTenantShare s
    exec (.tenantShare p) s = .next (((readBy p s).modTenant o.tgt fun t =>
      { t with nextShares := t.nextShares.set (o.u8 0) (o.u8 1) }).conclude o (done 0 0)))
  ∧ (∀ (s : State) (p : Packet), passes specFuncReset p s →
    let o := entryOrigin p specFuncReset s
    exec (.funcReset p) s = .next (if o.ring = o.tgt then (readBy p s).requestReset o.tgt 4 [] none
      else ((readBy p s).requestReset o.tgt 4 [o] none).defer o))
  ∧ (∀ (s : State) (p : Packet), passes specTenantQuery p s →
    let o := entryOrigin p specTenantQuery s
    let u := readBy p s
    exec (.tenantQuery p) s = .next (u.conclude o
      (done ((u.rd (fnStatus o.tgt)).toNat + 0x100000000 * u.get (worldFnRange_SIZE o.tgt)) (u.shareBytes o.tgt))))
  ∧ (∀ (s : State) (p : Packet), passes specHomeSet p s →
    let o := entryOrigin p specHomeSet s
    let f := o.tgt
    (readBy p s).returns o = false →
    let u := (((readBy p s).clearHome ((readBy p s).homeRow f)).putStatus (fnStatus_ACTING f) f 0).modFn f fun x =>
      { x with returning := false }
    exec (.homeSet p) s = .next ((if o.u8 0 = 1 then
        (u.put (hpHome_ALT (portOf f) (f % 16)) (o.u16 2)).put (hpHome_DUAL (portOf f) (f % 16)) 1 else u).conclude o (done 0 0)))
  ∧ (∀ (s : State) (p : Packet), passes specHomeSet p s →
    let o := entryOrigin p specHomeSet s
    (readBy p s).returns o = true →
    exec (.homeSet p) s = .next (((readBy p s).modFn o.tgt fun x => { x with returning := true }).conclude o (done 0 0)))

/-- The system opcodes (R81, R82, R89): SYS_QUERY returns the mode with the variant, and the firmware version; NOP returns its payload;
SEQ_SYNC is accepted whatever its number and returns what its ring expected; MARGIN_SET asks for a margin at the next frame.
Modes and the internal rings (R77, R107, R401, R402, R476, R477): MODE_REQUEST for Dormant raises 14 and 3, aborts what is
committed and is answered at once; for any other mode it begins the transition and is answered when the mode takes effect; a request
for Service in Degraded clears FORCED; the end of the check of R401 brings W into force in the watermark regime, or refuses the
request that asked for it with the first page that breaks the rule; a write of an internal ring's size register enables the ring
where its range is placed as R77 asks. -/
def Obligations.SystemPacketsAndModes : Prop :=
  (∀ (s : State) (p : Packet), passes specSysQuery p s →
    exec (.sysQuery p) s = .next ((readBy p s).conclude (entryOrigin p specSysQuery s)
      (done (s.variant * 0x100 + (readBy p s).get sysMode_MODE) s.power.firmware.toNat)))
  ∧ (∀ (s : State) (p : Packet), passes specNop p s →
    let o := entryOrigin p specNop s
    exec (.nop p) s = .next ((readBy p s).conclude o (done (o.u64 0) (o.u64 8))))
  ∧ (∀ (s : State) (p : Packet),
    let sp := specSeqSync (s.get (pktSeq_EXPECT p.ring.val)) (s.seqSet p.ring.val)
    passes sp p s →
    exec (.seqSync p) s = .next ((readBy p s).conclude (entryOrigin p sp s)
      (done (s.get (pktSeq_EXPECT p.ring.val) + (if s.seqSet p.ring.val then 0x100000000 else 0)) 0)))
  ∧ (∀ (s : State) (p : Packet), passes specMarginSet p s →
    let o := entryOrigin p specMarginSet s
    exec (.marginSet p) s = .next
      (({ readBy p s with pkt := { (readBy p s).pkt with margin := some (o.u16 0) } } : State).conclude o (done 0 0)))
  ∧ (∀ (s : State) (p : Packet), passes specModeRequest p s → (entryOrigin p specModeRequest s).u8 0 = 0 →
    let u := readBy p s
    let u := (u.raise 14 ((u.rd sysWakeCfg).toNat % 8)).raise 3 (u.get sysMode_MODE * 256)
    exec (.modeRequest p) s = .next (((((u.put sysMode_PREV (u.get sysMode_MODE)).put sysMode_MODE 0).abortCommitted).modPower
      fun x => { x with stage := .entering }).conclude (entryOrigin p specModeRequest s) (done 0 0)))
  ∧ (∀ (s : State) (p : Packet), passes specModeRequest p s → (entryOrigin p specModeRequest s).u8 0 = 3 →
      (readBy p s).get sysMode_MODE = 4 →
    let o := entryOrigin p specModeRequest s
    exec (.modeRequest p) s = .next ((((readBy p s).put sysMode_FORCED 0).modPower fun x =>
      { x with pending := some ⟨3, some o, false⟩ }).defer o))
  ∧ (∀ (s : State) (p : Packet), passes specModeRequest p s → (entryOrigin p specModeRequest s).u8 0 ≠ 0 →
      (entryOrigin p specModeRequest s).u8 0 ≠ 7 → (readBy p s).get sysMode_MODE ≠ 4 →
    let o := entryOrigin p specModeRequest s
    exec (.modeRequest p) s = .next (((readBy p s).beginMode (o.u8 0) (some o)).defer o))
  ∧ (∀ s : State, s.world.switching = some true → s.firstBadPage = none →
    exec .regimeSwitchEnd s = .next
      (((({ s with world := { s.world with wInForce := s.get worldWmark_W } } : State).switchDone).put worldStatus_REGIME 1).raise
        424 1))
  ∧ (∀ (s : State) (page code : Nat) (o : Origin), s.world.switching = some true → s.firstBadPage = some (page, code) →
      s.power.pending.bind (·.origin) = some o →
    exec .regimeSwitchEnd s = .next
      ((s.switchDone.modPower fun p => { p with pending := none }).settle o
        ⟨stMode, 0x4500, BitVec.ofNat 64 page, BitVec.ofNat 64 code⟩))
  ∧ (∀ s : State, s.world.switching = some false →
    exec .regimeSwitchEnd s = .next (((s.writeOwnerTable.switchDone).put worldStatus_REGIME 0).raise 424 0))
  ∧ (∀ (s : State) (who : Requester) (v : W32), s.mayWrite who = true → worldOf who = .sealed →
      s.writeBarred who (pktIrCmdSize 0).addr = false → v.toNat / 2 ^ 31 = 1 → 12 ≤ v.toNat % 32 → v.toNat % 32 ≤ 20 →
      inSealedSram (s.get (pktIrCmdBase_ADDR 0) % 2 ^ 36 * 4096) (2 ^ (v.toNat % 32)) = true →
    exec (.internalRingEnableWrite who .sealed false v) s = .next
      (((s.put (pktIrCmdSize_LOG2 0) (v.toNat % 32)).put (pktIrCmdSize_EN 0) 1).noteWrite who (pktIrCmdSize 0).addr v.toNat
        (s.rd (pktIrCmdSize 0)).toNat))
  ∧ (∀ (s : State) (who : Requester) (reply : Bool) (v : W32), s.mayWrite who = true → worldOf who = .opened →
    let r := if reply then pktIrRplSize 0 else pktIrCmdSize 0
    exec (.internalRingEnableWrite who .sealed reply v) s = .next (s.refuseWrite who r.addr v.toNat (s.rd r).toNat stWorld))

/-- A packet of a member-capable opcode outside every caravan is carried as a caravan of one that targets the frame after its commit
stamp and is counted among the committed ones; nothing else of the machine changes but what reading the entry does (R93, R97).
The opcodes that only caravans carry (R92, R94, R95, R103, R106): as the first member of a new ID they open its caravan, and
CARAVAN_TIME sets its frame and its slide limit, CARAVAN_FENCE one more fence; as a further member they join it; each such member is
answered ACCEPTED. CARAVAN_END as last member commits the caravan for the frame it names, or the next. -/
def Obligations.LonePacketsAndMembers : Prop :=
  (∀ (s : State) (p : Packet) (sp : OpSpec), sp ∈ memberSpecs → sp.member = .capable → lone sp p s →
    s.packet sp p = carried sp p s
    ∧ (carried sp p s).pkt.caravans = s.pkt.caravans ++ [loneCaravan sp p s]
    ∧ (carried sp p s).out = s.out ∧ (carried sp p s).mem = s.mem
    ∧ (s.canonical = true → (carried sp p s).get pktStatus_COMMITTED =
        ((s.pkt.caravans.filter fun c => c.state == .committed || c.state == .ready).length + 1) % 2 ^ pktStatus_COMMITTED.width))
  ∧ (∀ (s : State) (p : Packet),
    let u := readBy p s
    let o := entryOrigin p specCaravanTime s
    accepted specCaravanTime p s true → p.flags.toNat / 2 % 2 = 0 → specCaravanTime.check u o = none →
    (∀ c ∈ u.pkt.caravans, c.ring = o.ring → c.id ≠ o.caravan) →
    (u.pkt.caravans.filter fun c => c.ring == o.ring && c.isOpen o.ring c.id).length < 4 →
    exec (.caravanTime p) s = .next ((u.setCaravans (u.pkt.caravans ++ [{ Caravan.fresh u o.ring o.caravan .opened with
      members := [o], count := 1, named := if leAt o.payload 0 5 = 0 then none else some (leAt o.payload 0 5),
      limit := o.u8 8 }])).answer o (refusal stAccepted 0) s.now.word))
  ∧ (∀ (s : State) (p : Packet) (c : Caravan),
    let u := readBy p s
    let o := entryOrigin p specCaravanFence s
    accepted specCaravanFence p s true → p.flags.toNat / 2 % 2 = 0 → specCaravanFence.check u o = none →
    u.openCaravan o.ring o.caravan = some c → c.state = .opened → c.count < 64 →
    (∀ x ∈ u.pkt.caravans, x.ring = o.ring → x.id = o.caravan → x.isOpen o.ring o.caravan = true) →
    exec (.caravanFence p) s = .next ((u.setCaravans (replaceFirst u.pkt.caravans (·.isOpen o.ring o.caravan) fun _ =>
      [{ c with members := c.members ++ [o], count := c.count + 1, lastFrame := s.now.frame,
                fences := c.fences ++ [(o.u8 0, o.u64 8)] }])).answer o (refusal stAccepted 0) s.now.word))
  ∧ (∀ (s : State) (p : Packet) (c : Caravan),
    let u := readBy p s
    let o := entryOrigin p specCaravanEnd s
    let v := u.setCaravans (replaceFirst u.pkt.caravans (·.isOpen o.ring o.caravan) fun _ => [])
    let frame := c.named.getD ((coverStamp p s).frame + 1)
    accepted specCaravanEnd p s true → p.flags.toNat / 2 % 2 = 1 →
    u.openCaravan o.ring o.caravan = some c → c.state = .opened → c.count < 64 →
    (∀ x ∈ u.pkt.caravans, x.ring = o.ring → x.id = o.caravan → x.isOpen o.ring o.caravan = true) →
    (v.waiting.filter fun x => x.ring == c.ring).length < 8 → v.waiting.length < 64 →
    (coverStamp p s).frame < frame → frame ≤ (coverStamp p s).frame + 65536 → s.now.frame < frame →
    exec (.caravanEnd p) s = .next (v.setCaravans (v.pkt.caravans ++ [{ c with
      members := c.members ++ [o], count := c.count + 1, lastFrame := s.now.frame, state := .committed,
      commit := coverStamp p s, last := some o, frame := frame, slides := 0 }])))

/-- The course of caravans (R96, R98, R101, R106): validation makes a committed caravan READY, or refuses it with the status, detail and
index of the first member that fails; an open caravan left alone for OPEN_LIMIT frames becomes a stub and raises 147; CARAVAN_ABORT
withdraws an open caravan, and a committed one with ABORTED 1 to its last member; CARAVAN_QUERY returns state, slides, members and
frame. -/
def Obligations.CaravanCourse : Prop :=
  (∀ (s : State) (ring : Fin 34) (id : W32) (c : Caravan),
    let test : Caravan → Bool := fun c => c.ring == ring.val && c.id == id && c.state == .committed
    s.pkt.caravans.find? test = some c →
    validateFrom memberSpec c.members 0 { s.atFrame memberSpec c.frame with now := ⟨c.frame, 0, 0⟩ } = none →
    exec (.caravanValidationDone ring id) s = .next
      (s.setCaravans (replaceFirst s.pkt.caravans test fun c => [{ c with state := .ready }])))
  ∧ (∀ (s : State) (ring : Fin 34) (id : W32) (c : Caravan) (status detail index : Nat),
    let test : Caravan → Bool := fun c => c.ring == ring.val && c.id == id && c.state == .committed
    s.pkt.caravans.find? test = some c →
    validateFrom memberSpec c.members 0 { s.atFrame memberSpec c.frame with now := ⟨c.frame, 0, 0⟩ } =
      some (status, detail, index) → status ≠ stPinTaken → status ≠ stLate → status ≠ stAborted →
    exec (.caravanValidationDone ring id) s = .next
      (let u := (s.setCaravans (replaceFirst s.pkt.caravans test fun _ => [])).bump pktRefusedCnt_COUNT
       match c.last with
       | some o => u.answer o ⟨status, if c.count ≤ 1 then detail else index,
           BitVec.ofNat 64 (detail % 0x10000 + 0x10000 * (index % 256)), BitVec.ofNat 64 c.id.toNat⟩ s.now.word
       | none => u))
  ∧ (∀ (s : State) (ring : Fin 34) (id : W32) (c : Caravan), c ∈ s.pkt.caravans → c.ring = ring.val → c.id = id →
      (c.state = .opened ∨ c.state = .poisoned) → c.lastFrame + s.get pktCtrl_OPEN_LIMIT ≤ s.now.frame →
    exec (.caravanExpired ring id) s = .next ((s.setCaravans (replaceFirst s.pkt.caravans (fun c =>
        c.ring == ring.val && c.id == id && (c.state == .opened || c.state == .poisoned)
          && decide (c.lastFrame + s.get pktCtrl_OPEN_LIMIT ≤ s.now.frame))
      fun c => [{ c with state := .stub, members := [] }])).raise 147 ring.val))
  ∧ (∀ (s : State) (p : Packet) (c : Caravan), passes specCaravanAbort p s →
    let u := readBy p s
    let o := entryOrigin p specCaravanAbort s
    let id := BitVec.ofNat 32 (o.u32 0)
    u.pkt.caravans.find? (fun c => c.ring == o.ring && c.id == id && id != 0) = some c →
    (c.state = .opened ∨ c.state = .poisoned ∨ c.state = .stub) →
    exec (.caravanAbort p) s = .next
      ((u.setCaravans (u.pkt.caravans.filter fun x => !(x.ring == o.ring && x.id == id))).conclude o (done 0 0)))
  ∧ (∀ (s : State) (p : Packet) (c : Caravan), passes specCaravanAbort p s →
    let u := readBy p s
    let o := entryOrigin p specCaravanAbort s
    let id := BitVec.ofNat 32 (o.u32 0)
    u.pkt.caravans.find? (fun c => c.ring == o.ring && c.id == id && id != 0) = some c →
    (c.state = .committed ∨ c.state = .ready) →
    exec (.caravanAbort p) s = .next
      (((u.setCaravans (u.pkt.caravans.filter fun x => !(x.ring == o.ring && x.id == id))).refuseCaravan c
        (refusal stAborted 1)).conclude o (done 0 0)))
  ∧ (∀ (s : State) (p : Packet) (c : Caravan), passes specCaravanQuery p s →
    let u := readBy p s
    let o := entryOrigin p specCaravanQuery s
    let id := BitVec.ofNat 32 (o.u32 0)
    u.pkt.caravans.find? (fun c => c.ring == o.ring && c.id == id && id != 0) = some c →
    (c.state = .committed ∨ c.state = .ready ∨ c.state = .landed) →
    exec (.caravanQuery p) s = .next (u.conclude o
      (done ((match c.state with | .committed => 2 | .ready => 3 | _ => 5) + 256 * (c.slides % 16) + 0x10000 * (c.count % 256))
        (c.frame % 2 ^ 40))))

/-- DisplayPort links (R116, R117, R119, R137): a plug stores the sink's capabilities, raises 23 and starts training at the lower rate and
lane count; an unplug raises 23 and idles the lanes; an IRQ that shows lost lane status raises 24 and 27 and untrains; an attempt that
succeeds trains the link and raises 25, a third failure drops to the next lower rate that qualifies or raises 26; AUX data answers the
oldest SINK_READ.
DSI ports (R122 to R125): a TE edge within the wait window starts the transfer of its frame at the current head line; an error
report of the panel raises 31. -/
def Obligations.DisplayLinks : Prop :=
  (∀ (s : State) (p : Fin 8) (rate : Fin 4) (lanes : Fin 5) (sinks : Fin 16), s.canonical = true → s.displayLive = true →
      s.get (ymxPortCfg_EN p.val) = 1 → s.get (ymxPortCfg_TYPE p.val) = 0 → s.power.warm = none →
    exec (.hpdPlug p rate lanes sinks) s = .next
      (((((s.put (ymxPortStatus_HPD p.val) 1).put (ymxPortStatus_SINK_COUNT p.val) sinks.val).modLink p.val fun l =>
        { l with plugged := true, sinkRate := rate.val, sinkLanes := lanes.val }).raise 23 (p.val * 256 + 1)).startTraining p.val))
  ∧ (∀ (s : State) (p : Fin 8), s.canonical = true → s.displayLive = true → s.get (ymxPortCfg_EN p.val) = 0 →
      s.get (ymxPortCfg_TYPE p.val) = 0 → (s.link p.val).aux = [] →
    exec (.hpdUnplug p) s = .next
      ((((s.put (ymxPortStatus_HPD p.val) 0).put (ymxPortStatus_SINK_COUNT p.val) 0).untrain p.val).modLink p.val fun l =>
        { l with plugged := false, aux := [] }))
  ∧ (∀ (s : State) (p : Fin 8), s.canonical = true → s.displayLive = true → s.get (ymxPortCfg_EN p.val) = 1 →
      s.get (ymxPortCfg_TYPE p.val) = 0 → (s.link p.val).aux = [] → s.power.warm = none →
    exec (.hpdUnplug p) s = .next
      (((((s.put (ymxPortStatus_HPD p.val) 0).put (ymxPortStatus_SINK_COUNT p.val) 0).untrain p.val).modLink p.val fun l =>
        { l with plugged := false, aux := [] }).raise 23 (p.val * 256)))
  ∧ (∀ (s : State) (p : Fin 8), s.displayLive = true → s.get (ymxPortCfg_EN p.val) = 1 → s.get (ymxPortCfg_TYPE p.val) = 0 →
      (s.link p.val).plugged = true → s.power.warm = none →
    exec (.hpdIrq p true true true) s = .next (s.raise 24 p.val))
  ∧ (∀ (s : State) (p : Fin 8) (cr eq sym : Bool), s.canonical = true → s.displayLive = true → s.get (ymxPortCfg_EN p.val) = 1 →
      s.get (ymxPortCfg_TYPE p.val) = 0 → (s.link p.val).plugged = true → s.power.warm = none →
      s.get (ymxPortStatus_TRAINED p.val) = 1 → (cr && eq && sym) = false → s.get (ymxPortCfg_AUTO_RETRAIN p.val) = 0 →
    exec (.hpdIrq p cr eq sym) s = .next
      (((((s.raise 24 p.val).raise 27 p.val).untrain p.val).putBit (ymxPortStatus_CR_DONE p.val) cr).putBit
        (ymxPortStatus_EQ_DONE p.val) eq |>.putBit (ymxPortStatus_SYM_LOCK p.val) sym))
  ∧ (∀ (s : State) (p : Fin 8) (rate lanes : Nat), (s.link p.val).training = some (rate, lanes) →
    exec (.linkTrainAttemptEnd p true true true) s = .next
      ((((((((s.put (ymxPortStatus_ATTEMPTS p.val) (s.get (ymxPortStatus_ATTEMPTS p.val) + 1)).put
        (ymxPortStatus_CR_DONE p.val) 1).put (ymxPortStatus_EQ_DONE p.val) 1).put (ymxPortStatus_SYM_LOCK p.val) 1).put
        (ymxPortStatus_TRAINED p.val) 1).put (ymxPortStatus_RATE p.val) rate).put (ymxPortStatus_LANES p.val) lanes).modLink p.val
        (fun l => { l with training := none, rbDue := true }) |>.raise 25 (p.val * 256 + rate * 16 + lanes)))
  ∧ (∀ (s : State) (p : Fin 8) (rate lanes : Nat), s.canonical = true → (s.link p.val).training = some (rate, lanes) →
      s.get (ymxPortStatus_ATTEMPTS p.val) = 2 →
    let t := (((s.put (ymxPortStatus_ATTEMPTS p.val) 3).put (ymxPortStatus_CR_DONE p.val) 0).put (ymxPortStatus_EQ_DONE p.val) 0).put
      (ymxPortStatus_SYM_LOCK p.val) 0
    exec (.linkTrainAttemptEnd p false false false) s = .next
      (match t.lowerRate p.val rate lanes with
       | some r => (t.put (ymxPortStatus_ATTEMPTS p.val) 0).modLink p.val fun l => { l with training := some (r, lanes) }
       | none => (t.modLink p.val fun l => { l with training := none, failed := true }).raise 26 (p.val * 256 + rate)))
  ∧ (∀ (s : State) (p : Fin 8) (data : List Byte) (o : Origin) (rest : List Origin), (s.link p.val).aux = o :: rest →
    exec (.auxReadComplete p 0 data) s = .next ((s.modLink p.val fun l => { l with aux := rest }).settle o
      ⟨stDone, 0, BitVec.ofNat 64 (leAt (data.take (o.u8 4)) 0 8), BitVec.ofNat 64 (leAt (data.take (o.u8 4)) 8 8)⟩))
  ∧ (∀ (s : State) (p : Fin 8), s.dsiCommand p.val = true → s.get (ymxPortDsi_TE_EN p.val) = 1 → s.running p.val = true →
      s.power.warm = none → s.headLine p.val ≤ s.get (ymxPortDsi_TE_WAIT p.val) → (s.link p.val).teSeen = false →
      (s.head p.val).xfer = none → s.get (headStatus_TE_LOST p.val) = 0 →
    exec (.teEdge p) s = .next ((s.modLink p.val fun l => { l with teSeen := true, teMisses := 0, teHits := l.teHits + 1 }).modHead
      p.val fun h => { h with xfer := some (s.headLine p.val) }))
  ∧ (∀ (s : State) (p : Fin 8) (report : W32), 6 ≤ p.val → s.get (ymxPortCfg_TYPE p.val) = 1 →
      s.get (ymxPortDsi_ERR_POLL p.val) = 1 → s.running p.val = true → report ≠ 0 →
    exec (.dsiErrPoll p report) s = .next (s.raise 31 report.toNat))

/-- The port opcodes (R116, R119, R122, R139, R140): PORT_CONFIG writes the port's settings and what follows a change of them;
PORT_RETRAIN starts a training; SINK_READ waits for the AUX channel, or is answered at once with 3 where no sink is; DSI_CONFIG writes
the DSI settings and holds the TE contact, or is refused and logged where the contact is claimed. -/
def Obligations.PortPackets : Prop :=
  (∀ (s : State) (p : Packet), passes specPortConfig p s →
    let o := entryOrigin p specPortConfig s
    let n := o.tgt
    exec (.portConfig p) s = .next
      (((((((((readBy p s).put (ymxPortCfg_EN n) 1).put (ymxPortCfg_TYPE n) (if n < 6 then 0 else o.u8 0)).put (ymxPortCfg_RATE n)
        (o.u8 1)).put (ymxPortCfg_LANES n) (o.u8 2)).put (ymxPortCfg_BPC n) (o.u8 3)).put (ymxPortCfg_DITHER n) (o.u8 4 % 2)).put
        (ymxPortCfg_AUTO_RETRAIN n) (o.u8 4 / 2)).portChanged n ((readBy p s).rd (ymxPortCfg n)) |>.conclude o (done 0 0)))
  ∧ (∀ (s : State) (p : Packet), passes specPortRetrain p s →
    let o := entryOrigin p specPortRetrain s
    exec (.portRetrain p) s = .next (((readBy p s).startTraining o.tgt).conclude o (done 0 0)))
  ∧ (∀ (s : State) (p : Packet), passes specSinkRead p s →
    let o := entryOrigin p specSinkRead s
    let u := readBy p s
    u.dpEnabled o.tgt = true → (u.link o.tgt).plugged = true →
    exec (.sinkRead p) s = .next ((u.modLink o.tgt fun l => { l with aux := l.aux ++ [o] }).defer o))
  ∧ (∀ (s : State) (p : Packet), passes specSinkRead p s →
    let o := entryOrigin p specSinkRead s
    let u := readBy p s
    (u.dpEnabled o.tgt = false ∨ (u.link o.tgt).plugged = false) →
    exec (.sinkRead p) s = .next (u.conclude o ⟨stDone, 3, 0, 0⟩))
  ∧ (∀ (s : State) (p : Packet), passes specDsiConfig p s →
    let o := entryOrigin p specDsiConfig s
    let n := o.tgt
    (o.u8 1 = 0 ∨ (readBy p s).bit sysGpio_CLAIM n = false) →
    let t := ((((((readBy p s).put (ymxPortDsi_CMD n) (o.u8 0)).put (ymxPortDsi_TE_EN n) (o.u8 1)).put (ymxPortDsi_TE_EDGE n)
      (o.u8 2)).put (ymxPortDsi_TE_FAIL_LIMIT n) (o.u8 3)).put (ymxPortDsi_TE_WAIT n) (o.u16 4)).put (ymxPortDsirate_LANE_MBPS n)
      (o.u16 6) |>.put (ymxPortDsi_ERR_POLL n) (o.u8 8)
    exec (.dsiConfig p) s = .next ((if o.u8 1 = 1 then t.modLink n fun l => { l with teHeld := true } else t).conclude o (done 0 0)))
  ∧ (∀ (s : State) (p : Packet), passes specDsiConfig p s →
    let o := entryOrigin p specDsiConfig s
    o.u8 1 = 1 → (readBy p s).bit sysGpio_CLAIM o.tgt = true →
    exec (.dsiConfig p) s = .next ((readBy p s).recordAndAnswer o (refusal stPinTaken 0) stPinTaken true))

/-- The head opcodes and the registers that enable and arm heads (R112, R126, R127, R138 to R140): HEAD_TIMING_SET writes the timing
registers; an accepted HEAD_ENABLE with 1 sets EN and is answered at the first head frame, with 0 clears it and is answered at once;
HEAD_QUERY returns the head's and the port's status, the pixel clock and the position; HEAD_SHOW sets what the next latched frame shows;
a sealed write of HEAD_n_CTRL enables a head whose timing stands, and one of HEAD_WALL_ARM arms heads. -/
def Obligations.HeadPackets : Prop :=
  (∀ (s : State) (p : Packet), passes specHeadTimingSet p s →
    let o := entryOrigin p specHeadTimingSet s
    exec (.headTimingSet p) s = .next (((readBy p s).setTiming o).conclude o (done 0 0)))
  ∧ (∀ (s : State) (o : Origin), (s.link o.tgt).failed = false →
    let n := o.tgt
    s.setTiming o = ((((((((((((s.wr (headHtime n) (BitVec.ofNat 64 (o.u32 0))).put (headHsync_HFP n) (o.u16 4)).put (headHsync_HSW n)
      (o.u16 6)).put (headHsync_HPOL n) (o.u8 16)).wr (headVtime n) (BitVec.ofNat 64 (o.u32 8))).put (headVsync_VFP n) (o.u16 12)).put
      (headVsync_VSW n) (o.u16 14)).put (headVsync_VPOL n) (o.u8 16 / 2)).put (headOffset_O n) (o.u16 18)).put
      (headLatch_LATCH_LINE n) (o.u16 20)).put (headCtrl_K2 n) (o.u8 17 - 1))))
  ∧ (∀ (s : State) (p : Packet), passes specHeadEnable p s →
    let o := entryOrigin p specHeadEnable s
    let u := readBy p s
    o.u8 0 = 1 → u.get (headCtrl_EN o.tgt) = 0 → s.canonical = true → s.get (headStatus_RUNNING o.tgt) = 0 → o.tgt < 8 →
    exec (.headEnable p) s = .next
      (((u.put (headCtrl_EN o.tgt) 1).modHead o.tgt fun h => { h with armSeen := none, waiters := h.waiters ++ [o] }).defer o))
  ∧ (∀ (s : State) (p : Packet), passes specHeadEnable p s →
    let o := entryOrigin p specHeadEnable s
    o.u8 0 = 0 →
    exec (.headDisable p) s = .next (((readBy p s).disableHead o.tgt).conclude o (done 0 0)))
  ∧ (∀ (s : State) (n : Nat), (s.head n).waiters = [] → s.canonical = true → n < 8 →
    s.disableHead n = (s.put (headCtrl_EN n) 0).modHead n fun h => { h with armSeen := none, waiters := [], ending := s.running n })
  ∧ (∀ (s : State) (p : Packet), passes specHeadQuery p s →
    let o := entryOrigin p specHeadQuery s
    let u := readBy p s
    exec (.headQuery p) s = .next (u.conclude o
      (done ((u.rd (headStatus o.tgt)).toNat + 0x100000000 * (u.rd (ymxPortStatus o.tgt)).toNat)
        (u.pclkKhz (u.timing o.tgt) % 2 ^ 32 + 0x100000000 * u.headPosNow o.tgt))))
  ∧ (∀ (s : State) (p : Packet), lone specHeadShow p s → exec (.headShow p) s = .next (carried specHeadShow p s)
      ∧ ∀ t : State, t.landMembers memberSpec (loneCaravan specHeadShow p s) =
        t.put (headShow_SHOW p.target.toNat) (min (entryOrigin p specHeadShow s |>.u8 0) 2))
  ∧ (∀ (s : State) (who : Requester) (n : Fin 8) (v : W32), s.canonical = true → s.mayWrite who = true → worldOf who = .sealed →
      s.writeBarred who (headCtrl n.val).addr = false → s.get (headCtrl_EN n.val) = 0 → v.toNat % 2 = 1 →
      (s.put (headCtrl_K2 n.val) (v.toNat / 2)).mayEnable n.val = true →
    exec (.headEnWrite who n v) s = .next ((((s.put (headCtrl_K2 n.val) (v.toNat / 2)).put (headCtrl_EN n.val) 1).modHead n.val fun h =>
      { h with armSeen := none }).noteWrite who (headCtrl n.val).addr v.toNat (s.rd (headCtrl n.val)).toNat))
  ∧ (∀ (s : State) (who : Requester) (v : W32), s.mayWrite who = true → worldOf who = .sealed →
      s.writeBarred who headWallArm.addr = false →
    exec (.headWallArmWrite who v) s = .next ((s.put headWallArm_ARM (s.get headWallArm_ARM ||| (v.toNat % 256))).noteWrite who
      headWallArm.addr v.toNat (s.rd headWallArm).toNat))

/-- Engine faults, the warm spare, takeover, restore and the spare test (R131 to R136, R140). A fault of an engine that serves its port
raises 32; with AUTO and an idle spare it raises 33 and begins a takeover; a fault of the idle engine 8 makes the spare faulty; the
self-test of a restore lets it load, or refuses it with 2; a spare test leaves the spare idle or faulty; the opcodes begin each. -/
def Obligations.WarmSpare : Prop :=
  (∀ (s : State) (e : Fin 9), s.canonical = true → s.displayLive = true → e.val < 8 → s.engine e.val = e.val →
      (s.get ymxSpare_STATE = 0 ∨ s.get ymxSpare_STATE = 1) → s.get ymxSpare_AUTO = 1 → s.spare.test = none →
    exec (.engineDatapathFault e) s = .next
      ((((((s.raise 32 (e.val * 256 + 1)).raise 33 (e.val * 256 + e.val)).put ymxSpare_STATE 2).put ymxSpare_SERVING e.val).modSpare
        fun x => { x with nominated := s.get ymxSpare_STATE == 1 && s.get ymxSpare_NOMINATE == e.val, loaded := false,
                          primed := false, origin := none }).ashFromNext e.val))
  ∧ (∀ (s : State) (e : Fin 9), s.canonical = true → s.displayLive = true → e.val < 8 → s.engine e.val = e.val →
      (s.get ymxSpare_STATE = 0 ∨ s.get ymxSpare_STATE = 1) → s.get ymxSpare_AUTO = 0 → s.spare.test = none →
    exec (.engineTimingWatchdog e) s = .next (((s.raise 32 (e.val * 256 + 2)).setEngine e.val 15).ashFromNext e.val))
  ∧ (∀ (s : State), s.displayLive = true → (s.get ymxSpare_STATE = 0 ∨ s.get ymxSpare_STATE = 1) → s.spare.test = none →
    exec (.engineDatapathFault 8) s = .next (((s.raise 32 (8 * 256 + 1)).put ymxSpare_STATE 5).put ymxSpare_SERVING 0))
  ∧ (∀ (s : State) (e : Fin 9) (o : Origin), s.spare.restore = some (e.val, .test, o) →
    exec (.engineBistComplete e true) s = .next (s.modSpare fun x => { x with restore := some (e.val, .load, o) }))
  ∧ (∀ (s : State) (e : Fin 9) (o : Origin), s.spare.restore = some (e.val, .test, o) →
    exec (.engineBistComplete e false) s = .next
      ((s.modSpare fun x => { x with restore := none }).settle o (refusal stNoResource 2)))
  ∧ (∀ (s : State) (pass : Bool) (o : Origin), s.spare.test = some o →
    exec (.spareTestComplete pass) s = .next (if pass
      then ((s.modSpare fun x => { x with test := none }).put ymxSpare_STATE 0).settle o (done 0 0)
      else ((s.modSpare fun x => { x with test := none }).put ymxSpare_STATE 5).settle o (refusal stNoResource 2)))
  ∧ (∀ (s : State) (p : Packet), passes specSpareSet p s →
    let o := entryOrigin p specSpareSet s
    exec (.spareSet p) s = .next (((((readBy p s).put ymxSpare_NOMINATE (o.u8 0)).put ymxSpare_AUTO (o.u8 1)).renominate
      ((readBy p s).get ymxSpare_NOMINATE)).conclude o (done 0 0)))
  ∧ (∀ (s : State) (p : Packet), passes specSpareAction p s →
    let o := entryOrigin p specSpareAction s
    let u := readBy p s
    o.u8 0 = 1 → u.get ymxSpare_STATE ≠ 5 → u.spare.test = none →
    exec (.spareTakeover p) s = .next ((u.engineFault (o.u8 1) 4 (some o)).defer o))
  ∧ (∀ (s : State) (p : Packet), passes specSpareAction p s →
    let o := entryOrigin p specSpareAction s
    o.u8 0 = 2 →
    exec (.spareRestore p) s = .next (((readBy p s).modSpare fun x => { x with restore := some (o.u8 1, .test, o) }).defer o))
  ∧ (∀ (s : State) (p : Packet), passes specSpareAction p s →
    let o := entryOrigin p specSpareAction s
    let u := readBy p s
    o.u8 0 = 3 →
    exec (.spareTest p) s = .next
      (((if u.get ymxSpare_STATE = 1 then u.put ymxSpare_STATE 0 else u).modSpare fun x => { x with test := some o }).defer o))

/-- The layer opcodes (R143, R150, R152, R159, R175, R176). A LAYER_SET, LAYER_ADDR or LAYER_COLOUR that stands alone is carried as a
caravan of one and, when it lands, writes the shadow registers of its pipe from its payload: nothing else changes. LAYER_LIST returns
the tenant's pipes and write-back units, LAYER_QUERY the pipe's state.
Underruns and tie groups (R165 to R167). A layer that is shown and has no pixel ready at a pixel of its destination rectangle, or is
not ready at its first line, records the pixel, counts, is transparent from there on, marks its frame and raises 40 or 41; the other
shown layers of its tie group turn off with it and 42 is raised once. -/
def Obligations.LayersAndUnderruns : Prop :=
  (∀ (s : State) (p : Packet), lone specLayerSet p s →
    let o := entryOrigin p specLayerSet s
    let n := o.tgt
    exec (.layerSet p) s = .next (carried specLayerSet p s)
    ∧ ∀ t : State, t.compBound n = none →
      t.landMembers memberSpec (loneCaravan specLayerSet p s) =
        [0, 1, 2, 3].foldl (fun t k => t.wr (layerRect n k) (BitVec.ofNat 64 (o.u32 (36 + 4 * k))))
          ((((((((((((((((t.putBit (layerCtrl_EN n) (o.u8 0 == 1)).put (layerCtrl_FORMAT n) (o.u8 1)).putBit (layerCtrl_TILED n)
            (o.u8 2 % 2 == 1)).putBit (layerCtrl_HFLIP n) (o.u8 2 / 2 % 2 == 1)).putBit (layerCtrl_VFLIP n)
            (o.u8 2 / 4 % 2 == 1)).put (layerCtrl_FILTER n) (o.u8 3)).put (layerCtrl_GANG n) (o.u8 4)).put (layerCtrl_Z n)
            (o.u8 5)).putBit (layerCtrl_PREMULT n) (o.u8 6 == 1)).put (layerCtrl_TIE n) (o.u8 7)).put (layerBlend_PALPHA n)
            (o.u16 8)).put (layerBind_HEAD n) (o.u8 10)).put (layerAddr_ADDR n 0) (o.u64 16 / 64)).put (layerAddr_ADDR n 1)
            (o.u64 24 / 64)).put (layerStride_STRIDE n) (o.u32 32 / 64))))
  ∧ (∀ (s : State) (p : Packet), lone specLayerAddr p s →
    let o := entryOrigin p specLayerAddr s
    exec (.layerAddr p) s = .next (carried specLayerAddr p s)
    ∧ ∀ t : State, t.landMembers memberSpec (loneCaravan specLayerAddr p s) =
        (t.put (layerAddr_ADDR o.tgt 0) (o.u64 0 / 64)).put (layerAddr_ADDR o.tgt 1) (o.u64 8 / 64))
  ∧ (∀ (s : State) (p : Packet), lone specLayerColour p s →
    let o := entryOrigin p specLayerColour s
    let n := o.tgt
    exec (.layerColour p) s = .next (carried specLayerColour p s)
    ∧ ∀ t : State, t.landMembers memberSpec (loneCaravan specLayerColour p s) =
        (t.put (layerCsel_CSEL n) (o.u8 0)).putMatrix o (layerCm n) (layerCmOff n) (layerCm_C_LO n 4) (layerCmOff_PRE n) (layerCmOff_POST n))
  ∧ (∀ (t : State) (o : Origin) (cm off : Nat → Reg) (lo : RF) (pre post : Nat → RF),
    t.putMatrix o cm off lo pre post =
      [0, 1, 2].foldl (fun t k => ((t.wr (off k) 0).put (pre k) (o.u16 (26 + 4 * k) % 2048)).put (post k) (o.u16 (28 + 4 * k) % 2048))
        (([0, 1, 2, 3].foldl (fun t k => t.wr (cm k) (BitVec.ofNat 64 (o.u32 (8 + 4 * k)))) t).put lo (o.u16 24)))
  ∧ (∀ (s : State) (p : Packet) (t : Tenant), passes specLayerList p s →
    let o := entryOrigin p specLayerList s
    (readBy p s).tenant o.tgt = some t →
    exec (.layerList p) s = .next ((readBy p s).conclude o (done (maskOf t.pipes) (maskOf t.wbs))))
  ∧ (∀ (s : State) (p : Packet), passes specLayerQuery p s →
    let o := entryOrigin p specLayerQuery s
    let u := readBy p s
    exec (.layerQuery p) s = .next (u.conclude o
      (done ((u.rd ((layerCtrl o.tgt).shift actPipe)).toNat + 0x100000000 * (u.rd (layerStatus o.tgt)).toNat)
        ((u.rd (layerUrPos o.tgt)).toNat + 0x100000000 * u.get ((layerBind_HEAD o.tgt).shift actPipe)))))
  ∧ (∀ (s : State) (pipe : Fin 48) (line pixel : W16),
    let m := pipe.val
    let l := s.layer m scanPipe
    s.leadOf m scanPipe = none → s.layerShown m = true → (s.pipe m).offAt = none →
    l.dx ≤ pixel.toNat → pixel.toNat < l.dx + l.dw → l.dy ≤ line.toNat → line.toNat < l.dy + l.dh →
    exec (.layerUnderrun pipe line pixel) s = .next (s.underrun m line.toNat pixel.toNat 40))
  ∧ (∀ (s : State) (pipe : Fin 48),
    let m := pipe.val
    let l := s.layer m scanPipe
    s.leadOf m scanPipe = none → s.layerShown m = true → (s.pipe m).offAt = none → s.sending l.head = true → s.mirageAt m = s.now →
    exec (.layerFirstLine pipe false) s = .next (s.underrun m l.dy l.dx 41)
    ∧ exec (.layerFirstLine pipe true) s = .next s)
  ∧ (∀ (s : State) (m line pixel event : Nat),
    let l := s.layer m scanPipe
    let t := ((((((s.put (layerUrPos_LINE m) line).put (layerUrPos_PIXEL m) pixel).bump (layerUrCnt_COUNT m)).put (layerStatus_OFF_UR m)
      1).turnOff m (line, pixel)).modFrame l.head fun f => { f with off := true }).raise event (m * 256 + l.head)
    (l.tie = 0 → s.underrun m line pixel event = t)
    ∧ (l.tie ≠ 0 →
      let others := (t.pipesScanned l.head).filter fun k => k != m && (t.layer k scanPipe).en && (t.layer k scanPipe).tie == l.tie
      let off := others.foldl (fun t k => (t.put (layerStatus_OFF_TIE k) 1).turnOff k (line, pixel)) t
      s.underrun m line pixel event =
        if others.any fun k => t.flag (layerStatus_OFF_TIE k) then off else off.raise 42 (l.head * 256 + l.tie)))
  ∧ (∀ (s : State) (m line pixel : Nat), (s.turnOff m (line, pixel)) = s.modPipe m fun p => { p with offAt := match p.offAt with
      | some x => if pixelBefore x (line, pixel) then some x else some (line, pixel)
      | none => some (line, pixel) })

/-- Head output, gamma and write-back (R161, R169 to R172, R175, R176). HEAD_OUTPUT_SET, HEAD_GAMMA_SET and WB_SET that land write
their shadow registers; WB_QUERY returns the stamp and status; a complete capture is written, stamped, counted and raises 44; an
overflow writes the lines before it, marks the capture incomplete and raises 45; a one-shot capture that ends clears MODE. -/
def Obligations.HeadColourAndWriteBack : Prop :=
  (∀ (s : State) (p : Packet), lone specHeadOutputSet p s →
    let o := entryOrigin p specHeadOutputSet s
    let n := o.tgt
    exec (.headOutputSet p) s = .next (carried specHeadOutputSet p s)
    ∧ ∀ t : State, t.landMembers memberSpec (loneCaravan specHeadOutputSet p s) =
        (((t.put (headOctrl_OM_EN n) (o.u8 0)).put (headOctrl_GAMMA_EN n) (o.u8 1)).wr (headBg n) (BitVec.ofNat 64 (o.u32 4))).putMatrix o
          (headOcm n) (headOcmOff n) (headOcm_C_LO n 4) (headOcmOff_PRE n) (headOcmOff_POST n))
  ∧ (∀ (s : State) (p : Packet), lone specHeadGammaSet p s →
    let o := entryOrigin p specHeadGammaSet s
    exec (.headGammaSet p) s = .next (carried specHeadGammaSet p s)
    ∧ ∀ t : State, t.landMembers memberSpec (loneCaravan specHeadGammaSet p s) =
        (List.range (o.u16 2)).foldl (fun t i => t.wr (headGamma o.tgt (o.u16 0 + i)) (BitVec.ofNat 64 (o.u32 (8 + 4 * i)))) t)
  ∧ (∀ (s : State) (p : Packet), lone specWbSet p s →
    let o := entryOrigin p specWbSet s
    let u := o.tgt - 64
    exec (.wbSet p) s = .next (carried specWbSet p s)
    ∧ ∀ t : State, t.landMembers memberSpec (loneCaravan specWbSet p s) =
        (((((((t.put (layerWbCtrl_MODE u) (o.u8 0)).put (layerWbCtrl_FORMAT u) (o.u8 1)).put (layerWbCtrl_N u) (o.u8 2)).put
          (layerWbCtrl_HEAD u) (o.u8 3)).put (layerWbAddr_ADDR u) (o.u64 8 / 64)).put (layerWbStride_STRIDE u) (o.u32 16 / 64)).modWb u
          fun w => { w with touched := true }))
  ∧ (∀ (s : State) (p : Packet), passes specWbQuery p s →
    let o := entryOrigin p specWbQuery s
    let u := readBy p s
    exec (.wbQuery p) s = .next (u.conclude o
      (done (u.rd (layerWbStamp (o.tgt - 64))).toNat (u.rd (layerWbStatus (o.tgt - 64))).toNat)))
  ∧ (∀ (s : State) (unit : Fin 4) (start : Stamp), (s.wb unit.val).capture = some start →
    let u := unit.val
    let n := s.get ((layerWbCtrl_HEAD u).shift actWb)
    exec (.wbCaptureComplete unit) s = .next ((((((s.writeLines u (s.head n).tm.vactive).wr (layerWbStamp u) start.word).bump
      (layerWbCnt_COUNT u)).put (layerWbStatus_INCOMPLETE u) 0).wbEnd u).raise 44 (u * 256 + n)))
  ∧ (∀ (s : State) (unit : Fin 4) (lines : W16) (start : Stamp), (s.wb unit.val).capture = some start →
    let u := unit.val
    exec (.wbOverflow unit lines) s = .next ((((s.writeLines u lines.toNat).put (layerWbStatus_INCOMPLETE u) 1).wbEnd u).raise 45
      (u * 256 + s.get ((layerWbCtrl_HEAD u).shift actWb))))
  ∧ (∀ (s : State) (u lines : Nat),
    let n := s.get ((layerWbCtrl_HEAD u).shift actWb)
    s.writeLines u lines = (List.range (min lines (s.head n).tm.vactive)).foldl (fun t y =>
      t.store (s.get ((layerWbAddr_ADDR u).shift actWb) * 64 + y * (s.get ((layerWbStride_STRIDE u).shift actWb) * 64))
        ((List.range (s.head n).tm.hactive).flatMap fun x =>
          leBytes 4 (captureWord (s.get ((layerWbCtrl_FORMAT u).shift actWb)) (s.shown n (s.head n).frame (s.stack n) x y)))) s)
  ∧ (∀ (s : State) (u : Nat),
    let t := (s.modWb u fun w => { w with capture := none }).put (layerWbStatus_BUSY u) 0
    let t1 := t.put ((layerWbCtrl_MODE u).shift actWb) 0
    (t.get ((layerWbCtrl_MODE u).shift actWb) ≠ 1 → s.wbEnd u = t)
    ∧ (t.get ((layerWbCtrl_MODE u).shift actWb) = 1 →
      s.wbEnd u = (if (t1.wb u).touched then t1 else t1.put (layerWbCtrl_MODE u) 0).modWb u fun w => { w with shot := false }))

/-- The integrity packets that caravans carry (R179, R186, R187, R189, R191, R196, R206). Each, when it lands, writes the shadow
registers of its pipe or head from its payload, and nothing else. -/
def Obligations.IntegrityPackets : Prop :=
  (∀ (s : State) (p : Packet), lone specGuardSet p s →
    let o := entryOrigin p specGuardSet s
    exec (.guardSet p) s = .next (carried specGuardSet p s)
    ∧ ∀ t : State, t.landMembers memberSpec (loneCaravan specGuardSet p s) =
        (t.put (layerGuard_CLASS o.tgt) (o.u8 0)).put (layerBudget_BUDGET o.tgt) (o.u32 4))
  ∧ (∀ (s : State) (p : Packet), lone specFreshTime p s →
    let o := entryOrigin p specFreshTime s
    exec (.freshTime p) s = .next (carried specFreshTime p s)
    ∧ ∀ t : State, t.landMembers memberSpec (loneCaravan specFreshTime p s) = t.wr (layerCtime o.tgt) (BitVec.ofNat 64 (o.u64 0)))
  ∧ (∀ (s : State) (p : Packet), lone specRectSet p s →
    let o := entryOrigin p specRectSet s
    exec (.rectSet p) s = .next (carried specRectSet p s)
    ∧ ∀ t : State, t.landMembers memberSpec (loneCaravan specRectSet p s) =
        ((t.wr (integRectPos o.tgt (o.u8 0)) (BitVec.ofNat 64 (o.u32 4))).wr (integRectSize o.tgt (o.u8 0))
          (BitVec.ofNat 64 (o.u32 8))).wr (integRectCtrl o.tgt (o.u8 0)) (BitVec.ofNat 64 (o.u8 1)))
  ∧ (∀ (s : State) (p : Packet), lone specRectExpect p s →
    let o := entryOrigin p specRectExpect s
    exec (.rectExpect p) s = .next (carried specRectExpect p s)
    ∧ ∀ t : State, t.landMembers memberSpec (loneCaravan specRectExpect p s) =
        (List.range (o.u8 1)).foldl (fun t i => t.put (if o.u8 2 = 1 then integRectExpB_EXPECT o.tgt (o.u8 0 + i)
          else integRectExp_EXPECT o.tgt (o.u8 0 + i)) (o.u32 (8 + 4 * i))) t)
  ∧ (∀ (s : State) (p : Packet), lone specEmberSet p s →
    let o := entryOrigin p specEmberSet s
    let n := o.tgt
    let q := o.u8 0
    exec (.emberSet p) s = .next (carried specEmberSet p s)
    ∧ ∀ t : State, t.landMembers memberSpec (loneCaravan specEmberSet p s) =
        (((((t.putBit (integEmbCtrl_EN n q) (o.u8 1 == 1)).put (integEmbCtrl_SCALE n q) (o.u8 2)).put (integEmbBase_OFFSET n q)
          (((t.emberGrant n).1 + o.u32 4) / 64)).put (integEmbBase_STRIDE n q) (o.u8 3)).wr (integEmbPos n q)
          (BitVec.ofNat 64 (o.u32 8))).wr (integEmbSize n q) (BitVec.ofNat 64 (o.u32 12)))
  ∧ (∀ (s : State) (p : Packet), lone specEmberPalette p s →
    let o := entryOrigin p specEmberPalette s
    exec (.emberPalette p) s = .next (carried specEmberPalette p s)
    ∧ ∀ t : State, t.landMembers memberSpec (loneCaravan specEmberPalette p s) =
        (List.range (o.u16 4)).foldl (fun t i => t.wr (integEmbPal o.tgt (o.u8 0) (o.u16 2 + i)) (BitVec.ofNat 64 (o.u32 (8 + 4 * i)))) t)
  ∧ (∀ (s : State) (p : Packet), lone specEmberExpect p s →
    let o := entryOrigin p specEmberExpect s
    exec (.emberExpect p) s = .next (carried specEmberExpect p s)
    ∧ ∀ t : State, t.landMembers memberSpec (loneCaravan specEmberExpect p s) =
        t.put (integEmbExp_EXPECT o.tgt (o.u8 0)) (o.u32 4))
  ∧ (∀ (s : State) (p : Packet), lone specIntegCfg p s →
    let o := entryOrigin p specIntegCfg s
    exec (.integCfg p) s = .next (carried specIntegCfg p s)
    ∧ ∀ t : State, t.landMembers memberSpec (loneCaravan specIntegCfg p s) =
        ((t.wr (integCfg o.tgt) (BitVec.ofNat 64 (o.u8 0 + 256 * o.u8 1))).wr (integHatch o.tgt)
          (BitVec.ofNat 64 (o.u32 4))).put (integHatchA_ALPHA o.tgt) (o.u16 8))

/-- The Ember store and the integrity queries and actions (R188, R197, R201, R206, R207). EMBER_WRITE stores its bytes in the tenant's
part of the Ember store; EMBER_LOAD waits for its copy, which stores what memory holds then and replies; INTEG_RESUME ends a hold and is
answered when the picture returns, or at once with no hold; RB_SELFTEST asks for a test; the queries return registers. -/
def Obligations.EmberStoreAndIntegrityActions : Prop :=
  (∀ (s : State) (p : Packet), passes specEmberWrite p s →
    let o := entryOrigin p specEmberWrite s
    let u := readBy p s
    exec (.emberWrite p) s = .next (((u.store (emberBase + (u.emberOf o.tgt).1 + o.u32 0) (o.payload.drop 8)).countFlip
      specEmberWrite o stDone).conclude o (done 0 0)))
  ∧ (∀ (s : State) (p : Packet), passes specEmberLoad p s →
    let o := entryOrigin p specEmberLoad s
    let u := readBy p s
    exec (.emberLoad p) s = .next (((u.modDisplay fun d => { d with
      emberLoads := d.emberLoads ++ [((u.emberOf o.tgt).1 + o.u32 0, o.u32 4, o.u64 8, o)] }).countFlip specEmberLoad o stDone).defer o))
  ∧ (∀ (s : State) (ring : Fin 34) (off len src : Nat) (o : Origin) (rest : List (Nat × Nat × Nat × Origin)),
    s.display.emberLoads = (off, len, src, o) :: rest → o.ring = ring.val →
    exec (.emberLoadComplete ring) s = .next
      (((s.modDisplay fun d => { d with emberLoads := rest }).store (emberBase + off) (s.load src len)).settle o (done 0 0)))
  ∧ (∀ (s : State) (p : Packet), passes specIntegResume p s →
    let o := entryOrigin p specIntegResume s
    let u := readBy p s
    let n := o.tgt
    (u.get (integVstate_HOLD n) ≠ 0 →
      exec (.integResume p) s = .next (((u.put (integVstate_HOLD n) 0).modHead n fun h =>
        { h with resuming := true, resumers := h.resumers ++ [o] }).defer o))
    ∧ (u.get (integVstate_HOLD n) = 0 → (u.head n).resuming = true →
      exec (.integResume p) s = .next ((u.modHead n fun h => { h with resumers := h.resumers ++ [o] }).defer o))
    ∧ (u.get (integVstate_HOLD n) = 0 → (u.head n).resuming = false →
      exec (.integResume p) s = .next (u.conclude o (done 0 0))))
  ∧ (∀ (s : State) (p : Packet), passes specRbSelftest p s →
    let o := entryOrigin p specRbSelftest s
    exec (.rbSelftest p) s = .next (((readBy p s).modLink o.tgt fun l =>
      { l with rbDue := true, rbWaiters := l.rbWaiters ++ [o] }).defer o))
  ∧ (∀ (s : State) (p : Packet), passes specIntegQuery p s →
    let o := entryOrigin p specIntegQuery s
    let u := readBy p s
    exec (.integQuery p) s = .next (u.conclude o
      (done ((u.rd (integVstate o.tgt)).toNat + 0x100000000 * (u.rd (integResPin o.tgt)).toNat)
        ((u.rd (integResTap o.tgt)).toNat + 0x100000000 * (u.rd (integFrameCrc o.tgt)).toNat))))
  ∧ (∀ (s : State) (p : Packet), passes specAgeQuery p s →
    let o := entryOrigin p specAgeQuery s
    let u := readBy p s
    exec (.ageQuery p) s = .next (u.conclude o
      (done (u.rd (integAge o.tgt)).toNat (u.rd ((layerCtime o.tgt).shift actPipe)).toNat)))

/-- Checks and verdicts (R189, R190, R194 to R201). At its position the check of a plane compares its CRC with the expected value: a
match clears the plane's run, a mismatch counts and raises 69, a second in a row starts a hold and raises 70. A verdict records VERIFIED,
its counter, on a failure its reason, and raises 73 or 74 when it changes. A receiver's test raises 75 or 76 and answers those who wait;
a sink without CRCs raises 78. -/
def Obligations.ChecksAndVerdicts : Prop :=
  (∀ (s : State) (head : Fin 8) (plane : Fin 2) (err : W32), s.c0Due head.val plane.val = true → s.sending head.val = true →
      s.c0At head.val plane.val = s.now →
    exec (.c0CheckComplete head plane err) s = .next (s.c0Check head.val plane.val err.toNat))
  ∧ (∀ (s : State) (n p err : Nat), s.c0Due n p = true →
    let crc := s.planeCrc n p ^^^ err
    let t (ok : Bool) := (s.put (integEmbGot_CRC n p) crc).modFrame n fun f => { f with planes := f.planes.set p (some ok) }
    (crc = s.get ((integEmbExp_EXPECT n p).shift scanWin) →
      let u := ((t true).put (c0Run n p) 0).modHead n fun h => { h with matchRuns := modAt h.matchRuns p (· + 1) }
      (u.get (integVstate_HOLD n) ≠ 1 → s.c0Check n p err = u)
      ∧ (u.get (integVstate_HOLD n) = 1 → (u.head n).holdPlane = p → 4 ≤ (u.head n).matchRuns.getD p 0 →
          u.flag ((integCfg_AUTO_RESUME n).shift scanWin) = true →
          s.c0Check n p err = (u.put (integVstate_HOLD n) 0).modHead n fun h => { h with resuming := true }))
    ∧ (crc ≠ s.get ((integEmbExp_EXPECT n p).shift scanWin) →
      let u := (((t false).bump (c0Run n p)).modHead n fun h => { h with matchRuns := h.matchRuns.set p 0 }).raise 69 (n * 256 + p)
      (u.get (c0Run n p) < 2 → s.c0Check n p err = u)
      ∧ (2 ≤ u.get (c0Run n p) → u.get (integVstate_HOLD n) = 0 →
          s.c0Check n p err = (((u.modHead n fun h => { h with resuming := false, matchRuns := [0, 0], holdPlane := p }).put
            (integVstate_HOLD n) 1).raise 70 (n * 256 + p)).ashFromNext n)))
  ∧ (∀ (s : State) (head : Fin 8) (pin tap spare : List W32) (lost : Bool), s.verdictOwed head.val = true →
      s.verdictAt head.val = s.now →
    exec (.headVerdict head pin tap spare lost) s = .next
      (s.headVerdict head.val (pin.map (·.toNat)) (tap.map (·.toNat)) (spare.map (·.toNat)) lost))
  ∧ (∀ (s : State) (n : Nat) (f : FrameFacts) (seen : List RectSeen × Nat) (pin tap spare : List Nat), (s.head n).last = some f →
      f.seen = some seen → s.running n = true → s.power.warm = none →
    s.headVerdict n pin tap spare false =
      (s.modHead n fun h => { h with last := none }).verdictOf n f seen pin tap spare false)
  ∧ (∀ (s : State) (n : Nat),
    let was := s.flag (integVstate_VERIFIED n)
    let good := ((s.put (integVstate_VERIFIED n) 1).putBitAt integVerified_VERIFIED n true).bump (integVcnt_COUNT n)
    s.recordVerdict n 0 = (if was then good else good.raise 73 n).superviseVerdict n true
    ∧ ∀ reason : Nat, reason ≠ 0 →
      let bad := (((s.put (integVstate_VERIFIED n) 0).putBitAt integVerified_VERIFIED n false).bump (integUcnt_COUNT n)).put
        (integVstate_REASON n) reason
      s.recordVerdict n reason = (if was then bad.raise 74 (n * 256 + reason) else bad).superviseVerdict n false)
  ∧ (∀ (s : State) (port : Fin 8), s.dpEnabled port.val = true → s.get (ymxPortStatus_TRAINED port.val) = 1 →
    exec (.rbSelftestDue port) s = .next (s.modLink port.val fun l => { l with rbDue := true }))
  ∧ (∀ (s : State) (port : Fin 8), (s.link port.val).rbWaiters = [] → s.bit integRbStatus_TESTING port.val = true →
    let p := port.val
    let t (pass : Bool) := ((s.putBitAt integRbStatus_TESTING p false).putBitAt integRbStatus_FAIL p (!pass)).putBit
      (integVstate_RB_FAIL p) (!pass)
    exec (.rbSelftestComplete port false) s = .next (((t false).raise 75 p).modLink p fun l => { l with rbWaiters := [] })
    ∧ exec (.rbSelftestComplete port true) s = .next
        ((if s.bit integRbStatus_FAIL p then (t true).raise 76 p else t true).modLink p fun l => { l with rbWaiters := [] }))
  ∧ (∀ (s : State) (head : Fin 8) (crc : BitVec 48), s.sinkAsked head.val = true → s.power.warm = none → (s.head head.val).sinkCrcs = none →
    exec (.sinkCrcSample head false true crc) s = .next
      ((s.modHead head.val fun h => { h with sinkCrcs := some false }).raise 78 head.val))
  ∧ (∀ (s : State) (head : Fin 8) (crc : BitVec 48),
    let n := head.val
    let t := s.modHead n fun h => { h with sinkCrcs := some true }
    s.sinkAsked n = true → s.power.warm = none → (s.head n).sinkCrcs = some true →
    (t.head n).sinceSample < t.get ((integCfg_SINK_EVERY n).shift scanWin) →
    exec (.sinkCrcSample head true true crc) s = .next t)

/-- Graphics contexts: their opcodes, the tail registers and compilations (R210 to R213, R216, R227, R228, R230). CTX_SET writes a context's
registers and disables it, or enables and wakes it; a kick or a sealed tail write moves the tail and wakes it; a reset stops it and clears
its queue, its fence holds; a compilation gets the next number, and when complete writes its record and raises 199. -/
def Obligations.Contexts : Prop :=
  (∀ (s : State) (p : Packet), passes specCtxSet p s →
    let o := entryOrigin p specCtxSet s
    let c := o.tgt
    let t := ((((((readBy p s).put (gfxCtxCtrl_EN c) (o.u8 0)).put (gfxCtxCtrl_PRIO c) (o.u8 1)).put (gfxCtxCtrl_QLOG2 c) (o.u8 2)).put
      (gfxCtxQbase_ADDR c) (o.u64 8 / 4096)).put (gfxCtxSave_ADDR c) (o.u64 24 / mib2))
    (o.u8 0 = 0 → exec (.ctxSet p) s = .next ((t.stopCtx c).conclude o (done 0 0)))
    ∧ (o.u8 0 ≠ 0 → t.ctxState c = ctxDisabled → exec (.ctxSet p) s = .next (((t.setCtx c ctxIdle).wakeCtx c).conclude o (done 0 0)))
    ∧ (o.u8 0 ≠ 0 → t.ctxState c ≠ ctxDisabled → exec (.ctxSet p) s = .next ((t.wakeCtx c).conclude o (done 0 0))))
  ∧ (∀ (s : State) (p : Packet), passes specGfxKick p s →
    let o := entryOrigin p specGfxKick s
    exec (.gfxKick p) s = .next (((((readBy p s).put (gfxCtxQtail_POS o.tgt) (o.u32 0)).wakeCtx o.tgt).countFlip specGfxKick o
      stDone).conclude o (done 0 0)))
  ∧ (∀ (s : State) (who : Requester) (ctx : Fin 64) (value : W32), s.mayWrite who = true → worldOf who = .sealed → ctx.val ≠ 0 →
    let c := ctx.val
    let v := value.toNat % 2 ^ 20
    ((v % 16 ≠ 0 ∨ s.queueSize c ≤ v) → exec (.qtailWrite who ctx value) s = .next (s.emit (.busError (agentOf who) (gfxCtxQtail c).addr)))
    ∧ (v % 16 = 0 → v < s.queueSize c → s.writeBarred who (gfxCtxQtail c).addr = false →
        exec (.qtailWrite who ctx value) s = .next (((s.put (gfxCtxQtail_POS c) v).wakeCtx c).noteWrite who (gfxCtxQtail c).addr
          value.toNat (s.rd (gfxCtxQtail c)).toNat)))
  ∧ (∀ (s : State) (c : Nat), s.get (gfxCtxCtrl_EN c) = 1 → s.ctxState c = ctxIdle → s.mode ≠ modeBanked →
    (s.get (gfxCtxQhead_POS c) = s.get (gfxCtxQtail_POS c) → s.wakeCtx c = s)
    ∧ (s.get (gfxCtxQhead_POS c) ≠ s.get (gfxCtxQtail_POS c) → s.wakeCtx c = (s.put (gfxCtxState_STATE c) ctxReady).schedule false))
  ∧ (∀ (s : State) (p : Packet), passes specCtxReset p s →
    let o := entryOrigin p specCtxReset s
    exec (.ctxReset p) s = .next ((((readBy p s).resetCtx o.tgt).schedule false).conclude o (done 0 0)))
  ∧ (∀ (s : State) (c : Nat),
    s.resetCtx c = [gfxPassMode c, gfxPassWritten c, gfxPassSkipped c, gfxPassPrims c, gfxPassBin c, gfxPassUs c, gfxPassFrags c].foldl
      (fun t r => t.wr r 0) ((((s.stopCtx c).put (gfxCtxQhead_POS c) 0).put (gfxCtxQtail_POS c) 0).modGctx c fun x =>
        { x with history := [], bound := List.replicate 11 0 }))
  ∧ (∀ (s : State) (c : Nat),
    let t := s.countClusters
    let u := if t.runningCtx = c then (t.put gfxStatus_RUNNING 0).modGfx fun g => { g with preempting := none } else t
    s.stopCtx c = (u.put (gfxCtxState_STATE c) (if u.flag (gfxCtxCtrl_EN c) then ctxIdle else ctxDisabled)).modGctx c fun x =>
      { x with stack := [], loaded := false, pass := none, signals := [], waiting := none })
  ∧ (∀ (s : State) (p : Packet), passes specCtxQuery p s →
    let o := entryOrigin p specCtxQuery s
    let u := readBy p s
    exec (.ctxQuery p) s = .next (u.conclude o (if o.tgt = 0 then done 0 0 else
      done ((u.rd (gfxCtxState o.tgt)).toNat + 0x100000000 * (u.rd (gfxCtxUsed o.tgt)).toNat) (u.rd (gfxCtxFence o.tgt)).toNat)))
  ∧ (∀ (s : State) (p : Packet), passes specCompile p s →
    let o := entryOrigin p specCompile s
    let u := readBy p s
    exec (.compile p) s = .next ((u.modGfx fun g => { g with
      nextCompile := (u.gfx.nextCompile + 1) % 0x10000,
      compiles := g.compiles ++ [⟨o.tgt, u.gfx.nextCompile, o.u64 16, o.u32 24, o.u64 32⟩] }).conclude o (done u.gfx.nextCompile 0)))
  ∧ (∀ (s : State) (j : CompileJob) (rest : List CompileJob) (f : Fin 32) (job : W16) (size : W32) (object : List Byte),
    s.gfx.compiles = j :: rest → j.f = f.val → j.number = job.toNat →
    let t := s.modGfx fun g => { g with compiles := rest.filter fun x => !(x.f == f.val && x.number == job.toNat) }
    (object.length ≤ j.capacity → exec (.compileComplete f job 0 size object) s = .next (((t.store j.out object).store j.record
      (leBytes 2 stDone ++ leBytes 2 0 ++ leBytes 4 object.length ++ leBytes 8 s.now.word.toNat)).raise 199 (f.val * 256)))
    ∧ ∀ detail : Fin 5, detail.val ≠ 0 → exec (.compileComplete f job detail size object) s = .next ((t.store j.record
      (leBytes 2 stNoResource ++ leBytes 2 detail.val ++ leBytes 4 size.toNat ++ leBytes 8 s.now.word.toNat)).raise 199
        (f.val * 256 + detail.val)))
  ∧ (∀ (s : State) (p : Packet) (t : Tenant), passes specGfxQuery p s →
    let o := entryOrigin p specGfxQuery s
    let u := readBy p s
    u.tenant o.tgt = some t →
    exec (.gfxQuery p) s = .next (u.conclude o (done ((u.rd gfxStatus).toNat + 0x100000000 * ((t.contexts.map fun c =>
      u.get (gfxCtxUsed_CLUSTER_US c)).sum % 2 ^ 32)) (if o.ring = 32 then u.get gfxPreemptMax_MAX else 0))))
  ∧ (∀ (s : State) (p : Packet), passes specPassQuery p s →
    let o := entryOrigin p specPassQuery s
    let u := readBy p s
    exec (.passQuery p) s = .next (u.conclude o
      (done ((u.rd (gfxPassMode o.tgt)).toNat + 0x100000000 * (u.rd (gfxPassWritten o.tgt)).toNat)
        ((u.rd (gfxPassSkipped o.tgt)).toNat + 0x100000000 * (u.rd (gfxPassBin o.tgt)).toNat))))

/-- The scheduler, preemption and fences (R215 to R219). A decision with no guest running starts the context chosen among those that wait;
the end of a slice, a preemption, a signal and a satisfied wait do what the rules give; a hang raises 193 and faults the context with 6; a
buffer that is complete advances QHEAD and frees an emptied context. -/
def Obligations.SchedulerAndFences : Prop :=
  (∀ s : State, s.runningCtx ≠ 0 → exec .schedSliceExpiry s = .next (s.schedule true))
  ∧ (∀ (s : State) (ended : Bool),
    let t := s.countClusters
    t.changing = false → t.runningCtx ≠ 0 → t.gfx.preempting = none →
    (t.guestClusters = 0 → s.schedule ended = t.modGfx fun g => { g with preempting := some true })
    ∧ (t.guestClusters ≠ 0 → t.chooseCtx ((List.range 64).filter fun c => c == t.runningCtx || t.waitingCtxs.contains c) = some t.runningCtx →
        s.schedule true = t.startCtx t.runningCtx)
    ∧ (∀ c : Nat, t.guestClusters ≠ 0 → c ≠ t.runningCtx →
        t.chooseCtx ((List.range 64).filter fun c => c == t.runningCtx || t.waitingCtxs.contains c) = some c →
        s.schedule true = t.modGfx fun g => { g with preempting := some true }))
  ∧ (∀ (s : State) (ended : Bool) (c : Nat),
    let t := s.countClusters
    t.changing = false → t.runningCtx = 0 → t.guestClusters ≠ 0 → t.mode ≠ modeBanked → t.power.warm = none →
    t.chooseCtx t.waitingCtxs = some c →
    let u := (t.put (gfxCtxState_STATE c) ctxRunning).put gfxStatus_RUNNING c
    let v := u.modGfx fun g => { g with clusters := u.guestClusters, last := g.last.set (u.prio c) c }
    s.schedule ended = v.modGctx c fun x => { x with chosenAt := v.now })
  ∧ (∀ (s : State) (tenths : W16) (saved : List Byte),
    let t := ((s.countClusters.bump gfxPreemptCnt_COUNT).put gfxPreemptMax_MAX
      (max (s.get gfxPreemptMax_MAX) tenths.toNat)).modGfx fun g => { g with preempting := none }
    let c := t.runningCtx
    (s.gfx.preempting = some true → exec (.preemptionComplete tenths saved) s = .next
      (((((t.store (t.get (gfxCtxSave_ADDR c) * mib2) (saved.take mib2)).put (gfxCtxState_STATE c) ctxPreempted).put
        gfxStatus_RUNNING 0).showGfx).dispatchNext))
    ∧ (s.gfx.preempting = some false → t.guestClusters ≠ 0 →
        exec (.preemptionComplete tenths saved) s = .next (t.modGfx fun g => { g with clusters := t.guestClusters })))
  ∧ (∀ (s : State) (ctx : Fin 64), ctx.val ≠ 0 → s.runningCtx = ctx.val → s.ctxState ctx.val = ctxRunning →
    exec (.ctxHang ctx) s = .next ((s.raise 193 ctx.val).ctxFaults ctx.val 6 (s.packetAddr ctx.val)))
  ∧ (∀ (s : State) (c code addr : Nat), c ≠ 0 →
    let t := ((((s.put (gfxCtxState_FAULT c) code).put (gfxCtxFaultAddr_ADDR c) addr).modGctx c fun x => { x with pass := none }).raise 192
      (c * 256 + code))
    s.ctxFaults c code addr = (((t.countClusters.put (gfxCtxState_STATE c) ctxFault).put gfxStatus_RUNNING 0).modGfx fun g =>
      { g with preempting := none }).schedule false)
  ∧ (∀ (s : State) (ctx : Fin 64) (value : Nat) (event : Bool) (rest : List (Nat × Bool)), (s.gctx ctx.val).signals = (value, event) :: rest →
    let c := ctx.val
    let t := s.modGctx c fun x => { x with signals := rest }
    (t.fence c < value → c ≠ 0 → exec (.fenceCounterUpdate ctx) s = .next
      (if event then (t.wr (gfxCtxFence c) (BitVec.ofNat 64 value)).raise 195 c else t.wr (gfxCtxFence c) (BitVec.ofNat 64 value)))
    ∧ (value ≤ t.fence c → exec (.fenceCounterUpdate ctx) s = .next
        (if event then (t.raise 194 c).raise 195 c else t.raise 194 c)))
  ∧ (∀ (s : State) (ctx : Fin 64) (w v : Nat), (s.gctx ctx.val).waiting = some (w, v) → s.ctxState ctx.val = ctxWaiting →
    (v ≤ s.fence w → exec (.fenceWaitSatisfied ctx) s = .next
      (((s.modGctx ctx.val fun x => { x with waiting := none }).put (gfxCtxState_STATE ctx.val) ctxReady).schedule false))
    ∧ (s.fence w < v → exec (.fenceWaitSatisfied ctx) s = .next s))
  ∧ (∀ (s : State) (ctx : Fin 64), ctx.val ≠ 0 → s.ctxActive ctx.val = true → s.bufferDone ctx.val = true →
    let c := ctx.val
    ((s.gctx c).pass ≠ none → exec (.commandBufferComplete ctx) s = .next (s.ctxFaults c 7 (s.packetAddr c)))
    ∧ ((s.gctx c).pass = none →
      let u := s.countClusters.signalAll c
      let t := (u.put (gfxCtxQhead_POS c) ((s.get (gfxCtxQhead_POS c) + 16) % 2 ^ s.get (gfxCtxCtrl_QLOG2 c))).modGctx c fun x =>
        { x with stack := [], loaded := false }
      exec (.commandBufferComplete ctx) s = .next
        (if t.get (gfxCtxQhead_POS c) = t.get (gfxCtxQtail_POS c) then t.leaveRunning c ctxIdle else t)))

/-- Composition (R220 to R226). DEADLINE_SET, COMP_SET and COMP_TIME that land write their shadow registers; a job whose fence is
signalled becomes ready; one that is complete swaps: the pipe's shadow takes the surface and the content time and the head is armed; at
the warning position 196 is raised; at the deadline a job that is not complete misses: 197 is raised and counted. -/
def Obligations.Composition : Prop :=
  (∀ (s : State) (p : Packet), lone specDeadlineSet p s →
    let o := entryOrigin p specDeadlineSet s
    exec (.deadlineSet p) s = .next (carried specDeadlineSet p s)
    ∧ ∀ t : State, t.landMembers memberSpec (loneCaravan specDeadlineSet p s) =
        (t.put (gfxDl_WARN o.tgt) (o.u16 0)).put (gfxDl_DEAD o.tgt) (o.u16 2))
  ∧ (∀ (s : State) (p : Packet), lone specCompSet p s →
    let o := entryOrigin p specCompSet s
    let n := o.tgt
    exec (.compSet p) s = .next (carried specCompSet p s)
    ∧ ∀ t : State, t.landMembers memberSpec (loneCaravan specCompSet p s) =
        (((((((t.put (gfxCompCtrl_EN n) (o.u8 0)).put (gfxCompCtrl_PIPE n) (o.u8 1)).put (gfxCompCtrl_FENCE_CTX n) (o.u8 2)).put
          (gfxCompSurf0_ADDR n) (o.u64 8 / 64)).put (gfxCompSurf1_ADDR n) (o.u64 16 / 64)).put (gfxCompList_ADDR n) (o.u64 24 / 64)).put
          (gfxCompLen_LEN n) (o.u32 32 / 8)).put (gfxCompFence_VALUE n) (o.u64 40))
  ∧ (∀ (s : State) (p : Packet), lone specCompTime p s →
    let o := entryOrigin p specCompTime s
    exec (.compTime p) s = .next (carried specCompTime p s)
    ∧ ∀ t : State, t.landMembers memberSpec (loneCaravan specCompTime p s) = t.wr (gfxCompCtime o.tgt) (BitVec.ofNat 64 (o.u64 0)))
  ∧ (∀ (s : State) (head : Fin 8),
    let n := head.val
    (s.job n).phase = .awaiting →
    (s.compGet (gfxCompCtrl_FENCE_CTX n) = 0 ∨ s.compGet (gfxCompFence_VALUE n) ≤ s.fence (s.compGet (gfxCompCtrl_FENCE_CTX n))) →
    exec (.compJobReady head) s = .next (((s.setJob n .ready).modJob n fun j =>
      { j with ctime := BitVec.ofNat 64 (s.compGet (gfxCompCtime_WALLTIME n)), full := (s.warnAt n).le s.now }).nextJob.shareClusters))
  ∧ (∀ (s : State) (n : Nat),
    s.setJob n .none = (s.modJob n fun j => { j with phase := .none, full := false }).put (gfxCompStatus_JOB n) 0
    ∧ s.setJob n .awaiting = (s.modJob n fun j => { j with phase := .awaiting, full := false }).put (gfxCompStatus_JOB n) 1
    ∧ s.setJob n .ready = (s.modJob n fun j => { j with phase := .ready }).put (gfxCompStatus_JOB n) 2
    ∧ s.setJob n .swapped = (s.modJob n fun j => { j with phase := .swapped, full := false }).put (gfxCompStatus_JOB n) 3)
  ∧ (∀ (s : State) (head : Fin 8),
    let n := head.val
    s.gfx.current = some n → s.bufferDone 0 = true → (s.gctx 0).pass = none →
    exec (.compJobComplete head) s = .next ((s.signalAll 0).swap n))
  ∧ (∀ (s : State) (n f : Nat), s.headOwner n = some f →
    let p := s.compGet (gfxCompCtrl_PIPE n)
    let t := (((s.put (layerAddr_ADDR p 0) (s.surface n (s.job n).target / 64)).wr (layerCtime p) (s.job n).ctime).putBitAt headWallArm_ARM n true)
    t.headOwner n = some f →
    let u : State := { t with peat := { t.peat with flips := modAt t.peat.flips 2 (· + 1), flipFns := setField t.peat.flipFns f 1 1 } }
    s.swap n = (u.setJob n .swapped).releaseJob n)
  ∧ (∀ (s : State) (n : Nat),
    ((s.job n).phase = .awaiting → s.compWarn n = s.raise 196 n)
    ∧ ((s.job n).phase = .ready → s.compWarn n = ((s.raise 196 n).modJob n fun j => { j with full := true }).shareClusters)
    ∧ ((s.job n).phase = .ready → s.compDeadline n = s.jobMiss n 1)
    ∧ ((s.job n).phase = .awaiting → s.compFence n = false → s.compDeadline n = s.jobMiss n 2)
    ∧ ((s.job n).phase = .awaiting → s.compFence n = true → s.compDeadline n = s.jobMiss n 1)
    ∧ ((s.job n).phase = .swapped ∨ (s.job n).phase = .none → s.compWarn n = s ∧ s.compDeadline n = s))
  ∧ (∀ (s : State) (n cause : Nat), s.jobMiss n cause =
    (((s.raise 197 (n * 256 + cause)).bump (gfxCompMiss_COUNT n)).setJob n .none).releaseJob n)

/-- Draw packets of flow, binding and order (R214 to R216). A context that stands at one takes it: NOP and BARRIER only move past it; JUMP
and CALL enter the named buffer; the SET packets bind an object in the tenant's DRAM; a signal is queued behind the work before it; a wait
goes on at once when its value is reached and else leaves the context WAITING. What a rule forbids faults the context with its code. -/
def Obligations.FlowPackets : Prop :=
  (∀ (s : State) (d : DrawAt), s.past d = s.modGctx d.ctx fun x => { x with stack := match x.stack with
      | b :: rest => (b.1 + 8 * d.words, b.2) :: rest
      | [] => [] })
  ∧ (∀ (s : State) (ctx : Fin 64) (d : DrawAt), stands s ctx.val 0x0000 d →
    exec (.drawPacketNop ctx) s = .next ((s.looking ctx.val).past d))
  ∧ (∀ (s : State) (ctx : Fin 64) (d : DrawAt), stands s ctx.val 0x0050 d →
    exec (.barrier ctx) s = .next ((s.looking ctx.val).past d))
  ∧ (∀ (s : State) (ctx : Fin 64) (d : DrawAt), stands s ctx.val 0x0001 d →
    let u := s.looking ctx.val
    (d.u32 16 % 8 = 0 → u.gfxMay d.ctx (d.u64 8) (d.u32 16) = true → exec (.jump ctx) s = .next
      (u.modGctx d.ctx fun x => { x with stack := (d.u64 8, d.u64 8 + d.u32 16) :: x.stack.tail }))
    ∧ (d.u32 16 % 8 ≠ 0 → exec (.jump ctx) s = .next (u.ctxFaults d.ctx 3 d.addr))
    ∧ (d.u32 16 % 8 = 0 → u.gfxMay d.ctx (d.u64 8) (d.u32 16) = false → exec (.jump ctx) s = .next (u.ctxFaults d.ctx 2 d.addr)))
  ∧ (∀ (s : State) (ctx : Fin 64) (d : DrawAt), stands s ctx.val 0x0002 d →
    let u := s.looking ctx.val
    d.u32 16 % 8 = 0 → u.gfxMay d.ctx (d.u64 8) (d.u32 16) = true →
    ((u.gctx d.ctx).stack.length ≤ 4 → exec (.callList ctx) s = .next
      ((u.past d).modGctx d.ctx fun x => { x with stack := (d.u64 8, d.u64 8 + d.u32 16) :: x.stack }))
    ∧ (4 < (u.gctx d.ctx).stack.length → exec (.callList ctx) s = .next (u.ctxFaults d.ctx 3 d.addr)))
  ∧ (∀ (s : State) (ctx : Fin 64) (d : DrawAt), stands s ctx.val 0x0010 d →
    let u := s.looking ctx.val
    u.gfxMay d.ctx (d.u64 8) 1 = true →
    exec (.setPipeline ctx true) s = .next ((u.past d).modGctx d.ctx fun x => { x with bound := x.bound.set 0 (d.u64 8) })
    ∧ exec (.setPipeline ctx false) s = .next (u.ctxFaults d.ctx 5 d.addr))
  ∧ (∀ (s : State) (ctx : Fin 64) (d : DrawAt), stands s ctx.val 0x0011 d →
    let u := s.looking ctx.val
    (u.gfxMay d.ctx (d.u64 8) 1 = true → exec (.setDescriptors ctx) s = .next
      ((u.past d).modGctx d.ctx fun x => { x with bound := x.bound.set (3 + d.u8 4) (d.u64 8) }))
    ∧ (u.gfxMay d.ctx (d.u64 8) 1 = false → exec (.setDescriptors ctx) s = .next (u.ctxFaults d.ctx 2 d.addr)))
  ∧ (∀ (s : State) (ctx : Fin 64) (d : DrawAt), stands s ctx.val 0x0012 d →
    let u := s.looking ctx.val
    u.gfxMay d.ctx (d.u64 8) 1 = true → exec (.setBuffers ctx) s = .next
      ((u.past d).modGctx d.ctx fun x => { x with bound := x.bound.set 1 (d.u64 8) }))
  ∧ (∀ (s : State) (ctx : Fin 64) (d : DrawAt), stands s ctx.val 0x0013 d →
    let u := s.looking ctx.val
    u.gfxMay d.ctx (d.u64 8) 1 = true → exec (.setDynamic ctx) s = .next
      ((u.past d).modGctx d.ctx fun x => { x with bound := x.bound.set 2 (d.u64 8) }))
  ∧ (∀ (s : State) (ctx : Fin 64) (d : DrawAt), stands s ctx.val 0x0060 d →
    exec (.fenceSignal ctx) s = .next (((s.looking ctx.val).past d).modGctx d.ctx fun x => { x with
      signals := x.signals ++ [(d.u64 8, d.u8 4 % 2 == 1)] }))
  ∧ (∀ (s : State) (ctx : Fin 64) (d : DrawAt), stands s ctx.val 0x0061 d →
    let u := s.looking ctx.val
    let w := d.u8 4
    ((d.ctx = 0 ∨ w = 0 ∨ 63 < w ∨ u.ctxOwner w ≠ u.ctxOwner d.ctx) → exec (.fenceWait ctx) s = .next (u.ctxFaults d.ctx 4 d.addr))
    ∧ (d.ctx ≠ 0 → w ≠ 0 → w ≤ 63 → u.ctxOwner w = u.ctxOwner d.ctx →
      (d.u64 8 ≤ (u.past d).fence w → exec (.fenceWait ctx) s = .next (u.past d))
      ∧ ((u.past d).fence w < d.u64 8 → exec (.fenceWait ctx) s = .next
          (((u.past d).modGctx d.ctx fun x => { x with waiting := some (w, d.u64 8) }).leaveRunning d.ctx ctxWaiting))))

/-- Draw packets that write memory and those that run shaders (R214, R215, R233 to R238, R252, R263). TIMESTAMP, COPY and FILL store in the
tenant's DRAM and move past; a draw or dispatch in a pass stores what its shaders wrote and counts in the pass, and 201 is raised at the
first flush of a tiled pass; outside a pass it is fault 7, a shader exception fault 8. BEGIN_PASS opens a pass in the mode that selection
gives; END_PASS ends it; a ray batch casts its rays. -/
def Obligations.MemoryAndShaderPackets : Prop :=
  (∀ (s : State) (ctx : Fin 64) (d : DrawAt), stands s ctx.val 0x0070 d →
    let u := s.looking ctx.val
    (d.u64 8 % 8 ≠ 0 → exec (.timestamp ctx) s = .next (u.ctxFaults d.ctx 1 d.addr))
    ∧ (d.u64 8 % 8 = 0 → u.gfxMay d.ctx (d.u64 8) 8 = true →
      exec (.timestamp ctx) s = .next ((u.store (d.u64 8) (leBytes 8 u.now.word.toNat)).past d)))
  ∧ (∀ (s : State) (ctx : Fin 64) (d : DrawAt), stands s ctx.val 0x0080 d →
    let u := s.looking ctx.val
    u.gfxMay d.ctx (d.u64 8) (d.u32 24) = true → u.gfxMay d.ctx (d.u64 16) (d.u32 24) = true →
    exec (.copy ctx) s = .next ((u.store (d.u64 16) (u.load (d.u64 8) (d.u32 24))).past d))
  ∧ (∀ (s : State) (ctx : Fin 64) (d : DrawAt), stands s ctx.val 0x0081 d →
    let u := s.looking ctx.val
    d.u64 8 % 4 = 0 → d.u32 16 % 4 = 0 → u.gfxMay d.ctx (d.u64 8) (d.u32 16) = true →
    exec (.fill ctx) s = .next ((u.store (d.u64 8) ((List.range (d.u32 16 / 4)).flatMap fun _ => bytesAt d.bytes 4 4)).past d))
  ∧ (∀ (s : State) (d : DrawAt) (w : Work) (p : PassRun), (s.gctx d.ctx).pass = some p → w.exception = false →
      (∀ x ∈ w.writes, s.gfxMay d.ctx x.1.toNat x.2.length = true) →
    let n := if p.tiled then w.flushes.toNat else 0
    let t := w.writes.foldl (fun t x => t.store x.1.toNat x.2) s
    s.doWork d w = ((if n ≠ 0 ∧ p.flushes = 0 then t.raise 201 d.ctx else t).past d).modGctx d.ctx fun x => { x with pass := some { p with
      flushes := p.flushes + n, prims := p.prims + w.prims.toNat, culled := p.culled + w.culled.toNat,
      frags := p.frags + w.frags.toNat, bin := max p.bin w.bin.toNat } })
  ∧ (∀ (s : State) (d : DrawAt) (w : Work),
    ((s.gctx d.ctx).pass = none → s.doWork d w = s.ctxFaults d.ctx 7 d.addr)
    ∧ ((s.gctx d.ctx).pass ≠ none → w.exception = true → s.doWork d w = s.ctxFaults d.ctx 8 d.addr))
  ∧ (∀ (s : State) (ctx : Fin 64) (d : DrawAt) (w : Work), stands s ctx.val 0x0030 d →
    exec (.draw ctx w) s = .next ((s.looking ctx.val).doWork d w))
  ∧ (∀ (s : State) (ctx : Fin 64) (d : DrawAt) (w : Work), stands s ctx.val 0x0031 d →
    exec (.drawIndexed ctx w) s = .next ((s.looking ctx.val).doWork d w))
  ∧ (∀ (s : State) (ctx : Fin 64) (d : DrawAt) (w : Work), stands s ctx.val 0x0032 d →
    let u := s.looking ctx.val
    d.u64 8 % 4 = 0 → (d.u32 16 = 0 ∨ u.gfxMay d.ctx (d.u64 8)
      ((d.u32 16 - 1) * d.u32 20 + if d.u8 4 % 2 = 1 then 20 else 16) = true) →
    exec (.drawIndirect ctx w) s = .next (u.doWork d w))
  ∧ (∀ (s : State) (ctx : Fin 64) (d : DrawAt) (w : Work), stands s ctx.val 0x0040 d →
    let u := s.looking ctx.val
    ((∀ i ∈ [8, 12, 16], 1 ≤ d.u32 i ∧ d.u32 i ≤ 65535) → exec (.dispatch ctx w) s = .next (u.doWork d w))
    ∧ ((∃ i ∈ [8, 12, 16], d.u32 i = 0 ∨ 65535 < d.u32 i) → exec (.dispatch ctx w) s = .next (u.ctxFaults d.ctx 1 d.addr)))
  ∧ (∀ (s : State) (ctx : Fin 64) (d : DrawAt) (w : Work), stands s ctx.val 0x0041 d →
    let u := s.looking ctx.val
    d.u64 8 % 4 = 0 → u.gfxMay d.ctx (d.u64 8) 12 = true → exec (.dispatchIndirect ctx w) s = .next (u.doWork d w))
  ∧ (∀ (s : State) (ctx : Fin 64) (d : DrawAt), stands s ctx.val 0x0020 d →
    let u := s.looking ctx.val
    let c := d.ctx
    let desc := d.u64 8
    let b := u.load desc 192
    let step := u.selectStep b (d.u8 4) (markedIn (u.gctx c).history desc)
    let tiled := stepTiled step b
    (u.gctx c).pass = none → desc % 64 = 0 → u.gfxMay c desc 192 = true → descriptorBad b (d.u8 4) = false →
    u.descriptorOutside c b = false → ¬ ((step = 1 ∧ d.u8 4 / 2 = 1) ∨ (step = 2 ∧ tiled = false)) →
    exec (.beginPass ctx) s = .next (((u.openTables c b tiled).1.past d).modGctx c fun x => { x with
      history := enterHistory x.history desc,
      pass := some { desc := desc, bytes := b, tiled := tiled, step := step, usable := (u.openTables c b tiled).2, flushes := 0,
                     prims := 0, culled := 0, frags := 0, bin := 0, begun := (u.openTables c b tiled).1.now, used := 0 } }))
  ∧ (∀ (s : State) (b : List Byte) (force : Nat) (marked : Bool),
    (leAt b 2 1 = 4 → s.selectStep b force marked = 1)
    ∧ (leAt b 2 1 ≠ 4 → force % 2 = 1 → s.selectStep b force marked = 2)
    ∧ (leAt b 2 1 ≠ 4 → force = 2 → s.selectStep b force marked = 3)
    ∧ (leAt b 2 1 ≠ 4 → force = 0 → leAt b 16 4 = 0 → s.selectStep b force marked = 4)
    ∧ (leAt b 2 1 ≠ 4 → force = 0 → leAt b 16 4 ≠ 0 → tileCols b * tileRows b < s.get gfxTileCfg_TILED_MIN → s.selectStep b force marked = 5)
    ∧ (leAt b 2 1 ≠ 4 → force = 0 → leAt b 16 4 ≠ 0 → s.get gfxTileCfg_TILED_MIN ≤ tileCols b * tileRows b →
        s.selectStep b force true = 6 ∧ s.selectStep b force false = 7))
  ∧ (∀ (s : State) (ctx : Fin 64) (d : DrawAt) (tiles : List TileData), stands s ctx.val 0x0021 d →
    let u := s.looking ctx.val
    (∀ p : PassRun, (u.gctx d.ctx).pass = some p → exec (.endPass ctx tiles) s = .next ((u.endPass d.ctx p tiles).past d))
    ∧ ((u.gctx d.ctx).pass = none → exec (.endPass ctx tiles) s = .next (u.ctxFaults d.ctx 7 d.addr)))
  ∧ (∀ (s : State) (c : Nat) (p : PassRun) (tiles : List TileData), attachments p.bytes = [] → p.flushes = 0 →
    s.endPass c p tiles = (s.passStats c p 0 0).modGctx c fun x => { x with pass := none })
  ∧ (∀ (s : State) (c : Nat) (p : PassRun) (written skipped : Nat), leAt p.bytes 3 1 / 4 % 2 = 0 →
    s.passStats c p written skipped = (((((((((((s.putBit (gfxPassMode_MODE c) p.tiled).put (gfxPassMode_STEP c) p.step).put
      (gfxPassMode_FLUSHES c) p.flushes).put (gfxPassWritten_VALUE c) written).put (gfxPassSkipped_VALUE c) skipped).put
      (gfxPassPrims_VALUE c) p.prims).put (gfxPassBin_VALUE c) p.bin).put (gfxPassUs_VALUE c) (s.grainsToUs p.used)).put
      (gfxPassFrags_COUNT c) p.frags).bumpBy gfxStoreCnt_COUNT written).bumpBy gfxSkipCnt_COUNT skipped))
  ∧ (∀ (s : State) (ctx : Fin 64) (d : DrawAt) (sc : Scene), stands s ctx.val 0x0090 d →
    let u := s.looking ctx.val
    d.u8 4 % 4 ≠ 3 → d.u32 24 ≠ 0 → d.u32 24 ≤ 1048576 → d.u64 8 % 64 = 0 → d.u64 16 % 32 = 0 → d.u64 32 % 32 = 0 →
    u.gfxMay d.ctx (d.u64 8) 64 = true → u.gfxMay d.ctx (d.u64 16) (32 * d.u32 24) = true →
    u.gfxMay d.ctx (d.u64 32) (32 * d.u32 24) = true → u.sceneAt (d.u64 8) = some sc → u.gfxMay d.ctx sc.base sc.size = true →
    exec (.rayBatch ctx) s = .next (((List.range (d.u32 24)).foldl (fun t i =>
      let r := rayOf (t.load (d.u64 16 + 32 * i) 32) (d.u8 4)
      let out := t.traceResult r (t.trace sc r none) (d.u8 4 / 4 % 2 == 1)
      out.1.store (d.u64 32 + 32 * i) out.2.bytes) u).past d))

/-- Touch picks (R264 to R271). The pick opcodes that land write their registers; PICK_QUERY returns them. When a pick's traversal ends it
is in flight no longer, its result is written and counted, the longest latency is kept, 203, 205 and 206 are raised for what the result
shows, and its class may trigger an effect. A contact in the rectangle launches a pick, which waits in flight. -/
def Obligations.Picks : Prop :=
  (∀ (s : State) (p : Packet), lone specPickSet p s →
    let o := entryOrigin p specPickSet s
    let n := o.tgt
    exec (.pickSet p) s = .next (carried specPickSet p s)
    ∧ ∀ t : State, t.landMembers memberSpec (loneCaravan specPickSet p s) =
        ((List.range 20).foldl (fun t k => t.put (gfxPickXf_VALUE n k) (o.u32 (16 + 4 * k)))
          ((((((t.put (gfxPickCtrl_EN n) (o.u8 0)).put (gfxPickCtrl_QUEUE n) (o.u8 1)).wr (gfxPickMin n) (BitVec.ofNat 64 (o.u32 4))).wr
            (gfxPickMax n) (BitVec.ofNat 64 (o.u32 8))).put (gfxPickBudget_NODES n) (o.u16 12)).put (gfxPickBudget_TRIS n)
            (o.u16 14))).put (gfxPickScene_ADDR n) (o.u64 96 / 64))
  ∧ (∀ (s : State) (p : Packet), lone specPickScene p s →
    let o := entryOrigin p specPickScene s
    exec (.pickScene p) s = .next (carried specPickScene p s)
    ∧ ∀ t : State, t.landMembers memberSpec (loneCaravan specPickScene p s) = t.put (gfxPickScene_ADDR o.tgt) (o.u64 0 / 64))
  ∧ (∀ (s : State) (p : Packet), lone specPickClasses p s →
    let o := entryOrigin p specPickClasses s
    exec (.pickClasses p) s = .next (carried specPickClasses p s)
    ∧ ∀ t : State, t.landMembers memberSpec (loneCaravan specPickClasses p s) =
        (List.range (o.u16 2)).foldl (fun t i =>
          t.put ⟨gfxPickClass o.tgt ((o.u8 0 + i) / 2), 16 * ((o.u8 0 + i) % 2), 16⟩ (o.u16 (8 + 2 * i))) t)
  ∧ (∀ (s : State) (p : Packet), passes specPickQuery p s →
    let o := entryOrigin p specPickQuery s
    let u := readBy p s
    exec (.pickQuery p) s = .next (u.conclude o
      (done ((u.rd (gfxPickStatus o.tgt)).toNat + 0x100000000 * (u.rd (gfxPickMaxlat o.tgt)).toNat) (u.get (gfxPickScene_ADDR o.tgt) * 64))))
  ∧ (∀ (s : State) (p : Pick) (rest : List Pick) (port : Fin 4) (contact : Fin 16) (spent : Bool),
    s.gfx.picks = p :: rest → p.port = port.val → p.contact = contact.val →
    let out := ((s.modGfx fun g => { g with picks := rest }).put (gfxPickStatus_IN_FLIGHT p.port)
      (s.get (gfxPickStatus_IN_FLIGHT p.port) - 1)).pickResult p spent
    let r := out.2
    let latency := out.1.pickLatency p
    let t := out.1.writePick p r latency
    let t := t.put (gfxPickMaxlat_MAX p.port) (max (t.get (gfxPickMaxlat_MAX p.port)) (min latency 65535))
    let t := if r.status = 4 then t.raise 203 (p.port * 256 + p.contact) else t
    let t := if r.status = 2 ∨ r.status = 3 then t.raise 205 (p.port * 256 + r.status) else t
    exec (.pickComplete port contact spent) s = .next ((if 2000 < latency then t.raise 206 p.port else t).classTrigger p r))
  ∧ (∀ (s : State) (p : Pick) (r : RayResult) (latency : Nat), s.writePick p r latency =
    (((s.appendPacket p.queue (pickItems p r latency)).put (gfxPickStatus_LAST p.port) r.status).bump (gfxPickCnt_COUNT p.port)))
  ∧ (∀ (s : State) (port contact px py f : Nat) (zoned : Bool), s.touchOwner port = some f → s.get (gfxPickCtrl_EN port) = 1 →
      (s.fn f).reset = none → s.get (gfxPickMin_X port) ≤ px → px ≤ s.get (gfxPickMax_X port) → s.get (gfxPickMin_Y port) ≤ py →
      py ≤ s.get (gfxPickMax_Y port) → s.get (gfxPickStatus_IN_FLIGHT port) < 16 →
    s.launchPick port contact px py zoned = (s.put (gfxPickStatus_IN_FLIGHT port) (s.get (gfxPickStatus_IN_FLIGHT port) + 1)).modGfx
      fun g => { g with picks := g.picks ++ [
        { port := port, contact := contact, zoned := zoned, f := f, at_ := s.now, px := px, py := py,
          scene := s.get (gfxPickScene_ADDR port) * 64,
          xf := (List.range 20).map fun k => BitVec.ofNat 32 (s.get (gfxPickXf_VALUE port k)),
          nodes := s.get (gfxPickBudget_NODES port), tris := s.get (gfxPickBudget_TRIS port),
          queue := s.get (gfxPickCtrl_QUEUE port) }] })

/-- The touch opcodes (R275, R284, R288, R292, R294 to R296). TOUCH_SET and ZONE_SET that land write the registers of their port; a
self-test and a baseline store wait for their end; BASELINE_RESET starts the port anew on a snapshot; TOUCH_QUERY returns what its
selector names. -/
def Obligations.TouchPackets : Prop :=
  (∀ (s : State) (p : Packet), lone specTouchSet p s →
    let o := entryOrigin p specTouchSet s
    let n := o.tgt
    exec (.touchSet p) s = .next (carried specTouchSet p s)
    ∧ ∀ t : State, t.landMembers memberSpec (loneCaravan specTouchSet p s) =
        ((List.range 8).foldl (fun t j => t.setSlot (touchWin_LINE n j) (touchWin_EN n j) (slotAt o (26 + 2 * j)))
          ((((((((((((((t.wr (touchCtrl n) (BitVec.ofNat 64 (o.u8 0 + 2 * o.u8 1 + 8 * (o.u8 2 % 64) + 512 * o.u8 3))).put
            (touchThresh_CONTACT_THRESH n) (o.u16 4)).put (touchThresh_HOLD_THRESH n) (o.u16 6)).put (touchTrack_TRACK_SHIFT n)
            (o.u8 8)).put (touchTrack_NEG_FRAMES n) (o.u8 9)).put (touchTrack_NEG_THRESH n) (o.u16 10)).put (touchTrack_UP_FRAMES n)
            (o.u8 23)).put (touchScale_X_MAX n) (o.u16 12)).put (touchScale_Y_MAX n) (o.u16 14)).put (touchTiming_LONG_S n)
            (o.u16 16)).put (touchTiming_TRACK_DIST n) (o.u16 18)).put (touchHop_HOP_THRESH n) (o.u16 20)).put (touchHop_HOP_FRAMES n)
            (o.u8 22)).setSlot (touchListen_LINE n) (touchListen_EN n) (slotAt o 24))).touchEnChanged n (t.flag (touchCtrl_EN n)))
  ∧ (∀ (s : State) (line en : RF) (v : Nat), s.setSlot line en none = s.put en 0 ∧ s.setSlot line en (some v) = (s.put line v).put en 1)
  ∧ (∀ (s : State) (p : Packet), lone specZoneSet p s →
    let o := entryOrigin p specZoneSet s
    exec (.zoneSet p) s = .next (carried specZoneSet p s)
    ∧ ∀ t : State, t.landMembers memberSpec (loneCaravan specZoneSet p s) =
        (List.range (o.u8 1)).foldl (fun t i =>
          let z := o.u8 0 + i
          let e := 8 + 16 * i
          (((((t.wr (touchZoneMin o.tgt z) (BitVec.ofNat 64 (o.u32 e))).wr (touchZoneMax o.tgt z) (BitVec.ofNat 64 (o.u32 (e + 4)))).put
            (touchZoneFx_CH o.tgt z) (o.u8 (e + 8))).put (touchZoneFx_EN o.tgt z) (o.u8 (e + 9))).put (touchZoneFx_URG o.tgt z)
            (o.u8 (e + 9) / 2)).put (touchZoneFx_FX o.tgt z) (o.u8 (e + 10))) t)
  ∧ (∀ (s : State) (p : Packet), passes specTouchSelftest p s →
    let o := entryOrigin p specTouchSelftest s
    let t := (readBy p s).modPort o.tgt fun t => { t with tests := t.tests ++ [o] }
    exec (.touchSelftest p) s = .next ((if (readBy p s).get (touchCtrl_EN o.tgt) = 0 then t else t.put (touchStatus_STATE o.tgt) 1).defer o))
  ∧ (∀ (s : State) (p : Packet), passes specBaselineStore p s →
    let o := entryOrigin p specBaselineStore s
    let u := readBy p s
    (u.tport o.tgt).store = none →
    exec (.baselineStore p) s = .next ((((u.modPort o.tgt fun t => { t with
      store := some ⟨0, [], [], u.get (touchStatus_COMB_CUR o.tgt), [o]⟩ }).put (touchStatus_STATE o.tgt) 3).put
      (touchStatus_COMB_CUR o.tgt) 0).defer o))
  ∧ (∀ (s : State) (p : Packet), passes specBaselineReset p s →
    let o := entryOrigin p specBaselineReset s
    let u := readBy p s
    (u.get (touchCtrl_EN o.tgt) = 0 → exec (.baselineReset p) s = .next (u.conclude o (done 0 0)))
    ∧ (u.get (touchCtrl_EN o.tgt) ≠ 0 → exec (.baselineReset p) s = .next
        (((u.startScan o.tgt .snapshot).modPort o.tgt fun t => { t with ups := t.ups ++ (u.tport o.tgt).contacts }).conclude o (done 0 0))))
  ∧ (∀ (s : State) (p : Nat) (how : TouchStart), s.startScan p how =
    ((((((s.modPort p fun t => { t with contacts := [] }).put (touchStatus_CONTACTS p) 0).modPort p fun t => { t with suspect := [] }).put
      (touchSuspect_COUNT p) 0).putBit (touchStatus_SUSPECT p) false).modPort p fun t => { t with
        start := some how, firstReport := true, negative := [], recovering := [], openRuns := [], monitor := [], hop := none,
        hopFrom := none, hopped := false }))
  ∧ (∀ (s : State) (p : Packet), passes specTouchQuery p s →
    let o := entryOrigin p specTouchQuery s
    let n := o.tgt
    let u := readBy p s
    let r (x : Reg) : Nat := (u.rd x).toNat
    (o.u8 0 = 0 → exec (.touchQuery p) s = .next (u.conclude o (done (r (touchStatus n) + 0x100000000 * r (touchFrameCnt n))
      (r (touchStLast n) + 0x100000000 * r (touchSuspect n)))))
    ∧ (o.u8 0 = 1 → exec (.touchQuery p) s = .next (u.conclude o (done (r (touchStDrv n)) 0)))
    ∧ (o.u8 0 = 2 → exec (.touchQuery p) s = .next (u.conclude o (done (r (touchStSns n 0)) (r (touchStSns n 1)))))
    ∧ (o.u8 0 = 3 → exec (.touchQuery p) s = .next (u.conclude o
        (done (r (touchNoise n 0) + 0x100000000 * r (touchNoise n 1)) (r touchFactory)))))

/-- Touch scanning (R277 to R285, R290 to R292). A window that ends at its position is stored and, on a scanning port, processed; a node's
baseline follows the rules of tracking; a long touch raises 261; a listen window keeps the noise of each set and decides a hop or raises
263; a self-test ends with its results, exclusions and 265; a baseline store ends with the factory baselines in place. -/
def Obligations.TouchScanning : Prop :=
  (∀ (s : State) (port : Fin 4) (slot : Fin 8) (raw monitor : List W16) (clipped : BitVec 112),
    let p := port.val
    s.scans p = true → s.get (touchWin_EN p slot.val) = 1 →
    s.upcoming (s.addGrains ⟨s.now.frame, s.get (touchWin_LINE p slot.val), 0⟩ s.windowGrains) = s.now →
    exec (.touchWindowEnd port slot raw clipped monitor) s = .next (s.touchWindow p slot.val raw clipped monitor))
  ∧ (∀ (s : State) (p slot : Nat) (raw monitor : List W16), s.scans p = true → s.get (touchWin_EN p slot) = 1 → (s.tport p).store = none →
    (s.get (touchStatus_STATE p) = 2 → s.touchWindow p slot raw 0 monitor = s.scanWindow p (windowRaws raw 0) monitor)
    ∧ (s.get (touchStatus_STATE p) ≠ 2 → s.touchWindow p slot raw 0 monitor = s.setRaws p (windowRaws raw 0)))
  ∧ (∀ (t : TouchPort) (shift neg frames hold i base raw : Nat) (delta : Int),
    let target : Int := (raw * 256 : Nat)
    let tracked := trackNode t shift neg frames hold i base raw delta
    (t.out i = true → tracked = (base, false))
    ∧ (t.out i = false → frozen t.contacts i = true → tracked = (base, false))
    ∧ (t.out i = false → frozen t.contacts i = false → frames ≤ (sget t.negative i).toNat → tracked = (raw * 256, true))
    ∧ (t.out i = false → frozen t.contacts i = false → (sget t.negative i).toNat < frames →
      (sget t.recovering i ≠ 0 → tracked = (((base : Int) + (target - base).fdiv 16).toNat, false))
      ∧ (sget t.recovering i = 0 → -(neg : Int) < delta → 2 * delta < hold →
          tracked = (((base : Int) + (target - base).fdiv (2 ^ shift : Nat)).toNat, false))
      ∧ (sget t.recovering i = 0 → (delta ≤ -(neg : Int) ∨ (hold : Int) ≤ 2 * delta) → tracked = (base, false))))
  ∧ (∀ (s : State) (port : Fin 4) (contact : Fin 16) (c : Contact) (l : List Contact),
    let p := port.val
    s.scans p = true → (s.tport p).contacts = l → c ∈ l → c.id = contact.val →
    exec (.longTouch port contact) s = .next ((s.modPort p fun t => { t with
      contacts := t.contacts.map fun c => if c.id = contact.val then { c with long := true } else c }).raise 261 (p * 256 + contact.val)))
  ∧ (∀ (s : State) (port : Fin 4) (n0 n1 n2 n3 : W16),
    let p := port.val
    s.scans p = true → s.get (touchListen_EN p) = 1 → s.get (touchStatus_STATE p) = 2 →
    let t := (((s.put (touchNoise_N_LO p 0) n0.toNat).put (touchNoise_N_HI p 0) n1.toNat).put (touchNoise_N_LO p 1) n2.toNat).put
      (touchNoise_N_HI p 1) n3.toNat
    let cur := t.get (touchStatus_COMB_CUR p)
    let run := (t.tport p).noisyRun + 1
    let u := t.modPort p fun t => { t with noisyRun := run }
    (t.noise p cur ≤ t.get (touchHop_HOP_THRESH p) → exec (.listenWindowEnd port n0 n1 n2 n3) s = .next
      ((t.modPort p fun t => { t with noisyRun := 0 }).put (touchStatus_NOISY p) 0))
    ∧ (t.get (touchHop_HOP_THRESH p) < t.noise p cur →
      ((u.get (touchCtrl_HOP_EN p) = 0 ∨ run < u.get (touchHop_HOP_FRAMES p)) →
        exec (.listenWindowEnd port n0 n1 n2 n3) s = .next u)
      ∧ (u.get (touchCtrl_HOP_EN p) ≠ 0 → u.get (touchHop_HOP_FRAMES p) ≤ run → (u.tport p).hop = none →
        (∀ c : Nat, u.betterSet p = some c → exec (.listenWindowEnd port n0 n1 n2 n3) s = .next
          ((u.modPort p fun t => { t with hop := some c, noisyRun := 0 }).put (touchStatus_NOISY p) 0))
        ∧ (u.betterSet p = none → u.get (touchStatus_NOISY p) = 0 → exec (.listenWindowEnd port n0 n1 n2 n3) s = .next
            ((u.put (touchStatus_NOISY p) 1).raise 263 (p * 256 + cur))))))
  ∧ (∀ (s : State) (port : Fin 4) (raw monitor : List W16) (clipped : BitVec 112) (bias : List (Byte × Byte)),
    let p := port.val
    s.scans p = true → s.get (touchStatus_STATE p) = 1 →
    let faults := s.testFaults p (windowRaws raw 0) clipped monitor bias
    let lines := (faults.map (·.2)).eraseDups
    let first := faults.headD (0, 0, false)
    let t := ((((((s.put (touchStDrv_FAULT p) (electrodeBits lines false)).put (touchStSns_FAULT p 0) (electrodeBits lines true)).put
      (touchStSns_FAULT p 1) (electrodeBits lines true / 2 ^ 64)).put (touchStLast_COUNT p) lines.length).put (touchStLast_CODE p)
      first.1).put (touchStLast_INDEX p) first.2.1).putBit (touchStLast_SENSE p) first.2.2
    let u := (faults.filter fun f => !(t.tport p).excludes f.2).foldl (fun u f => u.exclude p f.1 f.2) t
    let v := ((((u.modPort p fun t => { t with
      exDrive := electrodeBits lines false, exSense := electrodeBits lines true, tests := [] }).putBit (touchStatus_FAULTED p)
      (!lines.isEmpty)).put (touchStatus_STATE p) 2).raise 265 (p * 256 + lines.length))
    exec (.touchSelftestComplete port raw clipped monitor bias) s = .next
      ((s.tport p).tests.foldl (fun v o => v.settle o ⟨stDone, lines.length, v.rd (touchStDrv p), v.rd (touchStLast p)⟩) v))
  ∧ (∀ (s : State) (port : Fin 4) (b : BaselineStore),
    let p := port.val
    (s.tport p).store = some b → 64 ≤ b.windows → s.get (touchStatus_STATE p) = 3 → s.canonical = true →
    exec (.baselineStoreComplete port) s = .next (b.origins.foldl (fun t o => t.settle o (done 0 0))
      (((((({ s with touch := { s.touch with factory := sput s.touch.factory (4 * p * nodes) (b.means.map (BitVec.ofNat 16)) } } : State).put
        touchFactory_VALID (setField (s.get touchFactory_VALID) (4 * p) 4 15)).modPort p fun t => { t with store := none }).put
        (touchStatus_COMB_CUR p) b.home).put (touchStatus_STATE p) 2))))

/-- The haptic opcodes (R298, R301, R303, R314 to R316). HAP_CHANNEL_SET and HAP_EFFECT_SET that land write their registers, the settings
of a channel after its play has ended; HAP_WAVE_WRITE stores samples; HAP_PLAY joins the triggers of its grain and waits for its outcome;
HAP_STOP ends the play and drops the pending effect; HAP_CLEAR waits for a check; HAP_QUERY returns registers. -/
def Obligations.HapticPackets : Prop :=
  (∀ (s : State) (p : Packet), lone specHapChannelSet p s →
    let o := entryOrigin p specHapChannelSet s
    let n := o.tgt
    exec (.hapChannelSet p) s = .next (carried specHapChannelSet p s)
    ∧ ∀ t : State, t.landMembers memberSpec (loneCaravan specHapChannelSet p s) =
        (((((((((if t.hapState n = hapDrive then t.stopPlay n else t).put (hapCfg_TYPE n) (o.u8 0)).put (hapCfg_TRACK n) (o.u8 1)).put
          (hapCfg_F0 n) (o.u16 2)).put (hapLimits_MAX_MV n) (o.u16 4)).put (hapLimits_BRAKE_MS n) (o.u8 6)).put (hapLimits_BRAKE_STOP n)
          (o.u8 7)).put (hapRes_R_MIN n) (o.u16 8)).put (hapRes_R_MAX n) (o.u16 10)).typeChanged n (t.get (hapCfg_TYPE n)))
  ∧ (∀ (s : State) (n old : Nat), n < 6 →
    (s.get (hapCfg_TYPE n) = old → s.typeChanged n old = s)
    ∧ (s.get (hapCfg_TYPE n) = 0 → old ≠ 0 → s.typeChanged n old = (s.clearPending n).hapRest n hapOff)
    ∧ (s.get (hapCfg_TYPE n) ≠ 0 → old = 0 → s.typeChanged n old = s.startCheck n))
  ∧ (∀ (s : State) (p : Packet), lone specHapEffectSet p s →
    let o := entryOrigin p specHapEffectSet s
    exec (.hapEffectSet p) s = .next (carried specHapEffectSet p s)
    ∧ ∀ t : State, t.landMembers memberSpec (loneCaravan specHapEffectSet p s) =
        (List.range 8).foldl (fun t k => t.wr (hapFx o.tgt (o.u8 0) k) (BitVec.ofNat 64 (o.u64 (8 + 8 * k)))) t)
  ∧ (∀ (s : State) (p : Packet), passes specHapWaveWrite p s →
    let o := entryOrigin p specHapWaveWrite s
    exec (.hapWaveWrite p) s = .next (((List.range (o.u16 2)).foldl (fun t i =>
      t.put (hapWave_SAMPLE o.tgt (o.u16 0 + i)) (o.u16 (8 + 2 * i))) (readBy p s)).conclude o (done 0 0)))
  ∧ (∀ (s : State) (p : Packet), passes specHapPlay p s →
    let o := entryOrigin p specHapPlay s
    exec (.hapPlay p) s = .next ((((readBy p s).modHap fun h => { h with
      due := h.due ++ [⟨o.tgt, o.u8 0, o.u8 1 == 1, 2, 0, 0, some o⟩] }).countFlip specHapPlay o stDone).defer o))
  ∧ (∀ (s : State) (p : Packet), passes specHapStop p s →
    let o := entryOrigin p specHapStop s
    exec (.hapStop p) s = .next ((((readBy p s).stopPlay o.tgt).countFlip specHapStop o stDone).conclude o (done 0 0)))
  ∧ (∀ (s : State) (n : Nat),
    let t := (s.clearPending n).modPlay n fun p => { p with left := 0 }
    (t.hapState n = hapDrive → s.stopPlay n = t.endDrive n)
    ∧ (t.hapState n = hapGap → s.stopPlay n = t.finishPlay n)
    ∧ (t.hapState n ≠ hapDrive → t.hapState n ≠ hapGap → s.stopPlay n = t))
  ∧ (∀ (s : State) (p : Packet), passes specHapClear p s →
    let o := entryOrigin p specHapClear s
    exec (.hapClear p) s = .next ((((readBy p s).startCheck o.tgt).modChan o.tgt fun c => { c with clears := c.clears ++ [o] }).defer o))
  ∧ (∀ (s : State) (p : Packet), passes specHapQuery p s →
    let o := entryOrigin p specHapQuery s
    let u := readBy p s
    exec (.hapQuery p) s = .next (u.conclude o (done ((u.rd (hapStatus o.tgt)).toNat + 0x100000000 * (u.rd (hapTrack o.tgt)).toNat)
      ((u.rd (hapFault o.tgt)).toNat + 0x100000000 * (u.rd hapStage).toNat))))

/-- Haptic plays (R300, R304 to R307, R310, R311). A drive that ends learns K and brakes, or is over; braking and gaps end; a play that is
over raises 325 after its last repeat and gives way to the pending effect, the next repeat or IDLE; a trigger starts, waits or is dropped;
a back-EMF window turns the drive; an actuator fault drops everything, keeps its code and raises 320; a check clears it and raises 321. -/
def Obligations.HapticPlays : Prop :=
  (∀ (s : State) (ch : Fin 8) (p : HapPlay),
    let n := ch.val
    s.get (hapStatus_STATE n) = hapDrive → (s.chan n).play = some p →
    exec (.hapDriveEnd ch) s = .next (if fxFlag p.record 1
      then (((s.learnK n p).put (hapStatus_STATE n) hapBrake).hapSetLevel n) else (s.learnK n p).finishPlay n))
  ∧ (∀ (s : State) (n : Nat) (p : HapPlay),
    (fxKind p.record = 1 → 8 ≤ p.half → fxA p.record ≠ 0 →
      s.learnK n p = s.put (hapTrack_K n) (min 65535 ((s.get (hapTrack_K n) : Int)
        + ((openRound (p.vbs.sum * 256) (4 * fxA p.record) : Nat) - (s.get (hapTrack_K n) : Int)).fdiv 4).toNat))
    ∧ ((fxKind p.record ≠ 1 ∨ p.half < 8) → s.learnK n p = s))
  ∧ (∀ (s : State) (ch : Fin 8), s.get (hapStatus_STATE ch.val) = hapBrake → exec (.brakeEnd ch) s = .next (s.finishPlay ch.val))
  ∧ (∀ (s : State) (ch : Fin 8) (p : HapPlay), s.get (hapStatus_STATE ch.val) = hapGap → (s.chan ch.val).play = some p →
    exec (.repeatGapEnd ch) s = .next (s.startPlay ch.val { p with left := p.left - 1, positive := true, od := fxOd p.record }))
  ∧ (∀ (s : State) (n : Nat) (p : HapPlay), s.startPlay n p =
    ((((((((s.modChan n fun c => { c with play := some { p with
      half := 0, pos := 0, vbs := [], stalled := 0, clamped := 0, limited := false } }).put (hapStatus_STATE n) hapDrive).put
      (hapStatus_EFFECT n) p.effect).putBit (hapStatus_URGENT n) p.urgent).put (hapStatus_ILIM n) 0).bump
      (hapPlayCnt_COUNT n)).hapSetLevel n)))
  ∧ (∀ (s : State) (n : Nat) (p : HapPlay), (s.chan n).play = some p →
    let t := if p.left = 0 then s.raise 325 (n * 256 + p.effect) else s
    (∀ (e : Nat) (r : List Byte), (t.chan n).pending = some (e, r) →
      s.finishPlay n = (t.clearPending n).startPlay n (restPlay e r false))
    ∧ ((t.chan n).pending = none →
      (p.left = 0 → s.finishPlay n = t.hapRest n hapIdle)
      ∧ (p.left ≠ 0 → fxGap p.record = 0 →
          s.finishPlay n = t.startPlay n { p with left := p.left - 1, positive := true, od := fxOd p.record })
      ∧ (p.left ≠ 0 → fxGap p.record ≠ 0 → s.finishPlay n = (t.put (hapStatus_STATE n) hapGap).hapSetLevel n)))
  ∧ (∀ (s : State) (ch : Fin 8) (vb current : W16) (forward : Bool) (tm : W32) (p : HapPlay),
    let n := ch.val
    (s.chan n).play = some p →
    let t := s.modChan n fun c => { c with vb := vb.toNat, motion := forward }
    (s.get (hapStatus_STATE n) = hapDrive → fxKind p.record = 1 →
      exec (.backEmfWindow ch vb forward tm current) s = .next (t.halfCycle n vb.toNat tm.toNat current.toNat p))
    ∧ (s.get (hapStatus_STATE n) = hapBrake →
      let u := t.hapSetLevel n
      exec (.backEmfWindow ch vb forward tm current) s = .next
        (if u.vbBelow n vb.toNat (u.get (hapLimits_BRAKE_STOP n)) p then u.finishPlay n else u)))
  ∧ (∀ (s : State) (ch : Fin 8) (code : Fin 6), s.hapFaultHolds ch.val code.val = true →
    let n := ch.val
    exec (.actuatorFaultDetect ch code) s = .next ((((((((((s.modChan n fun c => { c with pending := none }).put (hapStatus_PENDING n)
      0).put (hapStatus_PEND_FX n) 0).modChan n fun c => { c with play := none, level := 0 }).put (hapStatus_STATE n) hapFaulted).put
      (hapStatus_URGENT n) 0).put (hapStatus_ILIM n) 0).put (hapFault_CODE n) code.val).raise 320 (n * 256 + code.val))))
  ∧ (∀ (s : State) (ch : Fin 8) (microamps : W32) (tenths : W16),
    let n := ch.val
    (s.chan n).checking = true → microamps ≠ 0 → openRound 10000000 microamps.toNat ≤ 65535 →
    let code := s.checkCode n microamps.toNat tenths.toNat
    let t := (s.put (hapFault_R_MEAS n) (openRound 10000000 microamps.toNat)).modChan n fun c => { c with checking := false, clears := [] }
    let u := if t.get (hapStatus_STATE n) ≠ hapCheck then t
      else if code = 0 then ((t.put (hapStatus_STATE n) hapIdle).put (hapFault_CODE n) 0).raise 321 n else t.hapFail n code
    exec (.resistanceCheckComplete ch microamps tenths) s = .next
      ((s.chan n).clears.foldl (fun u o => u.settle o ⟨stDone, code, 0, 0⟩) u))
  ∧ (∀ (s : State) (n microamps tenths : Nat), microamps ≠ 0 →
    let r := openRound 10000000 microamps
    (1300 < tenths → s.checkCode n microamps tenths = 5)
    ∧ (tenths ≤ 1300 → s.get (hapRes_R_MAX n) < r → s.checkCode n microamps tenths = 1)
    ∧ (tenths ≤ 1300 → r ≤ s.get (hapRes_R_MAX n) → r < s.get (hapRes_R_MIN n) → s.checkCode n microamps tenths = 4)
    ∧ (tenths ≤ 1300 → r ≤ s.get (hapRes_R_MAX n) → s.get (hapRes_R_MIN n) ≤ r → s.checkCode n microamps tenths = 0))
  ∧ (∀ (s : State) (n e : Nat) (urgent : Bool), s.bridges = true → s.chanUp n = true →
    let r := s.effect n e
    let st := s.get (hapStatus_STATE n)
    let drop (cause : Nat) := ((s.bump (hapDropCnt_COUNT n)).raise 322 (n * 256 + cause), cause)
    ((st = hapOff ∨ st = hapCheck) → s.hapAct n e urgent = drop 2)
    ∧ (st = hapFaulted → s.hapAct n e urgent = drop 3)
    ∧ ((st = hapIdle ∨ st = hapGap) → e ≤ 63 → (fxKind r = 1 ∨ fxKind r = 2) → s.get (hapCfg_TYPE n) ≠ 2 →
        s.hapAct n e urgent = ((s.clearPending n).startPlay n (restPlay e r urgent), hapStarted))
    ∧ ((st = hapDrive ∨ st = hapBrake) → e ≤ 63 → (fxKind r = 1 ∨ fxKind r = 2) → s.get (hapCfg_TYPE n) ≠ 2 → (s.chan n).pending = none →
        s.hapAct n e true = (s.urgentCut n e r, hapStarted)
        ∧ s.hapAct n e false = (((s.modChan n fun c => { c with pending := some (e, r) }).put (hapStatus_PENDING n) 1).put
            (hapStatus_PEND_FX n) e, hapPending)))

/-- The audio opcodes (R319, R321 to R325, R330, R331, R333, R339, R340). Those that caravans carry write, when they land, the registers of
their bus, sink, stream or tone from their payload; AUD_ASSIGN, STREAM_KICK and TDM_SET write theirs at once; a tone is given its start or
asked to stop; AUD_QUERY returns the registers of its target. -/
def Obligations.AudioPackets : Prop :=
  (∀ (s : State) (p : Packet), passes specAudAssign p s →
    let o := entryOrigin p specAudAssign s
    exec (.audAssign p) s = .next (((readBy p s).put (audOwner_OWNER o.tgt) (o.u8 0)).conclude o (done 0 0)))
  ∧ (∀ (s : State) (p : Packet), lone specRouteSet p s →
    let o := entryOrigin p specRouteSet s
    exec (.routeSet p) s = .next (carried specRouteSet p s)
    ∧ ∀ t : State, t.landMembers memberSpec (loneCaravan specRouteSet p s) =
        (List.range (o.u8 0)).foldl (fun t i => t.put (audXp_GAIN (o.u8 (8 + 4 * i)) (o.tgt - 64)) (o.u8 (9 + 4 * i))) t)
  ∧ (∀ (s : State) (p : Packet), lone specBusSet p s →
    let o := entryOrigin p specBusSet s
    let b := o.tgt - 64
    exec (.busSet p) s = .next (carried specBusSet p s)
    ∧ ∀ t : State, t.landMembers memberSpec (loneCaravan specBusSet p s) =
        ((((((((((t.put (audBusCtrl_BYPASS b) (o.u8 0)).put (audBusCtrl_RATE b) (o.u8 1)).put (audBusCtrl_GAIN b) (o.u8 2)).put
          (audBusCtrl_DUCK_PRIO b) (o.u8 3)).put (audBusCtrl_DUCK_DB b) (o.u8 4)).put (audBusCtrl_TONE_EXCL b) (o.u8 5)).put
          (audBusDyn_DELAY b) (o.u16 6)).put (audBusCtrl_LIM_EN b) (o.u8 8)).put (audBusCtrl_THRESH b) (o.u8 9)).put
          (audBusDyn_RELEASE b) (o.u16 10)))
  ∧ (∀ (s : State) (p : Packet), lone specEqSet p s →
    let o := entryOrigin p specEqSet s
    exec (.eqSet p) s = .next (carried specEqSet p s)
    ∧ ∀ t : State, t.landMembers memberSpec (loneCaravan specEqSet p s) =
        [0, 1, 2, 3, 4].foldl (fun t c => t.put (audBusEq_COEF (o.tgt - 64) (o.u8 0) c) (o.u32 (4 + 4 * c))) t)
  ∧ (∀ (s : State) (p : Packet), lone specSinkSet p s →
    let o := entryOrigin p specSinkSet s
    let k := o.tgt - 96
    exec (.sinkSet p) s = .next (carried specSinkSet p s)
    ∧ ∀ t : State, t.landMembers memberSpec (loneCaravan specSinkSet p s) =
        (((t.put (audSinkCtrl_EN k) (o.u8 0)).put (audSinkCtrl_SINK_BUS k) (o.u8 1)).put (audSinkCtrl_GAIN k) (o.u8 2)).sinkEnabled k
          (t.flag (audSinkCtrl_EN k)))
  ∧ (∀ (s : State) (k : Nat) (old : Bool), k < 4 →
    (s.get (audSinkCtrl_EN k) = 0 → s.sinkEnabled k old = s)
    ∧ (s.get (audSinkCtrl_EN k) ≠ 0 → s.sinkEnabled k true = s ∧ s.sinkEnabled k false =
        s.modSink k fun u => { u with bus := s.get (audSinkCtrl_SINK_BUS k), phase := 0, wait := 0 }))
  ∧ (∀ (s : State) (p : Packet), lone specStreamSet p s →
    let o := entryOrigin p specStreamSet s
    let i := o.tgt
    exec (.streamSet p) s = .next (carried specStreamSet p s)
    ∧ ∀ t : State, t.landMembers memberSpec (loneCaravan specStreamSet p s) =
        ((((((((t.put (audStrCtrl_EN i) (o.u8 0)).put (audStrCtrl_FMT i) (o.u8 1)).put (audStrCtrl_RATE i) (o.u8 2)).put
          (audStrCtrl_QUEUE i) (o.u8 3)).put (audStrCtrl_PERIOD i) (o.u16 4)).put (audStrCtrl_LOG2 i) (o.u8 6)).put (audStrBase_ADDR i)
          (o.u64 8 / 64)).put (audStrStart_START i) (o.u64 24)).modStream i fun x => { x with on := false })
  ∧ (∀ (s : State) (p : Packet), passes specStreamKick p s →
    let o := entryOrigin p specStreamKick s
    exec (.streamKick p) s = .next ((((readBy p s).put (audStrPos_WPOS o.tgt) (o.u32 0)).countFlip specStreamKick o stDone).conclude o
      (done 0 0)))
  ∧ (∀ (s : State) (p : Packet), lone specToneSet p s →
    let o := entryOrigin p specToneSet s
    let n := o.tgt - 32
    exec (.toneSet p) s = .next (carried specToneSet p s)
    ∧ ∀ t : State, t.landMembers memberSpec (loneCaravan specToneSet p s) =
        (((((((((t.put (audToneCfg_WAVE n) (o.u8 0)).put (audToneCfg_PRIO n) (o.u8 1)).put (audToneCfg_LEVEL n) (o.u8 2)).put
          (audToneCfg_REPEATS n) (o.u8 3)).put (audToneFreq_F1 n) (o.u16 4)).put (audToneFreq_F2 n) (o.u16 6)).put (audToneTime_T1 n)
          (o.u16 8)).put (audToneTime_T2 n) (o.u16 10)).put (audToneOff_TOFF n) (o.u16 12)))
  ∧ (∀ (s : State) (p : Packet), lone specTonePlay p s →
    let o := entryOrigin p specTonePlay s
    o.u8 0 = 1 →
    exec (.tonePlayStart p) s = .next (carried specTonePlay p s)
    ∧ ∀ t : State, t.landMembers memberSpec (loneCaravan specTonePlay p s) =
        t.modTone (o.tgt - 32) fun x => { x with due := some (o.u64 8) })
  ∧ (∀ (s : State) (p : Packet), lone specTonePlay p s →
    let o := entryOrigin p specTonePlay s
    o.u8 0 = 0 →
    exec (.tonePlayStop p) s = .next (carried specTonePlay p s)
    ∧ ∀ t : State, t.landMembers memberSpec (loneCaravan specTonePlay p s) = t.modTone (o.tgt - 32) fun x => { x with
        due := none, stopping := if t.flag (audToneCfg_RUN (o.tgt - 32)) then some (x.stopping.getD 0) else none })
  ∧ (∀ (s : State) (p : Packet), passes specTdmSet p s →
    let o := entryOrigin p specTdmSet s
    exec (.tdmSet p) s = .next (((((readBy p s).put audTdm_EN (o.u8 0)).put audTdm_SLOTS (o.u8 1)).put audTdm_FMT (o.u8 2)).conclude o
      (done 0 0)))
  ∧ (∀ (s : State) (p : Packet), passes specAudQuery p s →
    let o := entryOrigin p specAudQuery s
    let u := readBy p s
    let r (x : Reg) : Nat := (u.rd x).toNat
    (o.tgt = 0 → exec (.audQuery p) s = .next (u.conclude o (done (r (audStrCtrl 0)) u.audNow)))
    ∧ (0 < o.tgt → o.tgt < 32 → exec (.audQuery p) s = .next (u.conclude o (done (r (audStrCtrl o.tgt)) (r (audStrPos o.tgt)))))
    ∧ (32 ≤ o.tgt → o.tgt < 40 → exec (.audQuery p) s = .next (u.conclude o
        (done (r (audToneCfg (o.tgt - 32)) + 0x100000000 * r (audToneFreq (o.tgt - 32)))
          (r (audToneTime (o.tgt - 32)) + 0x100000000 * r (audToneOff (o.tgt - 32))))))
    ∧ (40 ≤ o.tgt → o.tgt < 50 → exec (.audQuery p) s = .next (u.conclude o (done (r (audOwner o.tgt)) 0)))
    ∧ (64 ≤ o.tgt → o.tgt < 80 → exec (.audQuery p) s = .next (u.conclude o
        (done (r (audBusCtrl (o.tgt - 64)) + 0x100000000 * r (audBusDyn (o.tgt - 64))) 0)))
    ∧ (96 ≤ o.tgt → o.tgt < 110 → exec (.audQuery p) s = .next (u.conclude o (done (r (audSinkCtrl (o.tgt - 96))) 0))))

/-- The audio engine (R320, R327, R328, R330, R331, R333, R335, R336). A sample clock mixes the sample; a position report appends its
packet; a tone's part gives way to the next, the next cadence or the end, which raises 354; a step at its timeout is made and counted; a
speaker's fault turns it off and raises 361. -/
def Obligations.AudioEngine : Prop :=
  (∀ (s : State) (line0 line1 : BitVec 24) (tdm : List (BitVec 24)) (limited : Byte),
    let n := max (s.aud.sample + 1) s.audNow
    s.sampleGrains n ≤ s.grains s.now → s.blockUp 35 28 = true →
    exec (.audioSample line0 line1 tdm limited) s = .next (s.mixSample n [toSigned 24 line0.toNat, toSigned 24 line1.toNat]
      (tdm.map fun x => toSigned 24 x.toNat) limited))
  ∧ (∀ (s : State) (n : Nat) (line tdm : List Int) (limited : BitVec 8),
    let t := ((List.range 8).foldl (fun t c => t.hapSample c (limited.getLsbD c)) s).modAud fun a => { a with sample := n }
    t.mixes = false → s.mixSample n line tdm limited = t)
  ∧ (∀ (s : State) (k : Nat),
    let x := (s.bus (s.sink k).bus).out
    let t := s.stepSink k (s.stepNow x (s.sink k).last (s.sink k).wait)
    (t.sinkDrives k = false → s.runSink k = t.modSink k fun u => { u with last := x, path := u.path.tail ++ [0] })
    ∧ (t.sinkDrives k = true → (t.sink k).phase < 2 → s.runSink k = t.modSink k fun u => { u with
        last := x, path := u.path.tail ++ [saturate (scaled x (gainFactor (t.sink k).gain))] }))
  ∧ (∀ (s : State) (i : Fin 32), s.get (audStrCtrl_EN i.val) ≠ 0 → s.get (audStrCtrl_PERIOD i.val) ≠ 0 →
    exec (.streamPositionReport i) s = .next ((s.appendPacket (s.get (audStrCtrl_QUEUE i.val))
      [BitVec.ofNat 64 (2 ^ 63 + 0x48 * 2 ^ 56 + i.val * 2 ^ 51 + (if (s.stream i.val).underrun then 2 ^ 50 else 0)
        + s.get (audStrPos_RPOS i.val)), BitVec.ofNat 64 (2 ^ 63 + s.now.word.toNat % 2 ^ 63)]).modStream i.val fun x =>
          { x with period := 0, underrun := false }))
  ∧ (∀ (s : State) (t : Fin 8),
    let n := t.val
    s.get (audToneCfg_RUN n) ≠ 0 →
    (∀ i : Nat, s.partFrom n ((s.tone n).part + 1) = some i →
      exec (.tonePartEnd t) s = .next (s.modTone n fun x => { x with part := i, left := s.partSamples n i }))
    ∧ (s.partFrom n ((s.tone n).part + 1) = none → (s.tone n).repeats = some 0 →
      exec (.tonePartEnd t) s = .next (((s.modTone n fun x => { x with stopping := none, left := 0, last := 0 }).put
        (audToneCfg_RUN n) 0).raise 354 n))
    ∧ (∀ i k : Nat, s.partFrom n ((s.tone n).part + 1) = none → s.partFrom n 0 = some i → (s.tone n).repeats = some (k + 1) →
      exec (.tonePartEnd t) s = .next ((s.modTone n fun x => { x with repeats := some k }).modTone n fun x =>
        { x with part := i, left := s.partSamples n i })))
  ∧ (∀ (s : State) (index : Fin 800),
    let i := index.val
    (s.xpGain (i / 16) (i % 16) ≠ s.get (audXp_GAIN (i / 16) (i % 16)) → exec (.zcTimeoutExpiry 0 index) s = .next
      ((s.modAud fun a => { a with
        gains := sset a.gains i (BitVec.ofNat 8 (s.get (audXp_GAIN (i / 16) (i % 16)))),
        waits := sset a.waits i 0 }).bump audZcToCnt_COUNT))
    ∧ ((s.bus i).gain ≠ s.get (audBusCtrl_GAIN i) → exec (.zcTimeoutExpiry 1 index) s = .next
        ((s.modBus i fun u => { u with gain := s.get (audBusCtrl_GAIN i), gainWait := 0 }).bump audZcToCnt_COUNT))
    ∧ ((s.bus i).phase = 3 → exec (.zcTimeoutExpiry 2 index) s = .next
        (((s.modBus i fun u => { u with phase := 0, wait := 0 }).bump audZcToCnt_COUNT).raise 360
          (i * 256 + if (s.bus i).bypass then 1 else 0)))
    ∧ ((s.sink i).phase = 3 → exec (.zcTimeoutExpiry 3 index) s = .next
        (((s.modSink i fun u => { u with phase := 0, gain := s.get (audSinkCtrl_GAIN i), wait := 0 }).bump audZcToCnt_COUNT).raise 359
          (i * 256 + (s.sink i).bus)))
    ∧ ((s.tone i).stopping ≠ none → exec (.zcTimeoutExpiry 4 index) s = .next (s.endTone i)))
  ∧ (∀ (s : State) (speaker : Fin 2) (code : Fin 4), code.val ≠ 0 → s.sinkDrives (4 + speaker.val) = true →
    exec (.speakerFaultDetect speaker code) s = .next ((s.put (audSinkCtrl_FAULT (4 + speaker.val)) code.val).raise 361
      (speaker.val * 256 + code.val)))

/-- Mailboxes (R344 to R349, R362, R363). A post of a control core is checked in the order of R345: an admitted one appends the message
with its sender, generation, length, time and bytes, one that is not ends in a bus error and raises 464; a pop frees the oldest message;
every change of a box sets its flag. A host's post and pop act on the mailbox behind the window. MB_ALLOW writes the list, MB_QUERY reads. -/
def Obligations.Mailboxes : Prop :=
  (∀ (s : State) (k : Fin 4) (w : World) (window : Fin 8) (value : W32),
    let who := Requester.core k w
    let bank := 2 * k.val + if w = .sealed then 0 else 1
    let m := value.toNat % 64
    let len := value.toNat / 256 % 64
    let result := s.postResult who m len (value.toNat / 64 % 4 == 0)
    let t := (s.put (mbqTxStatus_RESULT bank) result).put (mbqTxStatus_MB bank) m
    (result = 1 → exec (.mailboxPost who window value) s = .next
      (t.setBox m (t.box m ++ [message (agentOf who) 0 len s.now.word (t.txStaged bank)])))
    ∧ (result ≠ 1 → exec (.mailboxPost who window value) s = .next
      ((t.emit (.busError (agentOf who) (mbqTxStatus bank).addr)).raise 464 (m * 256 + result))))
  ∧ (∀ (s : State) (who : Requester) (m len : Nat),
    (s.admits m who = false → s.postResult who m len true = 3)
    ∧ (s.admits m who = true → 48 < len → s.postResult who m len true = 4)
    ∧ (s.admits m who = true → len ≤ 48 → 8 ≤ (s.box m).length → s.postResult who m len true = 2)
    ∧ (s.admits m who = true → len ≤ 48 → (s.box m).length < 8 → s.postResult who m len true = 1)
    ∧ s.postResult who m len false = 4)
  ∧ (∀ (s : State) (f : Fin 32) (window : Fin 8) (value : W32) (m : Nat), s.onLink f.val = true → s.power.warm = none →
      s.resetting f.val = false → s.windowBox f.val window.val = some m →
    exec (.mailboxPost (.host f) window value) s = .next (s.post (.host f) (8 + 8 * f.val + window.val) value.toNat))
  ∧ (∀ (s : State) (m : Nat) (l : List (List Byte)), 32 ≤ s.get (mbqMbCfg_RX m) →
    let t := ((s.modMbq fun b => { b with boxes := b.boxes.set m l }).put (mbqMbFlag_COUNT m) l.length).putBit (mbqMbFlag_FULL m) (l.length == 8)
    t.get (mbqMbCfg_RX m) = s.get (mbqMbCfg_RX m) → s.setBox m l = t)
  ∧ (∀ (s : State) (k : Fin 4) (unit : Fin 64) (value : W32) (first : List Byte) (rest : List (List Byte)),
      s.box unit.val = first :: rest → value.toNat % 2 = 1 →
    exec (.mailboxPop (.core k .sealed) unit value) s = .next (s.setBox unit.val rest)
    ∧ (s.get (mbqMbCfg_RX unit.val) = 62 → exec (.mailboxPop (.core k .opened) unit value) s = .next (s.setBox unit.val rest))
    ∧ (s.get (mbqMbCfg_RX unit.val) ≠ 62 → exec (.mailboxPop (.core k .opened) unit value) s = .next
        (s.refuseWrite (.core k .opened) (mbqMbPop unit.val).addr value.toNat 0 stWorld)))
  ∧ (∀ (s : State) (k : Fin 4) (unit : Fin 64) (value : W32), s.box unit.val = [] ∨ value.toNat % 2 = 0 →
    exec (.mailboxPop (.core k .sealed) unit value) s = .next s)
  ∧ (∀ (s : State) (p : Packet), passes specMbAllow p s →
    let o := entryOrigin p specMbAllow s
    exec (.mbAllow p) s = .next (((((readBy p s).put (mbqMbAllow_FUNC o.tgt) (o.u32 0)).put (mbqMbAllow_SEALED o.tgt) (o.u8 4 % 2)).put
      (mbqMbAllow_OPEN o.tgt) (o.u8 4 / 2)).conclude o (done 0 0)))
  ∧ (∀ (s : State) (p : Packet), passes specMbQuery p s →
    let o := entryOrigin p specMbQuery s
    let u := readBy p s
    exec (.mbQuery p) s = .next (u.conclude o (done ((u.rd (mbqMbFlag o.tgt)).toNat + 0x100000000 * (u.rd (mbqMbCfg o.tgt)).toNat)
      (u.rd (mbqMbPeer o.tgt)).toNat)))

/-- Report queues and locks (R350 to R364). A 64-bit read takes the break item, the oldest item or the idle item; a core's item is staged
until its packet is whole; delivery writes every readable item and the header to the host ring and signals vector 2; a read of a free lock
takes it, a write by its holder frees it, another's raises 468; the opcodes write, read, take and give. -/
def Obligations.QueuesAndLocks : Prop :=
  (∀ (s : State) (k : Fin 4) (q : Fin 32) (width : Width),
    let who := Requester.core k .sealed
    let u := s.queue q.val
    let shown (t : State) (v : W64) := t.emit (.readValue (agentOf who) (mbqQRead q.val).addr v)
    (width ≠ .w64 → exec (.queueRead who q width) s = .next (s.emit (.busError (agentOf who) (mbqQRead q.val).addr)))
    ∧ (u.broken ≠ 0 → exec (.queueRead who q .w64) s = .next (shown (s.setQueue q.val { u with broken := 0 }) (breakItem u.broken)))
    ∧ (u.broken = 0 → u.packets = [] → exec (.queueRead who q .w64) s = .next (shown s 0))
    ∧ (∀ (i : W64) (p : List W64) (rest : List (List W64)), u.broken = 0 → u.packets = (i :: p) :: rest →
        exec (.queueRead who q .w64) s = .next (shown (s.setQueue q.val { u with packets := if p = [] then rest else p :: rest }) i)))
  ∧ (∀ (s : State) (k : Fin 4) (q : Fin 32) (item : W64),
    let who := Requester.core k .sealed
    let key := 2 * k.val * 32 + q.val
    let items := s.staging key ++ [item]
    let need := 1 + (items.headD 0).toNat / 2 ^ 48 % 16
    (2 ^ 63 ≤ item.toNat → (s.staging key ≠ [] ∨ (0x70 ≤ itemKind item ∧ itemKind item ≤ 0x7E)) →
      exec (.queueItemWrite who q item) s = .next
        (if need ≤ items.length then (s.setStaging key []).appendPacket q.val items else s.setStaging key items))
    ∧ (item.toNat < 2 ^ 63 → exec (.queueItemWrite who q item) s = .next
        (((s.setStaging key []).emit (.busError (agentOf who) (mbqQWrite q.val).addr)).raise 467 q.val)))
  ∧ (∀ (s : State) (q : Nat) (items : List W64), (s.queue q).fill + items.length ≤ 4096 →
    s.appendPacket q items = s.setQueue q { s.queue q with packets := (s.queue q).packets ++ [items] })
  ∧ (∀ (s : State) (q : Nat) (u : QueueState), s.setQueue q u =
    ((s.modMbq fun b => { b with queues := b.queues.set q u }).put (mbqQStatus_FILL q) u.fill).putBit (mbqQStatus_BREAK q) (u.broken != 0))
  ∧ (∀ (s : State) (q : Fin 32),
    let u := s.queue q.val
    let f := s.get (mbqQCfg_OWNER q.val)
    let base := s.get (mbqQHost_ADDR q.val) * 4096
    s.get (mbqQCfg_HOST q.val) = 1 → f < 32 → u.readable ≠ [] →
    let t := s.writeSlots f base (s.get (mbqQCfg_LOG2 q.val)) u.readable (s.get (mbqQDeliv_COUNT q.val))
    let t := t.put (mbqQDeliv_COUNT q.val) (t.get (mbqQDeliv_COUNT q.val) + u.readable.length)
    exec (.queueHostDelivery q) s = .next (((t.emit (.hostWrite f base
      (leBytes 8 (t.get (mbqQDeliv_COUNT q.val)) ++ leBytes 8 u.lostTotal ++ leBytes 48 0))).setQueue q.val ⟨[], 0, u.lostTotal⟩).signalFixed f 2))
  ∧ (∀ (s : State) (k : Fin 4) (w : World) (l : Fin 64),
    let who := Requester.core k w
    let word (t : State) := t.get (mbqLockPeek_HOLDER l.val) + 0x10000 * t.get (mbqLockPeek_GEN l.val) + 0x40000000
    let shown (t : State) (v : Nat) := t.emit (.readValue (agentOf who) (mbqLock l.val).addr (BitVec.ofNat 64 v))
    (s.get (mbqLockPeek_HELD l.val) ≠ 0 → exec (.lockRead who l) s = .next (shown s (word s)))
    ∧ (s.get (mbqLockPeek_HELD l.val) = 0 →
      let t := ((s.put (mbqLockPeek_HOLDER l.val) (agentOf who)).put (mbqLockPeek_GEN l.val) 0).put (mbqLockPeek_HELD l.val) 1
      exec (.lockRead who l) s = .next (shown t (word t + 0x80000000))))
  ∧ (∀ (s : State) (k : Fin 4) (w : World) (l : Fin 64),
    let who := Requester.core k w
    (s.get (mbqLockPeek_HELD l.val) = 1 → s.get (mbqLockPeek_HOLDER l.val) = agentOf who →
      exec (.lockReleaseWrite who l) s = .next (((s.put (mbqLockPeek_HOLDER l.val) 0).put (mbqLockPeek_GEN l.val) 0).put
        (mbqLockPeek_HELD l.val) 0))
    ∧ ((s.get (mbqLockPeek_HELD l.val) = 0 ∨ s.get (mbqLockPeek_HOLDER l.val) ≠ agentOf who) →
      exec (.lockReleaseWrite who l) s = .next ((s.emit (.busError (agentOf who) (mbqLock l.val).addr)).raise 468 l.val)))
  ∧ (∀ (s : State) (p : Packet), passes specQSet p s →
    let o := entryOrigin p specQSet s
    let t := ((((readBy p s).put (mbqQCfg_HOST o.tgt) (o.u8 0)).put (mbqQCfg_LOG2 o.tgt) (o.u8 1)).put (mbqQCfg_CUT o.tgt) (o.u8 2)).put
      (mbqQHost_ADDR o.tgt) (o.u64 8 / 4096)
    exec (.qSet p) s = .next ((if o.u8 0 = 1 then t.put (mbqQDeliv_COUNT o.tgt) 0 else t).conclude o (done 0 0)))
  ∧ (∀ (s : State) (p : Packet), passes specQQuery p s →
    let o := entryOrigin p specQQuery s
    let u := readBy p s
    exec (.qQuery p) s = .next (u.conclude o
      (done ((u.rd (mbqQStatus o.tgt)).toNat + 0x100000000 * u.get (mbqQLost_COUNT o.tgt)) (u.get (mbqQDeliv_COUNT o.tgt)))))
  ∧ (∀ (s : State) (p : Packet), passes specLockTake p s →
    let o := entryOrigin p specLockTake s
    let u := readBy p s
    let r := u.readLock o.tgt o.mbqAgent
    exec (.lockTake p) s = .next (r.1.conclude o ⟨stDone, if 2 ^ 31 ≤ r.2 then 0 else 1, BitVec.ofNat 64 r.2, 0⟩))
  ∧ (∀ (s : State) (p : Packet), passes specLockGive p s →
    let o := entryOrigin p specLockGive s
    let u := readBy p s
    (u.get (mbqLockPeek_HELD o.tgt) = 1 → u.get (mbqLockPeek_HOLDER o.tgt) = o.mbqAgent →
      exec (.lockGive p) s = .next ((((u.put (mbqLockPeek_HOLDER o.tgt) 0).put (mbqLockPeek_GEN o.tgt) 0).put (mbqLockPeek_HELD o.tgt)
        0).conclude o (done 0 0)))
    ∧ ((u.get (mbqLockPeek_HELD o.tgt) = 0 ∨ u.get (mbqLockPeek_HOLDER o.tgt) ≠ o.mbqAgent) →
      exec (.lockGive p) s = .next ((u.raise 468 o.tgt).conclude o (refusal stConflict 1))))

/-- Refresh, temperature and errors (R372, R373, R375, R377, R380 to R382). A refresh due raises what is owed up to 128 and forces at
FORCE_AT; a slot issues up to PER_SLOT on every channel that no RT request holds back; above 85 °C a channel is derated, at 80 °C
restored; the scrubber corrects or reports a line; a late RT request is counted; a second that was hot on a channel raises 387 once. -/
def Obligations.RefreshAndErrors : Prop :=
  (∀ (s : State) (c : Fin 8),
    let t := s.put (dramcChStatus_OWED c.val) (min 128 (s.get (dramcChStatus_OWED c.val) + 1))
    let reached := t.get (dramcRefCfg_FORCE_AT) ≤ t.get (dramcChStatus_OWED c.val)
    (s.forcing c.val = false → reached → exec (.refreshDue c) s = .next ((t.setForcing c.val true).raise 388 c.val))
    ∧ (s.forcing c.val = true ∨ ¬ reached → exec (.refreshDue c) s = .next t))
  ∧ (∀ (s : State) (waiting : Byte),
    (s.bit dramcRefPlan_MASK s.now.grain = false → exec (.refreshSlot waiting) s = .next s)
    ∧ (s.bit dramcRefPlan_MASK s.now.grain = true → s.dramc.change = none → waiting.toNat = 0 →
        exec (.refreshSlot waiting) s = .next (s.each (List.range 8) State.refreshChannel))
    ∧ (s.bit dramcRefPlan_MASK s.now.grain = true → s.dramc.change = none →
        (∀ c < 8, s.forcing c = false ∧ s.get (dramcChStatus_OWED c) ≠ 128) → waiting.toNat = 0xFF →
        exec (.refreshSlot waiting) s = .next s))
  ∧ (∀ (s : State) (c : Nat),
    let owed := s.get (dramcChStatus_OWED c)
    let t := s.put (dramcChStatus_OWED c) (owed - s.get dramcRefCfg_PER_SLOT)
    ((t.forcing c = false ∨ t.get dramcRefCfg_FORCE_AT ≤ 2 * t.get (dramcChStatus_OWED c)) → s.refreshChannel c = t)
    ∧ (t.forcing c = true → 2 * t.get (dramcChStatus_OWED c) < t.get dramcRefCfg_FORCE_AT →
        s.refreshChannel c = t.setForcing c false))
  ∧ (∀ (s : State) (c : Fin 8) (temp : Byte),
    let t := s.put (dramcChStatus_TEMP c.val) temp.toNat
    (t.get (dramcChStatus_DERATE c.val) = 0 → 85 < temp.toInt →
      exec (.mr4TempRead c temp) s = .next ((t.put (dramcChStatus_DERATE c.val) 1).raise 389 (c.val * 256 + 1)))
    ∧ (t.get (dramcChStatus_DERATE c.val) = 1 → temp.toInt ≤ 80 →
      exec (.mr4TempRead c temp) s = .next ((t.put (dramcChStatus_DERATE c.val) 0).raise 389 (c.val * 256)))
    ∧ (80 < temp.toInt → temp.toInt ≤ 85 → exec (.mr4TempRead c temp) s = .next t))
  ∧ (∀ (s : State) (line : BitVec 42), dramBase ≤ line.toNat * 64 → line.toNat * 64 < dramBase + s.usable →
      s.get dramcStatus_INIT_DONE = 1 → s.get dramcScrub_SCRUB_H ≠ 0 →
    let c := s.channelOf (line.toNat * 64)
    let agent := 0xE020 + s.free.toNat % 16
    let found (ue : Nat) := (((s.freeUsed.wr (dramcChEccLast c) 0).put (dramcChEccLast_LINE c) line.toNat).put (dramcChEccLast_AGENT c)
      agent).put (dramcChEccLast_UE c) ue
    exec (.patrolScrub 7 line 0) s = .next s.freeUsed
    ∧ exec (.patrolScrub 7 line 1) s = .next (((found 0).raise 384 (c * 256 + 6)).bump (dramcChCeCnt_COUNT c))
    ∧ exec (.patrolScrub 7 line 2) s = .next (((found 1).raise 385 (c * 256 + 6)).bump (dramcChUeCnt_COUNT c))
    ∧ exec (.patrolScrub 7 line 3) s = .next (((((found 1).raise 386 c).put (dramcChEccLast_ADDR_FAULT c) 1).raise 385
        (c * 256 + 6)).bump (dramcChUeCnt_COUNT c)))
  ∧ (∀ (s : State) (r : Fin 8) (line : BitVec 42), r ≠ 7 →
    exec (.patrolScrub r line 0) s = .next s
    ∧ exec (.patrolScrub r line 1) s = .next (s.raise 395 (r.val * 256 + 1))
    ∧ exec (.patrolScrub r line 2) s = .next (s.raise 395 (r.val * 256 + 2))
    ∧ exec (.patrolScrub r line 3) s = .next (s.raise 395 (r.val * 256 + 2)))
  ∧ (∀ (s : State) (c : Fin 8),
    exec (.rtLate c) s = .next ((s.bump (dramcChLateCnt_COUNT c.val)).raise 394 c.val))
  ∧ (∀ (s : State) (accesses last : List W32) (busy : Byte) (traffic : List (W64 × W64)),
    let n (c : Nat) := (accesses.getD c 0).toNat
    let total := ((List.range 8).map n).sum
    exec (.hotWindowEnd accesses last busy traffic) s = .next
      ((s.modDramc fun d => { d with traffic := traffic.take 32 }).each (List.range 8) fun s c =>
        let s := s.wr (dramcChAcc c) (BitVec.ofNat 64 (last.getD c 0).toNat)
        let hot := s.get dramcHotCfg_HOT_PCT * total < 100 * n c ∧ busy.toNat / 2 ^ c % 2 = 1
        let t := s.put (dramcChStatus_HOT c) (if hot then 1 else 0)
        if hot ∧ s.get (dramcChStatus_HOT c) = 0 then t.raise 387 c else t))

/-- Changes of set point (R383 to R386, R389, R390, R392). A change accepted is pending with its line; grain 0 of line L − 6 arms it;
at line L issue stops, or with more than 16 refreshes owed it is held for a frame; its completion moves the set point, raises 390 and
settles its packet with the set point. DRAMC_FCHG asks likewise with GO. -/
def Obligations.SetPointChanges : Prop :=
  (∀ (s : State) (p : Packet), passes specMemFreqSet p s →
    let o := entryOrigin p specMemFreqSet s
    exec (.memFreqSet p) s = .next (((readBy p s).askChange (o.u8 0) (o.u16 2) (some o)).defer o))
  ∧ (∀ (s : State) (t line : Nat) (origin : Option Origin),
    let u := (((s.put dramcFchg_LINE line).put dramcFchg_TARGET t).put dramcStatus_FCHG_PENDING 1).modDramc fun d =>
      { d with change := some ⟨.waiting, ⟨0, 0, 0⟩, origin⟩ }
    (s.dramc.training = [] → s.askChange t line origin = u)
    ∧ (s.dramc.training ≠ [] → s.askChange t line origin = u.raise 391 2))
  ∧ (∀ (s : State) (k : Fin 4) (value : W32),
    let who := Requester.core k .sealed
    let v := value.toNat
    let line := v % 2 ^ 14
    let t := v / 2 ^ 16 % 4
    let note (t : State) := t.noteWrite who dramcFchg.addr v (s.rd dramcFchg).toNat
    (v < 2 ^ 31 → s.writeBarred who dramcFchg.addr = false →
        exec (.fchgGoWrite who value) s = .next (note ((s.put dramcFchg_LINE line).put dramcFchg_TARGET t)))
    ∧ (2 ^ 31 ≤ v → s.mode ∈ modesFreq → s.changeFault t line = none → s.writeBarred who dramcFchg.addr = false →
        exec (.fchgGoWrite who value) s = .next (note (s.askChange t line none)))
    ∧ (2 ^ 31 ≤ v → s.mode ∉ modesFreq ∨ s.changeFault t line ≠ none →
        exec (.fchgGoWrite who value) s = .next (s.refuseWrite who dramcFchg.addr v (s.rd dramcFchg).toNat stConflict)))
  ∧ (∀ (s : State) (c : SetPointChange), s.dramc.training = [] → s.dramc.change = some c → c.phase = .waiting →
    s.changeArms = s.modDramc fun d => { d with change := some { c with phase := .armed } })
  ∧ (∀ (s : State) (c : SetPointChange), s.dramc.change = some c → c.phase = .armed →
    ((∀ k < 8, s.get (dramcChStatus_OWED k) ≤ 16) →
      s.changeLine = s.modDramc fun d => { d with change := some { c with phase := .stopped, line := ⟨s.now.frame, s.now.line, 0⟩ } })
    ∧ ((∃ k < 8, 16 < s.get (dramcChStatus_OWED k)) →
      s.changeLine = ((s.modDramc fun d => { d with change := some { c with phase := .waiting } }).raise 391 1).takeDeferred))
  ∧ (∀ (s : State) (c : SetPointChange), s.dramc.change = some c → c.phase = .stopped →
    let t := s.get dramcFchg_TARGET
    let u := (s.put dramcStatus_SETPOINT t).raise 390 t
    exec .freqChangeComplete s = .next (u.endChange (done t 0)).takeDeferred)
  ∧ (∀ (s : State), (∀ c, s.dramc.change = some c → c.phase ≠ .stopped) → exec .freqChangeComplete s = .next s)
  ∧ (∀ (s : State) (c : SetPointChange) (a : Answer), s.dramc.change = some c → c.phase = .stopped →
    let u := (s.modDramc fun d => { d with change := none }).put dramcStatus_FCHG_PENDING 0
    (c.origin = none → s.endChange a = u)
    ∧ (∀ o, c.origin = some o → s.endChange a = u.settleAt o a c.line.word))

/-- Training, the initial clear and the settings (R378 to R380, R384, R389, R392). A set point trained takes the runs of every lane and
raises 392; the boot's last one selects the highest usable set point, one of MEM_RETRAIN answers; the clear zeroes usable DRAM; the
opcodes set and read the controller. -/
def Obligations.TrainingAndMemorySettings : Prop :=
  (∀ (s : State) (runs : List ((Byte × Byte) × (Byte × Byte))),
    let lanes (s : State) (sp : Nat) := s.each (List.range 16) fun s i =>
      s.trainLane (i / 2) (i % 2) sp (runs.getD i ((1, 0), (1, 0))).1 (runs.getD i ((1, 0), (1, 0))).2
    let passed (s : State) (sp : Nat) := (List.range 8).all fun c => s.channelPassed c sp
    (s.dramc.training = [] → exec (.trainingSetPointDone runs) s = .next s)
    ∧ (∀ (sp : Nat) (x : Nat × Option Origin) (rest : List (Nat × Option Origin)), s.dramc.training = (sp, none) :: x :: rest →
        x.2 = none → s.dramc.change = none →
        let t := lanes ((s.modDramc fun d => { d with training := x :: rest }).put dramcStatus_TRAINING 1) sp
        exec (.trainingSetPointDone runs) s = .next ((t.putBitAt dramcStatus_USABLE sp (passed t sp)).raise 392 sp))
    ∧ (∀ (sp : Nat), s.dramc.training = [(sp, none)] → s.dramc.change = none →
        let t := lanes ((s.modDramc fun d => { d with training := [] }).put dramcStatus_TRAINING 0) sp
        let t := (t.putBitAt dramcStatus_USABLE sp (passed t sp)).raise 392 sp
        (t.put dramcStatus_SETPOINT t.bestSetPoint).loseChannels.dramc.change = none →
        exec (.trainingSetPointDone runs) s = .next (t.put dramcStatus_SETPOINT t.bestSetPoint).loseChannels)
    ∧ (∀ (sp : Nat) (o : Origin), s.dramc.training = [(sp, some o)] →
        let t := lanes ((s.modDramc fun d => { d with training := [] }).put dramcStatus_TRAINING 0) sp
        let u := (((t.putBitAt dramcStatus_USABLE sp (passed t sp)).raise 392 sp).loseChannels).settle o
          ⟨stDone, if passed t sp then 0 else 1, 0, 0⟩
        u.dramc.change = none → exec (.trainingSetPointDone runs) s = .next u))
  ∧ (∀ (s : State) (c l sp : Nat) (rd wt : Byte × Byte),
    let width (r : Byte × Byte) := r.2.toNat + 1 - r.1.toNat
    let t := ((s.put (dramcTrn_RD_LEFT c l sp) rd.1.toNat).put (dramcTrn_RD_RIGHT c l sp) rd.2.toNat).put (dramcTrn_RD_CENTRE c l sp)
      ((rd.1.toNat + rd.2.toNat) / 2)
    let t := ((t.put (dramcTrn_WR_LEFT c l sp) wt.1.toNat).put (dramcTrn_WR_RIGHT c l sp) wt.2.toNat).put (dramcTrn_WR_CENTRE c l sp)
      ((wt.1.toNat + wt.2.toNat) / 2)
    (16 ≤ width rd → 16 ≤ width wt → s.trainLane c l sp rd wt = t.put (dramcTrn_PASS c l sp) 1)
    ∧ (width rd < 16 ∨ width wt < 16 → s.trainLane c l sp rd wt = (t.put (dramcTrn_PASS c l sp) 0).raise 393 (c * 256 + l * 16 + sp)))
  ∧ (∀ (s : State), s.get dramcStatus_INIT_DONE = 0 → s.dramc.training = [] → s.get dramcStatus_CH_LOST = 0 → s.mode = modeKindling →
    exec .dramInitClearDone s = .next ((s.zeroMem dramBase (dramBase + s.usable)).put dramcStatus_INIT_DONE 1))
  ∧ (∀ (s : State) (p : Packet), passes specMemRetrain p s →
    let o := entryOrigin p specMemRetrain s
    exec (.memRetrain p) s = .next ((((readBy p s).modDramc fun d => { d with training := d.training ++ [(o.u8 0, some o)] }).put
      dramcStatus_TRAINING 1).defer o))
  ∧ (∀ (s : State) (p : Packet), passes specMemRefPlan p s →
    let o := entryOrigin p specMemRefPlan s
    exec (.memRefPlan p) s = .next (((((readBy p s).put dramcRefPlan_MASK (o.u32 0)).put dramcRefCfg_PER_SLOT (o.u8 4)).put
      dramcRefCfg_FORCE_AT (o.u8 5)).conclude o (done 0 0)))
  ∧ (∀ (s : State) (p : Packet), passes specMemCfg p s →
    let o := entryOrigin p specMemCfg s
    let t := ((((readBy p s).put dramcCfg_GRAIN_LOG2 (o.u8 0)).put dramcCfg_RT_CAP (o.u8 1)).put dramcCfg_SEALED_WAYS (o.u8 4)).put
      dramcCfg_FCHG_EN (o.u8 5)
    exec (.memCfg p) s = .next ((((t.put dramcHotCfg_HOT_PCT (o.u8 2)).put dramcHotCfg_HOT_S (o.u8 3)).put dramcScrub_SCRUB_H
      (o.u8 6)).conclude o (done 0 0)))
  ∧ (∀ (s : State) (p : Packet), passes specMemQuery p s →
    let o := entryOrigin p specMemQuery s
    let u := readBy p s
    (o.tgt < 8 → exec (.memQuery p) s = .next (u.conclude o (done ((u.rd (dramcChStatus o.tgt)).toNat + 0x100000000 * u.rtNow)
      ((u.rd (dramcChCeCnt o.tgt)).toNat + 0x100000000 * (u.rd (dramcChUeCnt o.tgt)).toNat))))
    ∧ (o.tgt = 8 → exec (.memQuery p) s = .next (u.conclude o
        (done ((u.rd dramcStatus).toNat + 0x100000000 * (u.rd dramcCfg).toNat) 0)))
    ∧ (o.tgt = 0xFF → o.ring < 32 → exec (.memQuery p) s = .next (u.conclude o
        (done (u.dramc.traffic.getD o.ring (0, 0)).1.toNat (u.dramc.traffic.getD o.ring (0, 0)).2.toNat))))

/-- Clock and power requests and claims (R407, R408, R486). A request is answered in WORLD_CPC_STATUS with the first row of the table
that applies; row 1 takes effect at the next line, the others end in a bus error and raise 417; a domain in its slot is powered, raises
12 and its block's release begins; CLAIM_SET starts covered domains again. -/
def Obligations.ClockAndPowerRequests : Prop :=
  (∀ (s : State) (k : Fin 4) (w : World) (d : Fin 64),
    let who := Requester.core k w
    let agent := agentOf who
    s.writeBarred who worldCpcReq.addr = false →
    let told (result action : Nat) := (((s.put worldCpcStatus_RESULT result).put worldCpcStatus_DOMAIN d.val).put
      worldCpcStatus_ACTION action).put worldCpcStatus_AGENT agent
    let meant (action : Nat) : State :=
      let result := s.cpcResult who d.val action
      let t := told result action
      if result = 1 then
        ({ t with world := { t.world with cpcDue := t.world.cpcDue ++ [(d.val, action)] } } : State).noteWrite who worldCpcReq.addr
          (d.val + 64 * action) 0
      else
        let t := (t.emit (.busError agent worldCpcReq.addr)).raise 417 (d.val * 256 + result)
        if result = 2 ∨ result = 3 then t.cpcRecord d.val result agent else t
    exec (.cpcClockStop who d) s = .next (meant 0) ∧ exec (.cpcClockRun who d) s = .next (meant 1)
    ∧ exec (.cpcPowerOff who d) s = .next (meant 2) ∧ exec (.cpcPowerOn who d) s = .next (meant 3))
  ∧ (∀ (s : State) (who : Requester) (d action : Nat),
    (cpcDomain d = false → s.cpcResult who d action = 5)
    ∧ (cpcDomain d = true → worldOf who = .opened → coreDomain d = true → s.cpcResult who d action = 3)
    ∧ (cpcDomain d = true → worldOf who = .opened → coreDomain d = false → s.bit worldClaim_CLAIM d = true →
        s.cpcResult who d action = 2)
    ∧ (cpcDomain d = true → worldOf who = .sealed → action % 2 = 0 → s.domainBusy d = true → s.cpcResult who d action = 4)
    ∧ (cpcDomain d = true → worldOf who = .opened → coreDomain d = false → s.bit worldClaim_CLAIM d = false → action % 2 = 0 →
        s.domainBusy d = true → s.cpcResult who d action = 4)
    ∧ (cpcDomain d = true → worldOf who = .sealed → (action % 2 = 1 ∨ s.domainBusy d = false) → s.cpcResult who d action = 1)
    ∧ (cpcDomain d = true → worldOf who = .opened → coreDomain d = false → s.bit worldClaim_CLAIM d = false →
        (action % 2 = 1 ∨ s.domainBusy d = false) → s.cpcResult who d action = 1))
  ∧ (∀ (s : State) (d : Nat),
    s.cpcApply d 0 = s.putBitAt worldCpcClk_ON d false ∧ s.cpcApply d 1 = s.putBitAt worldCpcClk_ON d true
    ∧ s.cpcApply d 2 = s.putBitAt worldCpcPwr_ON d false
    ∧ (s.bit worldCpcPwr_ON d = false → d ∉ s.world.cpcSlots →
        s.cpcApply d 3 = { s with world := { s.world with cpcSlots := s.world.cpcSlots ++ [d] } }))
  ∧ (∀ (s : State) (d : Fin 64) (rest : List Nat) (bit : Nat), s.world.cpcSlots = d.val :: rest →
    let t := (({ s with world := { s.world with cpcSlots := rest } } : State).putBitAt worldCpcPwr_ON d.val true).raise 12 d.val
    (swrstOf d.val = none → exec (.domainPowerSlot d) s = .next t)
    ∧ (swrstOf d.val = some bit → t.blockBit sysSwrst bit = true → exec (.domainPowerSlot d) s = .next t)
    ∧ (swrstOf d.val = some bit → t.blockBit sysSwrst bit = false →
        exec (.domainPowerSlot d) s = .next (t.putBlockBit sysSwrstPend bit true)))
  ∧ (∀ (s : State) (p : Packet), passes specClaimSet p s →
    let o := entryOrigin p specClaimSet s
    let t := (readBy p s).put worldClaim_CLAIM (o.u64 0)
    let covered := (List.range 49).filter fun d => cpcDomain d && o.u64 0 / 2 ^ d % 2 == 1
      && !(t.bit worldCpcClk_ON d && t.bit worldCpcPwr_ON d)
    exec (.claimSet p) s = .next ((t.each covered fun t d =>
      ({ t with world := { t.world with cpcDue := t.world.cpcDue ++ [(d, 1), (d, 3)] } } : State).raise 418 d).conclude o (done 0 0)))
  ∧ (∀ (s : State) (p : Packet), passes specWmarkSet p s →
    let o := entryOrigin p specWmarkSet s
    exec (.wmarkSet p) s = .next (((readBy p s).put worldWmark_W (o.u16 0)).conclude o (done 0 0)))

/-- Debug and fuses (R409 to R411, R418). DEBUG_SET writes the enables and what follows from them; a session is admitted by the effective
enable of its kind and world, if the TAPSEL strap was sampled high (R522), and raises 420; FUSE_BLOW is answered when the fuse is blown; WORLD_QUERY reads four registers. -/
def Obligations.DebugAndFuses : Prop :=
  (∀ (s : State) (p : Packet), passes specDebugSet p s →
    let o := entryOrigin p specDebugSet s
    let u := readBy p s
    let t := u.wr debugEn (BitVec.ofNat 64 (o.u8 0 % 16 + 0x100 * u.get debugEn_EFFECTIVE))
    exec (.debugSet p) s = .next (t.refreshDebug.conclude o (done 0 0)))
  ∧ (∀ (s : State),
    let e := s.debugEffective
    let lost (t : State) (n : Nat) := t.get (debugSess_ACTIVE n) ≠ 0 ∧
      sessionAdmitted e (decide (0x8000 ≤ t.get (debugSess_AGENT n))) (t.flag (debugSess_INV n)) = false
    (s.get debugEn_EFFECTIVE = e → s.refreshDebug = s)
    ∧ (s.get debugEn_EFFECTIVE ≠ e → s.refreshDebug = ((s.put debugEn_EFFECTIVE e).raise 419 e).each (List.range 4)
        fun t n => if lost t n then t.cold (debugSess n) else t))
  ∧ (∀ (s : State), s.debugEffective =
    let sealed := s.get debugEn_SEALED_NI ≠ 0 ∧ (s.mode = modeTest ∨ s.mode = modeRecovery)
    (if s.get debugEn_OPEN_NI ≠ 0 then 1 else 0) + (if s.get debugEn_OPEN_INV ≠ 0 ∧ s.get debugEn_OPEN_NI ≠ 0 then 2 else 0)
    + (if sealed ∧ s.get debugFuse_SNI_CLOSED = 0 then 4 else 0)
    + (if sealed ∧ s.get debugEn_SEALED_INV ≠ 0 ∧ s.get debugFuse_SI_CLOSED = 0 then 8 else 0))
  ∧ (∀ (s : State) (n : Fin 4) (w : World) (invasive : Bool),
    let bit := (if w = .sealed then 2 else 0) + (if invasive then 1 else 0)
    (s.get sysStrap_TAPSEL ≠ 0 → s.get debugEn_EFFECTIVE / 2 ^ bit % 2 = 1 → exec (.debugSessionAttach n w invasive) s = .next
      ((((s.put (debugSess_AGENT n.val) (agentOf (.debug n w))).put (debugSess_ACTIVE n.val) 1).put (debugSess_INV n.val)
        (if invasive then 1 else 0)).raise 420 (n.val * 256 + (if invasive then 2 else 1))))
    ∧ (s.get sysStrap_TAPSEL = 0 ∨ s.get debugEn_EFFECTIVE / 2 ^ bit % 2 = 0 → exec (.debugSessionAttach n w invasive) s = .next s))
  ∧ (∀ (s : State) (p : Packet), passes specFuseBlow p s →
    let o := entryOrigin p specFuseBlow s
    let u := readBy p s
    exec (.fuseBlow p) s = .next (State.defer { u with world := { u.world with fuseBlow := u.world.fuseBlow ++ [(o.u8 0, o.u8 1, o)] } } o))
  ∧ (∀ (s : State) (select steps : Nat) (o : Origin) (rest : List (Nat × Nat × Origin)),
      s.world.fuseBlow = (select, steps, o) :: rest → select < 4 →
    let t : State := { s with world := { s.world with fuseBlow := rest } }
    let blown := if select = 0 then t.put debugFuse_SNI_CLOSED 1 else if select = 1 then t.put debugFuse_SI_CLOSED 1
      else if select = 2 then t.put debugFuse_REVOKED_0 1 else t.put debugFuse_SVN (min 64 (t.get debugFuse_SVN + steps))
    exec .fuseBlowComplete s = .next ((blown.refreshDebug.raise 423 select).settle o (done 0 0)))
  ∧ (∀ (s : State) (p : Packet), passes specWorldQuery p s →
    let u := readBy p s
    exec (.worldQuery p) s = .next (u.conclude (entryOrigin p specWorldQuery s)
      (done ((u.rd worldStatus).toNat + 0x100000000 * (u.rd debugEn).toNat) ((u.rd debugFuse).toNat + 0x100000000 * (u.rd worldWmark).toNat))))

/-- Check-value units (R423 to R428, R431, R432). CU_JOB queues a job and answers its number, CU_QUERY counts; a free pool unit takes the
next job; a descriptor that ends passes its bytes through the check value; a job that ends shows its result and writes its record of 32
bytes; GO starts a unit in direct use with its registers. -/
def Obligations.CheckUnits : Prop :=
  (∀ (s : State) (p : Packet), passes specCuJob p s →
    let o := entryOrigin p specCuJob s
    let u := readBy p s
    let start := cuInitial (o.u8 0) (o.u8 1 % 2 == 1) (o.u8 1 / 2 == 1) (o.u64 16) (o.u64 24)
    let j : CuJob := { number := u.cu.nextNumber, owner := o.ring, gen := u.ringGen o.ring, alg := o.u8 0, fold := o.u8 1 % 2 == 1,
                       cont := o.u8 1 / 2 == 1, foldWord := o.u64 16, desc := o.u64 8, count := o.u32 4, index := 0, run := start.1,
                       bytes := start.2, record := o.u64 32, ue := false, stop := none, arrived := u.cu.arrivals }
    exec (.cuJob p) s = .next ((u.modCu fun c => { c with queue := c.queue ++ [j], nextNumber := (c.nextNumber + 1) % 0x10000,
                                                          arrivals := c.arrivals + 1 }).conclude o (done j.number 0)))
  ∧ (∀ (s : State) (p : Packet), passes specCuQuery p s →
    let o := entryOrigin p specCuQuery s
    let u := readBy p s
    let queued := (u.cu.queue.filter fun j => j.owner == o.ring).length
    let running := ((List.range 8).filter fun n => (u.cuUnit n).any fun j => j.owner == o.ring).length
    exec (.cuQuery p) s = .next (u.conclude o (done (queued + 256 * running) (u.cu.usedLast.getD o.ring 0 / 8000))))
  ∧ (∀ (alg : Nat) (fold : Bool) (word run : Nat),
    cuInitial alg fold true word run = (run % 2 ^ (crcAlg alg).width, 0)
    ∧ cuInitial alg true false word run = (crcRun (crcAlg alg) (crcAlg alg).init (leBytes 8 word), 8)
    ∧ cuInitial alg false false word run = ((crcAlg alg).init, 0))
  ∧ (∀ (s : State) (u : Fin 8) (j : CuJob),
    let shown (t : State) := ((((t.setUnit u.val (some j)).put (cuState_STATE u.val) 1).put (cuState_SOURCE u.val)
      (cuSource j.owner)).put (cuRun_VALUE u.val) j.run).put (cuBytes_COUNT u.val) (min j.bytes 0xFFFFFFFF)
    (s.cuNext = some j → s.cuFree u.val = true → exec (.cuDispatch u) s = .next (shown (s.modCu fun c =>
      { c with queue := c.queue.erase j, lastServed := if j.owner < 32 then j.owner else c.lastServed })))
    ∧ ((s.cuNext = none ∨ s.cuFree u.val = false) → exec (.cuDispatch u) s = .next s))
  ∧ (∀ (s : State) (u : Fin 8) (j : CuJob) (src len : Nat), s.cuUnit u.val = some j → s.cu.units.length = 8 → j.stop = none →
      j.index < j.count → s.cuDescriptor j = .ok (src, len) → 32 ≤ j.owner →
    let run := crcRun (crcAlg j.alg) j.run (s.load src len)
    exec (.cuDescriptorComplete u false) s = .next (((s.setUnit u.val (some { j with index := j.index + 1, run := run,
                                                                                     bytes := j.bytes + len })).put
      (cuRun_VALUE u.val) run).put (cuBytes_COUNT u.val) (min (j.bytes + len) 0xFFFFFFFF)))
  ∧ (∀ (s : State) (u : Fin 8) (ue : Bool) (j : CuJob) (a : Nat) (outside : Bool), s.cuUnit u.val = some j → j.stop = none →
      j.index < j.count → s.cuDescriptor j = .error (a, outside) →
    let t := s.setUnit u.val (some { j with stop := some (1 + j.index) })
    exec (.cuDescriptorComplete u ue) s = .next (if outside then t.violation (j.agent u.val) a false else t))
  ∧ (∀ (s : State) (u : Fin 8) (j : CuJob), s.cuUnit u.val = some j →
    (j.stop = none → j.count ≤ j.index → j.ue = false → exec (.cuJobComplete u) s = .next
      (((((s.setUnit u.val none).put (cuState_STATE u.val) 2).put (cuState_DETAIL u.val) 0).put (cuResult_VALUE u.val)
        (j.run ^^^ (crcAlg j.alg).xorOut)).cuRecord j))
    ∧ (∀ d, j.stop = some d → j.ue = false → exec (.cuJobComplete u) s = .next
      (((((s.setUnit u.val none).put (cuState_STATE u.val) 3).put (cuState_DETAIL u.val) d).raise 449 (u.val * 256 +
        cuSource j.owner)).cuRecord j)))
  ∧ (∀ (s : State) (j : CuJob), (j.owner = 32 ∨ j.owner = 33) → s.cuMay j j.record 32 = true →
    let status := if j.stop.isSome then stNoResource else stDone
    s.cuRecord j = (s.store j.record (leBytes 2 status ++ leBytes 2 (j.stop.getD (if j.ue then 1 else 0))
      ++ leBytes 4 (min j.bytes 0xFFFFFFFF) ++ leBytes 8 (j.run ^^^ (crcAlg j.alg).xorOut) ++ leBytes 8 j.run
      ++ leBytes 8 s.now.word.toNat)).raise 448 (cuSource j.owner * 256 + status))
  ∧ (∀ (s : State) (k : Fin 4) (u : Fin 8) (value : W32),
    let who := Requester.core k .sealed
    let new := value.toNat &&& 0x11E
    let old := (s.rd (cuCtrl u.val)).toNat
    let t := s.wr (cuCtrl u.val) (BitVec.ofNat 64 new)
    let t := if new = old then t else t.noteWrite who (cuCtrl u.val).addr value.toNat old
    s.cuUnit u.val = none → s.writeBarred who (cuCtrl u.val).addr = false →
    (value.toNat % 2 = 1 → new / 256 = 1 → new / 8 % 4 ≠ 3 → exec (.cuDirectGo who u value) s = .next (t.cuGo u.val))
    ∧ (value.toNat % 2 = 1 → new / 256 = 1 → new / 8 % 4 = 3 →
        exec (.cuDirectGo who u value) s = .next (s.emit (.busError (agentOf who) (cuCtrl u.val).addr)))
    ∧ (value.toNat % 2 = 0 ∨ new / 256 ≠ 1 → exec (.cuDirectGo who u value) s = .next t))

/-- Block software reset (R500, R501). A bit newly set in a block that is not busy holds the block, one cleared lets its release wait for
the block's clock; with the clock good the block takes its Cold values; a release that waits 10 ms raises 13 once. -/
def Obligations.SoftwareReset : Prop :=
  (∀ (s : State) (k : Fin 4) (value : W64),
    let who := Requester.core k .sealed
    let old := (s.rd sysSwrst).toNat
    let new := value.toNat % 2 ^ 40
    let set := swrstBits (new &&& (swrstMask ^^^ old))
    let clear := swrstBits (old &&& (swrstMask ^^^ new))
    ((∀ b ∈ set, ∀ d, domainOf b = some d → s.domainBusy d = false) → s.writeBarred who sysSwrst.addr = false →
      exec (.swrstWrite who value) s = .next (((s.each set State.holdBlock).each clear State.releaseBlock).noteWrite who sysSwrst.addr
        value.toNat old))
    ∧ ((∃ b ∈ set, ∃ d, domainOf b = some d ∧ s.domainBusy d = true) →
      exec (.swrstWrite who value) s = .next (s.refuseWrite who sysSwrst.addr value.toNat old stConflict)))
  ∧ (∀ (s : State) (bit : Nat),
    let t := (s.putBlockBit sysSwrst bit true).putBlockBit sysSwrstPend bit false
    let t : State := { t with power := { t.power with stuck := setField t.power.stuck bit 1 0 } }
    (bit < 30 ∨ 31 < bit → s.holdBlock bit = t) ∧ (bit = 30 → s.holdBlock bit = t.dropLink 0) ∧ (bit = 31 → s.holdBlock bit = t.dropLink 1)
    ∧ s.releaseBlock bit = (s.putBlockBit sysSwrst bit false).putBlockBit sysSwrstPend bit true)
  ∧ (∀ (s : State) (bit : Fin 40), s.blockBit sysSwrstPend bit.val = true →
    let t := (s.coldBlock bit.val).putBlockBit sysSwrstPend bit.val false
    ((∀ d, domainOf bit.val = some d → s.bit worldCpcPwr_ON d = true ∧ s.bit worldCpcClk_ON d = true) →
      exec (.swrstRelease bit) s = .next { t with power := { t.power with stuck := setField t.power.stuck bit.val 1 0 } })
    ∧ (∀ d, domainOf bit.val = some d → s.bit worldCpcPwr_ON d = false ∨ s.bit worldCpcClk_ON d = false →
      exec (.swrstRelease bit) s = .next s))
  ∧ (∀ (s : State) (bit : Fin 40), s.blockBit sysSwrstPend bit.val = true →
    (s.power.stuck / 2 ^ bit.val % 2 = 0 → exec (.swrstStuck bit) s = .next
      (({ s with power := { s.power with stuck := setField s.power.stuck bit.val 1 1 } } : State).raise 13 bit.val))
    ∧ (s.power.stuck / 2 ^ bit.val % 2 = 1 → exec (.swrstStuck bit) s = .next s))

/-- The peat log (R434, R435, R440 to R448). A commit writes the 64 bytes of the oldest queued record, its CRC over the fold word and
bytes 0 to 59, advances NEXT, leaves the CRC in PEAT_LAST_CRC and gives its waiting reply, in the wrap policy over the oldest record of a
bank that holds as many as it has slots; a summary due writes its counts and clears them; LOG_POLICY and a sealed
write of PEAT_CTRL change the policy; LOG_RELEASE of a number above 0 moves OLDEST, writes marker 4 and raises 456; LOG_MARK queues its
record or is refused by a full log; LOG_EXPORT waits, and at its end its records are written; LOG_QUERY reads four registers. -/
def Obligations.PeatLog : Prop :=
  (∀ (s : State) (r : PeatRec) (rest : List PeatRec), s.peat.queue = r :: rest →
    let t := (s.modPeat fun p => { p with queue := rest }).commitRecord r
    (r.reply = none → exec .peatRecordCommit s = .next t)
    ∧ (∀ d, r.reply = some d → exec .peatRecordCommit s = .next (t.answer d.origin d.answer d.time)))
  ∧ (∀ (s : State), s.peat.queue = [] → exec .peatRecordCommit s = .next s)
  ∧ (∀ (s : State) (r : PeatRec),
    let u := s.makeSlot
    let n := u.get peatNext_VALUE
    let bytes := leBytes 8 r.time.toNat ++ leBytes 4 n ++ leBytes 4 (u.get peatBoot_VALUE) ++ leBytes 2 r.origin ++ leBytes 1 r.kind
      ++ leBytes 1 r.gen ++ leBytes 2 (r.status % 256) ++ leBytes 2 r.aux ++ leBytes 4 r.caravan.toNat ++ leBytes 4 r.target.toNat
      ++ bytesAt r.data 0 28
    let crc := crcOf crc32c (leBytes 4 (if n = 0 then 0 else u.get peatLastCrc_VALUE) ++ leBytes 4 0 ++ bytes)
    bytes.length = 60
    ∧ s.commitRecord r = (((u.modPeat fun p => { p with bank := storeBytes p.bank (n % logSlots * 64) (bytes ++ leBytes 4 crc) }).put
      peatNext_VALUE (n + 1)).put peatLastCrc_VALUE crc).refill
    ∧ (s.canonical = true → (s.commitRecord r).get peatLastCrc_VALUE = crc % 2 ^ 32 ∧
        (s.commitRecord r).get peatNext_VALUE = (n + 1) % 2 ^ 32))
  ∧ (∀ (s : State),
    let held := s.get peatNext_VALUE - s.get peatOldest_VALUE
    let past := s.put peatOldest_VALUE (s.get peatOldest_VALUE + 1)
    (held < logSlots → s.makeSlot = s)
    ∧ (logSlots ≤ held → s.peat.raisedWrap = true → s.makeSlot = past)
    ∧ (logSlots ≤ held → s.peat.raisedWrap = false → s.makeSlot = (past.modPeat fun p => { p with raisedWrap := true }).raise 453 0))
  ∧ (∀ (s : State),
    let due := s.now.line = 0 ∧ s.now.grain = 0 ∧ s.now.frame % s.get peatCtrl_SUM_FRAMES = 0
    let r : PeatRec := { time := s.now.word, origin := 0x8FFF, kind := 3, gen := s.get wallStatus_RASTER_GEN, status := 0,
                         aux := min 65535 ((s.peat.elapsed + 500000000000) / 1000000000000), caravan := 0, target := 0,
                         data := s.peat.counts, order := 900, reserve := false, reply := none }
    (due → (∃ b ∈ s.peat.counts, b ≠ 0) → s.logRefuses 1 = false → exec .summaryRecord s = .next ((s.log r).1.modPeat fun p =>
      { p with flips := [0, 0, 0, 0], violations := 0, flipFns := 0, unwritten := 0, elapsed := 0 }))
    ∧ (¬ due → exec .summaryRecord s = .next s)
    ∧ ((∀ b ∈ s.peat.counts, b = 0) → exec .summaryRecord s = .next s))
  ∧ (∀ (s : State) (k : Fin 4) (value : W32),
    let who := Requester.core k .sealed
    exec (.peatWrapWrite who value) s = .next ((s.setPolicy (value.toNat % 2 == 1) (agentOf who) 5050).noteWrite who peatCtrl.addr
      value.toNat (s.rd peatCtrl).toNat))
  ∧ (∀ (s : State) (agent order : Nat),
    let note (t : State) := (t.marker 3 agent [] order).refill
    (s.get peatCtrl_WRAP = 0 → s.setPolicy true agent order = note ((s.put peatCtrl_WRAP 1).modPeat fun p => { p with raisedWrap := false }))
    ∧ (s.get peatCtrl_WRAP ≠ 0 → s.setPolicy false agent order = note (s.put peatCtrl_WRAP 0)
        ∧ s.setPolicy true agent order = s)
    ∧ (s.get peatCtrl_WRAP = 0 → s.setPolicy false agent order = s))
  ∧ (∀ (s : State) (p : Packet), passes specLogPolicy p s →
    let o := entryOrigin p specLogPolicy s
    exec (.logPolicy p) s = .next (((readBy p s).setPolicy (o.u8 0 == 1) o.agent (packetOrder o.ring)).conclude o (done 0 0)))
  ∧ (∀ (s : State) (p : Packet), passes specLogRelease p s →
    let o := entryOrigin p specLogRelease s
    let n := o.u32 0
    let u := readBy p s
    n ≠ 0 → exec (.logRelease p) s = .next (((((u.put peatOldest_VALUE n).refill).marker 4 o.agent (leBytes 4 (n - 1) ++
      leBytes 4 ((u.put peatOldest_VALUE n).storedCrc (n - 1))) (packetOrder o.ring)).raise 456
        (min (n - u.get peatOldest_VALUE) 0xFFFF)).conclude o (done 0 0)))
  ∧ (∀ (s : State) (p : Packet), passes specLogMark p s →
    let o := entryOrigin p specLogMark s
    let u := readBy p s
    let r : PeatRec := { time := u.now.word, origin := o.agent, kind := 6, gen := u.get wallStatus_RASTER_GEN, status := 0, aux := 0,
                         caravan := 0, target := 0, data := changeData (leBytes 4 5 ++ bytesAt o.payload 0 24),
                         order := packetOrder o.ring, reserve := false, reply := some ⟨o, done 0 0, u.now.word⟩ }
    (u.logRefuses 1 = false → exec (.logMark p) s = .next (u.log r).1)
    ∧ (u.logRefuses 1 = true → exec (.logMark p) s = .next ((u.bump peatRefused_COUNT).conclude o (refusal stLogFull 0))))
  ∧ (∀ (s : State) (p : Packet), passes specLogExport p s →
    let o := entryOrigin p specLogExport s
    exec (.logExport p) s = .next (((readBy p s).modPeat fun p =>
      { p with exports := p.exports ++ [(o.u32 0, o.u32 4, o.u64 8, o)] }).defer o))
  ∧ (∀ (s : State) (ring : Fin 34) (first count dest : Nat) (o : Origin),
      (s.peat.exports.find? fun e => e.2.2.2.ring == ring.val) = some (first, count, dest, o) → s.recordsHeld first count = true →
      s.ringGen o.ring = o.gen → 0 < count →
    let t := (s.modPeat fun p => { p with exports := p.exports.erase (first, count, dest, o) }).each (List.range count) fun t i =>
      if o.ring < 32 then t.emit (.hostWrite o.ring (dest + 64 * i) (t.storedRecord (first + i)))
      else t.store (dest + 64 * i) (t.storedRecord (first + i))
    exec (.logExportComplete ring) s = .next (t.settle o ⟨stDone, 0, BitVec.ofNat 64 count,
      BitVec.ofNat 64 (t.storedCrc (first + count - 1))⟩))
  ∧ (∀ (s : State) (p : Packet), passes specLogQuery p s →
    let u := readBy p s
    exec (.logQuery p) s = .next (u.conclude (entryOrigin p specLogQuery s) (done
      (u.get peatNext_VALUE + 0x100000000 * u.get peatOldest_VALUE) ((u.rd peatStatus).toNat + 0x100000000 * u.get peatLastCrc_VALUE))))

/-- Event delivery and the event opcodes (R455 to R458, R471 to R473). Records go to a function's host ring before the header and the
vectors; the opcodes set routes, vectors and the ring; EVT_QUERY
returns the event's counters and pending bit with the function's count, SUPV_QUERY the status, the HEALTH word and a head's availability
(R473); a control core sets an internal event ring of its world. -/
def Obligations.EventDelivery : Prop :=
  (∀ (s : State) (f : Fin 32),
    let recs := s.evt.outbound.getD f.val []
    let t : State := { s with evt := { s.evt with outbound := s.evt.outbound.set f.val [] } }
    let base := s.get (evtFnRing_ADDR f.val) * 4096
    let u := t.writeRecords f.val base (s.get (evtFnRcfg_LOG2 f.val)) recs (s.get (evtFnDeliv_COUNT f.val))
    let u := u.put (evtFnDeliv_COUNT f.val) (u.get (evtFnDeliv_COUNT f.val) + recs.length)
    let u := u.emit (.hostWrite f.val base (leBytes 8 (u.get (evtFnDeliv_COUNT f.val)) ++ leBytes 56 0))
    (recs = [] → exec (.eventHostDelivery f) s = .next s)
    ∧ (recs ≠ [] → s.get (evtFnRcfg_EN f.val) = 0 → exec (.eventHostDelivery f) s = .next t)
    ∧ (recs ≠ [] → s.get (evtFnRcfg_EN f.val) = 1 → exec (.eventHostDelivery f) s = .next
        (u.each ((recs.map fun r => u.eventVector f.val r.event).eraseDups) fun s v => s.signalRouted f.val v)))
  ∧ (∀ (s : State) (f base log2 n : Nat) (r : EventRec) (l : List EventRec),
    s.writeRecords f base log2 [] n = s
    ∧ s.writeRecords f base log2 (r :: l) n =
      (s.emit (.hostWrite f (base + 64 + n % 2 ^ log2 * 16) (eventBytes r))).writeRecords f base log2 l (n + 1))
  ∧ (∀ (s : State) (p : Packet), passes specEvtRoute p s →
    let o := entryOrigin p specEvtRoute s
    let t := (readBy p s).each (List.range 16) fun s k =>
      (s.keepRoute (evtFnMask o.tgt k)).put (evtFnMask_ROUTE o.tgt k) (o.u32 (4 * k) &&& usedMask k)
    exec (.evtRoute p) s = .next ((t.each (List.range 4) fun s j => s.wr (evtFnVec o.tgt j)
      (BitVec.ofNat 64 (o.u32 (64 + 4 * j)))).conclude o (done 0 0)))
  ∧ (∀ (s : State) (p : Packet), passes specEvtRingSet p s →
    let o := entryOrigin p specEvtRingSet s
    let t := (((readBy p s).put (evtFnRcfg_LOG2 o.tgt) (o.u8 1)).put (evtFnRing_ADDR o.tgt) (o.u64 8 / 4096)).put (evtFnRcfg_EN o.tgt)
      (o.u8 0)
    let anew := t.put (evtFnDeliv_COUNT o.tgt) 0
    (o.u8 0 ≠ 1 → exec (.evtRingSet p) s = .next (t.conclude o (done 0 0)))
    ∧ (o.u8 0 = 1 → exec (.evtRingSet p) s = .next (State.conclude { anew with evt := { anew.evt with
        outbound := anew.evt.outbound.set o.tgt [] } } o (done 0 0))))
  ∧ (∀ (s : State) (p : Packet), passes specEvtQuery p s →
    let o := entryOrigin p specEvtQuery s
    let u := readBy p s
    let e := o.u16 0
    exec (.evtQuery p) s = .next (u.conclude o (done ((u.rd (evtSrc e)).toNat + 0x100000000 *
      (u.get (evtPend_PEND (e / 32)) / 2 ^ (e % 32) % 2)) (u.get (evtFnDeliv_COUNT o.tgt)))))
  ∧ (∀ (s : State) (p : Packet), passes specSupvQuery p s →
    let o := entryOrigin p specSupvQuery s
    let u := readBy p s
    exec (.supvQuery p) s = .next (u.conclude o (done (u.supvStatusNow + 0x100000000 * (u.rd supvWord).toNat)
      (u.rd (supvAvail o.tgt)).toNat)))
  ∧ (∀ (s : State) (k : Fin 4) (value : W32),
    let log2 := max 12 (min 20 (value.toNat % 32))
    let a (w : Nat) := s.get (evtIrBase_ADDR w) * 4096 % 2 ^ 48
    let cfg (w : Nat) (ok : Bool) := (s.put (evtIrSize_LOG2 w) log2).put (evtIrSize_EN w)
      (if decide (2 ^ 31 ≤ value.toNat) && ok then 1 else 0)
    let who := Requester.core k .sealed
    (s.writeBarred who (evtIrSize 0).addr = false → exec (.evtRingEnableWrite who .sealed value) s = .next
      ((cfg 0 (inSealedSram (a 0) (2 ^ log2))).noteWrite who (evtIrSize 0).addr value.toNat (s.rd (evtIrSize 0)).toNat))
    ∧ exec (.evtRingEnableWrite (.core k .opened) .opened value) s = .next
      (cfg 1 (s.openMemory (a 1) (2 ^ log2) || inLocalSram (a 1) (2 ^ log2)))
    ∧ exec (.evtRingEnableWrite (.core k .opened) .sealed value) s = .next
      (s.refuseWrite (.core k .opened) (evtIrSize 0).addr value.toNat (s.rd (evtIrSize 0)).toNat stWorld))

/-- Supervision (R460 to R467, R472). A policy entry is set with an empty history; the kick restarts the watchdog; a lockstep mismatch
halts the cores and drops HEALTH; a stall, an oscillator fault, the two HEALTH outputs and the alarm's end have their registers and
events. -/
def Obligations.Supervision : Prop :=
  (∀ (s : State) (p : Packet), passes specSupvPolicySet p s →
    let o := entryOrigin p specSupvPolicySet s
    let i := o.u8 0
    let t := (((((readBy p s).put (supvPol_EVENT i) (o.u16 2)).put (supvPol_ACTION i) (o.u8 4)).put (supvPol_COUNT i) (o.u8 5)).put
      (supvPol_WINDOW i) (o.u8 6)).put (supvPol_EN i) (o.u8 7)
    exec (.supvPolicySet p) s = .next (State.conclude { t with supv := { t.supv with history := t.supv.history.set i [] } } o (done 0 0)))
  ∧ (∀ (s : State) (k : Fin 4) (value : W32),
    (value.toNat % 256 = 0xC3 → exec (.supvKickWrite (.core k .sealed) value) s = .next (s.modSupv fun v => { v with kickAt := s.now }))
    ∧ (value.toNat % 256 ≠ 0xC3 → exec (.supvKickWrite (.core k .sealed) value) s = .next s)
    ∧ exec (.supvKickWrite (.core k .opened) value) s = .next (s.refuseWrite (.core k .opened) supvKick.addr value.toNat 0 stWorld))
  ∧ (∀ (s : State), s.supv.halted = false →
    exec .lockstepMismatch s = .next (((((s.modSupv fun v => { v with halted := true, levelA := false, stopA := false,
                                                                      cleanFrames := 0 }).emit (.contact "HEALTH_A" 0)).emit
      (.contact "HEALTH_B" 0)).put supvStatus_HEALTH_A 0).raise 483 0))
  ∧ (∀ (s : State), s.supervised = true →
    exec .rasterStall s = .next (((s.modSupv fun v => { v with stopA := true, cleanFrames := 0, cleanNow := false }).put
      supvStatus_STALL 1).raise 484 0)
    ∧ (∀ ppm, 1000 < ppm → exec (.oscCompare ppm) s = .next ((s.put supvStatus_OSC_BAD 1).raise 485 (min ppm 0xFFFF)))
    ∧ (∀ ppm, ppm ≤ 1000 → exec (.oscCompare ppm) s = .next s))
  ∧ (∀ (s : State), s.supervised = false → exec .rasterStall s = .next s ∧ (∀ ppm, exec (.oscCompare ppm) s = .next s)
    ∧ exec .healthAHalfPeriod s = .next s ∧ exec .healthBFrame s = .next s)
  ∧ (∀ (s : State), s.supervised = true → s.get supvStatus_HEALTH_A = 1 →
    ((s.supv.stopA = true ∨ s.allVerified = false) → exec .healthAHalfPeriod s = .next
      ((((s.modSupv fun v => { v with levelA := false, stopA := false, cleanFrames := 0 }).emit (.contact "HEALTH_A" 0)).put
        supvStatus_HEALTH_A 0).raise 486 0))
    ∧ (s.supv.stopA = false → s.allVerified = true → exec .healthAHalfPeriod s = .next
      ((s.modSupv fun v => { v with levelA := !v.levelA }).emit (.contact "HEALTH_A" (if s.supv.levelA then 0 else 1)))))
  ∧ (∀ (s : State), s.supervised = true → s.get supvStatus_HEALTH_A = 0 →
    (s.allVerified = true → s.get supvCtrl_RESUME ≤ s.supv.cleanFrames → exec .healthAHalfPeriod s = .next
      ((((s.modSupv fun v => { v with levelA := true, stopA := false }).emit (.contact "HEALTH_A" 1)).put supvStatus_HEALTH_A 1).raise
        486 1))
    ∧ ((s.allVerified = false ∨ s.supv.cleanFrames < s.get supvCtrl_RESUME) → exec .healthAHalfPeriod s = .next s))
  ∧ (∀ (s : State), s.supervised = true →
    let w := s.healthWord
    let c := crcOf crc16 (leBytes 2 w)
    exec .healthBFrame s = .next ((((s.put supvWord_WORD w).put supvWord_CRC c).modSupv fun v => { v with seqB := (v.seqB + 1) % 4 }).emit
      (.contact "HEALTH_B" (w + 0x10000 * c))))
  ∧ (∀ (s : State), exec .policyAlarmExpiry s = .next (s.put supvStatus_ALARM 0))

/-- Supplies, temperature and starts (R482 to R492). A supply or temperature that crosses its limit is shown and reported; a loss of
power takes the module to its stage with the cause code; the 16 slots run in order, the last raises 0 and 3 and checks the log; a rail
that fails turns the module off, three times for good. -/
def Obligations.SuppliesAndStarts : Prop :=
  (∀ (s : State) (mv10 : BitVec 12), s.powered = true →
    (s.get sysPower_LOW = 0 → exec (.vmainLowDetect mv10) s = .next ((((s.put sysPower_VMAIN mv10.toNat).put sysPower_LOW 1).put
      sysPower_VMAIN_OK 0).raise 5 (openRound mv10.toNat 10)))
    ∧ (s.get sysPower_LOW = 1 → exec (.vmainRecovery mv10) s = .next ((((s.put sysPower_VMAIN mv10.toNat).put sysPower_LOW 0).put
      sysPower_VMAIN_OK 1).raise 6 (openRound mv10.toNat 10))))
  ∧ (∀ (s : State),
    exec .powerOn s = .next (((s.modPower fun p => { p with vmainGood := true, railFaults := 0, railFaultSlot := none }).wipe
      (.slot 0 true)).alwaysOnLost)
    ∧ (s.powered = true → exec (.brownOut false) s = .next (s.coldReset 2 true))
    ∧ (s.powered = false → exec (.brownOut false) s = .next s)
    ∧ (s.powered = true → s.power.vstbyGood = true → exec (.brownOut true) s = .next
        ((s.modPower fun p => { p with vmainGood := false }).powerOff 2 .dormant))
    ∧ (s.powered = true → s.power.vstbyGood = false → exec (.brownOut true) s = .next
        (((s.modPower fun p => { p with vmainGood := false }).powerOff 2 .unpowered).alwaysOnLost))
    ∧ (s.powered = true → s.power.vstbyGood = true → exec .vstbyLossDetect s = .next
        (((s.modPower fun p => { p with vstbyGood := false }).put sysPower_VSTBY_OK 0).raise 7 0))
    ∧ (s.powered = true → s.power.vstbyGood = false → exec .vstbyGoodDetect s = .next
        (((s.modPower fun p => { p with vstbyGood := true }).put sysPower_VSTBY_OK 1).raise 8 0))
    ∧ (s.powered = true → exec .thermalTrip s = .next (s.powerOff 3 .tripped))
    ∧ (s.power.stage = .tripped → exec .thermalRestart s = .next (s.startFrom 0)))
  ∧ (∀ (s : State) (die plate : Byte), s.powered = true →
    let t := (s.put sysTherm_DIE die.toNat).put sysTherm_PLATE plate.toNat
    let warn : Int := t.get sysTherm_WARN_C
    (t.get sysTherm_WARN = 0 → warn ≤ die.toInt → exec (.dieTempSample die plate) s = .next ((t.put sysTherm_WARN 1).raise 9 die.toNat))
    ∧ (t.get sysTherm_WARN = 1 → die.toInt ≤ warn - 5 →
        exec (.dieTempSample die plate) s = .next ((t.put sysTherm_WARN 0).raise 10 (die.signExtend 32).toNat))
    ∧ (warn - 5 < die.toInt → die.toInt < warn → exec (.dieTempSample die plate) s = .next t))
  ∧ (∀ (s : State) (n : Nat) (cycled recLow tapSel : Bool), s.power.stage = .slot n cycled → n ≤ 16 →
    (n ≠ 1 → n ≠ 6 → n < 16 → exec (.powerSlotEnd recLow tapSel) s = .next (s.modPower fun p => { p with stage := .slot (n + 1) cycled }))
    ∧ (n = 1 → exec (.powerSlotEnd recLow tapSel) s = .next ((s.put sysStrap_TAPSEL (if tapSel then 1 else 0)).modPower fun p => { p with stage := .slot 2 cycled }))
    ∧ (n = 6 → exec (.powerSlotEnd recLow tapSel) s = .next (((s.put sysStrap_REC (if recLow then 1 else 0)).modPower fun p =>
        { p with recN := recLow }).modPower fun p => { p with stage := .slot 7 cycled }))
    ∧ (n = 16 → s.power.railFaultSlot = none → exec (.powerSlotEnd recLow tapSel) s = .next
        (let t := ((s.modPower fun p => { p with stage := .boot }).put sysPower_VMAIN_OK (if s.power.vmainGood then 1 else 0)).put
           sysPower_VSTBY_OK (if s.power.vstbyGood then 1 else 0)
         let t := (t.raise 0 ((t.rd sysResetCause).toNat % 0x10000)).raise 3 1
         let t := t.modPower fun p => { p with railFaults := 0, railFaultSlot := none }
         t.peatColdStart (t.get sysResetCause_CODE))))
  ∧ (∀ (s : State) (n : Nat), s.power.stage = .slot n true →
    let count := s.power.railFaults + 1
    exec .railFaultTimeout s = .next (((s.powerOff 9 (if 3 ≤ count then .lockout else .retry)).put sysResetCause_SLOT n).modPower fun p =>
      { p with railFaults := count, railFaultSlot := some n }))
  ∧ (∀ (s : State), s.power.stage = .retry → exec .railFaultRetry s = .next ((s.put sysMode_MODE 1).modPower fun p =>
      { p with stage := .slot 0 true }))
  ∧ (∀ (s : State) (code : Nat) (stage : PowerStage),
    let told (t : State) (code : Nat) := ((t.put sysResetCause_CODE code).put sysResetCause_WAKE 0).put sysResetCause_MERGED 0
    s.powerOff code stage = told ((s.wipe stage).put sysMode_MODE 0) code
    ∧ s.coldReset code true = told (s.wipe (.slot 0 true)) code ∧ s.coldReset code false = told (s.wipe (.slot 1 false)) code
    ∧ s.alwaysOnLost = (s.cold sysResetCause).cold sysWakeCfg
    ∧ s.startFrom code = (((s.put sysResetCause_WAKE code).put sysMode_MODE 1).put sysMode_PREV 0).modPower fun p =>
      { p with stage := .slot 0 true, wake := none })

/-- Boot, Dormant and wake (R414, R419, R477, R487, R488, R495, R503). Slot A's images are tried before slot B's; a failure raises 421
and ends in Recovery; the entry into Dormant turns the rails off once the log is durable; a wake source allowed starts the module. -/
def Obligations.BootAndWake : Prop :=
  (∀ (s : State) (a1 a2 b1 b2 : Fin 6) (hash0 : Bool) (version : W32), s.power.stage = .boot → s.power.pending = none →
      s.power.bootRom = false →
    let run (t : State) (slotB : Bool) :=
      let u : State := { t with world := { t.world with rootHash0 := hash0 }, supv := { t.supv with kickAt := t.now } }
      (u.modPower fun p => { p with stage := .working, slotB := slotB, firmware := version }).beginTraining
    let recovery (t : State) (cause : Nat) := (t.modPower fun p => { p with bootRom := true, cause := cause }).beginMode modeRecovery none
    let fault (x y : Fin 6) := if x.val ≠ 0 then 0x100 + x.val else 0x200 + y.val
    (s.power.recN = true → exec (.bootRomChain a1 a2 b1 b2 hash0 version) s = .next (recovery s 4))
    ∧ (s.power.recN = false → a1 = 0 → a2 = 0 → exec (.bootRomChain a1 a2 b1 b2 hash0 version) s = .next (run s false))
    ∧ (s.power.recN = false → (a1 ≠ 0 ∨ a2 ≠ 0) → b1 = 0 → b2 = 0 → exec (.bootRomChain a1 a2 b1 b2 hash0 version) s = .next
        (run ((s.raise 421 (fault a1 a2)).raise 422 0) true))
    ∧ (s.power.recN = false → (a1 ≠ 0 ∨ a2 ≠ 0) → (b1 ≠ 0 ∨ b2 ≠ 0) → exec (.bootRomChain a1 a2 b1 b2 hash0 version) s = .next
        (recovery ((s.raise 421 (fault a1 a2)).raise 421 (fault b1 b2)) 1)))
  ∧ (∀ (s : State) (k4 k3 : Fin 6), s.power.stage = .working → s.mode = modeKindling → s.get dramcStatus_INIT_DONE = 1 →
    (k4 = 0 → k3 = 0 → exec (.firmwareImageCheck k4 k3) s = .next (s.modPower fun p => { p with imagesPassed := true }))
    ∧ ((k4 ≠ 0 ∨ k3 ≠ 0) → s.power.pending = none → exec (.firmwareImageCheck k4 k3) s = .next
        (((s.raise 421 (if k4 ≠ 0 then 0x400 + k4.val else 0x300 + k3.val)).modPower fun p => { p with cause := 2 }).beginMode
          modeRecovery none)))
  ∧ (∀ (s : State), s.power.stage = .entering →
    exec .dormantPowerDown s = .next ((State.commitAll s.peat.queue.length s).powerOff 8 .dormant))
  ∧ (∀ (s : State), s.power.stage = .dormant →
    (s.get sysWakeCfg_ON_WAKE_N = 1 → exec .wakeNAssert s = .next (s.latchWake 1))
    ∧ (s.get sysWakeCfg_ON_WAKE_N = 0 → exec .wakeNAssert s = .next s)
    ∧ (∀ port : Fin 2, (s.get sysWakeCfg_ON_PERST = 1 → exec (.perstRisingEdge port) s = .next (s.latchWake (3 + port.val)))
        ∧ (s.get sysWakeCfg_ON_PERST = 0 → exec (.perstRisingEdge port) s = .next s))
    ∧ ((s.get sysWakeCfg_ON_VMAIN = 1 ∨ s.get sysResetCause_CODE ≠ 8) → exec .vmainWake s = .next
        ((s.modPower fun p => { p with vmainGood := true }).latchWake 2)))
  ∧ (∀ (s : State) (source : Nat), s.power.wake = none →
    (s.power.vmainGood = true → s.latchWake source = s.startFrom source)
    ∧ (s.power.vmainGood = false → s.latchWake source = s.modPower fun p => { p with wake := some source }))
  ∧ (∀ (s : State), s.power.stage = .lockout →
    let start (t : State) := (t.modPower fun p => { p with railFaults := 0 }).startFrom 0
    exec .wakeNAssert s = .next (start s) ∧ exec .resetNAssert s = .next (start s)
    ∧ exec .vmainWake s = .next (start (s.modPower fun p => { p with vmainGood := true })))

/-- Resets of the module (R460, R461, R489 to R497, R505, R506). A cold source resets a powered module with its code; a warm source
begins a warm reset in Working, is merged into one in progress, and is a cold reset with code + 80h before firmware runs; the
supervisor's and the control cores' watchdogs and the two register kicks act on it. -/
def Obligations.ModuleResets : Prop :=
  (∀ (s : State), s.power.stage ≠ .lockout → s.powered = true → exec .resetNAssert s = .next (s.coldReset 5 false))
  ∧ (∀ (s : State), exec .warmNAssert s = .next (s.warmSource 0x11))
  ∧ (∀ (s : State) (code : Nat),
    ((∃ n c, s.power.stage = .slot n c) ∨ s.power.stage = .boot → s.warmSource code = s.coldReset (code + 0x80) false)
    ∧ (s.power.stage = .working → (s.mode = modeKindling ∨ (s.mode = modeRecovery ∧ s.power.bootRom = true)) →
        s.warmSource code = s.coldReset (code + 0x80) false)
    ∧ (s.power.stage = .working → s.mode ≠ modeKindling → s.mode ≠ modeRecovery → s.power.warm ≠ none →
        s.warmSource code = s.bump sysResetCause_MERGED)
    ∧ (s.power.stage = .working → s.mode ≠ modeKindling → s.mode ≠ modeRecovery → s.power.warm = none →
        s.warmSource code = s.beginWarm code))
  ∧ (∀ (s : State) (w : WarmReset) (k3 : Fin 6), s.power.warm = some w → w.ready = false → (∀ x ∈ s.fns, x.reset = none) →
    let t (bad : Bool) := s.modPower fun p => { p with warm := some { w with ready := true, recovery := bad } }
    (k3 = 0 → exec (.warmResetReady k3) s = .next (t false))
    ∧ (k3 ≠ 0 → exec (.warmResetReady k3) s = .next ((t true).raise 421 (0x300 + k3.val))))
  ∧ (∀ (s : State), s.supervised = true → s.elapsedUs s.supv.kickAt (s.get supvCtrl_WD_MS * 1000) = true →
    exec .supvWdExpired s = .next (((s.modSupv fun v => { v with kickAt := s.now }).raise 480 (s.get supvCtrl_WD_MS)).warmSource 0x12))
  ∧ (∀ (s : State), s.supv.halted = true → s.powered = true → exec .lockstepResetDelay s = .next (s.coldReset 4 false))
  ∧ (∀ (s : State) (k : Fin 4) (w : World) (value : W32),
    (value.toNat % 256 = 0x5A → exec (.sysCcKickWrite (.core k w) value) s = .next (s.modPower fun p => { p with ccKick := s.now }))
    ∧ (value.toNat % 256 ≠ 0x5A → exec (.sysCcKickWrite (.core k w) value) s = .next s))
  ∧ (∀ (s : State), s.get sysCcWdog_EN = 1 → s.power.warm = none →
      s.elapsedUs s.power.ccKick (s.get sysCcWdog_TIMEOUT_MS * 1000) = true →
    exec .ccWatchdogExpiry s = .next (s.warmSource 0x13))
  ∧ (∀ (s : State) (k : Fin 4) (key : Byte),
    let who := Requester.core k .sealed
    let note (kind : Nat) := s.noteWrite who sysResetCmd.addr (key.toNat + 0x100 * kind) (s.rd sysResetCmd).toNat
    s.writeBarred who sysResetCmd.addr = false →
    (key.toNat = 0xA5 → exec (.resetCmdWarm who key) s = .next ((note 1).warmSource 0x14)
      ∧ exec (.resetCmdCold who key) s = .next ((note 2).coldSource 6 false))
    ∧ (key.toNat ≠ 0xA5 → exec (.resetCmdWarm who key) s = .next (note 1) ∧ exec (.resetCmdCold who key) s = .next (note 2)))
  ∧ (∀ (s : State) (p : Packet), passes specModuleReset p s →
    let o := entryOrigin p specModuleReset s
    let t := (readBy p s).recordPacket { o with logged := true, reserve := true } stDone none
    let t := State.commitAll t.peat.queue.length t
    (o.u8 0 = 1 → exec (.moduleResetWarm p) s = .next (t.warmSource 0x14))
    ∧ (o.u8 0 = 2 → exec (.moduleResetCold p) s = .next (t.coldSource 6 false)))

/-- Recovery loads, wake settings, GPIO and the power query (R502, R504, R506, R507). A load that passes erases and writes its slot of
boot flash and answers its length, one that fails leaves flash or its erased slot and is refused; GPIO claims act at once, releases at
the next frame start. -/
def Obligations.PowerPackets : Prop :=
  (∀ (s : State) (p : Packet), passes specRecoveryLoad p s →
    let o := entryOrigin p specRecoveryLoad s
    exec (.recoveryLoad p) s = .next (((readBy p s).modPower fun p =>
      { p with loads := p.loads ++ [⟨o.u8 0, o.u32 4, o.u64 8, o⟩] }).defer o))
  ∧ (∀ (s : State) (ring : Fin 34) (kind : Fin 5) (cause : Fin 6) (readBack : Bool) (image : List Byte) (l : RecoveryJob),
      (s.power.loads.find? fun l => l.origin.ring == ring.val) = some l →
    let t := s.modPower fun p => { p with loads := p.loads.erase l }
    let base := slotBase l.slot
    let erased := sclear t.power.flash base (base + slotBytes)
    let bytes := if ring.val < 32 then bytesAt image 0 l.length else t.load l.source l.length
    (cause ≠ 0 → kind = 0 → exec (.recoveryLoadComplete ring kind cause readBack image) s = .next
      (t.settle l.origin (refusal stNoResource 0xFF)))
    ∧ (cause ≠ 0 → kind ≠ 0 → exec (.recoveryLoadComplete ring kind cause readBack image) s = .next
      ((t.raise 421 (kind.val * 256 + cause.val)).settle l.origin (refusal stNoResource (kind.val * 256 + cause.val))))
    ∧ (cause = 0 → readBack = false → exec (.recoveryLoadComplete ring kind cause readBack image) s = .next
      ((t.modPower fun p => { p with flash := erased }).settle l.origin (refusal stNoResource 0xFE)))
    ∧ (cause = 0 → readBack = true → exec (.recoveryLoadComplete ring kind cause readBack image) s = .next
      ((t.modPower fun p => { p with flash := sput erased base bytes }).settle l.origin (done l.length 0))))
  ∧ (∀ (s : State) (p : Packet), passes specWakeSet p s →
    let o := entryOrigin p specWakeSet s
    exec (.wakeSet p) s = .next (((readBy p s).wr sysWakeCfg (BitVec.ofNat 64 (o.u8 0))).conclude o (done 0 0)))
  ∧ (∀ (s : State) (p : Packet), passes specPowerQuery p s →
    let u := readBy p s
    exec (.powerQuery p) s = .next (u.conclude (entryOrigin p specPowerQuery s) (done
      ((u.rd sysPower).toNat + 0x100000000 * (u.rd sysTherm).toNat) ((u.rd sysResetCause).toNat + 0x100000000 * (u.rd sysMode).toNat))))
  ∧ (∀ (s : State) (p : Packet), passes specGpioSet p s →
    let o := entryOrigin p specGpioSet s
    let u := readBy p s
    (u.teHolds (o.u8 0) = false → o.u8 1 = 0 → exec (.gpioRelease p) s = .next ((u.modPower fun p =>
      { p with gpioDue := p.gpioDue ++ [(o.u8 0, some o)] }).defer o))
    ∧ (u.teHolds (o.u8 0) = false → o.u8 1 ≠ 0 → exec (.gpioSet p) s = .next ((u.setGpio (o.u8 0) (o.u8 1)).conclude o (done 0 0)))
    ∧ (u.teHolds (o.u8 0) = true → exec (.gpioSet p) s = .next (u.recordAndAnswer o (refusal stPinTaken 0) stPinTaken true)))
  ∧ (∀ (s : State) (i op : Nat),
    let t := (s.putBitAt sysGpio_CLAIM i true).putBitAt sysGpio_DIR i (op != 1)
    let name := ["GPIO_0", "GPIO_1", "GPIO_2", "GPIO_3", "GPIO_4", "GPIO_5", "GPIO_6", "GPIO_7"].getD i ""
    (op = 1 → s.setGpio i op = t)
    ∧ (op = 2 → s.setGpio i op = (t.putBitAt sysGpio_OUT i false).emit (.contact name 0))
    ∧ (op = 3 → s.setGpio i op = (t.putBitAt sysGpio_OUT i true).emit (.contact name 1)))

/-- The register bus (R4, R5, R548 to R552). A control core's access ends in memory, at a register with a row of its own, in the parts
of registers, in nothing where no register is listed, or in a bus error; the open world's forbidden reads are violations and its
forbidden writes are logged; a host reaches BAR 0 alone. A sealed write that no rule refuses stores every part and is recorded. -/
def Obligations.RegisterAccesses : Prop :=
  (∀ (s : State) (k : Fin 4) (w : World) (addr : BitVec 48) (width : Width),
    let who := Requester.core k w
    let x := addr.toNat
    let n := widthBytes width
    let a : Access := ⟨who, addr, width⟩
    let fails := (.next (s.emit (.busError (agentOf who) x)) : Host.Outcome State Fault Refusal)
    let shown (t : State) (v : Nat) := t.emit (.readValue (agentOf who) x (BitVec.ofNat 64 v))
    (s.inMemory x = true → s.inMemory (x + n - 1) = true → s.mayAccess (actorOf who) x n = true →
      exec (.registerRead a) s = .next (shown s (leNat (s.load x n)))
      ∧ ∀ value : W64, exec (.registerWrite a value) s = .next (s.store x (leBytes n (value.toNat % 2 ^ (8 * n)))))
    ∧ (s.inMemory x = true → s.inMemory (x + n - 1) = true → s.mayAccess (actorOf who) x n = false →
      exec (.registerRead a) s = .next ((s.emit (.busError (agentOf who) x)).violation (agentOf who) x false)
      ∧ ∀ value, exec (.registerWrite a value) s = .next ((s.emit (.busError (agentOf who) x)).violation (agentOf who) x true))
    ∧ (s.inMemory x = true → s.inMemory (x + n - 1) = false → exec (.registerRead a) s = fails
      ∧ ∀ value, exec (.registerWrite a value) s = fails)
    ∧ (s.inMemory x = false → inWindows x = false → exec (.registerRead a) s = fails
      ∧ ∀ value, exec (.registerWrite a value) s = fails)
    ∧ (inWindows x = true → readRow a s = none → w = .opened → s.openReads x = false → exec (.registerRead a) s = .next
        ((s.emit (.busError (agentOf who) x)).violation (agentOf who) x false))
    ∧ (∀ b, inWindows x = true → readRow a s = none → (w = .sealed ∨ s.openReads x = true) → bankAddr who x = some b →
        (s.readAt b n = none → exec (.registerRead a) s = fails)
        ∧ (∀ t v, s.readAt b n = some (t, v) → exec (.registerRead a) s = .next (shown t v)))
    ∧ (∀ value : W64, inWindows x = true → writeRow a value s = none →
        let v := value.toNat % 2 ^ (8 * n)
        (w = .opened → s.openUses x = false → exec (.registerWrite a value) s = .next
          (s.refuseWrite who x v (((s.readAt x n).map (·.2)).getD 0) stWorld))
        ∧ (∀ b, (w = .sealed ∨ s.openUses x = true) → bankAddr who x = some b →
          (partsOf b n = none → exec (.registerWrite a value) s = fails)
          ∧ (partsOf b n = some [] → exec (.registerWrite a value) s = .next s)
          ∧ (∀ p ps, partsOf b n = some (p :: ps) →
              (∀ q ∈ p :: ps, s.verdict q.hit (partAfter q (s.written q.hit.info.reg) v) = .pass) →
              let stored := (p :: ps).foldl (fun t q => t.storeReg q.hit (partAfter q (t.written q.hit.info.reg) v)) s
              let old := ((p :: ps).map fun q => s.regShown q.hit / 2 ^ q.low % 2 ^ q.bits * 2 ^ q.at_).sum
              (dataPath x = true → exec (.registerWrite a value) s = .next stored)
              ∧ (dataPath x = false → s.writeBarred who x = false →
                  exec (.registerWrite a value) s = .next (stored.noteWrite who x v old))
              ∧ (dataPath x = false → s.writeBarred who x = true → exec (.registerWrite a value) s = fails)))))
  ∧ (∀ (s : State) (f : Fin 32) (addr : BitVec 48) (width : Width) (b : Nat), s.onLink f.val = true → s.power.warm = none →
      addr.toNat < 0x10000 → s.hostAddr f.val addr.toNat = some b →
    let a : Access := ⟨.host f, addr, width⟩
    let n := widthBytes width
    (readRow a s = none → ∀ t v, s.readAt b n = some (t, v) → exec (.registerRead a) s = .next
      (t.emit (.readValue f.val (fnBank + 0x10000 * f.val + addr.toNat) (BitVec.ofNat 64 v))))
    ∧ (readRow a s = none → s.readAt b n = none → exec (.registerRead a) s = .next (s.emit (.completerAbort f.val)))
    ∧ (∀ value : W64, writeRow a value s = none →
      (partsOf b n = none → exec (.registerWrite a value) s = .next (s.emit (.completerAbort f.val)))
      ∧ (∀ ps, partsOf b n = some ps → exec (.registerWrite a value) s = .next (ps.foldl (fun t q =>
          t.storeReg q.hit (partAfter q (t.written q.hit.info.reg) (value.toNat % 2 ^ (8 * n)))) s))))

/-- Register fields (R4, R5). A read completes with RC fields of its part cleared and nothing else changed; a write sets RW fields within
the limits of their meaning, clears W1C bits and sets W1S bits that are written as 1, and leaves every other field; a register of no
special block takes the value of the write. -/
def Obligations.RegisterFields : Prop :=
  (∀ (f : FieldInfo) (old low bits v : Nat),
    let was := old / 2 ^ f.f.lsb % 2 ^ f.f.width
    let mine := v / 2 ^ (f.f.lsb - low) % 2 ^ f.f.width
    let inside := low ≤ f.f.lsb ∧ f.f.lsb + f.f.width ≤ low + bits
    let outside := f.f.lsb + f.f.width ≤ low ∨ low + bits ≤ f.f.lsb
    0 < f.f.width → 0 < bits →
    (outside ∨ f.acc = .ro ∨ f.acc = .wo ∨ f.acc = .rc → fieldAfter f old low bits v = was)
    ∧ (inside → f.acc = .rw → fieldAfter f old low bits v = limited f.lim mine)
    ∧ (inside → f.acc = .w1c → fieldAfter f old low bits v = was - (was &&& mine))
    ∧ (inside → f.acc = .w1s → fieldAfter f old low bits v = was ||| mine))
  ∧ (∀ (lo hi v top repl keep : Nat), limited .any v = v ∧ limited (.clamp lo hi) v = max lo (min hi v)
    ∧ (v ≤ top → limited (.over top repl) v = v ∧ limited (.overBut top keep repl) v = v)
    ∧ (top < v → limited (.over top repl) v = repl) ∧ limited (.overBut top keep repl) keep = keep
    ∧ (top < v → v ≠ keep → limited (.overBut top keep repl) v = repl))
  ∧ (∀ (s : State) (p : Part), p.hit.active = false → p.hit.info.reg.addr ≠ sysGpio.addr →
    ((∀ f ∈ p.hit.info.fields, f.acc ≠ .rc) → s.readDone p = s)
    ∧ (∀ f, p.hit.info.fields = [f] → f.acc = .rc → p.low < f.f.lsb + f.f.width → f.f.lsb < p.low + p.bits →
        s.readDone p = s.put f.f 0))
  ∧ (∀ (s : State) (h : Hit) (new : Nat),
    (h.active = true → s.storeReg h new = s)
    ∧ (h.active = false → stagedAddr h.info.reg.addr = true → wallStaged h.info.reg.addr = false →
        h.info.reg.addr ≠ pktCtrl.addr → s.storeReg h new =
        { s with staged := (s.staged.filter fun e => e.1 != h.info.reg.addr) ++
                           [(h.info.reg.addr, BitVec.ofNat 64 new ^^^ BitVec.ofNat 64 h.info.reg.cold)] }))

/-- Entries refused (R73, R74, R76, R79 to R82). Every packet command and UNDEFINED_OPCODE read the entry at the head of their ring: one
that is not whole waits, one without reply space stops the ring, and the first of the checks of R79 that fails decides its reply. Checks 1
and 2 discard up to the tail and take nothing from the entry; 3 to 6 leave the expected number; later refusals advance it; nothing else
changes but the counters and events named. -/
def Obligations.EntriesRefused : Prop :=
  (∀ (s : State) (p : Packet) (opcode : W16) (sp : OpSpec),
    exec (.undefinedOpcode opcode p) s = .next (s.readEntry State.carryMember none opcode.toNat p false)
    ∧ packetStep sp p s = .next (s.readEntry State.carryMember (some sp) sp.opcode p (sp.opcode == 0x0104)))
  ∧ (∀ (s : State) (p : Packet) (sp : Option OpSpec) (opcode : Nat) (syncs : Bool),
    let r := p.ring.val
    let t := reading p s
    let blank : OpSpec := { opcode := opcode, lens := len 0, modes := [], issuer := .any }
    let o := entryOrigin p (sp.getD blank) s
    let read := s.readEntry State.carryMember sp opcode p syncs
    let bad := p.length.toNat % 8 ≠ 0 ∨ 4064 < p.length.toNat ∨ s.ringSize r < entrySize p + 8
    ((s.served r = false ∨ s.unread r < 32) → read = s)
    ∧ (s.served r = true → 32 ≤ s.unread r → s.replyRoom r = false → read = s.stopRing r)
    ∧ (s.served r = true → 32 ≤ s.unread r → s.replyRoom r = true →
        (bad → read = t.framingFault p stBadLength 0xFFFF 1)
        ∧ (¬ bad → s.unread r < entrySize p → read = t)
        ∧ (¬ bad → entrySize p ≤ s.unread r → p.trailer.toNat ≠ entryCrc p opcode →
            read = t.framingFault p stBadCheck (min (s.unread r / 8) 0xFFFF) 2)
        ∧ (¬ bad → entrySize p ≤ s.unread r → p.trailer.toNat = entryCrc p opcode →
            (p.source.toNat ≠ ringSource r → read = ((if r < 32 then t.bump (hpSpoofCnt_COUNT (r / 16)) else t).raise 135 r).headerRefusal
              p o stSpoof r)
            ∧ (p.source.toNat = ringSource r → p.version ≠ 0x01 → read = t.headerRefusal p o stBadOpcode 0xFFFE)
            ∧ (∀ d, p.source.toNat = ringSource r → p.version = 0x01 → headerFault p = some d →
                read = (t.raise 140 (r * 256 + 5)).headerRefusal p o stBadLength d)
            ∧ (p.source.toNat = ringSource r → p.version = 0x01 → headerFault p = none →
                (s.seqSet r = true → syncs = false → p.seq.toNat ≠ s.get (pktSeq_EXPECT r) → p.flags.toNat % 2 = 0 →
                  read = ((t.raise 141 r).consume p).answer o (refusal stSeqGap (s.get (pktSeq_EXPECT r) % 0x10000)) s.now.word)
                ∧ ((s.seqSet r = false ∨ syncs = true ∨ p.seq.toNat = s.get (pktSeq_EXPECT r)) → p.flags.toNat % 2 = 0 →
                    (sp = none → read = ((t.consume p).expect r (p.seq.toNat + 1)).answer o (refusal stBadOpcode 0) s.now.word)
                    ∧ (∀ c st d, sp = some c → t.checks c o false = some (st, d) →
                        (st ≠ stBadLength → read = ((t.consume p).expect r (p.seq.toNat + 1)).answer o (refusal st d) s.now.word)
                        ∧ (st = stBadLength → read = (((t.consume p).expect r (p.seq.toNat + 1)).raise 140 (r * 256 + 9)).answer o
                            (refusal st d) s.now.word)))))))
  ∧ (∀ (s : State) (p : Packet) (status detail : Nat) (o : Origin),
    let r := p.ring.val
    let fault (step : Nat) := s.framingFault p status detail step
    let cut (t : State) : State :=
      let t := t.put (ringHead r) (t.ringTail r)
      let t : State := { t with pkt := { t.pkt with bells := modAt t.pkt.bells r fun _ => [] } }
      t.writeReply r (BitVec.ofNat 32 (if t.seqSet r then t.get (pktSeq_EXPECT r) else 0)) (refusal status detail) t.now.word
    fault 1 = cut ((s.bump pktFramingCnt_COUNT).raise 140 (r * 256 + 1)) ∧ fault 2 = cut ((s.bump pktFramingCnt_COUNT).raise 139 r)
    ∧ s.headerRefusal p o status detail = ((s.consume p).bump pktFramingCnt_COUNT).answer o (refusal status detail) s.now.word)
  ∧ (∀ (s : State) (p : Packet) (sp : OpSpec), accepted sp p s false → sp.member = .immediate →
    let o := entryOrigin p sp s
    let u := readBy p s
    (∀ st d, sp.check u o = some (st, d) → packetStep sp p s = .next (u.answer o (refusal st d) s.now.word))
    ∧ (sp.check u o = none → sp.log = .logged → u.logRefuses 1 = true →
        packetStep sp p s = .next ((u.bump peatRefused_COUNT).answer o (refusal stLogFull 0) s.now.word)))

/-- Wall time (R14, R23, R28, R127). A command that names a raster position lets grains pass up to it; a grain ends with what it
collected, the stamp advances through grains, lines and frames, a frame start does what R127 places there, and what stands at a line
position takes effect at the start of its grain. -/
def Obligations.Positions : Prop :=
  (∀ (s : State) (n : Fin 8),
    exec .masterFrameStart s = .next (s.advanceTo ⟨s.now.frame + 1, 0, 0⟩)
    ∧ exec (.headLatch n) s = .next (s.advanceTo (s.upcoming (s.latchAt n.val)))
    ∧ exec (.compWarn n) s = .next (s.advanceTo (s.upcoming (s.warnAt n.val)))
    ∧ exec (.compDeadline n) s = .next (s.advanceTo (s.upcoming (s.deadAt n.val)))
    ∧ exec .freqChangeLine s = .next (s.advanceTo (s.upcoming ⟨s.now.frame, s.get dramcFchg_LINE, 0⟩))
    ∧ (∀ w, s.power.warm = some w → w.ready = true → exec .warmResetComplete s = .next (s.advanceTo ⟨s.now.frame + 1, 0, 0⟩))
    ∧ (s.power.warm = none → exec .warmResetComplete s = .next s)
    ∧ (∀ t k, (s.running n.val = false ∨ s.now ≠ s.lineStamp n.val (s.head n.val).frame 0) → s.nextStart n.val = some (t, k) →
        exec (.headFrameStart n) s = .next (s.advanceTo t))
    ∧ (s.awaitsTe n.val = true → exec (.teTimeout n) s = .next (s.advanceTo (s.teAt n.val)))
    ∧ (s.awaitsTe n.val = false → exec (.teTimeout n) s = .next s))
  ∧ (∀ (s : State) (m : Fin 48), s.guarded m.val = true → s.sending (s.layer m.val scanPipe).head = true →
    exec (.mirageEvaluation m) s = .next (s.advanceTo (s.mirageAt m.val)))
  ∧ (∀ (s : State) (t : Stamp) (k : Nat),
    (s.grains t ≤ s.grains s.now → s.advanceTo t = s)
    ∧ (s.grains t = s.grains s.now + 1 → s.advanceTo t = s.tick)
    ∧ (s.grains t = s.grains s.now + k + 1 → s.advanceTo t = State.advance k s.tick))
  ∧ (∀ (s : State),
    (s.clocked = false → s.tick = s)
    ∧ (s.clocked = true → s.grainEnd.clocked = false → s.tick = s.grainEnd)
    ∧ (s.clocked = true → s.grainEnd.clocked = true →
      let v : State := { s.grainEnd with now := s.grainEnd.nextStamp }
      (v.now.line = 0 ∧ v.now.grain = 0 → s.tick = v.frameStart.grainStart)
      ∧ (v.now.line ≠ 0 ∨ v.now.grain ≠ 0 → s.tick = v.grainStart)))
  ∧ (∀ (s : State),
    (s.now.grain < 31 → s.nextStamp = ⟨s.now.frame, s.now.line, s.now.grain + 1⟩)
    ∧ (31 ≤ s.now.grain → s.now.line + 1 < s.lines → s.nextStamp = ⟨s.now.frame, s.now.line + 1, 0⟩)
    ∧ (31 ≤ s.now.grain → s.lines ≤ s.now.line + 1 → s.nextStamp = ⟨s.now.frame + 1, 0, 0⟩))
  ∧ (∀ (s : State) (n : Nat),
    (s.get (headStatus_ARMED n) = 1 → s.now = s.latchAt n → s.latchDue n = ((s.copyRegs (gfxCompCtrl n).addr
      ((gfxCompCtrl n).addr + actComp) 0x38).latch n).jobBegin n)
    ∧ (s.get (headStatus_ARMED n) = 0 → s.compGet (gfxCompCtrl_EN n) ≠ 0 → s.now = s.latchAt n → s.latchDue n = s.jobBegin n)
    ∧ (s.now ≠ s.latchAt n → s.latchDue n = s)
    ∧ (s.compGet (gfxCompCtrl_EN n) ≠ 0 → s.now = s.warnAt n → (s.compWarn n).now ≠ (s.compWarn n).deadAt n → s.compDue n = s.compWarn n)
    ∧ (s.compGet (gfxCompCtrl_EN n) ≠ 0 → s.now ≠ s.warnAt n → s.now = s.deadAt n → s.compDue n = s.compDeadline n)
    ∧ (∀ t k, s.nextStart n = some (t, k) → t.le s.now = true → s.headDue n = s.headFrameStart n k (s.plannedStart n t))
    ∧ (∀ t k, s.nextStart n = some (t, k) → t.le s.now = false → s.headDue n = s)
    ∧ (s.awaitsTe n = true → (s.teAt n).le s.now = true → s.teDue n = s.teTimeout n)
    ∧ (s.guarded n = true → s.sending (s.layer n scanPipe).head = true → (s.mirageAt n).le s.now = true → s.mirageDue n = s.evaluate n))

/-- A step runs the command at the front of the queue (the queue is FIRST IN, FIRST OUT) on the machine whose queue is the rest. That an
empty queue lets one grain pass is the model's choice (log entry 5). No row of the opcode table has bits, so no word spells a command. -/
def Obligations.StepsRunCommands : Prop :=
  (∀ (s : State) (c : Instr) (rest : List Instr), s.pending = c :: rest → step s = exec c { s with pending := rest })
  ∧ (∀ (s : State) (c : Instr), step { s with pending := c :: s.pending } = exec c s)
  ∧ (∀ s : State, s.pending = [] → step s = .next s.tick)
  ∧ (∀ (s : State) (nbits w : Nat), decodeTableWord nbits w = none ∧ s.withFetchWord nbits w = s)

/-- Every sparse store of the state after reset is in canonical form: the invariant of `StepsCompleteAndKeepCanonicalForm` holds there. -/
def Obligations.ResetIsCanonical : Prop := State.reset.canonical = true

/-- Every step completes: no command ends in a fault or a refusal, in any state. And every step keeps the canonical form of every sparse
store: the register file, memory, the log's bank, boot flash and the factory baselines list rising addresses and no value that an
unlisted address reads as. -/
def Obligations.StepsCompleteAndKeepCanonicalForm : Prop :=
  (∀ s : State, ∃ t, step s = .next t) ∧ (∀ s t : State, s.canonical = true → step s = .next t → t.canonical = true)

/-- Reset and every cold reset (R6, R22, R30, R90, R475). Every register reads its Cold value but for those of the always-on domain, fuses,
MRAM and the straps' power block that R411, R449, R491 and R505 keep; the stamp is master frame 0, line 0, grain 0; the mode is Kindling;
the raster is FREE at 60 Hz with 2,250 lines; no command waits after reset. That memory then reads zero is the model's choice (log
entry 4). -/
def Obligations.ResetValues : Prop :=
  (∀ r : Reg, State.reset.rd r = BitVec.ofNat 64 r.cold) ∧ (∀ a, State.reset.byte a = 0)
  ∧ State.reset.now = ⟨0, 0, 0⟩ ∧ State.reset.mode = modeKindling ∧ State.reset.pending = [] ∧ State.reset.out = []
  ∧ State.reset.get wallStatus_STATE = 0 ∧ State.reset.get wallMrLines_MR_LINES = 2250
  ∧ State.reset.get wallMrRateNum_RATE_NUM = 60000 ∧ State.reset.get wallMrRateDen_RATE_DEN = 1000
  ∧ State.reset.get sysCcWdog_TIMEOUT_MS = 500 ∧ State.reset.get supvCtrl_WD_MS = 100 ∧ State.reset.get pktCtrl_MARGIN = 96
  ∧ (∀ (s : State) (code : Nat) (cycled : Bool), s.canonical = true →
    let t := s.coldReset code cycled
    let kept := [sysResetCause, sysWakeCfg, debugFuse, peatNext, peatOldest, peatLastCrc, peatBoot, touchFactory, peatCtrl, peatStatus]
    (∀ r : Reg, (∀ q ∈ kept, q.addr ≠ r.addr) → t.rd r = BitVec.ofNat 64 r.cold)
    ∧ t.get sysResetCause_CODE = code % 256 ∧ t.now = ⟨0, 0, 0⟩ ∧ t.mode = modeKindling ∧ (∀ a, t.byte a = 0)
    ∧ (∀ r ∈ [debugFuse, peatNext, peatOldest, peatLastCrc, peatBoot, sysWakeCfg], t.rd r = s.rd r))

/-- Registers and memory (R4, R7). A field that is written reads the number modulo its width; every field that shares no bit with it, and
every other register, reads as before; bytes that are stored read back in ascending order, and every other byte of memory reads as
before; neither touches the other. -/
def Obligations.RegistersAndMemory : Prop :=
  (∀ (s : State) (f : RF) (v : Nat), s.canonical = true → f.fits →
    (s.put f v).get f = v % 2 ^ f.width ∧ s.keeps (s.put f v) [f] ∧ (∀ r : Reg, r.addr ≠ f.reg.addr → (s.put f v).rd r = s.rd r)
    ∧ (∀ a, (s.put f v).byte a = s.byte a))
  ∧ (∀ (s : State) (a : Nat) (bytes : List Byte), s.canonical = true →
    (∀ i (h : i < bytes.length), (s.store a bytes).byte (a + i) = bytes[i])
    ∧ (∀ b, b < a ∨ a + bytes.length ≤ b → (s.store a bytes).byte b = s.byte b)
    ∧ (s.store a bytes).load a bytes.length = bytes ∧ (∀ r, (s.store a bytes).rd r = s.rd r))
  ∧ (∀ (s : State) (lo hi a : Nat), s.canonical = true →
    (lo ≤ a → a < hi → (s.zeroMem lo hi).byte a = 0) ∧ (a < lo ∨ hi ≤ a → (s.zeroMem lo hi).byte a = s.byte a))

/-- Event records (R453, R454). In each grain in which a source is raised its pending bit is set, its count of grains advances by one at
the first occurrence and its collapsed count at each further one; the grain holds one record of the source with the detail of the first
occurrence, and what is routed is 16 bytes with the stamp, the number, the occurrences up to 255, the rank and the detail. Events 0 to 15
are written to the log too. -/
def Obligations.EventRecords : Prop :=
  (∀ (s : State) (e d : Nat), s.canonical = true → e < 512 →
    let t := s.occur e d
    let full := 2 ^ (evtSrc_OCC e).width - 1
    t.bit (evtPend_PEND (e / 32)) (e % 32) = true
    ∧ (∀ i < 32, i ≠ e % 32 → t.bit (evtPend_PEND (e / 32)) i = s.bit (evtPend_PEND (e / 32)) i)
    ∧ ((∀ x ∈ s.evt.grain, x.event ≠ e) →
        t.get (evtSrc_OCC e) = min (s.get (evtSrc_OCC e) + 1) full ∧ t.get (evtSrc_COLL e) = s.get (evtSrc_COLL e)
        ∧ t.evt.grain = s.evt.grain ++ [⟨e, 1, d, false, false⟩])
    ∧ (∀ before x after, s.evt.grain = before ++ x :: after → (∀ y ∈ before, y.event ≠ e) → x.event = e →
        t.get (evtSrc_OCC e) = s.get (evtSrc_OCC e)
        ∧ t.get (evtSrc_COLL e) = min (s.get (evtSrc_COLL e) + 1) (2 ^ (evtSrc_COLL e).width - 1)
        ∧ t.evt.grain = before ++ { x with count := x.count + 1 } :: after))
  ∧ (∀ (s : State) (e d : Nat), (16 ≤ e → s.raise e d = s.occur e d)
    ∧ (e < 16 → s.raise e d = ((s.occur e d).log ((s.occur e d).eventRecord e d 0x8FFF true 0)).1))
  ∧ (∀ (s : State) (x : EventNow), (s.power.warm = none ∨ ofWarmReset x.event = false) →
    s.routeEvent x = s.routeRecord ⟨s.now.word, x.event, x.count, x.detail⟩)
  ∧ (∀ r : EventRec, eventBytes r = leBytes 8 r.time.toNat ++ leBytes 2 r.event ++ leBytes 1 (min r.count 255) ++
      leBytes 1 (eventRank r.event) ++ leBytes 4 r.detail)
  ∧ (∀ e < 512, eventRank e = if e ≤ 15 then 1 else if (64 ≤ e ∧ e ≤ 127) ∨ (416 ≤ e ∧ e ≤ 447) ∨ 480 ≤ e then 2
      else if 16 ≤ e ∧ e ≤ 63 then 3 else if 384 ≤ e ∧ e ≤ 415 then 4 else if 128 ≤ e ∧ e ≤ 191 then 5 else if 256 ≤ e ∧ e ≤ 319 then 6
      else if 320 ≤ e ∧ e ≤ 383 then 7 else 8)

/-- Replies and packet records (R75, R83, R434, R438, R439). A packet that is logged and has taken effect is recorded first, and its reply
waits for its record; any other is answered at once; an owed reply gives back its place and is then decided. A reply stands at the tail of
its reply ring, which advances by 32 bytes; for an internal ring its 32 bytes are stored; vector 0 follows where flag bit 2 asks for it. -/
def Obligations.RepliesAndRecords : Prop :=
  (∀ (s : State) (o : Origin) (a : Answer) (time : W64),
    (o.logged = true → a.status = stDone → s.concludeAt o a time = s.recordPacket o a.status (some ⟨o, a, time⟩))
    ∧ (o.logged = false ∨ a.status ≠ stDone → s.concludeAt o a time = s.answer o a time)
    ∧ s.conclude o a = s.concludeAt o a s.now.word ∧ s.settle o a = s.settleAt o a s.now.word
    ∧ s.settleAt o a time = (s.dropReply o).concludeAt o a time)
  ∧ (∀ (s : State) (o : Origin) (a : Answer) (time : W64),
    (s.epoch o.ring ≠ o.epoch → s.answer o a time = s)
    ∧ (s.epoch o.ring = o.epoch → (32 ≤ o.ring ∨ o.msix = false) → s.answer o a time = s.writeReply o.ring o.seq a time)
    ∧ (s.epoch o.ring = o.epoch → o.ring < 32 → o.msix = true →
        s.answer o a time = (s.writeReply o.ring o.seq a time).signalFixed o.ring 0))
  ∧ (∀ (s : State) (r : Nat) (seq : W32) (a : Answer) (time : W64),
    let tail := s.get (replyTail r)
    let at_ := s.get (replyBase r) * 4096 + tail
    let gen := s.ringGen r
    let t := (s.put (replyTail r) ((tail + 32) % 2 ^ s.get (replyLog2 r))).emit
      (.reply r at_ seq a.status gen a.detail time a.word0 a.word1)
    (r < 32 → s.writeReply r seq a time = t.mirrorDue r)
    ∧ (32 ≤ r → s.writeReply r seq a time = t.store (at_ % 2 ^ 48) (leBytes 4 seq.toNat ++ leBytes 2 (a.status % 256 + 256 * (gen % 256))
        ++ leBytes 2 a.detail ++ leBytes 8 time.toNat ++ leBytes 8 a.word0.toNat ++ leBytes 8 a.word1.toNat)))
  ∧ (∀ (s : State) (o : Origin) (status : Nat) (reply : Option DueReply),
    let r : PeatRec := { time := s.now.word, origin := o.agent, kind := 1, gen := s.get wallStatus_RASTER_GEN, status := status,
                         aux := o.opcode, caravan := o.caravan, target := o.target,
                         data := changeData (leBytes 4 o.seq.toNat ++ leBytes 4 (crcOf crc32c o.payload) ++
                           leBytes 2 (min (s.peat.inScope.getD o.ring 0) 0xFFFF) ++ leBytes 2 o.payload.length ++ bytesAt o.payload 0 16),
                         order := packetOrder o.ring, reserve := o.reserve, reply := reply }
    (s.logRefuses 1 = false → s.recordPacket o status reply = State.endScope
      { s with peat := { s.peat with queue := queueRecord s.peat.queue r } } o.ring)
    ∧ (s.logRefuses 1 = true → o.reserve = true → s.logUsed < logSlots → s.recordPacket o status reply = State.endScope
      { s with peat := { s.peat with queue := queueRecord s.peat.queue r } } o.ring))
  ∧ (∀ (s : State) (o : Origin),
    let owed : State := { s with pkt := { s.pkt with owed := modAt s.pkt.owed o.ring (· + 1) } }
    (o.logged = false → s.defer o = owed) ∧ (o.logged = true → s.defer o = { owed with peat := { owed.peat with held := owed.peat.held + 1 } }))

/-- The open world changes nothing where it may not (R395, R400, R549, R552). A control core's open-world access that its block forbids, or
that lies outside its reach, leaves memory, the wall clock, every command that waits and every register outside the EVT, WORLD and PEAT
blocks as they were: it is a bus error, and a violation or a record of a refused write. -/
def Obligations.OpenWorldIsHeld : Prop :=
  (∀ (s t : State) (k : Fin 4) (addr : BitVec 48) (width : Width) (value : W64), s.canonical = true →
    let who := Requester.core k .opened
    let x := addr.toNat
    let a : Access := ⟨who, addr, width⟩
    let outside (r : Reg) := (r.addr < 0x40200000 ∨ 0x40300000 ≤ r.addr) ∧ (r.addr < 0x45000000 ∨ 0x45100000 ≤ r.addr) ∧
      (r.addr < 0x47000000 ∨ 0x48000000 ≤ r.addr)
    let held := t.mem = s.mem ∧ t.now = s.now ∧ t.pending = s.pending ∧ (∀ r, outside r → t.rd r = s.rd r) ∧
      .busError (agentOf who) x ∈ t.out
    (inWindows x = true → writeRow a value s = none → s.openUses x = false → exec (.registerWrite a value) s = .next t → held)
    ∧ (inWindows x = true → readRow a s = none → s.openReads x = false → exec (.registerRead a) s = .next t → held)
    ∧ (s.inMemory x = true → s.mayAccess (.core k.val) x (widthBytes width) = false →
        (exec (.registerWrite a value) s = .next t → held) ∧ (exec (.registerRead a) s = .next t → held)))
end

