-- ==== Sys2Proof/Laws/Sparse.lean ====
section
/-! SUPPORT. Laws of sparse storage: what a key reads as after a write, and that every operation keeps the canonical form. -/
namespace Sys2Proof.Machine

variable {w : Nat}

/-! ### The canonical form, one entry at a time -/

/-- Every key of a list is at least `lo`. -/
def sfrom (lo : Nat) (l : List (Nat × BitVec w)) : Prop := ∀ e ∈ l, lo ≤ e.1

theorem swf_cons {k : Nat} {v : BitVec w} {l : List (Nat × BitVec w)} :
    swf ((k, v) :: l) = true ↔ v ≠ 0 ∧ sfrom (k + 1) l ∧ swf l = true := by
  induction l generalizing k v with
  | nil => simp [swf, sfrom]
  | cons e l ih =>
    obtain ⟨a, u⟩ := e
    simp only [swf, Bool.and_eq_true, bne_iff_ne, ne_eq, decide_eq_true_eq]
    constructor
    · rintro ⟨⟨h0, h1⟩, h2⟩
      refine ⟨h0, ?_, h2⟩
      have h3 := (ih.mp h2).2.1
      intro e he
      rcases List.mem_cons.mp he with rfl | he
      · exact h1
      · have := h3 e he; omega
    · rintro ⟨h0, h1, h2⟩
      exact ⟨⟨h0, h1 (a, u) (by simp)⟩, h2⟩

theorem swf_nil : swf ([] : List (Nat × BitVec w)) = true := rfl

theorem sfrom_mono {a b : Nat} {l : List (Nat × BitVec w)} (h : a ≤ b) (hl : sfrom b l) : sfrom a l :=
  fun e he => le_trans h (hl e he)

/-! ### Reading -/

theorem sget_below {l : List (Nat × BitVec w)} {k : Nat} (h : sfrom (k + 1) l) : sget l k = 0 := by
  cases l with
  | nil => rfl
  | cons e l =>
    obtain ⟨a, v⟩ := e
    have : k + 1 ≤ a := h (a, v) (by simp)
    simp only [sget]
    rw [if_neg (by omega), if_pos (by omega)]

/-- Membership in a canonical list is what a key reads as. -/
theorem mem_iff_sget {l : List (Nat × BitVec w)} (h : swf l = true) (k : Nat) (v : BitVec w) :
    (k, v) ∈ l ↔ v ≠ 0 ∧ sget l k = v := by
  induction l with
  | nil =>
    simp only [List.not_mem_nil, sget, false_iff, not_and]
    exact fun h0 h1 => h0 h1.symm
  | cons e l ih =>
    obtain ⟨a, u⟩ := e
    obtain ⟨h0, h1, h2⟩ := swf_cons.mp h
    simp only [List.mem_cons, sget, Prod.mk.injEq, ih h2]
    by_cases hk : k = a
    · subst hk
      have hz : sget l k = 0 := sget_below h1
      simp only [hz, true_and, if_true]
      constructor
      · rintro (rfl | ⟨h3, rfl⟩)
        · exact ⟨h0, rfl⟩
        · exact absurd rfl h3
      · rintro ⟨_, rfl⟩; exact .inl rfl
    · simp only [hk, false_and, false_or, if_false]
      by_cases hlt : k < a
      · have hz : sget l k = 0 := sget_below (sfrom_mono (by omega) h1)
        simp [hlt, hz]
      · simp [hlt]

/-- Canonical lists with equal contents are equal. -/
theorem sparse_ext {l m : List (Nat × BitVec w)} (hl : swf l = true) (hm : swf m = true)
    (h : ∀ k, sget l k = sget m k) : l = m := by
  induction l generalizing m with
  | nil =>
    cases m with
    | nil => rfl
    | cons e m =>
      obtain ⟨a, v⟩ := e
      have := h a
      simp only [sget, if_true] at this
      exact absurd this.symm (swf_cons.mp hm).1
  | cons e l ih =>
    obtain ⟨a, v⟩ := e
    obtain ⟨h0, h1, h2⟩ := swf_cons.mp hl
    cases m with
    | nil =>
      have := h a
      simp only [sget, if_true] at this
      exact absurd this h0
    | cons e' m =>
      obtain ⟨b, u⟩ := e'
      obtain ⟨g0, g1, g2⟩ := swf_cons.mp hm
      have hab : a = b := by
        rcases lt_trichotomy a b with hlt | heq | hgt
        · have := h a
          simp only [sget, if_true] at this
          rw [if_neg (by omega), if_pos hlt] at this
          exact absurd this h0
        · exact heq
        · have := h b
          simp only [sget, if_true] at this
          rw [if_neg (by omega), if_pos hgt] at this
          exact absurd this.symm g0
      subst hab
      have hv : v = u := by simpa [sget] using h a
      subst hv
      rw [ih h2 g2 fun k => ?_]
      have := h k
      simp only [sget] at this
      by_cases hk : k = a
      · subst hk; rw [sget_below h1, sget_below g1]
      · by_cases hlt : k < a
        · rw [sget_below (sfrom_mono (by omega) h1), sget_below (sfrom_mono (by omega) g1)]
        · simpa [hk, hlt] using this

/-! ### Writing one key -/

theorem sfrom_sset {l : List (Nat × BitVec w)} {lo k : Nat} {v : BitVec w} (h : sfrom lo l) (hk : lo ≤ k) :
    sfrom lo (sset l k v) := by
  induction l with
  | nil =>
    simp only [sset]; split
    · intro e he; simp at he
    · intro e he; simp only [List.mem_singleton] at he; subst he; exact hk
  | cons e l ih =>
    obtain ⟨a, u⟩ := e
    have ha : lo ≤ a := h (a, u) (by simp)
    have hl : sfrom lo l := fun e he => h e (List.mem_cons_of_mem _ he)
    simp only [sset]
    split
    · split
      · exact hl
      · intro e he
        rcases List.mem_cons.mp he with rfl | he
        · exact hk
        · exact hl e he
    · split
      · split
        · exact h
        · intro e he
          rcases List.mem_cons.mp he with rfl | he
          · exact hk
          · exact h e he
      · intro e he
        rcases List.mem_cons.mp he with rfl | he
        · exact ha
        · exact ih hl e he

/-- A write keeps the canonical form. -/
@[simp] theorem swf_sset {l : List (Nat × BitVec w)} (h : swf l = true) (k : Nat) (v : BitVec w) :
    swf (sset l k v) = true := by
  induction l with
  | nil => simp only [sset]; split <;> simp_all [swf]
  | cons e l ih =>
    obtain ⟨a, u⟩ := e
    obtain ⟨h0, h1, h2⟩ := swf_cons.mp h
    simp only [sset]
    split
    · rename_i hka
      split
      · exact h2
      · rename_i hv
        exact swf_cons.mpr ⟨hv, hka ▸ h1, h2⟩
    · split
      · rename_i hlt
        split
        · exact h
        · rename_i hv
          refine swf_cons.mpr ⟨hv, ?_, h⟩
          intro e he
          rcases List.mem_cons.mp he with rfl | he
          · exact hlt
          · have := h1 e he; omega
      · exact swf_cons.mpr ⟨h0, sfrom_sset h1 (by omega), ih h2⟩

/-- A key reads as what was last written to it, and every other key as before. -/
theorem sget_sset {l : List (Nat × BitVec w)} (h : swf l = true) (k j : Nat) (v : BitVec w) :
    sget (sset l k v) j = if j = k then v else sget l j := by
  induction l with
  | nil => simp only [sset]; split <;> simp_all [sget]
  | cons e l ih =>
    obtain ⟨a, u⟩ := e
    obtain ⟨h0, h1, h2⟩ := swf_cons.mp h
    simp only [sset]
    by_cases hka : k = a
    · subst hka
      rw [if_pos rfl]
      by_cases hv : v = 0
      · rw [if_pos hv]
        by_cases hj : j = k
        · subst hj; rw [sget_below h1, if_pos rfl, hv]
        · simp only [sget, hj, if_false]
          by_cases hlt : j < k
          · rw [sget_below (sfrom_mono (by omega) h1), if_pos hlt]
          · rw [if_neg hlt]
      · rw [if_neg hv]
        simp only [sget]
        by_cases hj : j = k <;> simp [hj]
    · rw [if_neg hka]
      by_cases hlt : k < a
      · rw [if_pos hlt]
        by_cases hv : v = 0
        · rw [if_pos hv]
          by_cases hj : j = k
          · subst hj; simp [sget, hka, hlt, hv]
          · rw [if_neg hj]
        · rw [if_neg hv]
          simp only [sget]
          by_cases hj : j = k
          · simp [hj]
          · simp only [hj, if_false]
            by_cases hjk : j < k
            · have : ¬ j = a := by omega
              have : j < a := by omega
              simp [*]
            · simp [hjk]
      · rw [if_neg hlt]
        simp only [sget, ih h2]
        by_cases hj : j = k
        · subst hj; simp [hka, hlt]
        · simp [hj]

@[simp] theorem sget_sset_same {l : List (Nat × BitVec w)} (h : swf l = true) (k : Nat) (v : BitVec w) :
    sget (sset l k v) k = v := by rw [sget_sset h, if_pos rfl]

theorem sget_sset_ne {l : List (Nat × BitVec w)} (h : swf l = true) {k j : Nat} (hj : j ≠ k) (v : BitVec w) :
    sget (sset l k v) j = sget l j := by rw [sget_sset h, if_neg hj]

/-! ### Filters and runs -/

/-- Leaving entries out keeps the canonical form. -/
theorem swf_filter {l : List (Nat × BitVec w)} (h : swf l = true) (p : Nat × BitVec w → Bool) :
    swf (l.filter p) = true := by
  induction l with
  | nil => rfl
  | cons e l ih =>
    obtain ⟨a, u⟩ := e
    obtain ⟨h0, h1, h2⟩ := swf_cons.mp h
    simp only [List.filter_cons]
    split
    · exact swf_cons.mpr ⟨h0, fun e he => h1 e (List.mem_of_mem_filter he), ih h2⟩
    · exact ih h2

@[simp] theorem swf_sclear {l : List (Nat × BitVec w)} (h : swf l = true) (lo hi : Nat) : swf (sclear l lo hi) = true :=
  swf_filter h _

/-- Two canonical lists, the keys of the second above those of the first, make one. -/
theorem swf_append {l m : List (Nat × BitVec w)} {b : Nat} (hl : swf l = true) (hm : swf m = true)
    (h1 : ∀ e ∈ l, e.1 < b) (h2 : sfrom b m) : swf (l ++ m) = true := by
  induction l with
  | nil => exact hm
  | cons e l ih =>
    obtain ⟨a, u⟩ := e
    obtain ⟨h0, g1, g2⟩ := swf_cons.mp hl
    refine swf_cons.mpr ⟨h0, ?_, ih g2 fun e he => h1 e (List.mem_cons_of_mem _ he)⟩
    intro e he
    rcases List.mem_append.mp he with he | he
    · exact g1 e he
    · have := h2 e he
      have : a < b := h1 (a, u) (by simp)
      omega

theorem entriesBy_from {stride : Nat} (hs : 0 < stride) (k : Nat) (vs : List (BitVec w)) :
    sfrom k (entriesBy stride k vs) ∧ (∀ e ∈ entriesBy stride k vs, e.1 < k + stride * vs.length)
      ∧ swf (entriesBy stride k vs) = true := by
  induction vs generalizing k with
  | nil => exact ⟨fun e he => by simp [entriesBy] at he, fun e he => by simp [entriesBy] at he, rfl⟩
  | cons v vs ih =>
    obtain ⟨i1, i2, i3⟩ := ih (k + stride)
    have hlen : stride * (vs.length + 1) = stride * vs.length + stride := by ring
    simp only [entriesBy, List.length_cons, hlen]
    split
    · refine ⟨sfrom_mono (by omega) i1, fun e he => ?_, i3⟩
      have := i2 e he; omega
    · rename_i hv
      refine ⟨?_, ?_, swf_cons.mpr ⟨hv, sfrom_mono (by omega) i1, i3⟩⟩
      · intro e he
        rcases List.mem_cons.mp he with rfl | he
        · exact le_refl _
        · have := i1 e he; omega
      · intro e he
        rcases List.mem_cons.mp he with rfl | he
        · show k < _; omega
        · have := i2 e he; omega

theorem entriesFrom_eq (k : Nat) (vs : List (BitVec w)) : entriesFrom k vs = entriesBy 1 k vs := by
  induction vs generalizing k with
  | nil => rfl
  | cons v vs ih => simp only [entriesFrom, entriesBy, ih]

@[simp] theorem swf_sputBy {l : List (Nat × BitVec w)} (h : swf l = true) {stride : Nat} (hs : 0 < stride) (lo : Nat)
    (vs : List (BitVec w)) : swf (sputBy l stride lo vs) = true := by
  obtain ⟨i1, i2, i3⟩ := entriesBy_from hs lo vs
  unfold sputBy
  refine swf_append (b := lo + stride * vs.length) (swf_append (b := lo) (swf_filter h _) i3 ?_ i1) (swf_filter h _) ?_ ?_
  · intro e he
    have := (List.mem_filter.mp he).2
    simpa using this
  · intro e he
    rcases List.mem_append.mp he with he | he
    · have := (List.mem_filter.mp he).2
      simp only [decide_eq_true_eq] at this; omega
    · exact i2 e he
  · intro e he
    have := (List.mem_filter.mp he).2
    simpa using this

@[simp] theorem swf_sput {l : List (Nat × BitVec w)} (h : swf l = true) (lo : Nat) (vs : List (BitVec w)) :
    swf (sput l lo vs) = true := by
  have := swf_sputBy h Nat.one_pos lo vs
  simpa [sput, sputBy, entriesFrom_eq] using this

/-- A fold of writes keeps the canonical form. -/
theorem swf_foldl {α : Type} (l : List α) (f : List (Nat × BitVec w) → α → List (Nat × BitVec w))
    (hf : ∀ m a, swf m = true → swf (f m a) = true) {m : List (Nat × BitVec w)} (h : swf m = true) :
    swf (l.foldl f m) = true := by
  induction l generalizing m with
  | nil => exact h
  | cons a l ih => exact ih (hf m a h)

@[simp] theorem swf_scopy {l : List (Nat × BitVec w)} (h : swf l = true) (src dst len : Nat) :
    swf (scopy l src dst len) = true :=
  swf_foldl _ _ (fun _ _ hm => swf_sset hm _ _) (swf_sclear h _ _)

theorem sget_filter {l : List (Nat × BitVec w)} (h : swf l = true) (p : Nat → Bool) (k : Nat) :
    sget (l.filter fun e => p e.1) k = if p k then sget l k else 0 := by
  induction l with
  | nil => simp [sget]
  | cons e l ih =>
    obtain ⟨a, u⟩ := e
    obtain ⟨h0, h1, h2⟩ := swf_cons.mp h
    simp only [List.filter_cons]
    by_cases hp : p a = true
    · rw [if_pos hp]
      simp only [sget, ih h2]
      by_cases hk : k = a
      · subst hk; simp [hp]
      · by_cases hlt : k < a
        · simp [hk, hlt]
        · simp [hk, hlt]
    · rw [if_neg hp, ih h2]
      by_cases hk : k = a
      · subst hk; simp [hp]
      · simp only [sget, hk, if_false]
        by_cases hlt : k < a
        · rw [sget_below (sfrom_mono (by omega) h1), if_pos hlt]
        · rw [if_neg hlt]

/-- A cleared range reads as zero, and every other key as before. -/
theorem sget_sclear {l : List (Nat × BitVec w)} (h : swf l = true) (lo hi k : Nat) :
    sget (sclear l lo hi) k = if lo ≤ k ∧ k < hi then 0 else sget l k := by
  unfold sclear
  rw [sget_filter h fun a => !(decide (lo ≤ a) && decide (a < hi))]
  by_cases h1 : lo ≤ k <;> by_cases h2 : k < hi <;> simp [h1, h2]

end Sys2Proof.Machine
end

