-- ==== Sys2Proof/Laws/State.lean ====
section
/-! SUPPORT. Laws of the state: what each update leaves as it was, one lemma for each field and update. -/
namespace Sys2Proof.Machine

variable (s : State)

/-! ### wr -/

@[simp] theorem State.wr_variant (r : Reg) (v : W64) : (s.wr r v).variant = s.variant := rfl
@[simp] theorem State.wr_now (r : Reg) (v : W64) : (s.wr r v).now = s.now := rfl
@[simp] theorem State.wr_mem (r : Reg) (v : W64) : (s.wr r v).mem = s.mem := rfl
@[simp] theorem State.wr_wall (r : Reg) (v : W64) : (s.wr r v).wall = s.wall := rfl
@[simp] theorem State.wr_fns (r : Reg) (v : W64) : (s.wr r v).fns = s.fns := rfl
@[simp] theorem State.wr_ports (r : Reg) (v : W64) : (s.wr r v).ports = s.ports := rfl
@[simp] theorem State.wr_pkt (r : Reg) (v : W64) : (s.wr r v).pkt = s.pkt := rfl
@[simp] theorem State.wr_mbq (r : Reg) (v : W64) : (s.wr r v).mbq = s.mbq := rfl
@[simp] theorem State.wr_peat (r : Reg) (v : W64) : (s.wr r v).peat = s.peat := rfl
@[simp] theorem State.wr_evt (r : Reg) (v : W64) : (s.wr r v).evt = s.evt := rfl
@[simp] theorem State.wr_supv (r : Reg) (v : W64) : (s.wr r v).supv = s.supv := rfl
@[simp] theorem State.wr_world (r : Reg) (v : W64) : (s.wr r v).world = s.world := rfl
@[simp] theorem State.wr_cu (r : Reg) (v : W64) : (s.wr r v).cu = s.cu := rfl
@[simp] theorem State.wr_power (r : Reg) (v : W64) : (s.wr r v).power = s.power := rfl
@[simp] theorem State.wr_display (r : Reg) (v : W64) : (s.wr r v).display = s.display := rfl
@[simp] theorem State.wr_gfx (r : Reg) (v : W64) : (s.wr r v).gfx = s.gfx := rfl
@[simp] theorem State.wr_hap (r : Reg) (v : W64) : (s.wr r v).hap = s.hap := rfl
@[simp] theorem State.wr_touch (r : Reg) (v : W64) : (s.wr r v).touch = s.touch := rfl
@[simp] theorem State.wr_aud (r : Reg) (v : W64) : (s.wr r v).aud = s.aud := rfl
@[simp] theorem State.wr_dramc (r : Reg) (v : W64) : (s.wr r v).dramc = s.dramc := rfl
@[simp] theorem State.wr_staged (r : Reg) (v : W64) : (s.wr r v).staged = s.staged := rfl
@[simp] theorem State.wr_out (r : Reg) (v : W64) : (s.wr r v).out = s.out := rfl
@[simp] theorem State.wr_freeCtr (r : Reg) (v : W64) : (s.wr r v).freeCtr = s.freeCtr := rfl
@[simp] theorem State.wr_pending (r : Reg) (v : W64) : (s.wr r v).pending = s.pending := rfl

/-! ### cold -/

@[simp] theorem State.cold_variant (r : Reg) : (s.cold r).variant = s.variant := rfl
@[simp] theorem State.cold_now (r : Reg) : (s.cold r).now = s.now := rfl
@[simp] theorem State.cold_mem (r : Reg) : (s.cold r).mem = s.mem := rfl
@[simp] theorem State.cold_wall (r : Reg) : (s.cold r).wall = s.wall := rfl
@[simp] theorem State.cold_fns (r : Reg) : (s.cold r).fns = s.fns := rfl
@[simp] theorem State.cold_ports (r : Reg) : (s.cold r).ports = s.ports := rfl
@[simp] theorem State.cold_pkt (r : Reg) : (s.cold r).pkt = s.pkt := rfl
@[simp] theorem State.cold_mbq (r : Reg) : (s.cold r).mbq = s.mbq := rfl
@[simp] theorem State.cold_peat (r : Reg) : (s.cold r).peat = s.peat := rfl
@[simp] theorem State.cold_evt (r : Reg) : (s.cold r).evt = s.evt := rfl
@[simp] theorem State.cold_supv (r : Reg) : (s.cold r).supv = s.supv := rfl
@[simp] theorem State.cold_world (r : Reg) : (s.cold r).world = s.world := rfl
@[simp] theorem State.cold_cu (r : Reg) : (s.cold r).cu = s.cu := rfl
@[simp] theorem State.cold_power (r : Reg) : (s.cold r).power = s.power := rfl
@[simp] theorem State.cold_display (r : Reg) : (s.cold r).display = s.display := rfl
@[simp] theorem State.cold_gfx (r : Reg) : (s.cold r).gfx = s.gfx := rfl
@[simp] theorem State.cold_hap (r : Reg) : (s.cold r).hap = s.hap := rfl
@[simp] theorem State.cold_touch (r : Reg) : (s.cold r).touch = s.touch := rfl
@[simp] theorem State.cold_aud (r : Reg) : (s.cold r).aud = s.aud := rfl
@[simp] theorem State.cold_dramc (r : Reg) : (s.cold r).dramc = s.dramc := rfl
@[simp] theorem State.cold_staged (r : Reg) : (s.cold r).staged = s.staged := rfl
@[simp] theorem State.cold_out (r : Reg) : (s.cold r).out = s.out := rfl
@[simp] theorem State.cold_freeCtr (r : Reg) : (s.cold r).freeCtr = s.freeCtr := rfl
@[simp] theorem State.cold_pending (r : Reg) : (s.cold r).pending = s.pending := rfl

/-! ### put -/

@[simp] theorem State.put_variant (f : RF) (v : Nat) : (s.put f v).variant = s.variant := rfl
@[simp] theorem State.put_now (f : RF) (v : Nat) : (s.put f v).now = s.now := rfl
@[simp] theorem State.put_mem (f : RF) (v : Nat) : (s.put f v).mem = s.mem := rfl
@[simp] theorem State.put_wall (f : RF) (v : Nat) : (s.put f v).wall = s.wall := rfl
@[simp] theorem State.put_fns (f : RF) (v : Nat) : (s.put f v).fns = s.fns := rfl
@[simp] theorem State.put_ports (f : RF) (v : Nat) : (s.put f v).ports = s.ports := rfl
@[simp] theorem State.put_pkt (f : RF) (v : Nat) : (s.put f v).pkt = s.pkt := rfl
@[simp] theorem State.put_mbq (f : RF) (v : Nat) : (s.put f v).mbq = s.mbq := rfl
@[simp] theorem State.put_peat (f : RF) (v : Nat) : (s.put f v).peat = s.peat := rfl
@[simp] theorem State.put_evt (f : RF) (v : Nat) : (s.put f v).evt = s.evt := rfl
@[simp] theorem State.put_supv (f : RF) (v : Nat) : (s.put f v).supv = s.supv := rfl
@[simp] theorem State.put_world (f : RF) (v : Nat) : (s.put f v).world = s.world := rfl
@[simp] theorem State.put_cu (f : RF) (v : Nat) : (s.put f v).cu = s.cu := rfl
@[simp] theorem State.put_power (f : RF) (v : Nat) : (s.put f v).power = s.power := rfl
@[simp] theorem State.put_display (f : RF) (v : Nat) : (s.put f v).display = s.display := rfl
@[simp] theorem State.put_gfx (f : RF) (v : Nat) : (s.put f v).gfx = s.gfx := rfl
@[simp] theorem State.put_hap (f : RF) (v : Nat) : (s.put f v).hap = s.hap := rfl
@[simp] theorem State.put_touch (f : RF) (v : Nat) : (s.put f v).touch = s.touch := rfl
@[simp] theorem State.put_aud (f : RF) (v : Nat) : (s.put f v).aud = s.aud := rfl
@[simp] theorem State.put_dramc (f : RF) (v : Nat) : (s.put f v).dramc = s.dramc := rfl
@[simp] theorem State.put_staged (f : RF) (v : Nat) : (s.put f v).staged = s.staged := rfl
@[simp] theorem State.put_out (f : RF) (v : Nat) : (s.put f v).out = s.out := rfl
@[simp] theorem State.put_freeCtr (f : RF) (v : Nat) : (s.put f v).freeCtr = s.freeCtr := rfl
@[simp] theorem State.put_pending (f : RF) (v : Nat) : (s.put f v).pending = s.pending := rfl

/-! ### putBit -/

@[simp] theorem State.putBit_variant (f : RF) (b : Bool) : (s.putBit f b).variant = s.variant := rfl
@[simp] theorem State.putBit_now (f : RF) (b : Bool) : (s.putBit f b).now = s.now := rfl
@[simp] theorem State.putBit_mem (f : RF) (b : Bool) : (s.putBit f b).mem = s.mem := rfl
@[simp] theorem State.putBit_wall (f : RF) (b : Bool) : (s.putBit f b).wall = s.wall := rfl
@[simp] theorem State.putBit_fns (f : RF) (b : Bool) : (s.putBit f b).fns = s.fns := rfl
@[simp] theorem State.putBit_ports (f : RF) (b : Bool) : (s.putBit f b).ports = s.ports := rfl
@[simp] theorem State.putBit_pkt (f : RF) (b : Bool) : (s.putBit f b).pkt = s.pkt := rfl
@[simp] theorem State.putBit_mbq (f : RF) (b : Bool) : (s.putBit f b).mbq = s.mbq := rfl
@[simp] theorem State.putBit_peat (f : RF) (b : Bool) : (s.putBit f b).peat = s.peat := rfl
@[simp] theorem State.putBit_evt (f : RF) (b : Bool) : (s.putBit f b).evt = s.evt := rfl
@[simp] theorem State.putBit_supv (f : RF) (b : Bool) : (s.putBit f b).supv = s.supv := rfl
@[simp] theorem State.putBit_world (f : RF) (b : Bool) : (s.putBit f b).world = s.world := rfl
@[simp] theorem State.putBit_cu (f : RF) (b : Bool) : (s.putBit f b).cu = s.cu := rfl
@[simp] theorem State.putBit_power (f : RF) (b : Bool) : (s.putBit f b).power = s.power := rfl
@[simp] theorem State.putBit_display (f : RF) (b : Bool) : (s.putBit f b).display = s.display := rfl
@[simp] theorem State.putBit_gfx (f : RF) (b : Bool) : (s.putBit f b).gfx = s.gfx := rfl
@[simp] theorem State.putBit_hap (f : RF) (b : Bool) : (s.putBit f b).hap = s.hap := rfl
@[simp] theorem State.putBit_touch (f : RF) (b : Bool) : (s.putBit f b).touch = s.touch := rfl
@[simp] theorem State.putBit_aud (f : RF) (b : Bool) : (s.putBit f b).aud = s.aud := rfl
@[simp] theorem State.putBit_dramc (f : RF) (b : Bool) : (s.putBit f b).dramc = s.dramc := rfl
@[simp] theorem State.putBit_staged (f : RF) (b : Bool) : (s.putBit f b).staged = s.staged := rfl
@[simp] theorem State.putBit_out (f : RF) (b : Bool) : (s.putBit f b).out = s.out := rfl
@[simp] theorem State.putBit_freeCtr (f : RF) (b : Bool) : (s.putBit f b).freeCtr = s.freeCtr := rfl
@[simp] theorem State.putBit_pending (f : RF) (b : Bool) : (s.putBit f b).pending = s.pending := rfl

/-! ### putBitAt -/

@[simp] theorem State.putBitAt_variant (f : RF) (i : Nat) (b : Bool) : (s.putBitAt f i b).variant = s.variant := rfl
@[simp] theorem State.putBitAt_now (f : RF) (i : Nat) (b : Bool) : (s.putBitAt f i b).now = s.now := rfl
@[simp] theorem State.putBitAt_mem (f : RF) (i : Nat) (b : Bool) : (s.putBitAt f i b).mem = s.mem := rfl
@[simp] theorem State.putBitAt_wall (f : RF) (i : Nat) (b : Bool) : (s.putBitAt f i b).wall = s.wall := rfl
@[simp] theorem State.putBitAt_fns (f : RF) (i : Nat) (b : Bool) : (s.putBitAt f i b).fns = s.fns := rfl
@[simp] theorem State.putBitAt_ports (f : RF) (i : Nat) (b : Bool) : (s.putBitAt f i b).ports = s.ports := rfl
@[simp] theorem State.putBitAt_pkt (f : RF) (i : Nat) (b : Bool) : (s.putBitAt f i b).pkt = s.pkt := rfl
@[simp] theorem State.putBitAt_mbq (f : RF) (i : Nat) (b : Bool) : (s.putBitAt f i b).mbq = s.mbq := rfl
@[simp] theorem State.putBitAt_peat (f : RF) (i : Nat) (b : Bool) : (s.putBitAt f i b).peat = s.peat := rfl
@[simp] theorem State.putBitAt_evt (f : RF) (i : Nat) (b : Bool) : (s.putBitAt f i b).evt = s.evt := rfl
@[simp] theorem State.putBitAt_supv (f : RF) (i : Nat) (b : Bool) : (s.putBitAt f i b).supv = s.supv := rfl
@[simp] theorem State.putBitAt_world (f : RF) (i : Nat) (b : Bool) : (s.putBitAt f i b).world = s.world := rfl
@[simp] theorem State.putBitAt_cu (f : RF) (i : Nat) (b : Bool) : (s.putBitAt f i b).cu = s.cu := rfl
@[simp] theorem State.putBitAt_power (f : RF) (i : Nat) (b : Bool) : (s.putBitAt f i b).power = s.power := rfl
@[simp] theorem State.putBitAt_display (f : RF) (i : Nat) (b : Bool) : (s.putBitAt f i b).display = s.display := rfl
@[simp] theorem State.putBitAt_gfx (f : RF) (i : Nat) (b : Bool) : (s.putBitAt f i b).gfx = s.gfx := rfl
@[simp] theorem State.putBitAt_hap (f : RF) (i : Nat) (b : Bool) : (s.putBitAt f i b).hap = s.hap := rfl
@[simp] theorem State.putBitAt_touch (f : RF) (i : Nat) (b : Bool) : (s.putBitAt f i b).touch = s.touch := rfl
@[simp] theorem State.putBitAt_aud (f : RF) (i : Nat) (b : Bool) : (s.putBitAt f i b).aud = s.aud := rfl
@[simp] theorem State.putBitAt_dramc (f : RF) (i : Nat) (b : Bool) : (s.putBitAt f i b).dramc = s.dramc := rfl
@[simp] theorem State.putBitAt_staged (f : RF) (i : Nat) (b : Bool) : (s.putBitAt f i b).staged = s.staged := rfl
@[simp] theorem State.putBitAt_out (f : RF) (i : Nat) (b : Bool) : (s.putBitAt f i b).out = s.out := rfl
@[simp] theorem State.putBitAt_freeCtr (f : RF) (i : Nat) (b : Bool) : (s.putBitAt f i b).freeCtr = s.freeCtr := rfl
@[simp] theorem State.putBitAt_pending (f : RF) (i : Nat) (b : Bool) : (s.putBitAt f i b).pending = s.pending := rfl

/-! ### bumpBy -/

@[simp] theorem State.bumpBy_variant (f : RF) (n : Nat) : (s.bumpBy f n).variant = s.variant := rfl
@[simp] theorem State.bumpBy_now (f : RF) (n : Nat) : (s.bumpBy f n).now = s.now := rfl
@[simp] theorem State.bumpBy_mem (f : RF) (n : Nat) : (s.bumpBy f n).mem = s.mem := rfl
@[simp] theorem State.bumpBy_wall (f : RF) (n : Nat) : (s.bumpBy f n).wall = s.wall := rfl
@[simp] theorem State.bumpBy_fns (f : RF) (n : Nat) : (s.bumpBy f n).fns = s.fns := rfl
@[simp] theorem State.bumpBy_ports (f : RF) (n : Nat) : (s.bumpBy f n).ports = s.ports := rfl
@[simp] theorem State.bumpBy_pkt (f : RF) (n : Nat) : (s.bumpBy f n).pkt = s.pkt := rfl
@[simp] theorem State.bumpBy_mbq (f : RF) (n : Nat) : (s.bumpBy f n).mbq = s.mbq := rfl
@[simp] theorem State.bumpBy_peat (f : RF) (n : Nat) : (s.bumpBy f n).peat = s.peat := rfl
@[simp] theorem State.bumpBy_evt (f : RF) (n : Nat) : (s.bumpBy f n).evt = s.evt := rfl
@[simp] theorem State.bumpBy_supv (f : RF) (n : Nat) : (s.bumpBy f n).supv = s.supv := rfl
@[simp] theorem State.bumpBy_world (f : RF) (n : Nat) : (s.bumpBy f n).world = s.world := rfl
@[simp] theorem State.bumpBy_cu (f : RF) (n : Nat) : (s.bumpBy f n).cu = s.cu := rfl
@[simp] theorem State.bumpBy_power (f : RF) (n : Nat) : (s.bumpBy f n).power = s.power := rfl
@[simp] theorem State.bumpBy_display (f : RF) (n : Nat) : (s.bumpBy f n).display = s.display := rfl
@[simp] theorem State.bumpBy_gfx (f : RF) (n : Nat) : (s.bumpBy f n).gfx = s.gfx := rfl
@[simp] theorem State.bumpBy_hap (f : RF) (n : Nat) : (s.bumpBy f n).hap = s.hap := rfl
@[simp] theorem State.bumpBy_touch (f : RF) (n : Nat) : (s.bumpBy f n).touch = s.touch := rfl
@[simp] theorem State.bumpBy_aud (f : RF) (n : Nat) : (s.bumpBy f n).aud = s.aud := rfl
@[simp] theorem State.bumpBy_dramc (f : RF) (n : Nat) : (s.bumpBy f n).dramc = s.dramc := rfl
@[simp] theorem State.bumpBy_staged (f : RF) (n : Nat) : (s.bumpBy f n).staged = s.staged := rfl
@[simp] theorem State.bumpBy_out (f : RF) (n : Nat) : (s.bumpBy f n).out = s.out := rfl
@[simp] theorem State.bumpBy_freeCtr (f : RF) (n : Nat) : (s.bumpBy f n).freeCtr = s.freeCtr := rfl
@[simp] theorem State.bumpBy_pending (f : RF) (n : Nat) : (s.bumpBy f n).pending = s.pending := rfl

/-! ### bump -/

@[simp] theorem State.bump_variant (f : RF) : (s.bump f).variant = s.variant := rfl
@[simp] theorem State.bump_now (f : RF) : (s.bump f).now = s.now := rfl
@[simp] theorem State.bump_mem (f : RF) : (s.bump f).mem = s.mem := rfl
@[simp] theorem State.bump_wall (f : RF) : (s.bump f).wall = s.wall := rfl
@[simp] theorem State.bump_fns (f : RF) : (s.bump f).fns = s.fns := rfl
@[simp] theorem State.bump_ports (f : RF) : (s.bump f).ports = s.ports := rfl
@[simp] theorem State.bump_pkt (f : RF) : (s.bump f).pkt = s.pkt := rfl
@[simp] theorem State.bump_mbq (f : RF) : (s.bump f).mbq = s.mbq := rfl
@[simp] theorem State.bump_peat (f : RF) : (s.bump f).peat = s.peat := rfl
@[simp] theorem State.bump_evt (f : RF) : (s.bump f).evt = s.evt := rfl
@[simp] theorem State.bump_supv (f : RF) : (s.bump f).supv = s.supv := rfl
@[simp] theorem State.bump_world (f : RF) : (s.bump f).world = s.world := rfl
@[simp] theorem State.bump_cu (f : RF) : (s.bump f).cu = s.cu := rfl
@[simp] theorem State.bump_power (f : RF) : (s.bump f).power = s.power := rfl
@[simp] theorem State.bump_display (f : RF) : (s.bump f).display = s.display := rfl
@[simp] theorem State.bump_gfx (f : RF) : (s.bump f).gfx = s.gfx := rfl
@[simp] theorem State.bump_hap (f : RF) : (s.bump f).hap = s.hap := rfl
@[simp] theorem State.bump_touch (f : RF) : (s.bump f).touch = s.touch := rfl
@[simp] theorem State.bump_aud (f : RF) : (s.bump f).aud = s.aud := rfl
@[simp] theorem State.bump_dramc (f : RF) : (s.bump f).dramc = s.dramc := rfl
@[simp] theorem State.bump_staged (f : RF) : (s.bump f).staged = s.staged := rfl
@[simp] theorem State.bump_out (f : RF) : (s.bump f).out = s.out := rfl
@[simp] theorem State.bump_freeCtr (f : RF) : (s.bump f).freeCtr = s.freeCtr := rfl
@[simp] theorem State.bump_pending (f : RF) : (s.bump f).pending = s.pending := rfl

/-! ### freeUsed -/

@[simp] theorem State.freeUsed_variant : (s.freeUsed).variant = s.variant := rfl
@[simp] theorem State.freeUsed_now : (s.freeUsed).now = s.now := rfl
@[simp] theorem State.freeUsed_regs : (s.freeUsed).regs = s.regs := rfl
@[simp] theorem State.freeUsed_mem : (s.freeUsed).mem = s.mem := rfl
@[simp] theorem State.freeUsed_wall : (s.freeUsed).wall = s.wall := rfl
@[simp] theorem State.freeUsed_fns : (s.freeUsed).fns = s.fns := rfl
@[simp] theorem State.freeUsed_ports : (s.freeUsed).ports = s.ports := rfl
@[simp] theorem State.freeUsed_pkt : (s.freeUsed).pkt = s.pkt := rfl
@[simp] theorem State.freeUsed_mbq : (s.freeUsed).mbq = s.mbq := rfl
@[simp] theorem State.freeUsed_peat : (s.freeUsed).peat = s.peat := rfl
@[simp] theorem State.freeUsed_evt : (s.freeUsed).evt = s.evt := rfl
@[simp] theorem State.freeUsed_supv : (s.freeUsed).supv = s.supv := rfl
@[simp] theorem State.freeUsed_world : (s.freeUsed).world = s.world := rfl
@[simp] theorem State.freeUsed_cu : (s.freeUsed).cu = s.cu := rfl
@[simp] theorem State.freeUsed_power : (s.freeUsed).power = s.power := rfl
@[simp] theorem State.freeUsed_display : (s.freeUsed).display = s.display := rfl
@[simp] theorem State.freeUsed_gfx : (s.freeUsed).gfx = s.gfx := rfl
@[simp] theorem State.freeUsed_hap : (s.freeUsed).hap = s.hap := rfl
@[simp] theorem State.freeUsed_touch : (s.freeUsed).touch = s.touch := rfl
@[simp] theorem State.freeUsed_aud : (s.freeUsed).aud = s.aud := rfl
@[simp] theorem State.freeUsed_dramc : (s.freeUsed).dramc = s.dramc := rfl
@[simp] theorem State.freeUsed_staged : (s.freeUsed).staged = s.staged := rfl
@[simp] theorem State.freeUsed_out : (s.freeUsed).out = s.out := rfl
@[simp] theorem State.freeUsed_pending : (s.freeUsed).pending = s.pending := rfl

/-! ### emit -/

@[simp] theorem State.emit_variant (o : Output) : (s.emit o).variant = s.variant := rfl
@[simp] theorem State.emit_now (o : Output) : (s.emit o).now = s.now := rfl
@[simp] theorem State.emit_regs (o : Output) : (s.emit o).regs = s.regs := rfl
@[simp] theorem State.emit_mem (o : Output) : (s.emit o).mem = s.mem := rfl
@[simp] theorem State.emit_wall (o : Output) : (s.emit o).wall = s.wall := rfl
@[simp] theorem State.emit_fns (o : Output) : (s.emit o).fns = s.fns := rfl
@[simp] theorem State.emit_ports (o : Output) : (s.emit o).ports = s.ports := rfl
@[simp] theorem State.emit_pkt (o : Output) : (s.emit o).pkt = s.pkt := rfl
@[simp] theorem State.emit_mbq (o : Output) : (s.emit o).mbq = s.mbq := rfl
@[simp] theorem State.emit_peat (o : Output) : (s.emit o).peat = s.peat := rfl
@[simp] theorem State.emit_evt (o : Output) : (s.emit o).evt = s.evt := rfl
@[simp] theorem State.emit_supv (o : Output) : (s.emit o).supv = s.supv := rfl
@[simp] theorem State.emit_world (o : Output) : (s.emit o).world = s.world := rfl
@[simp] theorem State.emit_cu (o : Output) : (s.emit o).cu = s.cu := rfl
@[simp] theorem State.emit_power (o : Output) : (s.emit o).power = s.power := rfl
@[simp] theorem State.emit_display (o : Output) : (s.emit o).display = s.display := rfl
@[simp] theorem State.emit_gfx (o : Output) : (s.emit o).gfx = s.gfx := rfl
@[simp] theorem State.emit_hap (o : Output) : (s.emit o).hap = s.hap := rfl
@[simp] theorem State.emit_touch (o : Output) : (s.emit o).touch = s.touch := rfl
@[simp] theorem State.emit_aud (o : Output) : (s.emit o).aud = s.aud := rfl
@[simp] theorem State.emit_dramc (o : Output) : (s.emit o).dramc = s.dramc := rfl
@[simp] theorem State.emit_staged (o : Output) : (s.emit o).staged = s.staged := rfl
@[simp] theorem State.emit_freeCtr (o : Output) : (s.emit o).freeCtr = s.freeCtr := rfl
@[simp] theorem State.emit_pending (o : Output) : (s.emit o).pending = s.pending := rfl

/-! ### store -/

@[simp] theorem State.store_variant (a : Nat) (l : List Byte) : (s.store a l).variant = s.variant := rfl
@[simp] theorem State.store_now (a : Nat) (l : List Byte) : (s.store a l).now = s.now := rfl
@[simp] theorem State.store_regs (a : Nat) (l : List Byte) : (s.store a l).regs = s.regs := rfl
@[simp] theorem State.store_wall (a : Nat) (l : List Byte) : (s.store a l).wall = s.wall := rfl
@[simp] theorem State.store_fns (a : Nat) (l : List Byte) : (s.store a l).fns = s.fns := rfl
@[simp] theorem State.store_ports (a : Nat) (l : List Byte) : (s.store a l).ports = s.ports := rfl
@[simp] theorem State.store_pkt (a : Nat) (l : List Byte) : (s.store a l).pkt = s.pkt := rfl
@[simp] theorem State.store_mbq (a : Nat) (l : List Byte) : (s.store a l).mbq = s.mbq := rfl
@[simp] theorem State.store_peat (a : Nat) (l : List Byte) : (s.store a l).peat = s.peat := rfl
@[simp] theorem State.store_evt (a : Nat) (l : List Byte) : (s.store a l).evt = s.evt := rfl
@[simp] theorem State.store_supv (a : Nat) (l : List Byte) : (s.store a l).supv = s.supv := rfl
@[simp] theorem State.store_world (a : Nat) (l : List Byte) : (s.store a l).world = s.world := rfl
@[simp] theorem State.store_cu (a : Nat) (l : List Byte) : (s.store a l).cu = s.cu := rfl
@[simp] theorem State.store_power (a : Nat) (l : List Byte) : (s.store a l).power = s.power := rfl
@[simp] theorem State.store_display (a : Nat) (l : List Byte) : (s.store a l).display = s.display := rfl
@[simp] theorem State.store_gfx (a : Nat) (l : List Byte) : (s.store a l).gfx = s.gfx := rfl
@[simp] theorem State.store_hap (a : Nat) (l : List Byte) : (s.store a l).hap = s.hap := rfl
@[simp] theorem State.store_touch (a : Nat) (l : List Byte) : (s.store a l).touch = s.touch := rfl
@[simp] theorem State.store_aud (a : Nat) (l : List Byte) : (s.store a l).aud = s.aud := rfl
@[simp] theorem State.store_dramc (a : Nat) (l : List Byte) : (s.store a l).dramc = s.dramc := rfl
@[simp] theorem State.store_staged (a : Nat) (l : List Byte) : (s.store a l).staged = s.staged := rfl
@[simp] theorem State.store_out (a : Nat) (l : List Byte) : (s.store a l).out = s.out := rfl
@[simp] theorem State.store_freeCtr (a : Nat) (l : List Byte) : (s.store a l).freeCtr = s.freeCtr := rfl
@[simp] theorem State.store_pending (a : Nat) (l : List Byte) : (s.store a l).pending = s.pending := rfl

/-! ### zeroMem -/

@[simp] theorem State.zeroMem_variant (lo hi : Nat) : (s.zeroMem lo hi).variant = s.variant := rfl
@[simp] theorem State.zeroMem_now (lo hi : Nat) : (s.zeroMem lo hi).now = s.now := rfl
@[simp] theorem State.zeroMem_regs (lo hi : Nat) : (s.zeroMem lo hi).regs = s.regs := rfl
@[simp] theorem State.zeroMem_wall (lo hi : Nat) : (s.zeroMem lo hi).wall = s.wall := rfl
@[simp] theorem State.zeroMem_fns (lo hi : Nat) : (s.zeroMem lo hi).fns = s.fns := rfl
@[simp] theorem State.zeroMem_ports (lo hi : Nat) : (s.zeroMem lo hi).ports = s.ports := rfl
@[simp] theorem State.zeroMem_pkt (lo hi : Nat) : (s.zeroMem lo hi).pkt = s.pkt := rfl
@[simp] theorem State.zeroMem_mbq (lo hi : Nat) : (s.zeroMem lo hi).mbq = s.mbq := rfl
@[simp] theorem State.zeroMem_peat (lo hi : Nat) : (s.zeroMem lo hi).peat = s.peat := rfl
@[simp] theorem State.zeroMem_evt (lo hi : Nat) : (s.zeroMem lo hi).evt = s.evt := rfl
@[simp] theorem State.zeroMem_supv (lo hi : Nat) : (s.zeroMem lo hi).supv = s.supv := rfl
@[simp] theorem State.zeroMem_world (lo hi : Nat) : (s.zeroMem lo hi).world = s.world := rfl
@[simp] theorem State.zeroMem_cu (lo hi : Nat) : (s.zeroMem lo hi).cu = s.cu := rfl
@[simp] theorem State.zeroMem_power (lo hi : Nat) : (s.zeroMem lo hi).power = s.power := rfl
@[simp] theorem State.zeroMem_display (lo hi : Nat) : (s.zeroMem lo hi).display = s.display := rfl
@[simp] theorem State.zeroMem_gfx (lo hi : Nat) : (s.zeroMem lo hi).gfx = s.gfx := rfl
@[simp] theorem State.zeroMem_hap (lo hi : Nat) : (s.zeroMem lo hi).hap = s.hap := rfl
@[simp] theorem State.zeroMem_touch (lo hi : Nat) : (s.zeroMem lo hi).touch = s.touch := rfl
@[simp] theorem State.zeroMem_aud (lo hi : Nat) : (s.zeroMem lo hi).aud = s.aud := rfl
@[simp] theorem State.zeroMem_dramc (lo hi : Nat) : (s.zeroMem lo hi).dramc = s.dramc := rfl
@[simp] theorem State.zeroMem_staged (lo hi : Nat) : (s.zeroMem lo hi).staged = s.staged := rfl
@[simp] theorem State.zeroMem_out (lo hi : Nat) : (s.zeroMem lo hi).out = s.out := rfl
@[simp] theorem State.zeroMem_freeCtr (lo hi : Nat) : (s.zeroMem lo hi).freeCtr = s.freeCtr := rfl
@[simp] theorem State.zeroMem_pending (lo hi : Nat) : (s.zeroMem lo hi).pending = s.pending := rfl

/-! ### modFn -/

@[simp] theorem State.modFn_variant (n : Nat) (g : FnState → FnState) : (s.modFn n g).variant = s.variant := rfl
@[simp] theorem State.modFn_now (n : Nat) (g : FnState → FnState) : (s.modFn n g).now = s.now := rfl
@[simp] theorem State.modFn_regs (n : Nat) (g : FnState → FnState) : (s.modFn n g).regs = s.regs := rfl
@[simp] theorem State.modFn_mem (n : Nat) (g : FnState → FnState) : (s.modFn n g).mem = s.mem := rfl
@[simp] theorem State.modFn_wall (n : Nat) (g : FnState → FnState) : (s.modFn n g).wall = s.wall := rfl
@[simp] theorem State.modFn_ports (n : Nat) (g : FnState → FnState) : (s.modFn n g).ports = s.ports := rfl
@[simp] theorem State.modFn_pkt (n : Nat) (g : FnState → FnState) : (s.modFn n g).pkt = s.pkt := rfl
@[simp] theorem State.modFn_mbq (n : Nat) (g : FnState → FnState) : (s.modFn n g).mbq = s.mbq := rfl
@[simp] theorem State.modFn_peat (n : Nat) (g : FnState → FnState) : (s.modFn n g).peat = s.peat := rfl
@[simp] theorem State.modFn_evt (n : Nat) (g : FnState → FnState) : (s.modFn n g).evt = s.evt := rfl
@[simp] theorem State.modFn_supv (n : Nat) (g : FnState → FnState) : (s.modFn n g).supv = s.supv := rfl
@[simp] theorem State.modFn_world (n : Nat) (g : FnState → FnState) : (s.modFn n g).world = s.world := rfl
@[simp] theorem State.modFn_cu (n : Nat) (g : FnState → FnState) : (s.modFn n g).cu = s.cu := rfl
@[simp] theorem State.modFn_power (n : Nat) (g : FnState → FnState) : (s.modFn n g).power = s.power := rfl
@[simp] theorem State.modFn_display (n : Nat) (g : FnState → FnState) : (s.modFn n g).display = s.display := rfl
@[simp] theorem State.modFn_gfx (n : Nat) (g : FnState → FnState) : (s.modFn n g).gfx = s.gfx := rfl
@[simp] theorem State.modFn_hap (n : Nat) (g : FnState → FnState) : (s.modFn n g).hap = s.hap := rfl
@[simp] theorem State.modFn_touch (n : Nat) (g : FnState → FnState) : (s.modFn n g).touch = s.touch := rfl
@[simp] theorem State.modFn_aud (n : Nat) (g : FnState → FnState) : (s.modFn n g).aud = s.aud := rfl
@[simp] theorem State.modFn_dramc (n : Nat) (g : FnState → FnState) : (s.modFn n g).dramc = s.dramc := rfl
@[simp] theorem State.modFn_staged (n : Nat) (g : FnState → FnState) : (s.modFn n g).staged = s.staged := rfl
@[simp] theorem State.modFn_out (n : Nat) (g : FnState → FnState) : (s.modFn n g).out = s.out := rfl
@[simp] theorem State.modFn_freeCtr (n : Nat) (g : FnState → FnState) : (s.modFn n g).freeCtr = s.freeCtr := rfl
@[simp] theorem State.modFn_pending (n : Nat) (g : FnState → FnState) : (s.modFn n g).pending = s.pending := rfl

/-! ### modTenant -/

@[simp] theorem State.modTenant_variant (n : Nat) (g : Tenant → Tenant) : (s.modTenant n g).variant = s.variant := rfl
@[simp] theorem State.modTenant_now (n : Nat) (g : Tenant → Tenant) : (s.modTenant n g).now = s.now := rfl
@[simp] theorem State.modTenant_regs (n : Nat) (g : Tenant → Tenant) : (s.modTenant n g).regs = s.regs := rfl
@[simp] theorem State.modTenant_mem (n : Nat) (g : Tenant → Tenant) : (s.modTenant n g).mem = s.mem := rfl
@[simp] theorem State.modTenant_wall (n : Nat) (g : Tenant → Tenant) : (s.modTenant n g).wall = s.wall := rfl
@[simp] theorem State.modTenant_ports (n : Nat) (g : Tenant → Tenant) : (s.modTenant n g).ports = s.ports := rfl
@[simp] theorem State.modTenant_pkt (n : Nat) (g : Tenant → Tenant) : (s.modTenant n g).pkt = s.pkt := rfl
@[simp] theorem State.modTenant_mbq (n : Nat) (g : Tenant → Tenant) : (s.modTenant n g).mbq = s.mbq := rfl
@[simp] theorem State.modTenant_peat (n : Nat) (g : Tenant → Tenant) : (s.modTenant n g).peat = s.peat := rfl
@[simp] theorem State.modTenant_evt (n : Nat) (g : Tenant → Tenant) : (s.modTenant n g).evt = s.evt := rfl
@[simp] theorem State.modTenant_supv (n : Nat) (g : Tenant → Tenant) : (s.modTenant n g).supv = s.supv := rfl
@[simp] theorem State.modTenant_world (n : Nat) (g : Tenant → Tenant) : (s.modTenant n g).world = s.world := rfl
@[simp] theorem State.modTenant_cu (n : Nat) (g : Tenant → Tenant) : (s.modTenant n g).cu = s.cu := rfl
@[simp] theorem State.modTenant_power (n : Nat) (g : Tenant → Tenant) : (s.modTenant n g).power = s.power := rfl
@[simp] theorem State.modTenant_display (n : Nat) (g : Tenant → Tenant) : (s.modTenant n g).display = s.display := rfl
@[simp] theorem State.modTenant_gfx (n : Nat) (g : Tenant → Tenant) : (s.modTenant n g).gfx = s.gfx := rfl
@[simp] theorem State.modTenant_hap (n : Nat) (g : Tenant → Tenant) : (s.modTenant n g).hap = s.hap := rfl
@[simp] theorem State.modTenant_touch (n : Nat) (g : Tenant → Tenant) : (s.modTenant n g).touch = s.touch := rfl
@[simp] theorem State.modTenant_aud (n : Nat) (g : Tenant → Tenant) : (s.modTenant n g).aud = s.aud := rfl
@[simp] theorem State.modTenant_dramc (n : Nat) (g : Tenant → Tenant) : (s.modTenant n g).dramc = s.dramc := rfl
@[simp] theorem State.modTenant_staged (n : Nat) (g : Tenant → Tenant) : (s.modTenant n g).staged = s.staged := rfl
@[simp] theorem State.modTenant_out (n : Nat) (g : Tenant → Tenant) : (s.modTenant n g).out = s.out := rfl
@[simp] theorem State.modTenant_freeCtr (n : Nat) (g : Tenant → Tenant) : (s.modTenant n g).freeCtr = s.freeCtr := rfl
@[simp] theorem State.modTenant_pending (n : Nat) (g : Tenant → Tenant) : (s.modTenant n g).pending = s.pending := rfl

/-! ### signal -/

@[simp] theorem State.signal_variant (n v : Nat) : (s.signal n v).variant = s.variant := rfl
@[simp] theorem State.signal_now (n v : Nat) : (s.signal n v).now = s.now := rfl
@[simp] theorem State.signal_regs (n v : Nat) : (s.signal n v).regs = s.regs := rfl
@[simp] theorem State.signal_mem (n v : Nat) : (s.signal n v).mem = s.mem := rfl
@[simp] theorem State.signal_wall (n v : Nat) : (s.signal n v).wall = s.wall := rfl
@[simp] theorem State.signal_ports (n v : Nat) : (s.signal n v).ports = s.ports := rfl
@[simp] theorem State.signal_pkt (n v : Nat) : (s.signal n v).pkt = s.pkt := rfl
@[simp] theorem State.signal_mbq (n v : Nat) : (s.signal n v).mbq = s.mbq := rfl
@[simp] theorem State.signal_peat (n v : Nat) : (s.signal n v).peat = s.peat := rfl
@[simp] theorem State.signal_evt (n v : Nat) : (s.signal n v).evt = s.evt := rfl
@[simp] theorem State.signal_supv (n v : Nat) : (s.signal n v).supv = s.supv := rfl
@[simp] theorem State.signal_world (n v : Nat) : (s.signal n v).world = s.world := rfl
@[simp] theorem State.signal_cu (n v : Nat) : (s.signal n v).cu = s.cu := rfl
@[simp] theorem State.signal_power (n v : Nat) : (s.signal n v).power = s.power := rfl
@[simp] theorem State.signal_display (n v : Nat) : (s.signal n v).display = s.display := rfl
@[simp] theorem State.signal_gfx (n v : Nat) : (s.signal n v).gfx = s.gfx := rfl
@[simp] theorem State.signal_hap (n v : Nat) : (s.signal n v).hap = s.hap := rfl
@[simp] theorem State.signal_touch (n v : Nat) : (s.signal n v).touch = s.touch := rfl
@[simp] theorem State.signal_aud (n v : Nat) : (s.signal n v).aud = s.aud := rfl
@[simp] theorem State.signal_dramc (n v : Nat) : (s.signal n v).dramc = s.dramc := rfl
@[simp] theorem State.signal_staged (n v : Nat) : (s.signal n v).staged = s.staged := rfl
@[simp] theorem State.signal_out (n v : Nat) : (s.signal n v).out = s.out := rfl
@[simp] theorem State.signal_freeCtr (n v : Nat) : (s.signal n v).freeCtr = s.freeCtr := rfl
@[simp] theorem State.signal_pending (n v : Nat) : (s.signal n v).pending = s.pending := rfl

/-! ### signalFixed -/

@[simp] theorem State.signalFixed_variant (n u : Nat) : (s.signalFixed n u).variant = s.variant := rfl
@[simp] theorem State.signalFixed_now (n u : Nat) : (s.signalFixed n u).now = s.now := rfl
@[simp] theorem State.signalFixed_regs (n u : Nat) : (s.signalFixed n u).regs = s.regs := rfl
@[simp] theorem State.signalFixed_mem (n u : Nat) : (s.signalFixed n u).mem = s.mem := rfl
@[simp] theorem State.signalFixed_wall (n u : Nat) : (s.signalFixed n u).wall = s.wall := rfl
@[simp] theorem State.signalFixed_ports (n u : Nat) : (s.signalFixed n u).ports = s.ports := rfl
@[simp] theorem State.signalFixed_pkt (n u : Nat) : (s.signalFixed n u).pkt = s.pkt := rfl
@[simp] theorem State.signalFixed_mbq (n u : Nat) : (s.signalFixed n u).mbq = s.mbq := rfl
@[simp] theorem State.signalFixed_peat (n u : Nat) : (s.signalFixed n u).peat = s.peat := rfl
@[simp] theorem State.signalFixed_evt (n u : Nat) : (s.signalFixed n u).evt = s.evt := rfl
@[simp] theorem State.signalFixed_supv (n u : Nat) : (s.signalFixed n u).supv = s.supv := rfl
@[simp] theorem State.signalFixed_world (n u : Nat) : (s.signalFixed n u).world = s.world := rfl
@[simp] theorem State.signalFixed_cu (n u : Nat) : (s.signalFixed n u).cu = s.cu := rfl
@[simp] theorem State.signalFixed_power (n u : Nat) : (s.signalFixed n u).power = s.power := rfl
@[simp] theorem State.signalFixed_display (n u : Nat) : (s.signalFixed n u).display = s.display := rfl
@[simp] theorem State.signalFixed_gfx (n u : Nat) : (s.signalFixed n u).gfx = s.gfx := rfl
@[simp] theorem State.signalFixed_hap (n u : Nat) : (s.signalFixed n u).hap = s.hap := rfl
@[simp] theorem State.signalFixed_touch (n u : Nat) : (s.signalFixed n u).touch = s.touch := rfl
@[simp] theorem State.signalFixed_aud (n u : Nat) : (s.signalFixed n u).aud = s.aud := rfl
@[simp] theorem State.signalFixed_dramc (n u : Nat) : (s.signalFixed n u).dramc = s.dramc := rfl
@[simp] theorem State.signalFixed_staged (n u : Nat) : (s.signalFixed n u).staged = s.staged := rfl
@[simp] theorem State.signalFixed_out (n u : Nat) : (s.signalFixed n u).out = s.out := rfl
@[simp] theorem State.signalFixed_freeCtr (n u : Nat) : (s.signalFixed n u).freeCtr = s.freeCtr := rfl
@[simp] theorem State.signalFixed_pending (n u : Nat) : (s.signalFixed n u).pending = s.pending := rfl

/-! ### mirrorDue -/

@[simp] theorem State.mirrorDue_variant (n : Nat) : (s.mirrorDue n).variant = s.variant := rfl
@[simp] theorem State.mirrorDue_now (n : Nat) : (s.mirrorDue n).now = s.now := rfl
@[simp] theorem State.mirrorDue_regs (n : Nat) : (s.mirrorDue n).regs = s.regs := rfl
@[simp] theorem State.mirrorDue_mem (n : Nat) : (s.mirrorDue n).mem = s.mem := rfl
@[simp] theorem State.mirrorDue_wall (n : Nat) : (s.mirrorDue n).wall = s.wall := rfl
@[simp] theorem State.mirrorDue_ports (n : Nat) : (s.mirrorDue n).ports = s.ports := rfl
@[simp] theorem State.mirrorDue_pkt (n : Nat) : (s.mirrorDue n).pkt = s.pkt := rfl
@[simp] theorem State.mirrorDue_mbq (n : Nat) : (s.mirrorDue n).mbq = s.mbq := rfl
@[simp] theorem State.mirrorDue_peat (n : Nat) : (s.mirrorDue n).peat = s.peat := rfl
@[simp] theorem State.mirrorDue_evt (n : Nat) : (s.mirrorDue n).evt = s.evt := rfl
@[simp] theorem State.mirrorDue_supv (n : Nat) : (s.mirrorDue n).supv = s.supv := rfl
@[simp] theorem State.mirrorDue_world (n : Nat) : (s.mirrorDue n).world = s.world := rfl
@[simp] theorem State.mirrorDue_cu (n : Nat) : (s.mirrorDue n).cu = s.cu := rfl
@[simp] theorem State.mirrorDue_power (n : Nat) : (s.mirrorDue n).power = s.power := rfl
@[simp] theorem State.mirrorDue_display (n : Nat) : (s.mirrorDue n).display = s.display := rfl
@[simp] theorem State.mirrorDue_gfx (n : Nat) : (s.mirrorDue n).gfx = s.gfx := rfl
@[simp] theorem State.mirrorDue_hap (n : Nat) : (s.mirrorDue n).hap = s.hap := rfl
@[simp] theorem State.mirrorDue_touch (n : Nat) : (s.mirrorDue n).touch = s.touch := rfl
@[simp] theorem State.mirrorDue_aud (n : Nat) : (s.mirrorDue n).aud = s.aud := rfl
@[simp] theorem State.mirrorDue_dramc (n : Nat) : (s.mirrorDue n).dramc = s.dramc := rfl
@[simp] theorem State.mirrorDue_staged (n : Nat) : (s.mirrorDue n).staged = s.staged := rfl
@[simp] theorem State.mirrorDue_out (n : Nat) : (s.mirrorDue n).out = s.out := rfl
@[simp] theorem State.mirrorDue_freeCtr (n : Nat) : (s.mirrorDue n).freeCtr = s.freeCtr := rfl
@[simp] theorem State.mirrorDue_pending (n : Nat) : (s.mirrorDue n).pending = s.pending := rfl

/-! ### modWall -/

@[simp] theorem State.modWall_variant (g : WallState → WallState) : (s.modWall g).variant = s.variant := rfl
@[simp] theorem State.modWall_now (g : WallState → WallState) : (s.modWall g).now = s.now := rfl
@[simp] theorem State.modWall_regs (g : WallState → WallState) : (s.modWall g).regs = s.regs := rfl
@[simp] theorem State.modWall_mem (g : WallState → WallState) : (s.modWall g).mem = s.mem := rfl
@[simp] theorem State.modWall_fns (g : WallState → WallState) : (s.modWall g).fns = s.fns := rfl
@[simp] theorem State.modWall_ports (g : WallState → WallState) : (s.modWall g).ports = s.ports := rfl
@[simp] theorem State.modWall_pkt (g : WallState → WallState) : (s.modWall g).pkt = s.pkt := rfl
@[simp] theorem State.modWall_mbq (g : WallState → WallState) : (s.modWall g).mbq = s.mbq := rfl
@[simp] theorem State.modWall_peat (g : WallState → WallState) : (s.modWall g).peat = s.peat := rfl
@[simp] theorem State.modWall_evt (g : WallState → WallState) : (s.modWall g).evt = s.evt := rfl
@[simp] theorem State.modWall_supv (g : WallState → WallState) : (s.modWall g).supv = s.supv := rfl
@[simp] theorem State.modWall_world (g : WallState → WallState) : (s.modWall g).world = s.world := rfl
@[simp] theorem State.modWall_cu (g : WallState → WallState) : (s.modWall g).cu = s.cu := rfl
@[simp] theorem State.modWall_power (g : WallState → WallState) : (s.modWall g).power = s.power := rfl
@[simp] theorem State.modWall_display (g : WallState → WallState) : (s.modWall g).display = s.display := rfl
@[simp] theorem State.modWall_gfx (g : WallState → WallState) : (s.modWall g).gfx = s.gfx := rfl
@[simp] theorem State.modWall_hap (g : WallState → WallState) : (s.modWall g).hap = s.hap := rfl
@[simp] theorem State.modWall_touch (g : WallState → WallState) : (s.modWall g).touch = s.touch := rfl
@[simp] theorem State.modWall_aud (g : WallState → WallState) : (s.modWall g).aud = s.aud := rfl
@[simp] theorem State.modWall_dramc (g : WallState → WallState) : (s.modWall g).dramc = s.dramc := rfl
@[simp] theorem State.modWall_staged (g : WallState → WallState) : (s.modWall g).staged = s.staged := rfl
@[simp] theorem State.modWall_out (g : WallState → WallState) : (s.modWall g).out = s.out := rfl
@[simp] theorem State.modWall_freeCtr (g : WallState → WallState) : (s.modWall g).freeCtr = s.freeCtr := rfl
@[simp] theorem State.modWall_pending (g : WallState → WallState) : (s.modWall g).pending = s.pending := rfl

/-! ### modHostPort -/

@[simp] theorem State.modHostPort_variant (p : Nat) (g : PortState → PortState) : (s.modHostPort p g).variant = s.variant := rfl
@[simp] theorem State.modHostPort_now (p : Nat) (g : PortState → PortState) : (s.modHostPort p g).now = s.now := rfl
@[simp] theorem State.modHostPort_regs (p : Nat) (g : PortState → PortState) : (s.modHostPort p g).regs = s.regs := rfl
@[simp] theorem State.modHostPort_mem (p : Nat) (g : PortState → PortState) : (s.modHostPort p g).mem = s.mem := rfl
@[simp] theorem State.modHostPort_wall (p : Nat) (g : PortState → PortState) : (s.modHostPort p g).wall = s.wall := rfl
@[simp] theorem State.modHostPort_fns (p : Nat) (g : PortState → PortState) : (s.modHostPort p g).fns = s.fns := rfl
@[simp] theorem State.modHostPort_pkt (p : Nat) (g : PortState → PortState) : (s.modHostPort p g).pkt = s.pkt := rfl
@[simp] theorem State.modHostPort_mbq (p : Nat) (g : PortState → PortState) : (s.modHostPort p g).mbq = s.mbq := rfl
@[simp] theorem State.modHostPort_peat (p : Nat) (g : PortState → PortState) : (s.modHostPort p g).peat = s.peat := rfl
@[simp] theorem State.modHostPort_evt (p : Nat) (g : PortState → PortState) : (s.modHostPort p g).evt = s.evt := rfl
@[simp] theorem State.modHostPort_supv (p : Nat) (g : PortState → PortState) : (s.modHostPort p g).supv = s.supv := rfl
@[simp] theorem State.modHostPort_world (p : Nat) (g : PortState → PortState) : (s.modHostPort p g).world = s.world := rfl
@[simp] theorem State.modHostPort_cu (p : Nat) (g : PortState → PortState) : (s.modHostPort p g).cu = s.cu := rfl
@[simp] theorem State.modHostPort_power (p : Nat) (g : PortState → PortState) : (s.modHostPort p g).power = s.power := rfl
@[simp] theorem State.modHostPort_display (p : Nat) (g : PortState → PortState) : (s.modHostPort p g).display = s.display := rfl
@[simp] theorem State.modHostPort_gfx (p : Nat) (g : PortState → PortState) : (s.modHostPort p g).gfx = s.gfx := rfl
@[simp] theorem State.modHostPort_hap (p : Nat) (g : PortState → PortState) : (s.modHostPort p g).hap = s.hap := rfl
@[simp] theorem State.modHostPort_touch (p : Nat) (g : PortState → PortState) : (s.modHostPort p g).touch = s.touch := rfl
@[simp] theorem State.modHostPort_aud (p : Nat) (g : PortState → PortState) : (s.modHostPort p g).aud = s.aud := rfl
@[simp] theorem State.modHostPort_dramc (p : Nat) (g : PortState → PortState) : (s.modHostPort p g).dramc = s.dramc := rfl
@[simp] theorem State.modHostPort_staged (p : Nat) (g : PortState → PortState) : (s.modHostPort p g).staged = s.staged := rfl
@[simp] theorem State.modHostPort_out (p : Nat) (g : PortState → PortState) : (s.modHostPort p g).out = s.out := rfl
@[simp] theorem State.modHostPort_freeCtr (p : Nat) (g : PortState → PortState) : (s.modHostPort p g).freeCtr = s.freeCtr := rfl
@[simp] theorem State.modHostPort_pending (p : Nat) (g : PortState → PortState) : (s.modHostPort p g).pending = s.pending := rfl

/-! ### modMbq -/

@[simp] theorem State.modMbq_variant (g : MbqState → MbqState) : (s.modMbq g).variant = s.variant := rfl
@[simp] theorem State.modMbq_now (g : MbqState → MbqState) : (s.modMbq g).now = s.now := rfl
@[simp] theorem State.modMbq_regs (g : MbqState → MbqState) : (s.modMbq g).regs = s.regs := rfl
@[simp] theorem State.modMbq_mem (g : MbqState → MbqState) : (s.modMbq g).mem = s.mem := rfl
@[simp] theorem State.modMbq_wall (g : MbqState → MbqState) : (s.modMbq g).wall = s.wall := rfl
@[simp] theorem State.modMbq_fns (g : MbqState → MbqState) : (s.modMbq g).fns = s.fns := rfl
@[simp] theorem State.modMbq_ports (g : MbqState → MbqState) : (s.modMbq g).ports = s.ports := rfl
@[simp] theorem State.modMbq_pkt (g : MbqState → MbqState) : (s.modMbq g).pkt = s.pkt := rfl
@[simp] theorem State.modMbq_peat (g : MbqState → MbqState) : (s.modMbq g).peat = s.peat := rfl
@[simp] theorem State.modMbq_evt (g : MbqState → MbqState) : (s.modMbq g).evt = s.evt := rfl
@[simp] theorem State.modMbq_supv (g : MbqState → MbqState) : (s.modMbq g).supv = s.supv := rfl
@[simp] theorem State.modMbq_world (g : MbqState → MbqState) : (s.modMbq g).world = s.world := rfl
@[simp] theorem State.modMbq_cu (g : MbqState → MbqState) : (s.modMbq g).cu = s.cu := rfl
@[simp] theorem State.modMbq_power (g : MbqState → MbqState) : (s.modMbq g).power = s.power := rfl
@[simp] theorem State.modMbq_display (g : MbqState → MbqState) : (s.modMbq g).display = s.display := rfl
@[simp] theorem State.modMbq_gfx (g : MbqState → MbqState) : (s.modMbq g).gfx = s.gfx := rfl
@[simp] theorem State.modMbq_hap (g : MbqState → MbqState) : (s.modMbq g).hap = s.hap := rfl
@[simp] theorem State.modMbq_touch (g : MbqState → MbqState) : (s.modMbq g).touch = s.touch := rfl
@[simp] theorem State.modMbq_aud (g : MbqState → MbqState) : (s.modMbq g).aud = s.aud := rfl
@[simp] theorem State.modMbq_dramc (g : MbqState → MbqState) : (s.modMbq g).dramc = s.dramc := rfl
@[simp] theorem State.modMbq_staged (g : MbqState → MbqState) : (s.modMbq g).staged = s.staged := rfl
@[simp] theorem State.modMbq_out (g : MbqState → MbqState) : (s.modMbq g).out = s.out := rfl
@[simp] theorem State.modMbq_freeCtr (g : MbqState → MbqState) : (s.modMbq g).freeCtr = s.freeCtr := rfl
@[simp] theorem State.modMbq_pending (g : MbqState → MbqState) : (s.modMbq g).pending = s.pending := rfl

/-! ### modPeat -/

@[simp] theorem State.modPeat_variant (g : PeatState → PeatState) : (s.modPeat g).variant = s.variant := rfl
@[simp] theorem State.modPeat_now (g : PeatState → PeatState) : (s.modPeat g).now = s.now := rfl
@[simp] theorem State.modPeat_regs (g : PeatState → PeatState) : (s.modPeat g).regs = s.regs := rfl
@[simp] theorem State.modPeat_mem (g : PeatState → PeatState) : (s.modPeat g).mem = s.mem := rfl
@[simp] theorem State.modPeat_wall (g : PeatState → PeatState) : (s.modPeat g).wall = s.wall := rfl
@[simp] theorem State.modPeat_fns (g : PeatState → PeatState) : (s.modPeat g).fns = s.fns := rfl
@[simp] theorem State.modPeat_ports (g : PeatState → PeatState) : (s.modPeat g).ports = s.ports := rfl
@[simp] theorem State.modPeat_pkt (g : PeatState → PeatState) : (s.modPeat g).pkt = s.pkt := rfl
@[simp] theorem State.modPeat_mbq (g : PeatState → PeatState) : (s.modPeat g).mbq = s.mbq := rfl
@[simp] theorem State.modPeat_evt (g : PeatState → PeatState) : (s.modPeat g).evt = s.evt := rfl
@[simp] theorem State.modPeat_supv (g : PeatState → PeatState) : (s.modPeat g).supv = s.supv := rfl
@[simp] theorem State.modPeat_world (g : PeatState → PeatState) : (s.modPeat g).world = s.world := rfl
@[simp] theorem State.modPeat_cu (g : PeatState → PeatState) : (s.modPeat g).cu = s.cu := rfl
@[simp] theorem State.modPeat_power (g : PeatState → PeatState) : (s.modPeat g).power = s.power := rfl
@[simp] theorem State.modPeat_display (g : PeatState → PeatState) : (s.modPeat g).display = s.display := rfl
@[simp] theorem State.modPeat_gfx (g : PeatState → PeatState) : (s.modPeat g).gfx = s.gfx := rfl
@[simp] theorem State.modPeat_hap (g : PeatState → PeatState) : (s.modPeat g).hap = s.hap := rfl
@[simp] theorem State.modPeat_touch (g : PeatState → PeatState) : (s.modPeat g).touch = s.touch := rfl
@[simp] theorem State.modPeat_aud (g : PeatState → PeatState) : (s.modPeat g).aud = s.aud := rfl
@[simp] theorem State.modPeat_dramc (g : PeatState → PeatState) : (s.modPeat g).dramc = s.dramc := rfl
@[simp] theorem State.modPeat_staged (g : PeatState → PeatState) : (s.modPeat g).staged = s.staged := rfl
@[simp] theorem State.modPeat_out (g : PeatState → PeatState) : (s.modPeat g).out = s.out := rfl
@[simp] theorem State.modPeat_freeCtr (g : PeatState → PeatState) : (s.modPeat g).freeCtr = s.freeCtr := rfl
@[simp] theorem State.modPeat_pending (g : PeatState → PeatState) : (s.modPeat g).pending = s.pending := rfl

/-! ### modSupv -/

@[simp] theorem State.modSupv_variant (g : SupvState → SupvState) : (s.modSupv g).variant = s.variant := rfl
@[simp] theorem State.modSupv_now (g : SupvState → SupvState) : (s.modSupv g).now = s.now := rfl
@[simp] theorem State.modSupv_regs (g : SupvState → SupvState) : (s.modSupv g).regs = s.regs := rfl
@[simp] theorem State.modSupv_mem (g : SupvState → SupvState) : (s.modSupv g).mem = s.mem := rfl
@[simp] theorem State.modSupv_wall (g : SupvState → SupvState) : (s.modSupv g).wall = s.wall := rfl
@[simp] theorem State.modSupv_fns (g : SupvState → SupvState) : (s.modSupv g).fns = s.fns := rfl
@[simp] theorem State.modSupv_ports (g : SupvState → SupvState) : (s.modSupv g).ports = s.ports := rfl
@[simp] theorem State.modSupv_pkt (g : SupvState → SupvState) : (s.modSupv g).pkt = s.pkt := rfl
@[simp] theorem State.modSupv_mbq (g : SupvState → SupvState) : (s.modSupv g).mbq = s.mbq := rfl
@[simp] theorem State.modSupv_peat (g : SupvState → SupvState) : (s.modSupv g).peat = s.peat := rfl
@[simp] theorem State.modSupv_evt (g : SupvState → SupvState) : (s.modSupv g).evt = s.evt := rfl
@[simp] theorem State.modSupv_world (g : SupvState → SupvState) : (s.modSupv g).world = s.world := rfl
@[simp] theorem State.modSupv_cu (g : SupvState → SupvState) : (s.modSupv g).cu = s.cu := rfl
@[simp] theorem State.modSupv_power (g : SupvState → SupvState) : (s.modSupv g).power = s.power := rfl
@[simp] theorem State.modSupv_display (g : SupvState → SupvState) : (s.modSupv g).display = s.display := rfl
@[simp] theorem State.modSupv_gfx (g : SupvState → SupvState) : (s.modSupv g).gfx = s.gfx := rfl
@[simp] theorem State.modSupv_hap (g : SupvState → SupvState) : (s.modSupv g).hap = s.hap := rfl
@[simp] theorem State.modSupv_touch (g : SupvState → SupvState) : (s.modSupv g).touch = s.touch := rfl
@[simp] theorem State.modSupv_aud (g : SupvState → SupvState) : (s.modSupv g).aud = s.aud := rfl
@[simp] theorem State.modSupv_dramc (g : SupvState → SupvState) : (s.modSupv g).dramc = s.dramc := rfl
@[simp] theorem State.modSupv_staged (g : SupvState → SupvState) : (s.modSupv g).staged = s.staged := rfl
@[simp] theorem State.modSupv_out (g : SupvState → SupvState) : (s.modSupv g).out = s.out := rfl
@[simp] theorem State.modSupv_freeCtr (g : SupvState → SupvState) : (s.modSupv g).freeCtr = s.freeCtr := rfl
@[simp] theorem State.modSupv_pending (g : SupvState → SupvState) : (s.modSupv g).pending = s.pending := rfl

/-! ### modCu -/

@[simp] theorem State.modCu_variant (g : CuState → CuState) : (s.modCu g).variant = s.variant := rfl
@[simp] theorem State.modCu_now (g : CuState → CuState) : (s.modCu g).now = s.now := rfl
@[simp] theorem State.modCu_regs (g : CuState → CuState) : (s.modCu g).regs = s.regs := rfl
@[simp] theorem State.modCu_mem (g : CuState → CuState) : (s.modCu g).mem = s.mem := rfl
@[simp] theorem State.modCu_wall (g : CuState → CuState) : (s.modCu g).wall = s.wall := rfl
@[simp] theorem State.modCu_fns (g : CuState → CuState) : (s.modCu g).fns = s.fns := rfl
@[simp] theorem State.modCu_ports (g : CuState → CuState) : (s.modCu g).ports = s.ports := rfl
@[simp] theorem State.modCu_pkt (g : CuState → CuState) : (s.modCu g).pkt = s.pkt := rfl
@[simp] theorem State.modCu_mbq (g : CuState → CuState) : (s.modCu g).mbq = s.mbq := rfl
@[simp] theorem State.modCu_peat (g : CuState → CuState) : (s.modCu g).peat = s.peat := rfl
@[simp] theorem State.modCu_evt (g : CuState → CuState) : (s.modCu g).evt = s.evt := rfl
@[simp] theorem State.modCu_supv (g : CuState → CuState) : (s.modCu g).supv = s.supv := rfl
@[simp] theorem State.modCu_world (g : CuState → CuState) : (s.modCu g).world = s.world := rfl
@[simp] theorem State.modCu_power (g : CuState → CuState) : (s.modCu g).power = s.power := rfl
@[simp] theorem State.modCu_display (g : CuState → CuState) : (s.modCu g).display = s.display := rfl
@[simp] theorem State.modCu_gfx (g : CuState → CuState) : (s.modCu g).gfx = s.gfx := rfl
@[simp] theorem State.modCu_hap (g : CuState → CuState) : (s.modCu g).hap = s.hap := rfl
@[simp] theorem State.modCu_touch (g : CuState → CuState) : (s.modCu g).touch = s.touch := rfl
@[simp] theorem State.modCu_aud (g : CuState → CuState) : (s.modCu g).aud = s.aud := rfl
@[simp] theorem State.modCu_dramc (g : CuState → CuState) : (s.modCu g).dramc = s.dramc := rfl
@[simp] theorem State.modCu_staged (g : CuState → CuState) : (s.modCu g).staged = s.staged := rfl
@[simp] theorem State.modCu_out (g : CuState → CuState) : (s.modCu g).out = s.out := rfl
@[simp] theorem State.modCu_freeCtr (g : CuState → CuState) : (s.modCu g).freeCtr = s.freeCtr := rfl
@[simp] theorem State.modCu_pending (g : CuState → CuState) : (s.modCu g).pending = s.pending := rfl

/-! ### modPower -/

@[simp] theorem State.modPower_variant (g : PowerState → PowerState) : (s.modPower g).variant = s.variant := rfl
@[simp] theorem State.modPower_now (g : PowerState → PowerState) : (s.modPower g).now = s.now := rfl
@[simp] theorem State.modPower_regs (g : PowerState → PowerState) : (s.modPower g).regs = s.regs := rfl
@[simp] theorem State.modPower_mem (g : PowerState → PowerState) : (s.modPower g).mem = s.mem := rfl
@[simp] theorem State.modPower_wall (g : PowerState → PowerState) : (s.modPower g).wall = s.wall := rfl
@[simp] theorem State.modPower_fns (g : PowerState → PowerState) : (s.modPower g).fns = s.fns := rfl
@[simp] theorem State.modPower_ports (g : PowerState → PowerState) : (s.modPower g).ports = s.ports := rfl
@[simp] theorem State.modPower_pkt (g : PowerState → PowerState) : (s.modPower g).pkt = s.pkt := rfl
@[simp] theorem State.modPower_mbq (g : PowerState → PowerState) : (s.modPower g).mbq = s.mbq := rfl
@[simp] theorem State.modPower_peat (g : PowerState → PowerState) : (s.modPower g).peat = s.peat := rfl
@[simp] theorem State.modPower_evt (g : PowerState → PowerState) : (s.modPower g).evt = s.evt := rfl
@[simp] theorem State.modPower_supv (g : PowerState → PowerState) : (s.modPower g).supv = s.supv := rfl
@[simp] theorem State.modPower_world (g : PowerState → PowerState) : (s.modPower g).world = s.world := rfl
@[simp] theorem State.modPower_cu (g : PowerState → PowerState) : (s.modPower g).cu = s.cu := rfl
@[simp] theorem State.modPower_display (g : PowerState → PowerState) : (s.modPower g).display = s.display := rfl
@[simp] theorem State.modPower_gfx (g : PowerState → PowerState) : (s.modPower g).gfx = s.gfx := rfl
@[simp] theorem State.modPower_hap (g : PowerState → PowerState) : (s.modPower g).hap = s.hap := rfl
@[simp] theorem State.modPower_touch (g : PowerState → PowerState) : (s.modPower g).touch = s.touch := rfl
@[simp] theorem State.modPower_aud (g : PowerState → PowerState) : (s.modPower g).aud = s.aud := rfl
@[simp] theorem State.modPower_dramc (g : PowerState → PowerState) : (s.modPower g).dramc = s.dramc := rfl
@[simp] theorem State.modPower_staged (g : PowerState → PowerState) : (s.modPower g).staged = s.staged := rfl
@[simp] theorem State.modPower_out (g : PowerState → PowerState) : (s.modPower g).out = s.out := rfl
@[simp] theorem State.modPower_freeCtr (g : PowerState → PowerState) : (s.modPower g).freeCtr = s.freeCtr := rfl
@[simp] theorem State.modPower_pending (g : PowerState → PowerState) : (s.modPower g).pending = s.pending := rfl

/-! ### modDisplay -/

@[simp] theorem State.modDisplay_variant (g : DisplayState → DisplayState) : (s.modDisplay g).variant = s.variant := rfl
@[simp] theorem State.modDisplay_now (g : DisplayState → DisplayState) : (s.modDisplay g).now = s.now := rfl
@[simp] theorem State.modDisplay_regs (g : DisplayState → DisplayState) : (s.modDisplay g).regs = s.regs := rfl
@[simp] theorem State.modDisplay_mem (g : DisplayState → DisplayState) : (s.modDisplay g).mem = s.mem := rfl
@[simp] theorem State.modDisplay_wall (g : DisplayState → DisplayState) : (s.modDisplay g).wall = s.wall := rfl
@[simp] theorem State.modDisplay_fns (g : DisplayState → DisplayState) : (s.modDisplay g).fns = s.fns := rfl
@[simp] theorem State.modDisplay_ports (g : DisplayState → DisplayState) : (s.modDisplay g).ports = s.ports := rfl
@[simp] theorem State.modDisplay_pkt (g : DisplayState → DisplayState) : (s.modDisplay g).pkt = s.pkt := rfl
@[simp] theorem State.modDisplay_mbq (g : DisplayState → DisplayState) : (s.modDisplay g).mbq = s.mbq := rfl
@[simp] theorem State.modDisplay_peat (g : DisplayState → DisplayState) : (s.modDisplay g).peat = s.peat := rfl
@[simp] theorem State.modDisplay_evt (g : DisplayState → DisplayState) : (s.modDisplay g).evt = s.evt := rfl
@[simp] theorem State.modDisplay_supv (g : DisplayState → DisplayState) : (s.modDisplay g).supv = s.supv := rfl
@[simp] theorem State.modDisplay_world (g : DisplayState → DisplayState) : (s.modDisplay g).world = s.world := rfl
@[simp] theorem State.modDisplay_cu (g : DisplayState → DisplayState) : (s.modDisplay g).cu = s.cu := rfl
@[simp] theorem State.modDisplay_power (g : DisplayState → DisplayState) : (s.modDisplay g).power = s.power := rfl
@[simp] theorem State.modDisplay_gfx (g : DisplayState → DisplayState) : (s.modDisplay g).gfx = s.gfx := rfl
@[simp] theorem State.modDisplay_hap (g : DisplayState → DisplayState) : (s.modDisplay g).hap = s.hap := rfl
@[simp] theorem State.modDisplay_touch (g : DisplayState → DisplayState) : (s.modDisplay g).touch = s.touch := rfl
@[simp] theorem State.modDisplay_aud (g : DisplayState → DisplayState) : (s.modDisplay g).aud = s.aud := rfl
@[simp] theorem State.modDisplay_dramc (g : DisplayState → DisplayState) : (s.modDisplay g).dramc = s.dramc := rfl
@[simp] theorem State.modDisplay_staged (g : DisplayState → DisplayState) : (s.modDisplay g).staged = s.staged := rfl
@[simp] theorem State.modDisplay_out (g : DisplayState → DisplayState) : (s.modDisplay g).out = s.out := rfl
@[simp] theorem State.modDisplay_freeCtr (g : DisplayState → DisplayState) : (s.modDisplay g).freeCtr = s.freeCtr := rfl
@[simp] theorem State.modDisplay_pending (g : DisplayState → DisplayState) : (s.modDisplay g).pending = s.pending := rfl

/-! ### modGfx -/

@[simp] theorem State.modGfx_variant (g : GfxState → GfxState) : (s.modGfx g).variant = s.variant := rfl
@[simp] theorem State.modGfx_now (g : GfxState → GfxState) : (s.modGfx g).now = s.now := rfl
@[simp] theorem State.modGfx_regs (g : GfxState → GfxState) : (s.modGfx g).regs = s.regs := rfl
@[simp] theorem State.modGfx_mem (g : GfxState → GfxState) : (s.modGfx g).mem = s.mem := rfl
@[simp] theorem State.modGfx_wall (g : GfxState → GfxState) : (s.modGfx g).wall = s.wall := rfl
@[simp] theorem State.modGfx_fns (g : GfxState → GfxState) : (s.modGfx g).fns = s.fns := rfl
@[simp] theorem State.modGfx_ports (g : GfxState → GfxState) : (s.modGfx g).ports = s.ports := rfl
@[simp] theorem State.modGfx_pkt (g : GfxState → GfxState) : (s.modGfx g).pkt = s.pkt := rfl
@[simp] theorem State.modGfx_mbq (g : GfxState → GfxState) : (s.modGfx g).mbq = s.mbq := rfl
@[simp] theorem State.modGfx_peat (g : GfxState → GfxState) : (s.modGfx g).peat = s.peat := rfl
@[simp] theorem State.modGfx_evt (g : GfxState → GfxState) : (s.modGfx g).evt = s.evt := rfl
@[simp] theorem State.modGfx_supv (g : GfxState → GfxState) : (s.modGfx g).supv = s.supv := rfl
@[simp] theorem State.modGfx_world (g : GfxState → GfxState) : (s.modGfx g).world = s.world := rfl
@[simp] theorem State.modGfx_cu (g : GfxState → GfxState) : (s.modGfx g).cu = s.cu := rfl
@[simp] theorem State.modGfx_power (g : GfxState → GfxState) : (s.modGfx g).power = s.power := rfl
@[simp] theorem State.modGfx_display (g : GfxState → GfxState) : (s.modGfx g).display = s.display := rfl
@[simp] theorem State.modGfx_hap (g : GfxState → GfxState) : (s.modGfx g).hap = s.hap := rfl
@[simp] theorem State.modGfx_touch (g : GfxState → GfxState) : (s.modGfx g).touch = s.touch := rfl
@[simp] theorem State.modGfx_aud (g : GfxState → GfxState) : (s.modGfx g).aud = s.aud := rfl
@[simp] theorem State.modGfx_dramc (g : GfxState → GfxState) : (s.modGfx g).dramc = s.dramc := rfl
@[simp] theorem State.modGfx_staged (g : GfxState → GfxState) : (s.modGfx g).staged = s.staged := rfl
@[simp] theorem State.modGfx_out (g : GfxState → GfxState) : (s.modGfx g).out = s.out := rfl
@[simp] theorem State.modGfx_freeCtr (g : GfxState → GfxState) : (s.modGfx g).freeCtr = s.freeCtr := rfl
@[simp] theorem State.modGfx_pending (g : GfxState → GfxState) : (s.modGfx g).pending = s.pending := rfl

/-! ### modHap -/

@[simp] theorem State.modHap_variant (g : HapState → HapState) : (s.modHap g).variant = s.variant := rfl
@[simp] theorem State.modHap_now (g : HapState → HapState) : (s.modHap g).now = s.now := rfl
@[simp] theorem State.modHap_regs (g : HapState → HapState) : (s.modHap g).regs = s.regs := rfl
@[simp] theorem State.modHap_mem (g : HapState → HapState) : (s.modHap g).mem = s.mem := rfl
@[simp] theorem State.modHap_wall (g : HapState → HapState) : (s.modHap g).wall = s.wall := rfl
@[simp] theorem State.modHap_fns (g : HapState → HapState) : (s.modHap g).fns = s.fns := rfl
@[simp] theorem State.modHap_ports (g : HapState → HapState) : (s.modHap g).ports = s.ports := rfl
@[simp] theorem State.modHap_pkt (g : HapState → HapState) : (s.modHap g).pkt = s.pkt := rfl
@[simp] theorem State.modHap_mbq (g : HapState → HapState) : (s.modHap g).mbq = s.mbq := rfl
@[simp] theorem State.modHap_peat (g : HapState → HapState) : (s.modHap g).peat = s.peat := rfl
@[simp] theorem State.modHap_evt (g : HapState → HapState) : (s.modHap g).evt = s.evt := rfl
@[simp] theorem State.modHap_supv (g : HapState → HapState) : (s.modHap g).supv = s.supv := rfl
@[simp] theorem State.modHap_world (g : HapState → HapState) : (s.modHap g).world = s.world := rfl
@[simp] theorem State.modHap_cu (g : HapState → HapState) : (s.modHap g).cu = s.cu := rfl
@[simp] theorem State.modHap_power (g : HapState → HapState) : (s.modHap g).power = s.power := rfl
@[simp] theorem State.modHap_display (g : HapState → HapState) : (s.modHap g).display = s.display := rfl
@[simp] theorem State.modHap_gfx (g : HapState → HapState) : (s.modHap g).gfx = s.gfx := rfl
@[simp] theorem State.modHap_touch (g : HapState → HapState) : (s.modHap g).touch = s.touch := rfl
@[simp] theorem State.modHap_aud (g : HapState → HapState) : (s.modHap g).aud = s.aud := rfl
@[simp] theorem State.modHap_dramc (g : HapState → HapState) : (s.modHap g).dramc = s.dramc := rfl
@[simp] theorem State.modHap_staged (g : HapState → HapState) : (s.modHap g).staged = s.staged := rfl
@[simp] theorem State.modHap_out (g : HapState → HapState) : (s.modHap g).out = s.out := rfl
@[simp] theorem State.modHap_freeCtr (g : HapState → HapState) : (s.modHap g).freeCtr = s.freeCtr := rfl
@[simp] theorem State.modHap_pending (g : HapState → HapState) : (s.modHap g).pending = s.pending := rfl

/-! ### modPort -/

@[simp] theorem State.modPort_variant (p : Nat) (g : TouchPort → TouchPort) : (s.modPort p g).variant = s.variant := rfl
@[simp] theorem State.modPort_now (p : Nat) (g : TouchPort → TouchPort) : (s.modPort p g).now = s.now := rfl
@[simp] theorem State.modPort_regs (p : Nat) (g : TouchPort → TouchPort) : (s.modPort p g).regs = s.regs := rfl
@[simp] theorem State.modPort_mem (p : Nat) (g : TouchPort → TouchPort) : (s.modPort p g).mem = s.mem := rfl
@[simp] theorem State.modPort_wall (p : Nat) (g : TouchPort → TouchPort) : (s.modPort p g).wall = s.wall := rfl
@[simp] theorem State.modPort_fns (p : Nat) (g : TouchPort → TouchPort) : (s.modPort p g).fns = s.fns := rfl
@[simp] theorem State.modPort_ports (p : Nat) (g : TouchPort → TouchPort) : (s.modPort p g).ports = s.ports := rfl
@[simp] theorem State.modPort_pkt (p : Nat) (g : TouchPort → TouchPort) : (s.modPort p g).pkt = s.pkt := rfl
@[simp] theorem State.modPort_mbq (p : Nat) (g : TouchPort → TouchPort) : (s.modPort p g).mbq = s.mbq := rfl
@[simp] theorem State.modPort_peat (p : Nat) (g : TouchPort → TouchPort) : (s.modPort p g).peat = s.peat := rfl
@[simp] theorem State.modPort_evt (p : Nat) (g : TouchPort → TouchPort) : (s.modPort p g).evt = s.evt := rfl
@[simp] theorem State.modPort_supv (p : Nat) (g : TouchPort → TouchPort) : (s.modPort p g).supv = s.supv := rfl
@[simp] theorem State.modPort_world (p : Nat) (g : TouchPort → TouchPort) : (s.modPort p g).world = s.world := rfl
@[simp] theorem State.modPort_cu (p : Nat) (g : TouchPort → TouchPort) : (s.modPort p g).cu = s.cu := rfl
@[simp] theorem State.modPort_power (p : Nat) (g : TouchPort → TouchPort) : (s.modPort p g).power = s.power := rfl
@[simp] theorem State.modPort_display (p : Nat) (g : TouchPort → TouchPort) : (s.modPort p g).display = s.display := rfl
@[simp] theorem State.modPort_gfx (p : Nat) (g : TouchPort → TouchPort) : (s.modPort p g).gfx = s.gfx := rfl
@[simp] theorem State.modPort_hap (p : Nat) (g : TouchPort → TouchPort) : (s.modPort p g).hap = s.hap := rfl
@[simp] theorem State.modPort_aud (p : Nat) (g : TouchPort → TouchPort) : (s.modPort p g).aud = s.aud := rfl
@[simp] theorem State.modPort_dramc (p : Nat) (g : TouchPort → TouchPort) : (s.modPort p g).dramc = s.dramc := rfl
@[simp] theorem State.modPort_staged (p : Nat) (g : TouchPort → TouchPort) : (s.modPort p g).staged = s.staged := rfl
@[simp] theorem State.modPort_out (p : Nat) (g : TouchPort → TouchPort) : (s.modPort p g).out = s.out := rfl
@[simp] theorem State.modPort_freeCtr (p : Nat) (g : TouchPort → TouchPort) : (s.modPort p g).freeCtr = s.freeCtr := rfl
@[simp] theorem State.modPort_pending (p : Nat) (g : TouchPort → TouchPort) : (s.modPort p g).pending = s.pending := rfl

/-! ### modAud -/

@[simp] theorem State.modAud_variant (g : AudState → AudState) : (s.modAud g).variant = s.variant := rfl
@[simp] theorem State.modAud_now (g : AudState → AudState) : (s.modAud g).now = s.now := rfl
@[simp] theorem State.modAud_regs (g : AudState → AudState) : (s.modAud g).regs = s.regs := rfl
@[simp] theorem State.modAud_mem (g : AudState → AudState) : (s.modAud g).mem = s.mem := rfl
@[simp] theorem State.modAud_wall (g : AudState → AudState) : (s.modAud g).wall = s.wall := rfl
@[simp] theorem State.modAud_fns (g : AudState → AudState) : (s.modAud g).fns = s.fns := rfl
@[simp] theorem State.modAud_ports (g : AudState → AudState) : (s.modAud g).ports = s.ports := rfl
@[simp] theorem State.modAud_pkt (g : AudState → AudState) : (s.modAud g).pkt = s.pkt := rfl
@[simp] theorem State.modAud_mbq (g : AudState → AudState) : (s.modAud g).mbq = s.mbq := rfl
@[simp] theorem State.modAud_peat (g : AudState → AudState) : (s.modAud g).peat = s.peat := rfl
@[simp] theorem State.modAud_evt (g : AudState → AudState) : (s.modAud g).evt = s.evt := rfl
@[simp] theorem State.modAud_supv (g : AudState → AudState) : (s.modAud g).supv = s.supv := rfl
@[simp] theorem State.modAud_world (g : AudState → AudState) : (s.modAud g).world = s.world := rfl
@[simp] theorem State.modAud_cu (g : AudState → AudState) : (s.modAud g).cu = s.cu := rfl
@[simp] theorem State.modAud_power (g : AudState → AudState) : (s.modAud g).power = s.power := rfl
@[simp] theorem State.modAud_display (g : AudState → AudState) : (s.modAud g).display = s.display := rfl
@[simp] theorem State.modAud_gfx (g : AudState → AudState) : (s.modAud g).gfx = s.gfx := rfl
@[simp] theorem State.modAud_hap (g : AudState → AudState) : (s.modAud g).hap = s.hap := rfl
@[simp] theorem State.modAud_touch (g : AudState → AudState) : (s.modAud g).touch = s.touch := rfl
@[simp] theorem State.modAud_dramc (g : AudState → AudState) : (s.modAud g).dramc = s.dramc := rfl
@[simp] theorem State.modAud_staged (g : AudState → AudState) : (s.modAud g).staged = s.staged := rfl
@[simp] theorem State.modAud_out (g : AudState → AudState) : (s.modAud g).out = s.out := rfl
@[simp] theorem State.modAud_freeCtr (g : AudState → AudState) : (s.modAud g).freeCtr = s.freeCtr := rfl
@[simp] theorem State.modAud_pending (g : AudState → AudState) : (s.modAud g).pending = s.pending := rfl

/-! ### modDramc -/

@[simp] theorem State.modDramc_variant (g : DramcState → DramcState) : (s.modDramc g).variant = s.variant := rfl
@[simp] theorem State.modDramc_now (g : DramcState → DramcState) : (s.modDramc g).now = s.now := rfl
@[simp] theorem State.modDramc_regs (g : DramcState → DramcState) : (s.modDramc g).regs = s.regs := rfl
@[simp] theorem State.modDramc_mem (g : DramcState → DramcState) : (s.modDramc g).mem = s.mem := rfl
@[simp] theorem State.modDramc_wall (g : DramcState → DramcState) : (s.modDramc g).wall = s.wall := rfl
@[simp] theorem State.modDramc_fns (g : DramcState → DramcState) : (s.modDramc g).fns = s.fns := rfl
@[simp] theorem State.modDramc_ports (g : DramcState → DramcState) : (s.modDramc g).ports = s.ports := rfl
@[simp] theorem State.modDramc_pkt (g : DramcState → DramcState) : (s.modDramc g).pkt = s.pkt := rfl
@[simp] theorem State.modDramc_mbq (g : DramcState → DramcState) : (s.modDramc g).mbq = s.mbq := rfl
@[simp] theorem State.modDramc_peat (g : DramcState → DramcState) : (s.modDramc g).peat = s.peat := rfl
@[simp] theorem State.modDramc_evt (g : DramcState → DramcState) : (s.modDramc g).evt = s.evt := rfl
@[simp] theorem State.modDramc_supv (g : DramcState → DramcState) : (s.modDramc g).supv = s.supv := rfl
@[simp] theorem State.modDramc_world (g : DramcState → DramcState) : (s.modDramc g).world = s.world := rfl
@[simp] theorem State.modDramc_cu (g : DramcState → DramcState) : (s.modDramc g).cu = s.cu := rfl
@[simp] theorem State.modDramc_power (g : DramcState → DramcState) : (s.modDramc g).power = s.power := rfl
@[simp] theorem State.modDramc_display (g : DramcState → DramcState) : (s.modDramc g).display = s.display := rfl
@[simp] theorem State.modDramc_gfx (g : DramcState → DramcState) : (s.modDramc g).gfx = s.gfx := rfl
@[simp] theorem State.modDramc_hap (g : DramcState → DramcState) : (s.modDramc g).hap = s.hap := rfl
@[simp] theorem State.modDramc_touch (g : DramcState → DramcState) : (s.modDramc g).touch = s.touch := rfl
@[simp] theorem State.modDramc_aud (g : DramcState → DramcState) : (s.modDramc g).aud = s.aud := rfl
@[simp] theorem State.modDramc_staged (g : DramcState → DramcState) : (s.modDramc g).staged = s.staged := rfl
@[simp] theorem State.modDramc_out (g : DramcState → DramcState) : (s.modDramc g).out = s.out := rfl
@[simp] theorem State.modDramc_freeCtr (g : DramcState → DramcState) : (s.modDramc g).freeCtr = s.freeCtr := rfl
@[simp] theorem State.modDramc_pending (g : DramcState → DramcState) : (s.modDramc g).pending = s.pending := rfl

/-! ### copyRegs -/

@[simp] theorem State.copyRegs_variant (a b n : Nat) : (s.copyRegs a b n).variant = s.variant := rfl
@[simp] theorem State.copyRegs_now (a b n : Nat) : (s.copyRegs a b n).now = s.now := rfl
@[simp] theorem State.copyRegs_mem (a b n : Nat) : (s.copyRegs a b n).mem = s.mem := rfl
@[simp] theorem State.copyRegs_wall (a b n : Nat) : (s.copyRegs a b n).wall = s.wall := rfl
@[simp] theorem State.copyRegs_fns (a b n : Nat) : (s.copyRegs a b n).fns = s.fns := rfl
@[simp] theorem State.copyRegs_ports (a b n : Nat) : (s.copyRegs a b n).ports = s.ports := rfl
@[simp] theorem State.copyRegs_pkt (a b n : Nat) : (s.copyRegs a b n).pkt = s.pkt := rfl
@[simp] theorem State.copyRegs_mbq (a b n : Nat) : (s.copyRegs a b n).mbq = s.mbq := rfl
@[simp] theorem State.copyRegs_peat (a b n : Nat) : (s.copyRegs a b n).peat = s.peat := rfl
@[simp] theorem State.copyRegs_evt (a b n : Nat) : (s.copyRegs a b n).evt = s.evt := rfl
@[simp] theorem State.copyRegs_supv (a b n : Nat) : (s.copyRegs a b n).supv = s.supv := rfl
@[simp] theorem State.copyRegs_world (a b n : Nat) : (s.copyRegs a b n).world = s.world := rfl
@[simp] theorem State.copyRegs_cu (a b n : Nat) : (s.copyRegs a b n).cu = s.cu := rfl
@[simp] theorem State.copyRegs_power (a b n : Nat) : (s.copyRegs a b n).power = s.power := rfl
@[simp] theorem State.copyRegs_display (a b n : Nat) : (s.copyRegs a b n).display = s.display := rfl
@[simp] theorem State.copyRegs_gfx (a b n : Nat) : (s.copyRegs a b n).gfx = s.gfx := rfl
@[simp] theorem State.copyRegs_hap (a b n : Nat) : (s.copyRegs a b n).hap = s.hap := rfl
@[simp] theorem State.copyRegs_touch (a b n : Nat) : (s.copyRegs a b n).touch = s.touch := rfl
@[simp] theorem State.copyRegs_aud (a b n : Nat) : (s.copyRegs a b n).aud = s.aud := rfl
@[simp] theorem State.copyRegs_dramc (a b n : Nat) : (s.copyRegs a b n).dramc = s.dramc := rfl
@[simp] theorem State.copyRegs_staged (a b n : Nat) : (s.copyRegs a b n).staged = s.staged := rfl
@[simp] theorem State.copyRegs_out (a b n : Nat) : (s.copyRegs a b n).out = s.out := rfl
@[simp] theorem State.copyRegs_freeCtr (a b n : Nat) : (s.copyRegs a b n).freeCtr = s.freeCtr := rfl
@[simp] theorem State.copyRegs_pending (a b n : Nat) : (s.copyRegs a b n).pending = s.pending := rfl

/-! ### What each update changes -/

@[simp] theorem State.modWall_wall (g : WallState → WallState) : (s.modWall g).wall = g s.wall := rfl
@[simp] theorem State.modMbq_mbq (g : MbqState → MbqState) : (s.modMbq g).mbq = g s.mbq := rfl
@[simp] theorem State.modPeat_peat (g : PeatState → PeatState) : (s.modPeat g).peat = g s.peat := rfl
@[simp] theorem State.modSupv_supv (g : SupvState → SupvState) : (s.modSupv g).supv = g s.supv := rfl
@[simp] theorem State.modCu_cu (g : CuState → CuState) : (s.modCu g).cu = g s.cu := rfl
@[simp] theorem State.modPower_power (g : PowerState → PowerState) : (s.modPower g).power = g s.power := rfl
@[simp] theorem State.modDisplay_display (g : DisplayState → DisplayState) : (s.modDisplay g).display = g s.display := rfl
@[simp] theorem State.modGfx_gfx (g : GfxState → GfxState) : (s.modGfx g).gfx = g s.gfx := rfl
@[simp] theorem State.modHap_hap (g : HapState → HapState) : (s.modHap g).hap = g s.hap := rfl
@[simp] theorem State.modAud_aud (g : AudState → AudState) : (s.modAud g).aud = g s.aud := rfl
@[simp] theorem State.modDramc_dramc (g : DramcState → DramcState) : (s.modDramc g).dramc = g s.dramc := rfl
@[simp] theorem State.modFn_fns (n : Nat) (g : FnState → FnState) : (s.modFn n g).fns = modAt s.fns n g := rfl
@[simp] theorem State.modHostPort_ports (p : Nat) (g : PortState → PortState) : (s.modHostPort p g).ports = modAt s.ports p g := rfl
@[simp] theorem State.emit_out (o : Output) : (s.emit o).out = s.out ++ [o] := rfl
@[simp] theorem State.freeUsed_freeCtr : (s.freeUsed).freeCtr = s.freeCtr + 1 := rfl

end Sys2Proof.Machine
end

