-- ==== Sys2Proof/Laws/Canonical.lean ====
section
/-! SUPPORT. The canonical form through the shared operations: every operation over registers and memory keeps every sparse store
of the state in its canonical form. -/
namespace Sys2Proof.Machine

/-! ### The parts of the canonical form -/

@[simp] theorem canonical_mk (v : Nat) (now : Stamp) (regs : List (Nat × W64)) (mem : List Host.Cell) (wall : WallState)
    (fns : List FnState) (ports : List PortState) (pkt : PktState) (mbq : MbqState) (peat : PeatState) (evt : EvtState)
    (supv : SupvState) (world : WorldState) (cu : CuState) (power : PowerState) (display : DisplayState) (gfx : GfxState)
    (hap : HapState) (touch : TouchState) (aud : AudState) (dramc : DramcState) (staged : List (Nat × W64))
    (out : List Output) (free : Nat) (pending : List Instr) :
    (State.mk v now regs mem wall fns ports pkt mbq peat evt supv world cu power display gfx hap touch aud dramc staged out free
      pending).canonical
      = (swf regs && swf mem && swf peat.bank && swf power.flash && swf touch.factory) := by rw [State.canonical]

variable {s : State}

/-- The canonical form depends on the five stores alone. -/
theorem canonical_congr {s t : State} (h1 : t.regs = s.regs) (h2 : t.mem = s.mem) (h3 : t.peat.bank = s.peat.bank)
    (h4 : t.power.flash = s.power.flash) (h5 : t.touch.factory = s.touch.factory) : t.canonical = s.canonical := by
  unfold State.canonical; rw [h1, h2, h3, h4, h5]

@[simp] theorem canonical_regs (h : s.canonical = true) : swf s.regs = true := by
  simp only [State.canonical, Bool.and_eq_true] at h; exact h.1.1.1.1
@[simp] theorem canonical_mem (h : s.canonical = true) : swf s.mem = true := by
  simp only [State.canonical, Bool.and_eq_true] at h; exact h.1.1.1.2
@[simp] theorem canonical_bank (h : s.canonical = true) : swf s.peat.bank = true := by
  simp only [State.canonical, Bool.and_eq_true] at h; exact h.1.1.2
@[simp] theorem canonical_flash (h : s.canonical = true) : swf s.power.flash = true := by
  simp only [State.canonical, Bool.and_eq_true] at h; exact h.1.2
@[simp] theorem canonical_factory (h : s.canonical = true) : swf s.touch.factory = true := by
  simp only [State.canonical, Bool.and_eq_true] at h; exact h.2

theorem canonical_intro (h1 : swf s.regs = true) (h2 : swf s.mem = true) (h3 : swf s.peat.bank = true)
    (h4 : swf s.power.flash = true) (h5 : swf s.touch.factory = true) : s.canonical = true := by
  simp only [State.canonical, Bool.and_eq_true]; exact ⟨⟨⟨⟨h1, h2⟩, h3⟩, h4⟩, h5⟩

/-- A state that agrees with a canonical one on all five stores is canonical. -/
theorem canonical_of_eq {t : State} (h : s.canonical = true) (h1 : t.regs = s.regs) (h2 : t.mem = s.mem)
    (h3 : t.peat.bank = s.peat.bank) (h4 : t.power.flash = s.power.flash) (h5 : t.touch.factory = s.touch.factory) :
    t.canonical = true := by
  unfold State.canonical at *; rw [h1, h2, h3, h4, h5]; exact h

/-! ### Iteration -/

@[simp] theorem each_canonical {α : Type} (l : List α) {f : State → α → State}
    (hf : ∀ t a, t.canonical = true → (f t a).canonical = true) (h : s.canonical = true) : (s.each l f).canonical = true := by
  unfold State.each
  induction l generalizing s with
  | nil => exact h
  | cons a l ih => exact ih (hf s a h)

@[simp] theorem foldl_canonical {α : Type} (l : List α) {f : State → α → State}
    (hf : ∀ t a, t.canonical = true → (f t a).canonical = true) (h : s.canonical = true) : (l.foldl f s).canonical = true :=
  each_canonical l hf h

theorem foldl_fst_canonical {α β : Type} (l : List α) {f : State × β → α → State × β}
    (hf : ∀ t a, t.1.canonical = true → (f t a).1.canonical = true) {x : State × β} (h : x.1.canonical = true) :
    (l.foldl f x).1.canonical = true := by
  induction l generalizing x with
  | nil => exact h
  | cons a l ih => exact ih (hf x a h)

theorem when_canonical (b : Bool) {f : State → State} (hf : s.canonical = true → (f s).canonical = true)
    (h : s.canonical = true) : (s.when b f).canonical = true := by
  unfold State.when; split
  · exact hf h
  · exact h

/-- A choice between two canonical states. -/
@[simp] theorem ite_canonical {c : Prop} [Decidable c] {a b : State} (ha : a.canonical = true) (hb : b.canonical = true) :
    (if c then a else b).canonical = true := by split <;> assumption

@[simp] theorem when_canonical_of (b : Bool) {f : State → State} (h : s.canonical = true) (hf : (f s).canonical = true) :
    (s.when b f).canonical = true := when_canonical b (fun _ => hf) h

/-! ### Memory -/

@[simp] theorem swf_storeBytes {m : List Host.Cell} (h : swf m = true) (a : Nat) (l : List Byte) :
    swf (storeBytes m a l) = true := by
  induction l generalizing m a with
  | nil => exact h
  | cons b l ih => exact ih (swf_sset h _ _) _

/-! ### Updates of parts without a store -/

@[simp] theorem modFn_canonical (n : Nat) (g : FnState → FnState) : (s.modFn n g).canonical = s.canonical :=
  canonical_congr rfl rfl rfl rfl rfl
@[simp] theorem modTenant_canonical (n : Nat) (g : Tenant → Tenant) : (s.modTenant n g).canonical = s.canonical :=
  canonical_congr rfl rfl rfl rfl rfl
@[simp] theorem modWall_canonical (g : WallState → WallState) : (s.modWall g).canonical = s.canonical :=
  canonical_congr rfl rfl rfl rfl rfl
@[simp] theorem modHostPort_canonical (p : Nat) (g : PortState → PortState) : (s.modHostPort p g).canonical = s.canonical :=
  canonical_congr rfl rfl rfl rfl rfl
@[simp] theorem modMbq_canonical (g : MbqState → MbqState) : (s.modMbq g).canonical = s.canonical :=
  canonical_congr rfl rfl rfl rfl rfl
@[simp] theorem modSupv_canonical (g : SupvState → SupvState) : (s.modSupv g).canonical = s.canonical :=
  canonical_congr rfl rfl rfl rfl rfl
@[simp] theorem modCu_canonical (g : CuState → CuState) : (s.modCu g).canonical = s.canonical :=
  canonical_congr rfl rfl rfl rfl rfl
@[simp] theorem modDisplay_canonical (g : DisplayState → DisplayState) : (s.modDisplay g).canonical = s.canonical :=
  canonical_congr rfl rfl rfl rfl rfl
@[simp] theorem modHead_canonical (n : Nat) (g : HeadState → HeadState) : (s.modHead n g).canonical = s.canonical :=
  canonical_congr rfl rfl rfl rfl rfl
@[simp] theorem modFrame_canonical (n : Nat) (g : FrameFacts → FrameFacts) : (s.modFrame n g).canonical = s.canonical :=
  canonical_congr rfl rfl rfl rfl rfl
@[simp] theorem modLink_canonical (n : Nat) (g : LinkState → LinkState) : (s.modLink n g).canonical = s.canonical :=
  canonical_congr rfl rfl rfl rfl rfl
@[simp] theorem modSpare_canonical (g : SpareState → SpareState) : (s.modSpare g).canonical = s.canonical :=
  canonical_congr rfl rfl rfl rfl rfl
@[simp] theorem modPipe_canonical (n : Nat) (g : PipeState → PipeState) : (s.modPipe n g).canonical = s.canonical :=
  canonical_congr rfl rfl rfl rfl rfl
@[simp] theorem modWb_canonical (n : Nat) (g : WbState → WbState) : (s.modWb n g).canonical = s.canonical :=
  canonical_congr rfl rfl rfl rfl rfl
@[simp] theorem modGfx_canonical (g : GfxState → GfxState) : (s.modGfx g).canonical = s.canonical :=
  canonical_congr rfl rfl rfl rfl rfl
@[simp] theorem modGctx_canonical (n : Nat) (g : GfxCtx → GfxCtx) : (s.modGctx n g).canonical = s.canonical :=
  canonical_congr rfl rfl rfl rfl rfl
@[simp] theorem modJob_canonical (n : Nat) (g : CompJob → CompJob) : (s.modJob n g).canonical = s.canonical :=
  canonical_congr rfl rfl rfl rfl rfl
@[simp] theorem modHap_canonical (g : HapState → HapState) : (s.modHap g).canonical = s.canonical :=
  canonical_congr rfl rfl rfl rfl rfl
@[simp] theorem modChan_canonical (n : Nat) (g : HapChan → HapChan) : (s.modChan n g).canonical = s.canonical :=
  canonical_congr rfl rfl rfl rfl rfl
@[simp] theorem modPlay_canonical (n : Nat) (g : HapPlay → HapPlay) : (s.modPlay n g).canonical = s.canonical :=
  canonical_congr rfl rfl rfl rfl rfl
@[simp] theorem modPort_canonical (n : Nat) (g : TouchPort → TouchPort) : (s.modPort n g).canonical = s.canonical :=
  canonical_congr rfl rfl rfl rfl rfl
@[simp] theorem modAud_canonical (g : AudState → AudState) : (s.modAud g).canonical = s.canonical :=
  canonical_congr rfl rfl rfl rfl rfl
@[simp] theorem modBus_canonical (n : Nat) (g : AudBus → AudBus) : (s.modBus n g).canonical = s.canonical :=
  canonical_congr rfl rfl rfl rfl rfl
@[simp] theorem modSink_canonical (n : Nat) (g : AudSink → AudSink) : (s.modSink n g).canonical = s.canonical :=
  canonical_congr rfl rfl rfl rfl rfl
@[simp] theorem modStream_canonical (n : Nat) (g : AudStream → AudStream) : (s.modStream n g).canonical = s.canonical :=
  canonical_congr rfl rfl rfl rfl rfl
@[simp] theorem modTone_canonical (n : Nat) (g : AudTone → AudTone) : (s.modTone n g).canonical = s.canonical :=
  canonical_congr rfl rfl rfl rfl rfl
@[simp] theorem modDramc_canonical (g : DramcState → DramcState) : (s.modDramc g).canonical = s.canonical :=
  canonical_congr rfl rfl rfl rfl rfl

/-- The log's part changes but for its bank. -/
@[simp] theorem modPeat_canonical (g : PeatState → PeatState) (h : s.canonical = true) (hg : swf (g s.peat).bank = true) :
    (s.modPeat g).canonical = true := by
  refine canonical_intro ?_ ?_ hg ?_ ?_ <;> simp [h]

/-- The power part changes but for the flash. -/
@[simp] theorem modPower_canonical (g : PowerState → PowerState) (h : s.canonical = true) (hg : swf (g s.power).flash = true) :
    (s.modPower g).canonical = true := by
  refine canonical_intro ?_ ?_ ?_ hg ?_ <;> simp [h]

/-! ### Ops -/

@[simp] theorem State.barWrite_canonical (f : Nat) (effect : State → State) (h : s.canonical = true)
    (he : s.canonical = true → (effect s).canonical = true) : (s.barWrite f effect).canonical = true := by
  unfold State.barWrite; split
  · exact h
  · exact he h

@[simp] theorem State.barRead_canonical (f addr bits : Nat) (effect : State → State) (h : s.canonical = true)
    (he : s.canonical = true → (effect s).canonical = true) : (s.barRead f addr bits effect).canonical = true := by
  unfold State.barRead; split
  · exact h
  · split
    · exact canonical_of_eq h rfl rfl rfl rfl rfl
    · exact he h

theorem swf_stores (l : List (Nat × W64)) {r : List (Nat × W64)} (h : swf r = true) :
    swf (l.foldl (fun r e => sset r e.1 e.2) r) = true :=
  swf_foldl l _ (fun _ _ hm => swf_sset hm _ _) h

@[simp] theorem State.applyStaged_canonical (lo hi : Nat) (h : s.canonical = true) :
    (s.applyStaged lo hi).canonical = true :=
  canonical_intro (swf_stores _ (canonical_regs h)) (canonical_mem (s := s) h) (canonical_bank (s := s) h)
    (canonical_flash (s := s) h) (canonical_factory (s := s) h)

end Sys2Proof.Machine
end

