-- ==== Sys2Proof/Laws/CanonicalOps.lean ====
section
/-! SUPPORT. The canonical form through the operations of Machine/Ops.lean. -/
namespace Sys2Proof.Machine

@[simp] theorem State.wr_canonical (s : State) (r : Reg) (v : W64) (h : s.canonical = true) :
    (State.wr s r v).canonical = true := by
  simp (maxDischargeDepth := 99) [State.wr, h]

@[simp] theorem State.cold_canonical (s : State) (r : Reg) (h : s.canonical = true) :
    (State.cold s r).canonical = true := by
  simp (maxDischargeDepth := 99) [State.cold, h]

@[simp] theorem State.put_canonical (s : State) (f : RF) (v : Nat) (h : s.canonical = true) :
    (State.put s f v).canonical = true := by
  simp (maxDischargeDepth := 99) [State.put, h]

@[simp] theorem State.putBit_canonical (s : State) (f : RF) (b : Bool) (h : s.canonical = true) :
    (State.putBit s f b).canonical = true := by
  simp (maxDischargeDepth := 99) [State.putBit, h]

@[simp] theorem State.bumpBy_canonical (s : State) (f : RF) (n : Nat) (h : s.canonical = true) :
    (State.bumpBy s f n).canonical = true := by
  simp (maxDischargeDepth := 99) [State.bumpBy, h]

@[simp] theorem State.bump_canonical (s : State) (f : RF) (h : s.canonical = true) :
    (State.bump s f).canonical = true := by
  simp (maxDischargeDepth := 99) [State.bump, h]

@[simp] theorem State.putBitAt_canonical (s : State) (f : RF) (i : Nat) (b : Bool) (h : s.canonical = true) :
    (State.putBitAt s f i b).canonical = true := by
  simp (maxDischargeDepth := 99) [State.putBitAt, h]

@[simp] theorem State.freeUsed_canonical (s : State) (h : s.canonical = true) :
    (State.freeUsed s).canonical = true := by
  simp (maxDischargeDepth := 99) [State.freeUsed, h]

@[simp] theorem State.emit_canonical (s : State) (o : Output) (h : s.canonical = true) :
    (State.emit s o).canonical = true := by
  simp (maxDischargeDepth := 99) [State.emit, h]

@[simp] theorem State.store_canonical (s : State) (a : Nat) (bytes : List Byte) (h : s.canonical = true) :
    (State.store s a bytes).canonical = true := by
  simp (maxDischargeDepth := 99) [State.store, h]

@[simp] theorem State.zeroMem_canonical (s : State) (lo : Nat) (hi : Nat) (h : s.canonical = true) :
    (State.zeroMem s lo hi).canonical = true := by
  simp (maxDischargeDepth := 99) [State.zeroMem, h]

@[simp] theorem State.freeStages_canonical (s : State) (h : s.canonical = true) :
    (State.freeStages s).canonical = true := by
  simp (maxDischargeDepth := 99) [State.freeStages, h]

@[simp] theorem State.signal_canonical (s : State) (f : Nat) (vector : Nat) (h : s.canonical = true) :
    (State.signal s f vector).canonical = true := by
  simp (maxDischargeDepth := 99) [State.signal, h]

@[simp] theorem State.signalFixed_canonical (s : State) (f : Nat) (u : Nat) (h : s.canonical = true) :
    (State.signalFixed s f u).canonical = true := by
  simp (maxDischargeDepth := 99) [State.signalFixed, h]

@[simp] theorem State.signalRouted_canonical (s : State) (f : Nat) (v : Nat) (h : s.canonical = true) :
    (State.signalRouted s f v).canonical = true := by
  simp (maxDischargeDepth := 99) [State.signalRouted, h]

@[simp] theorem State.mirrorDue_canonical (s : State) (f : Nat) (h : s.canonical = true) :
    (State.mirrorDue s f).canonical = true := by
  simp (maxDischargeDepth := 99) [State.mirrorDue, h]

@[simp] theorem State.putStatus_canonical (s : State) (field : RF) (f : Nat) (v : Nat) (h : s.canonical = true) :
    (State.putStatus s field f v).canonical = true := by
  simp (maxDischargeDepth := 99) [State.putStatus, h]

end Sys2Proof.Machine
end

