-- ==== Sys2Proof/Laws/CanonicalFlags.lean ====
section
/-! SUPPORT. The canonical form through the operations of Machine/Flags.lean. -/
namespace Sys2Proof.Machine

@[simp] theorem State.occur_canonical (s : State) (e : Nat) (d : Nat) (h : s.canonical = true) :
    (State.occur s e d).canonical = true := by
  simp (maxDischargeDepth := 99) [State.occur, h]

@[simp] theorem State.unlogged_canonical (s : State) (kind : Nat) (h : s.canonical = true) :
    (State.unlogged s kind).canonical = true := by
  unfold State.unlogged
  try dsimp only
  repeat' split
  all_goals simp (maxDischargeDepth := 99) +contextual [*]

@[simp] theorem State.log_canonical (s : State) (r : PeatRec) (h : s.canonical = true) :
    (State.log s r).1.canonical = true := by
  unfold State.log
  try dsimp only
  repeat' split
  all_goals simp (maxDischargeDepth := 99) +contextual [*]

@[simp] theorem State.raise_canonical (s : State) (e : Nat) (d : Nat) (h : s.canonical = true) :
    (State.raise s e d).canonical = true := by
  simp (maxDischargeDepth := 99) [State.raise, h]

@[simp] theorem State.marker_canonical (s : State) (code : Nat) (origin : Nat) (bytes : List Byte) (order : Nat) (h : s.canonical = true) :
    (State.marker s code origin bytes order).canonical = true := by
  simp (maxDischargeDepth := 99) [State.marker, h]

@[simp] theorem State.writeRecord_canonical (s : State) (kind : Nat) (agent : Nat) (addr : Nat) (value : Nat) (old : Nat) (status : Nat) (h : s.canonical = true) :
    (State.writeRecord s kind agent addr value old status).canonical = true := by
  simp (maxDischargeDepth := 99) [State.writeRecord, h]

@[simp] theorem State.violation_canonical (s : State) (agent : Nat) (addr : Nat) (write : Bool) (h : s.canonical = true) :
    (State.violation s agent addr write).canonical = true := by
  simp (maxDischargeDepth := 99) [State.violation, h]

@[simp] theorem State.noteWrite_canonical (s : State) (who : Requester) (addr : Nat) (value : Nat) (old : Nat) (h : s.canonical = true) :
    (State.noteWrite s who addr value old).canonical = true := by
  unfold State.noteWrite
  try dsimp only
  repeat' split
  all_goals simp (maxDischargeDepth := 99) +contextual [*]

@[simp] theorem State.refuseWrite_canonical (s : State) (who : Requester) (addr : Nat) (value : Nat) (old : Nat) (status : Nat) (h : s.canonical = true) :
    (State.refuseWrite s who addr value old status).canonical = true := by
  simp (maxDischargeDepth := 99) [State.refuseWrite, h]

@[simp] theorem State.refuseRead_canonical (s : State) (who : Requester) (addr : Nat) (h : s.canonical = true) :
    (State.refuseRead s who addr).canonical = true := by
  simp (maxDischargeDepth := 99) [State.refuseRead, h]

end Sys2Proof.Machine
end

