-- ==== Sys2Proof/Laws/CanonicalPackets.lean ====
section
/-! SUPPORT. The canonical form through the operations of Machine/Packets.lean. -/
namespace Sys2Proof.Machine

/-- The effects of an opcode keep the canonical form. -/
def OpSpec.Canonical (sp : OpSpec) : Prop :=
  (∀ s o, s.canonical = true → (sp.run s o).1.canonical = true) ∧ ∀ s o, s.canonical = true → (sp.land s o).canonical = true

@[simp] theorem State.nextEpoch_canonical (s : State) (r : Nat) (h : s.canonical = true) :
    (State.nextEpoch s r).canonical = true := by
  simp (maxDischargeDepth := 99) [State.nextEpoch, h]

@[simp] theorem State.writeReply_canonical (s : State) (r : Nat) (seq : W32) (a : Answer) (time : W64) (h : s.canonical = true) :
    (State.writeReply s r seq a time).canonical = true := by
  simp (maxDischargeDepth := 99) [State.writeReply, h]

@[simp] theorem State.answer_canonical (s : State) (o : Origin) (a : Answer) (time : W64) (h : s.canonical = true) :
    (State.answer s o a time).canonical = true := by
  simp (maxDischargeDepth := 99) [State.answer, h]

@[simp] theorem State.endScope_canonical (s : State) (ring : Nat) (h : s.canonical = true) :
    (State.endScope s ring).canonical = true := by
  simp (maxDischargeDepth := 99) +contextual [State.endScope, h]

@[simp] theorem State.recordPacket_canonical (s : State) (o : Origin) (status : Nat) (reply : Option DueReply)
    (h : s.canonical = true) : (s.recordPacket o status reply).canonical = true := by
  have h1 := State.log_canonical s (s.packetRecord o status reply) h
  unfold State.recordPacket
  split <;> rename_i heq <;> rw [heq] at h1 <;> simp_all

@[simp] theorem State.recordAndAnswer_canonical (s : State) (o : Origin) (a : Answer) (status : Nat) (reply : Bool) (h : s.canonical = true) :
    (State.recordAndAnswer s o a status reply).canonical = true := by
  simp (maxDischargeDepth := 99) [State.recordAndAnswer, h]

@[simp] theorem State.concludeAt_canonical (s : State) (o : Origin) (a : Answer) (time : W64) (h : s.canonical = true) :
    (State.concludeAt s o a time).canonical = true := by
  simp (maxDischargeDepth := 99) [State.concludeAt, h]

@[simp] theorem State.conclude_canonical (s : State) (o : Origin) (a : Answer) (h : s.canonical = true) :
    (State.conclude s o a).canonical = true := by
  simp (maxDischargeDepth := 99) [State.conclude, h]

@[simp] theorem State.defer_canonical (s : State) (o : Origin) (h : s.canonical = true) :
    (State.defer s o).canonical = true := by
  simp (maxDischargeDepth := 99) [State.defer, h]

@[simp] theorem State.dropReply_canonical (s : State) (o : Origin) (h : s.canonical = true) :
    (State.dropReply s o).canonical = true := by
  simp (maxDischargeDepth := 99) [State.dropReply, h]

@[simp] theorem State.settleAt_canonical (s : State) (o : Origin) (a : Answer) (time : W64) (h : s.canonical = true) :
    (State.settleAt s o a time).canonical = true := by
  simp (maxDischargeDepth := 99) [State.settleAt, h]

@[simp] theorem State.settle_canonical (s : State) (o : Origin) (a : Answer) (h : s.canonical = true) :
    (State.settle s o a).canonical = true := by
  simp (maxDischargeDepth := 99) [State.settle, h]

@[simp] theorem State.setCaravans_canonical (s : State) (l : List Caravan) (h : s.canonical = true) :
    (State.setCaravans s l).canonical = true := by
  simp (maxDischargeDepth := 99) [State.setCaravans, h]

@[simp] theorem State.poison_canonical (s : State) (ring : Nat) (id : W32) (status : Nat) (detail : Nat) (h : s.canonical = true) :
    (State.poison s ring id status detail).canonical = true := by
  simp (maxDischargeDepth := 99) [State.poison, h]

@[simp] theorem State.failMember_canonical (s : State) (o : Origin) (last : Bool) (status detail : Nat)
    (h : s.canonical = true) : (s.failMember o last status detail).canonical = true := by
  unfold State.failMember
  split
  · split
    · exact State.answer_canonical _ _ _ _ (State.bump_canonical _ _ h)
    · exact State.answer_canonical _ _ _ _ (State.setCaravans_canonical _ _ h)
  · dsimp only
    split
    · exact State.answer_canonical _ _ _ _ (State.bump_canonical _ _ (State.setCaravans_canonical _ _ h))
    · exact State.answer_canonical _ _ _ _ (State.setCaravans_canonical _ _ h)

@[simp] theorem State.expect_canonical (s : State) (r : Nat) (n : Nat) (h : s.canonical = true) :
    (State.expect s r n).canonical = true := by
  simp (maxDischargeDepth := 99) [State.expect, h]

@[simp] theorem State.consume_canonical (s : State) (p : Packet) (h : s.canonical = true) :
    (State.consume s p).canonical = true := by
  simp (maxDischargeDepth := 99) [State.consume, h]

@[simp] theorem State.framingFault_canonical (s : State) (p : Packet) (status : Nat) (detail : Nat) (step : Nat) (h : s.canonical = true) :
    (State.framingFault s p status detail step).canonical = true := by
  simp (maxDischargeDepth := 99) [State.framingFault, h]

@[simp] theorem State.countFlip_canonical (s : State) (sp : OpSpec) (o : Origin) (status : Nat) (h : s.canonical = true) :
    (State.countFlip s sp o status).canonical = true := by
  unfold State.countFlip
  try dsimp only
  repeat' split
  all_goals simp (maxDischargeDepth := 99) +contextual [*]

theorem State.interpret_canonical (s : State) (sp : OpSpec) (o : Origin) (hs : sp.Canonical) (h : s.canonical = true) :
    (s.interpret sp o).canonical = true := by
  have h1 := hs.1 s o h
  unfold State.interpret
  split
  · simp [h]
  · split
    · simp (maxDischargeDepth := 99) [h]
    · split <;> rename_i heq <;> rw [heq] at h1 <;> (try split) <;> simp_all (maxDischargeDepth := 99)

@[simp] theorem State.stopRing_canonical (s : State) (r : Nat) (h : s.canonical = true) :
    (State.stopRing s r).canonical = true := by
  simp (maxDischargeDepth := 99) [State.stopRing, h]

@[simp] theorem State.headerRefusal_canonical (s : State) (p : Packet) (o : Origin) (status : Nat) (detail : Nat) (h : s.canonical = true) :
    (State.headerRefusal s p o status detail).canonical = true := by
  simp (maxDischargeDepth := 99) [State.headerRefusal, h]

theorem State.readEntry_canonical (s : State) (carry : Carry) (sp : Option OpSpec) (opcode : Nat) (p : Packet) (syncs : Bool)
    (hs : ∀ x, sp = some x → x.Canonical)
    (hc : ∀ t x q o, x.Canonical → t.canonical = true → (carry t x q o).canonical = true) (h : s.canonical = true) :
    (s.readEntry carry sp opcode p syncs).canonical = true := by
  unfold State.readEntry
  dsimp only
  refine ite_canonical h (ite_canonical (State.stopRing_canonical _ _ h) ?_)
  have h0 : ({ s with pkt := { s.pkt with stopped := s.pkt.stopped.set p.ring.val false } } : State).canonical = true :=
    canonical_of_eq h rfl rfl rfl rfl rfl
  generalize ({ s with pkt := { s.pkt with stopped := s.pkt.stopped.set p.ring.val false } } : State) = t at h0 ⊢
  have hw (b : Bool) (f : State → State) {u : State} (hu : u.canonical = true)
      (hf : ∀ u, u.canonical = true → (f u).canonical = true) : (u.when b f).canonical = true :=
    when_canonical b (hf u) hu
  refine ite_canonical (State.framingFault_canonical _ _ _ _ _ h0) (ite_canonical h0
    (ite_canonical (State.framingFault_canonical _ _ _ _ _ h0) (ite_canonical ?_
      (ite_canonical (State.headerRefusal_canonical _ _ _ _ _ h0) ?_))))
  · exact State.headerRefusal_canonical _ _ _ _ _
      (State.raise_canonical _ _ _ (hw _ _ h0 fun _ hu => State.bump_canonical _ _ hu))
  cases headerFault p with
  | some d => exact State.headerRefusal_canonical _ _ _ _ _ (State.raise_canonical _ _ _ h0)
  | none =>
    dsimp only
    have h1 := State.expect_canonical _ p.ring.val (p.seq.toNat + 1) (State.consume_canonical t p h0)
    refine ite_canonical ?_ ?_
    · exact State.answer_canonical _ _ _ _ (hw _ _ (State.consume_canonical _ p (State.raise_canonical t 141 p.ring.val h0))
        fun _ hu => State.poison_canonical _ _ _ _ _ hu)
    cases sp with
    | none =>
      exact ite_canonical (State.failMember_canonical _ _ _ _ _ h1) (State.answer_canonical _ _ _ _ h1)
    | some x =>
      have hx := hs x rfl
      dsimp only
      cases t.checks x (entryOrigin p ((some x).getD { opcode := opcode, lens := len 0, modes := [], issuer := .any }) t)
          (p.flags.toNat % 2 == 1) with
      | some sd =>
        have h2 (b : Bool) (e d : Nat) := hw b _ h1 fun _ hu => State.raise_canonical _ e d hu
        exact ite_canonical (State.failMember_canonical _ _ _ _ _ (h2 _ _ _)) (State.answer_canonical _ _ _ _ (h2 _ _ _))
      | none =>
        exact ite_canonical (State.interpret_canonical _ _ _ hx (State.consume_canonical _ p (State.expect_canonical t _ _ h0)))
          (hc _ _ _ _ hx (State.expect_canonical t _ _ h0))

end Sys2Proof.Machine
end

