-- ==== Sys2Proof/Laws/CanonicalCaravan.lean ====
section
/-! SUPPORT. The canonical form through the operations of Machine/Caravan.lean. -/
namespace Sys2Proof.Machine

/-- Every opcode of a table keeps the canonical form. -/
def SpecTable.Canonical (specOf : SpecTable) : Prop := ∀ n x, specOf n = some x → x.Canonical

@[simp] theorem State.refuseCaravan_canonical (s : State) (c : Caravan) (a : Answer) (h : s.canonical = true) :
    (State.refuseCaravan s c a).canonical = true := by
  unfold State.refuseCaravan
  try dsimp only
  repeat' split
  all_goals simp (maxDischargeDepth := 99) +contextual [*]

@[simp] theorem State.commitCaravan_canonical (s : State) (c : Caravan) (o : Origin) (stamp : Stamp) (h : s.canonical = true) :
    (s.commitCaravan c o stamp).canonical = true := by
  unfold State.commitCaravan
  dsimp only
  refine ite_canonical ?_ (ite_canonical ?_ (ite_canonical ?_ (ite_canonical ?_ ?_)))
  iterate 4 exact State.refuseCaravan_canonical _ _ _ h
  exact State.setCaravans_canonical _ _
    (each_canonical _ (fun t i ht => State.raise_canonical _ _ _ (State.bump_canonical _ _ ht)) h)

@[simp] theorem State.carryMember_canonical (s : State) (sp : OpSpec) (p : Packet) (o : Origin) (h : s.canonical = true) :
    (State.carryMember s sp p o).canonical = true := by
  have h0 := State.consume_canonical s p h
  unfold State.carryMember
  dsimp only
  generalize s.consume p = t at h0 ⊢
  have ha (a : Answer) (w : W64) := State.answer_canonical t o a w h0
  have hf (l : Bool) (a b : Nat) := State.failMember_canonical t o l a b h0
  have hm (l : List Caravan) (c : Caravan) (st : Stamp) :=
    State.commitCaravan_canonical (t.setCaravans l) c o st (State.setCaravans_canonical t l h0)
  have hc (c : Caravan) (st : Stamp) := State.commitCaravan_canonical t c o st h0
  have hs (l : List Caravan) (a : Answer) (w : W64) :=
    State.answer_canonical (t.setCaravans l) o a w (State.setCaravans_canonical t l h0)
  have hb (l : List Caravan) (f : RF) (a : Answer) (w : W64) :=
    State.answer_canonical ((t.setCaravans l).bump f) o a w (State.bump_canonical _ f (State.setCaravans_canonical t l h0))
  refine ite_canonical (hc _ _) (ite_canonical (ha _ _) ?_)
  cases t.openCaravan o.ring o.caravan with
  | none =>
    dsimp only
    refine ite_canonical (ha _ _) ?_
    cases (if sp.member == MemberKind.only then sp.check t o else none) with
    | some _ => exact hf _ _ _
    | none => exact ite_canonical (hc _ _) (hs _ _ _)
  | some c =>
    dsimp only
    refine ite_canonical ?_ (ite_canonical (hf _ _ _) ?_)
    · refine State.answer_canonical _ _ _ _ (when_canonical _ (fun _ => ?_) h0)
      exact State.raise_canonical _ _ _ (State.bump_canonical _ _ (State.setCaravans_canonical _ _ h0))
    cases (if sp.member == MemberKind.only then sp.check t o else none) with
    | some _ => exact hf _ _ _
    | none => exact ite_canonical (ite_canonical (hb _ _ _ _) (hs _ _ _)) (ite_canonical (hm _ _ _) (hs _ _ _))

theorem State.packet_canonical (s : State) (sp : OpSpec) (p : Packet) (hs : sp.Canonical) (h : s.canonical = true) :
    (s.packet sp p).canonical = true := by
  refine State.readEntry_canonical s _ _ _ p _ (fun x hx => ?_) (fun t x q o _ ht => State.carryMember_canonical t x q o ht) h
  cases hx; exact hs

theorem packetStep_canonical (sp : OpSpec) (p : Packet) (s : State) (hs : sp.Canonical) (h : s.canonical = true) :
    ∀ t, packetStep sp p s = .next t → t.canonical = true := by
  intro t ht
  simp only [packetStep, Host.Outcome.next.injEq] at ht
  subst ht
  exact State.packet_canonical s sp p hs h

theorem State.landMembers_canonical (s : State) (specOf : SpecTable) (c : Caravan) (hs : specOf.Canonical)
    (h : s.canonical = true) : (s.landMembers specOf c).canonical = true := by
  refine each_canonical _ (fun t o ht => ?_) h
  split
  · rename_i sp hsp; exact (hs _ _ hsp).2 _ _ ht
  · exact ht

theorem State.atFrame_canonical (s : State) (specOf : SpecTable) (frame : Nat) (hs : specOf.Canonical)
    (h : s.canonical = true) : (s.atFrame specOf frame).canonical = true :=
  each_canonical _ (fun t c ht => State.landMembers_canonical t specOf c hs ht) (State.freeStages_canonical s h)

@[simp] theorem State.stageRefused_canonical (s : State) (o : Origin) (h : s.canonical = true) :
    (State.stageRefused s o).canonical = true := by
  simp (maxDischargeDepth := 99) [State.stageRefused, h]

theorem State.validated_canonical (s : State) (specOf : SpecTable) (ring : Nat) (id : W32) (h : s.canonical = true) :
    (s.validated specOf ring id).canonical = true := by
  unfold State.validated
  dsimp only
  split
  · exact h
  · rename_i c _
    have h1 (l : List Caravan) := State.setCaravans_canonical s l h
    split
    · refine State.refuseCaravan_canonical _ _ _ (ite_canonical ?_ (h1 _))
      rename_i f _
      cases c.members[f.2.2]? with
      | none => exact h1 _
      | some o => exact State.stageRefused_canonical _ _ (h1 _)
    · exact h1 _

@[simp] theorem State.slide_canonical (s : State) (c : Caravan) (detail : Nat) (h : s.canonical = true) :
    (State.slide s c detail).canonical = true := by
  simp (maxDischargeDepth := 99) [State.slide, h]

@[simp] theorem State.recordMember_canonical (s : State) (specOf : SpecTable) (o : Origin) (h : s.canonical = true) :
    (State.recordMember s specOf o).canonical = true := by
  unfold State.recordMember
  try dsimp only
  repeat' split
  all_goals simp (maxDischargeDepth := 99) +contextual [*]

theorem State.landCaravan_canonical (s : State) (specOf : SpecTable) (c : Caravan) (hs : specOf.Canonical)
    (h : s.canonical = true) : (s.landCaravan specOf c).canonical = true := by
  unfold State.landCaravan
  dsimp only
  have h0 := State.landMembers_canonical s specOf c hs h
  generalize s.landMembers specOf c = t at h0 ⊢
  have h1 : (t.each c.members fun s o => s.recordMember specOf o).canonical = true :=
    each_canonical _ (fun _ _ hu => State.recordMember_canonical _ _ _ hu) h0
  generalize (t.each c.members fun s o => s.recordMember specOf o) = u at h1 ⊢
  have h2 (l : List Nat) : ((u.each l fun s n => s.putBitAt headWallArm_ARM n true).bump pktLandedCnt_COUNT).canonical = true :=
    State.bump_canonical _ _ (each_canonical _ (fun _ _ hv => State.putBitAt_canonical _ _ _ _ hv) h1)
  refine ite_canonical ?_ (State.setCaravans_canonical _ _ (h2 _))
  cases c.last with
  | some o => exact State.answer_canonical _ _ _ _ (h2 _)
  | none => exact h2 _

theorem State.takeCaravans_canonical (specOf : SpecTable) (l : List Caravan) (taken : List ((Nat × Nat) × Nat)) (s : State)
    (hs : specOf.Canonical) (h : s.canonical = true) : (State.takeCaravans specOf l taken s).canonical = true := by
  induction l generalizing taken s with
  | nil => exact h
  | cons c l ih =>
    unfold State.takeCaravans
    split
    · exact ih _ _ (State.refuseCaravan_canonical _ _ _ (State.raise_canonical _ _ _ h))
    · exact ite_canonical (ih _ _ (State.refuseCaravan_canonical _ _ _ (State.bump_canonical _ _ h)))
        (ih _ _ (State.landCaravan_canonical _ _ _ hs h))

theorem State.armCaravans_canonical (s : State) (specOf : SpecTable) (hs : specOf.Canonical) (h : s.canonical = true) :
    (s.armCaravans specOf).canonical = true := by
  unfold State.armCaravans
  dsimp only
  exact State.takeCaravans_canonical _ _ _ _ hs (State.setCaravans_canonical _ _
    (each_canonical _ (fun _ _ ht => State.slide_canonical _ _ _ ht)
      (each_canonical _ (fun _ _ ht => State.slide_canonical _ _ _ ht) (State.setCaravans_canonical _ _ h))))

@[simp] theorem State.latched_canonical (s : State) (n : Nat) (h : s.canonical = true) :
    (State.latched s n).canonical = true := by
  unfold State.latched
  try dsimp only
  repeat' first | exact h | with_reducible refine ite_canonical ?_ ?_ | with_reducible refine each_canonical _ (fun _ _ _ => ?_) ?_ | with_reducible refine when_canonical _ (fun _ => ?_) ?_ | split
  all_goals simp (maxDischargeDepth := 99) +contextual [*]

@[simp] theorem State.abortCommitted_canonical (s : State) (h : s.canonical = true) :
    (State.abortCommitted s).canonical = true := by
  simp (maxDischargeDepth := 99) +contextual [State.abortCommitted, h]

@[simp] theorem State.dropCaravans_canonical (s : State) (ring : Nat) (h : s.canonical = true) :
    (State.dropCaravans s ring).canonical = true := by
  simp (maxDischargeDepth := 99) [State.dropCaravans, h]

@[simp] theorem State.expireCaravan_canonical (s : State) (ring : Nat) (id : W32) (h : s.canonical = true) :
    (State.expireCaravan s ring id).canonical = true := by
  unfold State.expireCaravan
  try dsimp only
  repeat' split
  all_goals simp (maxDischargeDepth := 99) +contextual [*]

theorem specCaravanTime_canonical : OpSpec.Canonical specCaravanTime := by
  refine ⟨fun s o h => ?_, fun s o h => ?_⟩
  all_goals simp (maxDischargeDepth := 99) [specCaravanTime, h]

theorem specCaravanFence_canonical : OpSpec.Canonical specCaravanFence := by
  refine ⟨fun s o h => ?_, fun s o h => ?_⟩
  all_goals simp (maxDischargeDepth := 99) [specCaravanFence, h]

theorem specCaravanEnd_canonical : OpSpec.Canonical specCaravanEnd := by
  refine ⟨fun s o h => ?_, fun s o h => ?_⟩
  all_goals simp (maxDischargeDepth := 99) [specCaravanEnd, h]

@[simp] theorem abortRun_canonical (s : State) (o : Origin) (h : s.canonical = true) :
    (abortRun s o).1.canonical = true := by
  unfold abortRun
  try dsimp only
  repeat' split
  all_goals simp (maxDischargeDepth := 99) +contextual [*]

theorem specCaravanAbort_canonical : OpSpec.Canonical specCaravanAbort := by
  refine ⟨fun s o h => ?_, fun s o h => ?_⟩
  all_goals simp (maxDischargeDepth := 99) [specCaravanAbort, h]

@[simp] theorem carQueryRun_canonical (s : State) (o : Origin) (h : s.canonical = true) :
    (carQueryRun s o).1.canonical = true := by
  unfold carQueryRun
  try dsimp only
  repeat' split
  all_goals simp (maxDischargeDepth := 99) +contextual [*]

theorem specCaravanQuery_canonical : OpSpec.Canonical specCaravanQuery := by
  refine ⟨fun s o h => ?_, fun s o h => ?_⟩
  all_goals simp (maxDischargeDepth := 99) [specCaravanQuery, h]

theorem execCaravanTime_canonical (p : Packet) (s : State) (h : s.canonical = true) :
    ∀ t, execCaravanTime p s = .next t → t.canonical = true :=
  packetStep_canonical _ _ _ (specCaravanTime_canonical) h

theorem execCaravanFence_canonical (p : Packet) (s : State) (h : s.canonical = true) :
    ∀ t, execCaravanFence p s = .next t → t.canonical = true :=
  packetStep_canonical _ _ _ (specCaravanFence_canonical) h

theorem execCaravanEnd_canonical (p : Packet) (s : State) (h : s.canonical = true) :
    ∀ t, execCaravanEnd p s = .next t → t.canonical = true :=
  packetStep_canonical _ _ _ (specCaravanEnd_canonical) h

theorem execCaravanAbort_canonical (p : Packet) (s : State) (h : s.canonical = true) :
    ∀ t, execCaravanAbort p s = .next t → t.canonical = true :=
  packetStep_canonical _ _ _ (specCaravanAbort_canonical) h

theorem execCaravanQuery_canonical (p : Packet) (s : State) (h : s.canonical = true) :
    ∀ t, execCaravanQuery p s = .next t → t.canonical = true :=
  packetStep_canonical _ _ _ (specCaravanQuery_canonical) h

theorem execCaravanExpired_canonical (ring : Fin 34) (id : W32) (s : State) (h : s.canonical = true) :
    ∀ t, execCaravanExpired ring id s = .next t → t.canonical = true := by
  intro t ht
  unfold execCaravanExpired at ht
  simp only [Host.Outcome.next.injEq] at ht
  subst ht
  simp (maxDischargeDepth := 99) [h]

theorem execUndefinedOpcode_canonical (opcode : W16) (p : Packet) (s : State) (h : s.canonical = true) :
    ∀ t, execUndefinedOpcode opcode p s = .next t → t.canonical = true := by
  intro t ht
  simp only [execUndefinedOpcode, Host.Outcome.next.injEq] at ht
  subst ht
  refine State.readEntry_canonical s _ _ _ p _ (fun x hx => ?_) (fun t x q o _ ht => State.carryMember_canonical t x q o ht) h
  cases hx

end Sys2Proof.Machine
end

