-- ==== Sys2Proof/Laws/CanonicalWall.lean ====
section
/-! SUPPORT. The canonical form through the operations of Machine/Wall.lean. -/
namespace Sys2Proof.Machine

@[simp] theorem State.putSigned_canonical (s : State) (f : RF) (i : ℤ) (h : s.canonical = true) :
    (State.putSigned s f i).canonical = true := by
  simp (maxDischargeDepth := 99) [State.putSigned, h]

@[simp] theorem State.phaseStep_canonical (s : State) (e : ℤ) (h : s.canonical = true) :
    (State.phaseStep s e).canonical = true := by
  simp (maxDischargeDepth := 99) [State.phaseStep, h]

@[simp] theorem State.acquire_canonical (s : State) (phase16 : ℤ) (h : s.canonical = true) :
    (State.acquire s phase16).canonical = true := by
  simp (maxDischargeDepth := 99) [State.acquire, h]

@[simp] theorem State.validReference_canonical (s : State) (freq : ℤ) (freqErr : ℤ) (phase16 : ℤ) (h : s.canonical = true) :
    (State.validReference s freq freqErr phase16).canonical = true := by
  simp (maxDischargeDepth := 99) [State.validReference, h]

@[simp] theorem State.missedReference_canonical (s : State) (h : s.canonical = true) :
    (State.missedReference s).canonical = true := by
  simp (maxDischargeDepth := 99) [State.missedReference, h]

@[simp] theorem State.statusEvent_canonical (s : State) (field : RF) (event : Nat) (detail : Nat) (h : s.canonical = true) :
    (State.statusEvent s field event detail).canonical = true := by
  simp (maxDischargeDepth := 99) [State.statusEvent, h]

@[simp] theorem State.referencePoint_canonical (s : State) (pos16 : ℤ) (period : ℤ) (freq : ℤ) (freqErr : ℤ) (phase16 : ℤ) (h : s.canonical = true) :
    (State.referencePoint s pos16 period freq freqErr phase16).canonical = true := by
  simp (maxDischargeDepth := 99) [State.referencePoint, h]

theorem execHouseSyncReference_canonical (detected : Fin 4) (pos16 : ℤ) (period : ℤ) (freq : ℤ) (freqErr : ℤ) (phase16 : ℤ) (s : State) (h : s.canonical = true) :
    ∀ t, execHouseSyncReference detected pos16 period freq freqErr phase16 s = .next t → t.canonical = true := by
  intro t ht
  unfold execHouseSyncReference at ht
  simp only [Host.Outcome.next.injEq] at ht
  subst ht
  simp (maxDischargeDepth := 99) [h]

theorem execExpectedReferenceMissing_canonical (s : State) (h : s.canonical = true) :
    ∀ t, execExpectedReferenceMissing s = .next t → t.canonical = true := by
  intro t ht
  unfold execExpectedReferenceMissing at ht
  simp only [Host.Outcome.next.injEq] at ht
  subst ht
  simp (maxDischargeDepth := 99) [h]

@[simp] theorem State.syncLost_canonical (s : State) (h : s.canonical = true) :
    (State.syncLost s).canonical = true := by
  simp (maxDischargeDepth := 99) [State.syncLost, h]

theorem execSyncLost_canonical (s : State) (h : s.canonical = true) :
    ∀ t, execSyncLost s = .next t → t.canonical = true := by
  intro t ht
  unfold execSyncLost at ht
  simp only [Host.Outcome.next.injEq] at ht
  subst ht
  simp (maxDischargeDepth := 99) [h]

@[simp] theorem State.holdTime_canonical (s : State) (h : s.canonical = true) :
    (State.holdTime s).canonical = true := by
  simp (maxDischargeDepth := 99) [State.holdTime, h]

theorem execHoldoverLimit_canonical (s : State) (h : s.canonical = true) :
    ∀ t, execHoldoverLimit s = .next t → t.canonical = true := by
  intro t ht
  unfold execHoldoverLimit at ht
  simp only [Host.Outcome.next.injEq] at ht
  subst ht
  simp (maxDischargeDepth := 99) [h]

@[simp] theorem State.syncChanged_canonical (s : State) (h : s.canonical = true) :
    (State.syncChanged s).canonical = true := by
  simp (maxDischargeDepth := 99) [State.syncChanged, h]

@[simp] theorem State.applySync_canonical (s : State) (h : s.canonical = true) :
    (State.applySync s).canonical = true := by
  unfold State.applySync
  try dsimp only
  repeat' split
  all_goals simp (maxDischargeDepth := 99) +contextual [*]

@[simp] theorem State.applyRaster_canonical (s : State) (h : s.canonical = true) :
    (State.applyRaster s).canonical = true := by
  unfold State.applyRaster
  try dsimp only
  repeat' split
  all_goals simp (maxDischargeDepth := 99) +contextual [*]

@[simp] theorem State.wallFrameStart_canonical (s : State) (h : s.canonical = true) :
    (State.wallFrameStart s).canonical = true := by
  simp (maxDischargeDepth := 99) [State.wallFrameStart, h]

theorem specSyncSet_canonical : OpSpec.Canonical specSyncSet := by
  refine ⟨fun s o h => ?_, fun s o h => ?_⟩
  all_goals simp (maxDischargeDepth := 99) [specSyncSet, h]

theorem specWallQuery_canonical : OpSpec.Canonical specWallQuery := by
  refine ⟨fun s o h => ?_, fun s o h => ?_⟩
  all_goals simp (maxDischargeDepth := 99) [specWallQuery, h]

theorem execSyncSet_canonical (p : Packet) (s : State) (h : s.canonical = true) :
    ∀ t, execSyncSet p s = .next t → t.canonical = true :=
  packetStep_canonical _ _ _ (specSyncSet_canonical) h

theorem execWallQuery_canonical (p : Packet) (s : State) (h : s.canonical = true) :
    ∀ t, execWallQuery p s = .next t → t.canonical = true :=
  packetStep_canonical _ _ _ (specWallQuery_canonical) h

@[simp] theorem State.sealedWrite_canonical (s : State) (who : Requester) (r : Reg) (value : Nat) (effect : State → State)
    (h : s.canonical = true) (he : (effect s).canonical = true) : (s.sealedWrite who r value effect).canonical = true := by
  unfold State.sealedWrite
  dsimp only
  refine ite_canonical (State.emit_canonical _ _ h) (ite_canonical (State.refuseWrite_canonical _ _ _ _ _ _ h)
    (ite_canonical (State.emit_canonical _ _ h) (State.noteWrite_canonical _ _ _ _ _ he)))

theorem execWallNowRead_canonical (who : Requester) (s : State) (h : s.canonical = true) :
    ∀ t, execWallNowRead who s = .next t → t.canonical = true := by
  intro t ht
  unfold execWallNowRead at ht
  simp only [Host.Outcome.next.injEq] at ht
  subst ht
  simp (maxDischargeDepth := 99) [h]

end Sys2Proof.Machine
end

