-- ==== Sys2Proof/Laws/CanonicalMbq.lean ====
section
/-! SUPPORT. The canonical form through the operations of Machine/Mbq.lean. -/
namespace Sys2Proof.Machine

@[simp] theorem State.setBox_canonical (s : State) (m : Nat) (l : List (List Byte)) (h : s.canonical = true) :
    (State.setBox s m l).canonical = true := by
  simp (maxDischargeDepth := 99) [State.setBox, h]

@[simp] theorem State.abortOrError_canonical (s : State) (who : Requester) (addr : Nat) (h : s.canonical = true) :
    (State.abortOrError s who addr).canonical = true := by
  unfold State.abortOrError
  try dsimp only
  repeat' split
  all_goals simp (maxDischargeDepth := 99) +contextual [*]

@[simp] theorem State.post_canonical (s : State) (who : Requester) (bank : Nat) (value : Nat) (h : s.canonical = true) :
    (State.post s who bank value).canonical = true := by
  simp (maxDischargeDepth := 99) [State.post, h]

theorem execMailboxPost_canonical (who : Requester) (window : Fin 8) (value : W32) (s : State) (h : s.canonical = true) :
    ∀ t, execMailboxPost who window value s = .next t → t.canonical = true := by
  intro t ht
  unfold execMailboxPost at ht
  simp only [Host.Outcome.next.injEq] at ht
  subst ht
  repeat' split
  all_goals simp (maxDischargeDepth := 99) +contextual [*]

@[simp] theorem State.pop_canonical (s : State) (m : Nat) (h : s.canonical = true) :
    (State.pop s m).canonical = true := by
  simp (maxDischargeDepth := 99) [State.pop, h]

theorem execMailboxPop_canonical (who : Requester) (unit : Fin 64) (value : W32) (s : State) (h : s.canonical = true) :
    ∀ t, execMailboxPop who unit value s = .next t → t.canonical = true := by
  intro t ht
  unfold execMailboxPop at ht
  simp only [Host.Outcome.next.injEq] at ht
  subst ht
  try dsimp only
  repeat' first | exact h | with_reducible refine ite_canonical ?_ ?_ | with_reducible refine each_canonical _ (fun _ _ _ => ?_) ?_ | with_reducible refine when_canonical _ (fun _ => ?_) ?_ | with_reducible refine State.barWrite_canonical _ _ ?_ (fun _ => ?_) | with_reducible refine State.barRead_canonical _ _ _ _ ?_ (fun _ => ?_) | with_reducible refine State.sealedWrite_canonical _ _ _ _ _ ?_ ?_ | split
  all_goals simp (maxDischargeDepth := 99) +contextual [*]

@[simp] theorem State.flushBox_canonical (s : State) (m : Nat) (h : s.canonical = true) :
    (State.flushBox s m).canonical = true := by
  simp (maxDischargeDepth := 99) [State.flushBox, h]

@[simp] theorem State.clearTx_canonical (s : State) (bank : Nat) (h : s.canonical = true) :
    (State.clearTx s bank).canonical = true := by
  simp (maxDischargeDepth := 99) +contextual [State.clearTx, h]

@[simp] theorem State.setQueue_canonical (s : State) (q : Nat) (u : QueueState) (h : s.canonical = true) :
    (State.setQueue s q u).canonical = true := by
  simp (maxDischargeDepth := 99) [State.setQueue, h]

@[simp] theorem State.makeRoom_canonical (s : State) (q : Nat) (h : s.canonical = true) :
    (State.makeRoom s q).canonical = true := by
  unfold State.makeRoom
  try dsimp only
  repeat' split
  all_goals simp (maxDischargeDepth := 99) +contextual [*]

@[simp] theorem State.makeRoomFor_canonical (q n fuel : Nat) (s : State) (h : s.canonical = true) :
    (State.makeRoomFor q n fuel s).canonical = true := by
  induction fuel generalizing s with
  | zero => exact h
  | succ fuel ih => exact ite_canonical (ih _ (State.makeRoom_canonical _ _ h)) h

@[simp] theorem State.appendPacket_canonical (s : State) (q : Nat) (items : List W64) (h : s.canonical = true) :
    (State.appendPacket s q items).canonical = true := by
  simp (maxDischargeDepth := 99) [State.appendPacket, h]

@[simp] theorem State.takeItem_canonical (s : State) (q : Nat) (h : s.canonical = true) :
    (State.takeItem s q).1.canonical = true := by
  unfold State.takeItem
  try dsimp only
  repeat' split
  all_goals simp (maxDischargeDepth := 99) +contextual [*]

theorem execQueueRead_canonical (who : Requester) (q : Fin 32) (width : Width) (s : State) (h : s.canonical = true) :
    ∀ t, execQueueRead who q width s = .next t → t.canonical = true := by
  intro t ht
  unfold execQueueRead at ht
  simp only [Host.Outcome.next.injEq] at ht
  subst ht
  repeat' split
  all_goals simp (maxDischargeDepth := 99) +contextual [*]

@[simp] theorem State.setStaging_canonical (s : State) (key : Nat) (l : List W64) (h : s.canonical = true) :
    (State.setStaging s key l).canonical = true := by
  simp (maxDischargeDepth := 99) [State.setStaging, h]

@[simp] theorem State.writeItem_canonical (s : State) (who : Requester) (bank : Nat) (q : Nat) (item : W64) (h : s.canonical = true) :
    (State.writeItem s who bank q item).canonical = true := by
  simp (maxDischargeDepth := 99) [State.writeItem, h]

theorem execQueueItemWrite_canonical (who : Requester) (q : Fin 32) (item : W64) (s : State) (h : s.canonical = true) :
    ∀ t, execQueueItemWrite who q item s = .next t → t.canonical = true := by
  intro t ht
  unfold execQueueItemWrite at ht
  simp only [Host.Outcome.next.injEq] at ht
  subst ht
  repeat' split
  all_goals simp (maxDischargeDepth := 99) +contextual [*]

@[simp] theorem State.writeSlots_canonical (s : State) (f base log2 : Nat) (l : List W64) (n : Nat) (h : s.canonical = true) :
    (State.writeSlots s f base log2 l n).canonical = true := by
  induction l generalizing s n with
  | nil => exact h
  | cons i l ih => exact ih _ _ (State.emit_canonical _ _ h)

theorem execQueueHostDelivery_canonical (q : Fin 32) (s : State) (h : s.canonical = true) :
    ∀ t, execQueueHostDelivery q s = .next t → t.canonical = true := by
  intro t ht
  unfold execQueueHostDelivery at ht
  simp only [Host.Outcome.next.injEq] at ht
  subst ht
  simp (maxDischargeDepth := 99) [h]

@[simp] theorem State.readLock_canonical (s : State) (l : Nat) (agent : Nat) (h : s.canonical = true) :
    (State.readLock s l agent).1.canonical = true := by
  unfold State.readLock
  try dsimp only
  repeat' split
  all_goals simp (maxDischargeDepth := 99) +contextual [*]

@[simp] theorem State.freeLock_canonical (s : State) (l : Nat) (h : s.canonical = true) :
    (State.freeLock s l).canonical = true := by
  simp (maxDischargeDepth := 99) [State.freeLock, h]

theorem execLockRead_canonical (who : Requester) (unit : Fin 64) (s : State) (h : s.canonical = true) :
    ∀ t, execLockRead who unit s = .next t → t.canonical = true := by
  intro t ht
  unfold execLockRead at ht
  simp only [Host.Outcome.next.injEq] at ht
  subst ht
  try dsimp only
  repeat' first | exact h | with_reducible refine ite_canonical ?_ ?_ | with_reducible refine each_canonical _ (fun _ _ _ => ?_) ?_ | with_reducible refine when_canonical _ (fun _ => ?_) ?_ | with_reducible refine State.barWrite_canonical _ _ ?_ (fun _ => ?_) | with_reducible refine State.barRead_canonical _ _ _ _ ?_ (fun _ => ?_) | with_reducible refine State.sealedWrite_canonical _ _ _ _ _ ?_ ?_ | split
  all_goals simp (maxDischargeDepth := 99) +contextual [*]

@[simp] theorem State.writeLock_canonical (s : State) (who : Requester) (l : Nat) (h : s.canonical = true) :
    (State.writeLock s who l).canonical = true := by
  simp (maxDischargeDepth := 99) [State.writeLock, h]

theorem execLockReleaseWrite_canonical (who : Requester) (unit : Fin 64) (s : State) (h : s.canonical = true) :
    ∀ t, execLockReleaseWrite who unit s = .next t → t.canonical = true := by
  intro t ht
  unfold execLockReleaseWrite at ht
  simp only [Host.Outcome.next.injEq] at ht
  subst ht
  try dsimp only
  repeat' first | exact h | with_reducible refine ite_canonical ?_ ?_ | with_reducible refine each_canonical _ (fun _ _ _ => ?_) ?_ | with_reducible refine when_canonical _ (fun _ => ?_) ?_ | with_reducible refine State.barWrite_canonical _ _ ?_ (fun _ => ?_) | with_reducible refine State.barRead_canonical _ _ _ _ ?_ (fun _ => ?_) | with_reducible refine State.sealedWrite_canonical _ _ _ _ _ ?_ ?_ | split
  all_goals simp (maxDischargeDepth := 99) +contextual [*]

@[simp] theorem State.breakLocks_canonical (s : State) (cause : Nat) (test : Nat → Bool) (h : s.canonical = true) :
    (s.breakLocks cause test).canonical = true :=
  each_canonical _ (fun _ _ ht => State.raise_canonical _ _ _ (State.freeLock_canonical _ _ ht)) h

@[simp] theorem State.mbqResetFunction_canonical (s : State) (f : Nat) (h : s.canonical = true) :
    (State.mbqResetFunction s f).canonical = true := by
  simp (maxDischargeDepth := 99) +contextual [State.mbqResetFunction, h]

@[simp] theorem State.mbqResetDone_canonical (s : State) (f : Nat) (h : s.canonical = true) :
    (State.mbqResetDone s f).canonical = true := by
  simp (maxDischargeDepth := 99) +contextual [State.mbqResetDone, h]

@[simp] theorem State.mbqResetWarm_canonical (s : State) (h : s.canonical = true) :
    (State.mbqResetWarm s).canonical = true := by
  simp (maxDischargeDepth := 99) +contextual [State.mbqResetWarm, h]

theorem specMbAllow_canonical : OpSpec.Canonical specMbAllow := by
  refine ⟨fun s o h => ?_, fun s o h => ?_⟩
  all_goals simp (maxDischargeDepth := 99) [specMbAllow, h]

theorem specMbQuery_canonical : OpSpec.Canonical specMbQuery := by
  refine ⟨fun s o h => ?_, fun s o h => ?_⟩
  all_goals simp (maxDischargeDepth := 99) [specMbQuery, h]

theorem specQSet_canonical : OpSpec.Canonical specQSet := by
  refine ⟨fun s o h => ?_, fun s o h => ?_⟩
  all_goals simp (maxDischargeDepth := 99) [specQSet, h]

theorem specQQuery_canonical : OpSpec.Canonical specQQuery := by
  refine ⟨fun s o h => ?_, fun s o h => ?_⟩
  all_goals simp (maxDischargeDepth := 99) [specQQuery, h]

theorem specLockTake_canonical : OpSpec.Canonical specLockTake := by
  refine ⟨fun s o h => ?_, fun s o h => ?_⟩
  all_goals simp (maxDischargeDepth := 99) [specLockTake, h]

theorem specLockGive_canonical : OpSpec.Canonical specLockGive := by
  refine ⟨fun s o h => ?_, fun s o h => ?_⟩
  all_goals
    unfold specLockGive
    try dsimp only
    repeat' split
    all_goals simp (maxDischargeDepth := 99) +contextual [*]

theorem execMbAllow_canonical (p : Packet) (s : State) (h : s.canonical = true) :
    ∀ t, execMbAllow p s = .next t → t.canonical = true :=
  packetStep_canonical _ _ _ (specMbAllow_canonical) h

theorem execMbQuery_canonical (p : Packet) (s : State) (h : s.canonical = true) :
    ∀ t, execMbQuery p s = .next t → t.canonical = true :=
  packetStep_canonical _ _ _ (specMbQuery_canonical) h

theorem execQSet_canonical (p : Packet) (s : State) (h : s.canonical = true) :
    ∀ t, execQSet p s = .next t → t.canonical = true :=
  packetStep_canonical _ _ _ (specQSet_canonical) h

theorem execQQuery_canonical (p : Packet) (s : State) (h : s.canonical = true) :
    ∀ t, execQQuery p s = .next t → t.canonical = true :=
  packetStep_canonical _ _ _ (specQQuery_canonical) h

theorem execLockTake_canonical (p : Packet) (s : State) (h : s.canonical = true) :
    ∀ t, execLockTake p s = .next t → t.canonical = true :=
  packetStep_canonical _ _ _ (specLockTake_canonical) h

theorem execLockGive_canonical (p : Packet) (s : State) (h : s.canonical = true) :
    ∀ t, execLockGive p s = .next t → t.canonical = true :=
  packetStep_canonical _ _ _ (specLockGive_canonical) h

end Sys2Proof.Machine
end

