-- ==== Sys2Proof/Laws/CanonicalPeat.lean ====
section
/-! SUPPORT. The canonical form through the operations of Machine/Peat.lean. -/
namespace Sys2Proof.Machine

@[simp] theorem State.fillMark_canonical (s : State) (threshold detail : Nat) (raised : Bool)
    (set : Bool → PeatState → PeatState) (h : s.canonical = true) (hset : ∀ b p, (set b p).bank = p.bank) :
    (s.fillMark threshold detail raised set).canonical = true := by
  unfold State.fillMark
  simp (maxDischargeDepth := 99) [h, hset]

@[simp] theorem State.refill_canonical (s : State) (h : s.canonical = true) :
    (State.refill s).canonical = true := by
  simp (maxDischargeDepth := 99) [State.refill, h]

@[simp] theorem State.makeSlot_canonical (s : State) (h : s.canonical = true) :
    (State.makeSlot s).canonical = true := by
  unfold State.makeSlot
  try dsimp only
  repeat' split
  all_goals simp (maxDischargeDepth := 99) +contextual [*]

@[simp] theorem State.commitRecord_canonical (s : State) (r : PeatRec) (h : s.canonical = true) :
    (State.commitRecord s r).canonical = true := by
  simp (maxDischargeDepth := 99) [State.commitRecord, h]

@[simp] theorem State.commitNext_canonical (s : State) (h : s.canonical = true) :
    (State.commitNext s).canonical = true := by
  unfold State.commitNext
  try dsimp only
  repeat' split
  all_goals simp (maxDischargeDepth := 99) +contextual [*]

@[simp] theorem State.commitAll_canonical (fuel : Nat) (s : State) (h : s.canonical = true) :
    (State.commitAll fuel s).canonical = true := by
  induction fuel generalizing s with
  | zero => exact h
  | succ fuel ih => exact ite_canonical h (ih _ (State.commitNext_canonical _ h))

theorem execPeatRecordCommit_canonical (s : State) (h : s.canonical = true) :
    ∀ t, execPeatRecordCommit s = .next t → t.canonical = true := by
  intro t ht
  unfold execPeatRecordCommit at ht
  simp only [Host.Outcome.next.injEq] at ht
  subst ht
  simp (maxDischargeDepth := 99) [h]

@[simp] theorem State.summary_canonical (s : State) (h : s.canonical = true) :
    (State.summary s).canonical = true := by
  simp (maxDischargeDepth := 99) [State.summary, h]

theorem execSummaryRecord_canonical (s : State) (h : s.canonical = true) :
    ∀ t, execSummaryRecord s = .next t → t.canonical = true := by
  intro t ht
  unfold execSummaryRecord at ht
  simp only [Host.Outcome.next.injEq] at ht
  subst ht
  simp (maxDischargeDepth := 99) [h]

@[simp] theorem State.peatFrameStart_canonical (s : State) (h : s.canonical = true) :
    (State.peatFrameStart s).canonical = true := by
  simp (maxDischargeDepth := 99) [State.peatFrameStart, h]

@[simp] theorem State.setPolicy_canonical (s : State) (wrap : Bool) (agent : Nat) (order : Nat) (h : s.canonical = true) :
    (State.setPolicy s wrap agent order).canonical = true := by
  simp (maxDischargeDepth := 99) [State.setPolicy, h]

theorem execPeatWrapWrite_canonical (who : Requester) (value : W32) (s : State) (h : s.canonical = true) :
    ∀ t, execPeatWrapWrite who value s = .next t → t.canonical = true := by
  intro t ht
  unfold execPeatWrapWrite at ht
  simp only [Host.Outcome.next.injEq] at ht
  subst ht
  simp (maxDischargeDepth := 99) [h]

theorem specLogQuery_canonical : OpSpec.Canonical specLogQuery := by
  refine ⟨fun s o h => ?_, fun s o h => ?_⟩
  all_goals simp (maxDischargeDepth := 99) [specLogQuery, h]

theorem specLogPolicy_canonical : OpSpec.Canonical specLogPolicy := by
  refine ⟨fun s o h => ?_, fun s o h => ?_⟩
  all_goals simp (maxDischargeDepth := 99) [specLogPolicy, h]

@[simp] theorem State.release_canonical (s : State) (n : Nat) (o : Origin) (h : s.canonical = true) :
    (State.release s n o).canonical = true := by
  simp (maxDischargeDepth := 99) [State.release, h]

theorem specLogRelease_canonical : OpSpec.Canonical specLogRelease := by
  refine ⟨fun s o h => ?_, fun s o h => ?_⟩
  all_goals simp (maxDischargeDepth := 99) [specLogRelease, h]

@[simp] theorem markRun_canonical (s : State) (o : Origin) (h : s.canonical = true) :
    (markRun s o).1.canonical = true := by
  unfold markRun
  try dsimp only
  repeat' split
  all_goals simp (maxDischargeDepth := 99) +contextual [*]

theorem specLogMark_canonical : OpSpec.Canonical specLogMark := by
  refine ⟨fun s o h => ?_, fun s o h => ?_⟩
  all_goals simp (maxDischargeDepth := 99) [specLogMark, h]

theorem specLogExport_canonical : OpSpec.Canonical specLogExport := by
  refine ⟨fun s o h => ?_, fun s o h => ?_⟩
  all_goals simp (maxDischargeDepth := 99) [specLogExport, h]

@[simp] theorem State.copyRecords_canonical (s : State) (o : Origin) (first : Nat) (count : Nat) (dest : Nat) (h : s.canonical = true) :
    (State.copyRecords s o first count dest).canonical = true := by
  simp (maxDischargeDepth := 99) +contextual [State.copyRecords, h]

theorem execLogExportComplete_canonical (ring : Fin 34) (s : State) (h : s.canonical = true) :
    ∀ t, execLogExportComplete ring s = .next t → t.canonical = true := by
  intro t ht
  unfold execLogExportComplete at ht
  simp only [Host.Outcome.next.injEq] at ht
  subst ht
  repeat' split
  all_goals simp (maxDischargeDepth := 99) +contextual [*]

theorem execLogQuery_canonical (p : Packet) (s : State) (h : s.canonical = true) :
    ∀ t, execLogQuery p s = .next t → t.canonical = true :=
  packetStep_canonical _ _ _ (specLogQuery_canonical) h

theorem execLogExport_canonical (p : Packet) (s : State) (h : s.canonical = true) :
    ∀ t, execLogExport p s = .next t → t.canonical = true :=
  packetStep_canonical _ _ _ (specLogExport_canonical) h

theorem execLogPolicy_canonical (p : Packet) (s : State) (h : s.canonical = true) :
    ∀ t, execLogPolicy p s = .next t → t.canonical = true :=
  packetStep_canonical _ _ _ (specLogPolicy_canonical) h

theorem execLogRelease_canonical (p : Packet) (s : State) (h : s.canonical = true) :
    ∀ t, execLogRelease p s = .next t → t.canonical = true :=
  packetStep_canonical _ _ _ (specLogRelease_canonical) h

theorem execLogMark_canonical (p : Packet) (s : State) (h : s.canonical = true) :
    ∀ t, execLogMark p s = .next t → t.canonical = true :=
  packetStep_canonical _ _ _ (specLogMark_canonical) h

@[simp] theorem State.peatColdStart_canonical (s : State) (code : Nat) (h : s.canonical = true) :
    (State.peatColdStart s code).canonical = true := by
  unfold State.peatColdStart
  try dsimp only
  repeat' split
  all_goals simp (maxDischargeDepth := 99) +contextual [*]

end Sys2Proof.Machine
end

