-- ==== Sys2Proof/Laws/CanonicalEvents.lean ====
section
/-! SUPPORT. The canonical form through the operations of Machine/Events.lean. -/
namespace Sys2Proof.Machine

@[simp] theorem State.beginMode_canonical (s : State) (mode : Nat) (origin : Option Origin) (h : s.canonical = true) :
    (State.beginMode s mode origin).canonical = true := by
  simp (maxDischargeDepth := 99) [State.beginMode, h]

@[simp] theorem State.applyForced_canonical (s : State) (target : Nat) (h : s.canonical = true) :
    (State.applyForced s target).canonical = true := by
  simp (maxDischargeDepth := 99) [State.applyForced, h]

@[simp] theorem State.skipped_canonical (s : State) (entry : Option (Nat × Nat)) (h : s.canonical = true) :
    (State.skipped s entry).canonical = true := by
  unfold State.skipped
  try dsimp only
  repeat' split
  all_goals simp (maxDischargeDepth := 99) +contextual [*]

@[simp] theorem State.force_canonical (s : State) (target : Nat) (entry : Option (Nat × Nat)) (h : s.canonical = true) :
    (State.force s target entry).canonical = true := by
  simp (maxDischargeDepth := 99) [State.force, h]

@[simp] theorem State.takeAction_canonical (s : State) (i : Nat) (action : Nat) (h : s.canonical = true) :
    (State.takeAction s i action).canonical = true := by
  simp (maxDischargeDepth := 99) [State.takeAction, h]

@[simp] theorem State.judgeEntry_canonical (s : State) (e : Nat) (i : Nat) (h : s.canonical = true) :
    (State.judgeEntry s e i).canonical = true := by
  simp (maxDischargeDepth := 99) [State.judgeEntry, h]

@[simp] theorem State.judge_canonical (s : State) (e : Nat) (h : s.canonical = true) :
    (State.judge s e).canonical = true := by
  simp (maxDischargeDepth := 99) +contextual [State.judge, h]

@[simp] theorem State.appendEvent_canonical (s : State) (w : Nat) (r : EventRec) (h : s.canonical = true) :
    (State.appendEvent s w r).canonical = true := by
  simp (maxDischargeDepth := 99) [State.appendEvent, h]

@[simp] theorem State.routeRecord_canonical (s : State) (r : EventRec) (h : s.canonical = true) :
    (State.routeRecord s r).canonical = true := by
  simp (maxDischargeDepth := 99) +contextual [State.routeRecord, h]

@[simp] theorem State.routeEvent_canonical (s : State) (x : EventNow) (h : s.canonical = true) :
    (State.routeEvent s x).canonical = true := by
  simp (maxDischargeDepth := 99) [State.routeEvent, h]

@[simp] theorem State.routeHeld_canonical (s : State) (h : s.canonical = true) :
    (State.routeHeld s).canonical = true := by
  simp (maxDischargeDepth := 99) +contextual [State.routeHeld, h]

@[simp] theorem State.markEvent_canonical (s : State) (e : Nat) (f : EventNow → EventNow) (h : s.canonical = true) :
    (s.markEvent e f).canonical = true := canonical_of_eq h rfl rfl rfl rfl rfl

@[simp] theorem State.settleEvents_canonical (fuel : Nat) (s : State) (h : s.canonical = true) :
    (State.settleEvents fuel s).canonical = true := by
  induction fuel generalizing s with
  | zero => exact h
  | succ fuel ih =>
    unfold State.settleEvents
    split
    · exact ih _ (State.judge_canonical _ _ (State.markEvent_canonical _ _ _ h))
    · split
      · exact ih _ (State.routeEvent_canonical _ _ (State.markEvent_canonical _ _ _ h))
      · exact h

@[simp] theorem State.signalNow_canonical (s : State) (f : Nat) (v : Nat) (h : s.canonical = true) :
    (State.signalNow s f v).canonical = true := by
  simp (maxDischargeDepth := 99) [State.signalNow, h]

@[simp] theorem State.flushFunction_canonical (s : State) (f : Nat) (h : s.canonical = true) :
    (State.flushFunction s f).canonical = true := by
  simp (maxDischargeDepth := 99) +contextual [State.flushFunction, h]

@[simp] theorem State.flushGrain_canonical (s : State) (h : s.canonical = true) : s.flushGrain.canonical = true := by
  unfold State.flushGrain
  dsimp only
  have h1 := State.settleEvents_canonical 1024 s h
  exact each_canonical _ (fun _ _ ht => State.flushFunction_canonical _ _ ht) (canonical_of_eq h1 rfl rfl rfl rfl rfl)

@[simp] theorem State.writeRecords_canonical (s : State) (f base log2 : Nat) (l : List EventRec) (n : Nat)
    (h : s.canonical = true) : (State.writeRecords s f base log2 l n).canonical = true := by
  induction l generalizing s n with
  | nil => exact h
  | cons r l ih => exact ih _ _ (State.emit_canonical _ _ h)

theorem execEventHostDelivery_canonical (f : Fin 32) (s : State) (h : s.canonical = true) :
    ∀ t, execEventHostDelivery f s = .next t → t.canonical = true := by
  intro t ht
  unfold execEventHostDelivery at ht
  simp only [Host.Outcome.next.injEq] at ht
  subst ht
  repeat' split
  all_goals simp (maxDischargeDepth := 99) +contextual [*]

@[simp] theorem State.enableDelivery_canonical (s : State) (f : Nat) (h : s.canonical = true) :
    (State.enableDelivery s f).canonical = true := by
  simp (maxDischargeDepth := 99) [State.enableDelivery, h]

@[simp] theorem State.stopDelivery_canonical (s : State) (f : Nat) (h : s.canonical = true) :
    (State.stopDelivery s f).canonical = true := by
  simp (maxDischargeDepth := 99) [State.stopDelivery, h]

@[simp] theorem State.writeEventRing_canonical (s : State) (w : Nat) (value : Nat) (h : s.canonical = true) :
    (State.writeEventRing s w value).canonical = true := by
  simp (maxDischargeDepth := 99) [State.writeEventRing, h]

theorem execEvtRingEnableWrite_canonical (who : Requester) (world : World) (value : W32) (s : State) (h : s.canonical = true) :
    ∀ t, execEvtRingEnableWrite who world value s = .next t → t.canonical = true := by
  intro t ht
  unfold execEvtRingEnableWrite at ht
  simp only [Host.Outcome.next.injEq] at ht
  subst ht
  simp (maxDischargeDepth := 99) [h]

@[simp] theorem State.keepRoute_canonical (s : State) (r : Reg) (h : s.canonical = true) :
    (State.keepRoute s r).canonical = true := by
  simp (maxDischargeDepth := 99) [State.keepRoute, h]

theorem specEvtRoute_canonical : OpSpec.Canonical specEvtRoute := by
  refine ⟨fun s o h => ?_, fun s o h => ?_⟩
  all_goals
    unfold specEvtRoute
    try dsimp only
    repeat' split
    all_goals simp (maxDischargeDepth := 99) +contextual [*]

theorem specEvtRingSet_canonical : OpSpec.Canonical specEvtRingSet := by
  refine ⟨fun s o h => ?_, fun s o h => ?_⟩
  all_goals simp (maxDischargeDepth := 99) [specEvtRingSet, h]

theorem specEvtQuery_canonical : OpSpec.Canonical specEvtQuery := by
  refine ⟨fun s o h => ?_, fun s o h => ?_⟩
  all_goals simp (maxDischargeDepth := 99) [specEvtQuery, h]

theorem specSupvPolicySet_canonical : OpSpec.Canonical specSupvPolicySet := by
  refine ⟨fun s o h => ?_, fun s o h => ?_⟩
  all_goals simp (maxDischargeDepth := 99) [specSupvPolicySet, h]

theorem specSupvQuery_canonical : OpSpec.Canonical specSupvQuery := by
  refine ⟨fun s o h => ?_, fun s o h => ?_⟩
  all_goals simp (maxDischargeDepth := 99) [specSupvQuery, h]

theorem execEvtRoute_canonical (p : Packet) (s : State) (h : s.canonical = true) :
    ∀ t, execEvtRoute p s = .next t → t.canonical = true :=
  packetStep_canonical _ _ _ (specEvtRoute_canonical) h

theorem execEvtRingSet_canonical (p : Packet) (s : State) (h : s.canonical = true) :
    ∀ t, execEvtRingSet p s = .next t → t.canonical = true :=
  packetStep_canonical _ _ _ (specEvtRingSet_canonical) h

theorem execEvtQuery_canonical (p : Packet) (s : State) (h : s.canonical = true) :
    ∀ t, execEvtQuery p s = .next t → t.canonical = true :=
  packetStep_canonical _ _ _ (specEvtQuery_canonical) h

theorem execSupvPolicySet_canonical (p : Packet) (s : State) (h : s.canonical = true) :
    ∀ t, execSupvPolicySet p s = .next t → t.canonical = true :=
  packetStep_canonical _ _ _ (specSupvPolicySet_canonical) h

theorem execSupvQuery_canonical (p : Packet) (s : State) (h : s.canonical = true) :
    ∀ t, execSupvQuery p s = .next t → t.canonical = true :=
  packetStep_canonical _ _ _ (specSupvQuery_canonical) h

theorem execSupvKickWrite_canonical (who : Requester) (value : W32) (s : State) (h : s.canonical = true) :
    ∀ t, execSupvKickWrite who value s = .next t → t.canonical = true := by
  intro t ht
  unfold execSupvKickWrite at ht
  simp only [Host.Outcome.next.injEq] at ht
  subst ht
  simp (maxDischargeDepth := 99) [h]

theorem execHealthAHalfPeriod_canonical (s : State) (h : s.canonical = true) :
    ∀ t, execHealthAHalfPeriod s = .next t → t.canonical = true := by
  intro t ht
  unfold execHealthAHalfPeriod at ht
  simp only [Host.Outcome.next.injEq] at ht
  subst ht
  simp (maxDischargeDepth := 99) [h]

theorem execHealthBFrame_canonical (s : State) (h : s.canonical = true) :
    ∀ t, execHealthBFrame s = .next t → t.canonical = true := by
  intro t ht
  unfold execHealthBFrame at ht
  simp only [Host.Outcome.next.injEq] at ht
  subst ht
  simp (maxDischargeDepth := 99) [h]

theorem execPolicyAlarmExpiry_canonical (s : State) (h : s.canonical = true) :
    ∀ t, execPolicyAlarmExpiry s = .next t → t.canonical = true := by
  intro t ht
  unfold execPolicyAlarmExpiry at ht
  simp only [Host.Outcome.next.injEq] at ht
  subst ht
  simp (maxDischargeDepth := 99) [h]

theorem execLockstepMismatch_canonical (s : State) (h : s.canonical = true) :
    ∀ t, execLockstepMismatch s = .next t → t.canonical = true := by
  intro t ht
  unfold execLockstepMismatch at ht
  simp only [Host.Outcome.next.injEq] at ht
  subst ht
  simp (maxDischargeDepth := 99) [h]

theorem execRasterStall_canonical (s : State) (h : s.canonical = true) :
    ∀ t, execRasterStall s = .next t → t.canonical = true := by
  intro t ht
  unfold execRasterStall at ht
  simp only [Host.Outcome.next.injEq] at ht
  subst ht
  simp (maxDischargeDepth := 99) [h]

theorem execOscCompare_canonical (ppm : Nat) (s : State) (h : s.canonical = true) :
    ∀ t, execOscCompare ppm s = .next t → t.canonical = true := by
  intro t ht
  unfold execOscCompare at ht
  simp only [Host.Outcome.next.injEq] at ht
  subst ht
  simp (maxDischargeDepth := 99) [h]

end Sys2Proof.Machine
end

