-- ==== Sys2Proof/Laws/CanonicalWorlds.lean ====
section
/-! SUPPORT. The canonical form through the operations of Machine/Worlds.lean. -/
namespace Sys2Proof.Machine

@[simp] theorem State.writeOwnerTable_canonical (s : State) (h : s.canonical = true) :
    (State.writeOwnerTable s).canonical = true := by
  simp (maxDischargeDepth := 99) [State.writeOwnerTable, h]

@[simp] theorem State.setOwner_canonical (s : State) (base : Nat) (size : Nat) (code : Nat) (h : s.canonical = true) :
    (State.setOwner s base size code).canonical = true := by
  simp (maxDischargeDepth := 99) [State.setOwner, h]

theorem specWmarkSet_canonical : OpSpec.Canonical specWmarkSet := by
  refine ⟨fun s o h => ?_, fun s o h => ?_⟩
  all_goals simp (maxDischargeDepth := 99) [specWmarkSet, h]

@[simp] theorem State.detach_canonical (s : State) (n : Nat) (h : s.canonical = true) :
    (State.detach s n).canonical = true := by
  simp (maxDischargeDepth := 99) [State.detach, h]

@[simp] theorem State.refreshDebug_canonical (s : State) (h : s.canonical = true) :
    (State.refreshDebug s).canonical = true := by
  simp (maxDischargeDepth := 99) +contextual [State.refreshDebug, h]

@[simp] theorem State.setDebug_canonical (s : State) (bits : Nat) (h : s.canonical = true) :
    (State.setDebug s bits).canonical = true := by
  simp (maxDischargeDepth := 99) [State.setDebug, h]

@[simp] theorem State.debugModeEntered_canonical (s : State) (h : s.canonical = true) :
    (State.debugModeEntered s).canonical = true := by
  simp (maxDischargeDepth := 99) [State.debugModeEntered, h]

theorem specDebugSet_canonical : OpSpec.Canonical specDebugSet := by
  refine ⟨fun s o h => ?_, fun s o h => ?_⟩
  all_goals simp (maxDischargeDepth := 99) [specDebugSet, h]

theorem execDebugSessionAttach_canonical (session : Fin 4) (world : World) (invasive : Bool) (s : State) (h : s.canonical = true) :
    ∀ t, execDebugSessionAttach session world invasive s = .next t → t.canonical = true := by
  intro t ht
  unfold execDebugSessionAttach at ht
  simp only [Host.Outcome.next.injEq] at ht
  subst ht
  simp (maxDischargeDepth := 99) [h]

theorem specFuseBlow_canonical : OpSpec.Canonical specFuseBlow := by
  refine ⟨fun s o h => ?_, fun s o h => ?_⟩
  all_goals simp (maxDischargeDepth := 99) [specFuseBlow, h]

@[simp] theorem State.blowFuse_canonical (s : State) (select : Nat) (steps : Nat) (h : s.canonical = true) :
    (State.blowFuse s select steps).canonical = true := by
  simp (maxDischargeDepth := 99) [State.blowFuse, h]

theorem execFuseBlowComplete_canonical (s : State) (h : s.canonical = true) :
    ∀ t, execFuseBlowComplete s = .next t → t.canonical = true := by
  intro t ht
  unfold execFuseBlowComplete at ht
  simp only [Host.Outcome.next.injEq] at ht
  subst ht
  repeat' split
  all_goals simp (maxDischargeDepth := 99) +contextual [*]

theorem specWorldQuery_canonical : OpSpec.Canonical specWorldQuery := by
  refine ⟨fun s o h => ?_, fun s o h => ?_⟩
  all_goals simp (maxDischargeDepth := 99) [specWorldQuery, h]

theorem execWmarkSet_canonical (p : Packet) (s : State) (h : s.canonical = true) :
    ∀ t, execWmarkSet p s = .next t → t.canonical = true :=
  packetStep_canonical _ _ _ (specWmarkSet_canonical) h

theorem execDebugSet_canonical (p : Packet) (s : State) (h : s.canonical = true) :
    ∀ t, execDebugSet p s = .next t → t.canonical = true :=
  packetStep_canonical _ _ _ (specDebugSet_canonical) h

theorem execFuseBlow_canonical (p : Packet) (s : State) (h : s.canonical = true) :
    ∀ t, execFuseBlow p s = .next t → t.canonical = true :=
  packetStep_canonical _ _ _ (specFuseBlow_canonical) h

theorem execWorldQuery_canonical (p : Packet) (s : State) (h : s.canonical = true) :
    ∀ t, execWorldQuery p s = .next t → t.canonical = true :=
  packetStep_canonical _ _ _ (specWorldQuery_canonical) h

end Sys2Proof.Machine
end

