-- ==== Sys2Proof/Laws/CanonicalCheckUnits.lean ====
section
/-! SUPPORT. The canonical form through the operations of Machine/CheckUnits.lean. -/
namespace Sys2Proof.Machine

@[simp] theorem State.setUnit_canonical (s : State) (u : Nat) (j : Option CuJob) (h : s.canonical = true) :
    (State.setUnit s u j).canonical = true := by
  simp (maxDischargeDepth := 99) [State.setUnit, h]

@[simp] theorem State.cuStart_canonical (s : State) (u : Nat) (j : CuJob) (h : s.canonical = true) :
    (State.cuStart s u j).canonical = true := by
  simp (maxDischargeDepth := 99) [State.cuStart, h]

@[simp] theorem State.cuTake_canonical (s : State) (u : Nat) (j : CuJob) (h : s.canonical = true) :
    (State.cuTake s u j).canonical = true := by
  simp (maxDischargeDepth := 99) [State.cuTake, h]

theorem execCuDispatch_canonical (unit : Fin 8) (s : State) (h : s.canonical = true) :
    ∀ t, execCuDispatch unit s = .next t → t.canonical = true := by
  intro t ht
  unfold execCuDispatch at ht
  simp only [Host.Outcome.next.injEq] at ht
  subst ht
  repeat' split
  all_goals simp (maxDischargeDepth := 99) +contextual [*]

@[simp] theorem State.cuCharge_canonical (s : State) (j : CuJob) (time : Nat) (h : s.canonical = true) :
    (State.cuCharge s j time).canonical = true := by
  simp (maxDischargeDepth := 99) [State.cuCharge, h]

@[simp] theorem State.cuProcess_canonical (s : State) (u : Nat) (j : CuJob) (src : Nat) (len : Nat) (ue : Bool) (h : s.canonical = true) :
    (State.cuProcess s u j src len ue).canonical = true := by
  simp (maxDischargeDepth := 99) [State.cuProcess, h]

@[simp] theorem State.cuYield_canonical (s : State) (u : Nat) (j : CuJob) (h : s.canonical = true) :
    (State.cuYield s u j).canonical = true := by
  unfold State.cuYield
  try dsimp only
  repeat' split
  all_goals simp (maxDischargeDepth := 99) +contextual [*]

theorem execCuDescriptorComplete_canonical (unit : Fin 8) (ue : Bool) (s : State) (h : s.canonical = true) :
    ∀ t, execCuDescriptorComplete unit ue s = .next t → t.canonical = true := by
  intro t ht
  unfold execCuDescriptorComplete at ht
  simp only [Host.Outcome.next.injEq] at ht
  subst ht
  repeat' split
  all_goals simp (maxDischargeDepth := 99) +contextual [*]

@[simp] theorem State.cuRecord_canonical (s : State) (j : CuJob) (h : s.canonical = true) :
    (State.cuRecord s j).canonical = true := by
  simp (maxDischargeDepth := 99) [State.cuRecord, h]

theorem execCuJobComplete_canonical (unit : Fin 8) (s : State) (h : s.canonical = true) :
    ∀ t, execCuJobComplete unit s = .next t → t.canonical = true := by
  intro t ht
  unfold execCuJobComplete at ht
  simp only [Host.Outcome.next.injEq] at ht
  subst ht
  repeat' split
  all_goals simp (maxDischargeDepth := 99) +contextual [*]

@[simp] theorem State.cuHalt_canonical (s : State) (u : Nat) (h : s.canonical = true) :
    (State.cuHalt s u).canonical = true := by
  unfold State.cuHalt
  try dsimp only
  repeat' split
  all_goals simp (maxDischargeDepth := 99) +contextual [*]

@[simp] theorem State.cuResetFunction_canonical (s : State) (f : Nat) (h : s.canonical = true) :
    (State.cuResetFunction s f).canonical = true := by
  unfold State.cuResetFunction
  try dsimp only
  repeat' first | with_reducible assumption | with_reducible refine ite_canonical ?_ ?_ | with_reducible refine each_canonical _ (fun _ _ _ => ?_) ?_ | with_reducible refine when_canonical _ (fun _ => ?_) ?_ | with_reducible refine State.barWrite_canonical _ _ ?_ (fun _ => ?_) | with_reducible refine State.barRead_canonical _ _ _ _ ?_ (fun _ => ?_) | with_reducible refine State.sealedWrite_canonical _ _ _ _ _ ?_ ?_ | split
  all_goals simp (maxDischargeDepth := 99) +contextual [*]

@[simp] theorem State.cuResetWarm_canonical (s : State) (h : s.canonical = true) :
    (State.cuResetWarm s).canonical = true := by
  simp (maxDischargeDepth := 99) +contextual [State.cuResetWarm, h]

@[simp] theorem State.cuFrameStart_canonical (s : State) (h : s.canonical = true) :
    (State.cuFrameStart s).canonical = true := by
  simp (maxDischargeDepth := 99) [State.cuFrameStart, h]

@[simp] theorem State.cuGo_canonical (s : State) (u : Nat) (h : s.canonical = true) :
    (State.cuGo s u).canonical = true := by
  simp (maxDischargeDepth := 99) [State.cuGo, h]

theorem execCuDirectGo_canonical (who : Requester) (unit : Fin 8) (value : W32) (s : State) (h : s.canonical = true) :
    ∀ t, execCuDirectGo who unit value s = .next t → t.canonical = true := by
  intro t ht
  unfold execCuDirectGo at ht
  simp only [Host.Outcome.next.injEq] at ht
  subst ht
  simp (maxDischargeDepth := 99) [h]

theorem specCuJob_canonical : OpSpec.Canonical specCuJob := by
  refine ⟨fun s o h => ?_, fun s o h => ?_⟩
  all_goals simp (maxDischargeDepth := 99) [specCuJob, h]

theorem specCuQuery_canonical : OpSpec.Canonical specCuQuery := by
  refine ⟨fun s o h => ?_, fun s o h => ?_⟩
  all_goals simp (maxDischargeDepth := 99) [specCuQuery, h]

theorem execCuJob_canonical (p : Packet) (s : State) (h : s.canonical = true) :
    ∀ t, execCuJob p s = .next t → t.canonical = true :=
  packetStep_canonical _ _ _ (specCuJob_canonical) h

theorem execCuQuery_canonical (p : Packet) (s : State) (h : s.canonical = true) :
    ∀ t, execCuQuery p s = .next t → t.canonical = true :=
  packetStep_canonical _ _ _ (specCuQuery_canonical) h

end Sys2Proof.Machine
end

