-- ==== Sys2Proof/Laws/CanonicalDisplay.lean ====
section
/-! SUPPORT. The canonical form through the operations of Machine/Display.lean. -/
namespace Sys2Proof.Machine

@[simp] theorem State.setEngine_canonical (s : State) (p : Nat) (e : Nat) (h : s.canonical = true) :
    (State.setEngine s p e).canonical = true := by
  simp (maxDischargeDepth := 99) [State.setEngine, h]

@[simp] theorem State.ashFromNext_canonical (s : State) (n : Nat) (h : s.canonical = true) :
    (State.ashFromNext s n).canonical = true := by
  simp (maxDischargeDepth := 99) [State.ashFromNext, h]

end Sys2Proof.Machine
end

