-- ==== Sys2Proof/Laws/CanonicalLayers.lean ====
section
/-! SUPPORT. The canonical form through the operations of Machine/Layers.lean. -/
namespace Sys2Proof.Machine

@[simp] theorem State.landLayerSet_canonical (s : State) (o : Origin) (h : s.canonical = true) :
    (State.landLayerSet s o).canonical = true := by
  simp (maxDischargeDepth := 99) +contextual [State.landLayerSet, h]

theorem specLayerSet_canonical : OpSpec.Canonical specLayerSet := by
  refine ⟨fun s o h => ?_, fun s o h => ?_⟩
  all_goals simp (maxDischargeDepth := 99) [specLayerSet, h]

@[simp] theorem State.landLayerAddr_canonical (s : State) (o : Origin) (h : s.canonical = true) :
    (State.landLayerAddr s o).canonical = true := by
  simp (maxDischargeDepth := 99) [State.landLayerAddr, h]

theorem specLayerAddr_canonical : OpSpec.Canonical specLayerAddr := by
  refine ⟨fun s o h => ?_, fun s o h => ?_⟩
  all_goals simp (maxDischargeDepth := 99) [specLayerAddr, h]

@[simp] theorem State.putMatrix_canonical (s : State) (o : Origin) (cm off : Nat → Reg) (lo : RF) (pre post : Nat → RF)
    (h : s.canonical = true) : (s.putMatrix o cm off lo pre post).canonical = true :=
  each_canonical _ (fun _ _ ht => State.put_canonical _ _ _ (State.put_canonical _ _ _ (State.wr_canonical _ _ _ ht)))
    (State.put_canonical _ _ _ (each_canonical _ (fun _ _ ht => State.wr_canonical _ _ _ ht) h))

theorem specLayerColour_canonical : OpSpec.Canonical specLayerColour := by
  refine ⟨fun s o h => ?_, fun s o h => ?_⟩
  all_goals simp (maxDischargeDepth := 99) [specLayerColour, h]

theorem specHeadOutputSet_canonical : OpSpec.Canonical specHeadOutputSet := by
  refine ⟨fun s o h => ?_, fun s o h => ?_⟩
  all_goals simp (maxDischargeDepth := 99) [specHeadOutputSet, h]

theorem specHeadGammaSet_canonical : OpSpec.Canonical specHeadGammaSet := by
  refine ⟨fun s o h => ?_, fun s o h => ?_⟩
  all_goals
    unfold specHeadGammaSet
    try dsimp only
    repeat' split
    all_goals simp (maxDischargeDepth := 99) +contextual [*]

theorem specLayerList_canonical : OpSpec.Canonical specLayerList := by
  refine ⟨fun s o h => ?_, fun s o h => ?_⟩
  all_goals
    unfold specLayerList
    try dsimp only
    repeat' split
    all_goals simp (maxDischargeDepth := 99) +contextual [*]

theorem specLayerQuery_canonical : OpSpec.Canonical specLayerQuery := by
  refine ⟨fun s o h => ?_, fun s o h => ?_⟩
  all_goals simp (maxDischargeDepth := 99) [specLayerQuery, h]

theorem specWbQuery_canonical : OpSpec.Canonical specWbQuery := by
  refine ⟨fun s o h => ?_, fun s o h => ?_⟩
  all_goals simp (maxDischargeDepth := 99) [specWbQuery, h]

@[simp] theorem State.landWbSet_canonical (s : State) (o : Origin) (h : s.canonical = true) :
    (State.landWbSet s o).canonical = true := by
  simp (maxDischargeDepth := 99) [State.landWbSet, h]

theorem specWbSet_canonical : OpSpec.Canonical specWbSet := by
  refine ⟨fun s o h => ?_, fun s o h => ?_⟩
  all_goals simp (maxDischargeDepth := 99) [specWbSet, h]

theorem execLayerList_canonical (p : Packet) (s : State) (h : s.canonical = true) :
    ∀ t, execLayerList p s = .next t → t.canonical = true :=
  packetStep_canonical _ _ _ (specLayerList_canonical) h

theorem execLayerSet_canonical (p : Packet) (s : State) (h : s.canonical = true) :
    ∀ t, execLayerSet p s = .next t → t.canonical = true :=
  packetStep_canonical _ _ _ (specLayerSet_canonical) h

theorem execLayerAddr_canonical (p : Packet) (s : State) (h : s.canonical = true) :
    ∀ t, execLayerAddr p s = .next t → t.canonical = true :=
  packetStep_canonical _ _ _ (specLayerAddr_canonical) h

theorem execLayerColour_canonical (p : Packet) (s : State) (h : s.canonical = true) :
    ∀ t, execLayerColour p s = .next t → t.canonical = true :=
  packetStep_canonical _ _ _ (specLayerColour_canonical) h

theorem execLayerQuery_canonical (p : Packet) (s : State) (h : s.canonical = true) :
    ∀ t, execLayerQuery p s = .next t → t.canonical = true :=
  packetStep_canonical _ _ _ (specLayerQuery_canonical) h

theorem execWbSet_canonical (p : Packet) (s : State) (h : s.canonical = true) :
    ∀ t, execWbSet p s = .next t → t.canonical = true :=
  packetStep_canonical _ _ _ (specWbSet_canonical) h

theorem execWbQuery_canonical (p : Packet) (s : State) (h : s.canonical = true) :
    ∀ t, execWbQuery p s = .next t → t.canonical = true :=
  packetStep_canonical _ _ _ (specWbQuery_canonical) h

theorem execHeadOutputSet_canonical (p : Packet) (s : State) (h : s.canonical = true) :
    ∀ t, execHeadOutputSet p s = .next t → t.canonical = true :=
  packetStep_canonical _ _ _ (specHeadOutputSet_canonical) h

theorem execHeadGammaSet_canonical (p : Packet) (s : State) (h : s.canonical = true) :
    ∀ t, execHeadGammaSet p s = .next t → t.canonical = true :=
  packetStep_canonical _ _ _ (specHeadGammaSet_canonical) h

@[simp] theorem State.copyRegs_canonical (s : State) (src : Nat) (dst : Nat) (len : Nat) (h : s.canonical = true) :
    (State.copyRegs s src dst len).canonical = true := by
  simp (maxDischargeDepth := 99) [State.copyRegs, h]

@[simp] theorem State.latchPipes_canonical (s : State) (n : Nat) (h : s.canonical = true) :
    (State.latchPipes s n).canonical = true := by
  simp (maxDischargeDepth := 99) +contextual [State.latchPipes, h]

@[simp] theorem State.checkPipes_canonical (s : State) (n : Nat) (h : s.canonical = true) :
    (State.checkPipes s n).canonical = true := by
  simp (maxDischargeDepth := 99) +contextual [State.checkPipes, h]

@[simp] theorem State.pipesFrameStart_canonical (s : State) (n : Nat) (h : s.canonical = true) :
    (State.pipesFrameStart s n).canonical = true := by
  simp (maxDischargeDepth := 99) +contextual [State.pipesFrameStart, h]

@[simp] theorem State.turnOff_canonical (s : State) (m : Nat) (at_ : Nat × Nat) (h : s.canonical = true) :
    (State.turnOff s m at_).canonical = true := by
  simp (maxDischargeDepth := 99) [State.turnOff, h]

@[simp] theorem State.underrun_canonical (s : State) (m : Nat) (line : Nat) (pixel : Nat) (event : Nat) (h : s.canonical = true) :
    (State.underrun s m line pixel event).canonical = true := by
  simp (maxDischargeDepth := 99) +contextual [State.underrun, h]

theorem execLayerUnderrun_canonical (pipe : Fin 48) (line : W16) (pixel : W16) (s : State) (h : s.canonical = true) :
    ∀ t, execLayerUnderrun pipe line pixel s = .next t → t.canonical = true := by
  intro t ht
  unfold execLayerUnderrun at ht
  simp only [Host.Outcome.next.injEq] at ht
  subst ht
  simp (maxDischargeDepth := 99) [h]

@[simp] theorem State.wbFrameStart_canonical (s : State) (n : Nat) (start : Stamp) (h : s.canonical = true) :
    (State.wbFrameStart s n start).canonical = true := by
  simp (maxDischargeDepth := 99) +contextual [State.wbFrameStart, h]

@[simp] theorem State.wbEnd_canonical (s : State) (u : Nat) (h : s.canonical = true) :
    (State.wbEnd s u).canonical = true := by
  simp (maxDischargeDepth := 99) [State.wbEnd, h]

@[simp] theorem State.wbCut_canonical (s : State) (h : s.canonical = true) :
    (State.wbCut s).canonical = true := by
  simp (maxDischargeDepth := 99) +contextual [State.wbCut, h]

@[simp] theorem State.pipeDark_canonical (s : State) (m : Nat) (h : s.canonical = true) :
    (State.pipeDark s m).canonical = true := by
  simp (maxDischargeDepth := 99) [State.pipeDark, h]

@[simp] theorem State.pipesBanked_canonical (s : State) (h : s.canonical = true) :
    (State.pipesBanked s).canonical = true := by
  simp (maxDischargeDepth := 99) +contextual [State.pipesBanked, h]

end Sys2Proof.Machine
end

