-- ==== Sys2Proof/Laws/CanonicalCompose.lean ====
section
/-! SUPPORT. The canonical form through the operations of Machine/Compose.lean. -/
namespace Sys2Proof.Machine

@[simp] theorem State.writeLines_canonical (s : State) (u : Nat) (lines : Nat) (h : s.canonical = true) :
    (State.writeLines s u lines).canonical = true := by
  simp (maxDischargeDepth := 99) +contextual [State.writeLines, h]

theorem execWbCaptureComplete_canonical (unit : Fin 4) (s : State) (h : s.canonical = true) :
    ∀ t, execWbCaptureComplete unit s = .next t → t.canonical = true := by
  intro t ht
  unfold execWbCaptureComplete at ht
  simp only [Host.Outcome.next.injEq] at ht
  subst ht
  repeat' split
  all_goals simp (maxDischargeDepth := 99) +contextual [*]

theorem execWbOverflow_canonical (unit : Fin 4) (lines : W16) (s : State) (h : s.canonical = true) :
    ∀ t, execWbOverflow unit lines s = .next t → t.canonical = true := by
  intro t ht
  unfold execWbOverflow at ht
  simp only [Host.Outcome.next.injEq] at ht
  subst ht
  repeat' split
  all_goals simp (maxDischargeDepth := 99) +contextual [*]

end Sys2Proof.Machine
end

