-- ==== Sys2Proof/Laws/CanonicalLinks.lean ====
section
/-! SUPPORT. The canonical form through the operations of Machine/Links.lean. -/
namespace Sys2Proof.Machine

@[simp] theorem State.untrain_canonical (s : State) (p : Nat) (h : s.canonical = true) :
    (State.untrain s p).canonical = true := by
  simp (maxDischargeDepth := 99) [State.untrain, h]

@[simp] theorem State.startTraining_canonical (s : State) (p : Nat) (h : s.canonical = true) :
    (State.startTraining s p).canonical = true := by
  simp (maxDischargeDepth := 99) [State.startTraining, h]

@[simp] theorem State.portEvent_canonical (s : State) (e : Nat) (d : Nat) (h : s.canonical = true) :
    (State.portEvent s e d).canonical = true := by
  simp (maxDischargeDepth := 99) [State.portEvent, h]

theorem execLinkTrainAttemptEnd_canonical (port : Fin 8) (cr : Bool) (eq : Bool) (sym : Bool) (s : State) (h : s.canonical = true) :
    ∀ t, execLinkTrainAttemptEnd port cr eq sym s = .next t → t.canonical = true := by
  intro t ht
  unfold execLinkTrainAttemptEnd at ht
  simp only [Host.Outcome.next.injEq] at ht
  subst ht
  repeat' split
  all_goals simp (maxDischargeDepth := 99) +contextual [*]

@[simp] theorem State.answerAux_canonical (s : State) (p : Nat) (detail : Nat) (h : s.canonical = true) :
    (State.answerAux s p detail).canonical = true := by
  simp (maxDischargeDepth := 99) +contextual [State.answerAux, h]

theorem execHpdPlug_canonical (port : Fin 8) (maxRate : Fin 4) (lanes : Fin 5) (sinkCount : Fin 16) (s : State) (h : s.canonical = true) :
    ∀ t, execHpdPlug port maxRate lanes sinkCount s = .next t → t.canonical = true := by
  intro t ht
  unfold execHpdPlug at ht
  simp only [Host.Outcome.next.injEq] at ht
  subst ht
  simp (maxDischargeDepth := 99) [h]

theorem execHpdUnplug_canonical (port : Fin 8) (s : State) (h : s.canonical = true) :
    ∀ t, execHpdUnplug port s = .next t → t.canonical = true := by
  intro t ht
  unfold execHpdUnplug at ht
  simp only [Host.Outcome.next.injEq] at ht
  subst ht
  simp (maxDischargeDepth := 99) [h]

theorem execHpdIrq_canonical (port : Fin 8) (cr : Bool) (eq : Bool) (sym : Bool) (s : State) (h : s.canonical = true) :
    ∀ t, execHpdIrq port cr eq sym s = .next t → t.canonical = true := by
  intro t ht
  unfold execHpdIrq at ht
  simp only [Host.Outcome.next.injEq] at ht
  subst ht
  simp (maxDischargeDepth := 99) [h]

@[simp] theorem State.portsAfterWarm_canonical (s : State) (h : s.canonical = true) :
    (State.portsAfterWarm s).canonical = true := by
  simp (maxDischargeDepth := 99) +contextual [State.portsAfterWarm, h]

theorem execAuxReadComplete_canonical (port : Fin 8) (result : Fin 5) (data : List Byte) (s : State) (h : s.canonical = true) :
    ∀ t, execAuxReadComplete port result data s = .next t → t.canonical = true := by
  intro t ht
  unfold execAuxReadComplete at ht
  simp only [Host.Outcome.next.injEq] at ht
  subst ht
  repeat' split
  all_goals simp (maxDischargeDepth := 99) +contextual [*]

theorem specSinkRead_canonical : OpSpec.Canonical specSinkRead := by
  refine ⟨fun s o h => ?_, fun s o h => ?_⟩
  all_goals
    unfold specSinkRead
    try dsimp only
    repeat' split
    all_goals simp (maxDischargeDepth := 99) +contextual [*]

theorem execTeEdge_canonical (port : Fin 8) (s : State) (h : s.canonical = true) :
    ∀ t, execTeEdge port s = .next t → t.canonical = true := by
  intro t ht
  unfold execTeEdge at ht
  simp only [Host.Outcome.next.injEq] at ht
  subst ht
  simp (maxDischargeDepth := 99) [h]

@[simp] theorem State.teTimeout_canonical (s : State) (p : Nat) (h : s.canonical = true) :
    (State.teTimeout s p).canonical = true := by
  simp (maxDischargeDepth := 99) [State.teTimeout, h]

@[simp] theorem State.teFrameStart_canonical (s : State) (p : Nat) (h : s.canonical = true) :
    (State.teFrameStart s p).canonical = true := by
  simp (maxDischargeDepth := 99) [State.teFrameStart, h]

theorem execDsiErrPoll_canonical (port : Fin 8) (report : W32) (s : State) (h : s.canonical = true) :
    ∀ t, execDsiErrPoll port report s = .next t → t.canonical = true := by
  intro t ht
  unfold execDsiErrPoll at ht
  simp only [Host.Outcome.next.injEq] at ht
  subst ht
  simp (maxDischargeDepth := 99) [h]

@[simp] theorem State.teRelease_canonical (s : State) (h : s.canonical = true) :
    (State.teRelease s).canonical = true := by
  simp (maxDischargeDepth := 99) [State.teRelease, h]

theorem specDsiConfig_canonical : OpSpec.Canonical specDsiConfig := by
  refine ⟨fun s o h => ?_, fun s o h => ?_⟩
  all_goals
    unfold specDsiConfig
    try dsimp only
    repeat' split
    all_goals simp (maxDischargeDepth := 99) +contextual [*]

@[simp] theorem State.portChanged_canonical (s : State) (p : Nat) (old : W64) (h : s.canonical = true) :
    (State.portChanged s p old).canonical = true := by
  simp (maxDischargeDepth := 99) [State.portChanged, h]

theorem specPortConfig_canonical : OpSpec.Canonical specPortConfig := by
  refine ⟨fun s o h => ?_, fun s o h => ?_⟩
  all_goals simp (maxDischargeDepth := 99) [specPortConfig, h]

theorem specPortRetrain_canonical : OpSpec.Canonical specPortRetrain := by
  refine ⟨fun s o h => ?_, fun s o h => ?_⟩
  all_goals simp (maxDischargeDepth := 99) [specPortRetrain, h]

theorem execSinkRead_canonical (p : Packet) (s : State) (h : s.canonical = true) :
    ∀ t, execSinkRead p s = .next t → t.canonical = true :=
  packetStep_canonical _ _ _ (specSinkRead_canonical) h

theorem execDsiConfig_canonical (p : Packet) (s : State) (h : s.canonical = true) :
    ∀ t, execDsiConfig p s = .next t → t.canonical = true :=
  packetStep_canonical _ _ _ (specDsiConfig_canonical) h

theorem execPortConfig_canonical (p : Packet) (s : State) (h : s.canonical = true) :
    ∀ t, execPortConfig p s = .next t → t.canonical = true :=
  packetStep_canonical _ _ _ (specPortConfig_canonical) h

theorem execPortRetrain_canonical (p : Packet) (s : State) (h : s.canonical = true) :
    ∀ t, execPortRetrain p s = .next t → t.canonical = true :=
  packetStep_canonical _ _ _ (specPortRetrain_canonical) h

end Sys2Proof.Machine
end

