-- ==== Sys2Proof/Laws/CanonicalSpare.lean ====
section
/-! SUPPORT. The canonical form through the operations of Machine/Spare.lean. -/
namespace Sys2Proof.Machine

@[simp] theorem State.setSpare_canonical (s : State) (state : Nat) (serving : Nat) (h : s.canonical = true) :
    (State.setSpare s state serving).canonical = true := by
  simp (maxDischargeDepth := 99) [State.setSpare, h]

@[simp] theorem State.answerSpare_canonical (s : State) (a : Answer) (h : s.canonical = true) :
    (State.answerSpare s a).canonical = true := by
  unfold State.answerSpare
  try dsimp only
  repeat' split
  all_goals simp (maxDischargeDepth := 99) +contextual [*]

@[simp] theorem State.noEngine_canonical (s : State) (p : Nat) (h : s.canonical = true) :
    (State.noEngine s p).canonical = true := by
  simp (maxDischargeDepth := 99) [State.noEngine, h]

@[simp] theorem State.takeoverFails_canonical (s : State) (p : Nat) (cause : Nat) (h : s.canonical = true) :
    (State.takeoverFails s p cause).canonical = true := by
  simp (maxDischargeDepth := 99) [State.takeoverFails, h]

@[simp] theorem State.beginTakeover_canonical (s : State) (p : Nat) (o : Option Origin) (h : s.canonical = true) :
    (State.beginTakeover s p o).canonical = true := by
  simp (maxDischargeDepth := 99) [State.beginTakeover, h]

@[simp] theorem State.spareFault_canonical (s : State) (cause : Nat) (h : s.canonical = true) :
    (State.spareFault s cause).canonical = true := by
  unfold State.spareFault
  try dsimp only
  repeat' split
  all_goals simp (maxDischargeDepth := 99) +contextual [*]

@[simp] theorem State.engineFault_canonical (s : State) (e : Nat) (cause : Nat) (o : Option Origin) (h : s.canonical = true) :
    (State.engineFault s e cause o).canonical = true := by
  unfold State.engineFault
  try dsimp only
  repeat' split
  all_goals simp (maxDischargeDepth := 99) +contextual [*]

theorem execEngineDatapathFault_canonical (engine : Fin 9) (s : State) (h : s.canonical = true) :
    ∀ t, execEngineDatapathFault engine s = .next t → t.canonical = true := by
  intro t ht
  unfold execEngineDatapathFault at ht
  simp only [Host.Outcome.next.injEq] at ht
  subst ht
  simp (maxDischargeDepth := 99) [h]

theorem execEngineTimingWatchdog_canonical (engine : Fin 9) (s : State) (h : s.canonical = true) :
    ∀ t, execEngineTimingWatchdog engine s = .next t → t.canonical = true := by
  intro t ht
  unfold execEngineTimingWatchdog at ht
  simp only [Host.Outcome.next.injEq] at ht
  subst ht
  simp (maxDischargeDepth := 99) [h]

@[simp] theorem State.connectSpare_canonical (s : State) (p : Nat) (h : s.canonical = true) :
    (State.connectSpare s p).canonical = true := by
  simp (maxDischargeDepth := 99) [State.connectSpare, h]

@[simp] theorem State.connectBack_canonical (s : State) (p : Nat) (o : Origin) (h : s.canonical = true) :
    (State.connectBack s p o).canonical = true := by
  simp (maxDischargeDepth := 99) [State.connectBack, h]

@[simp] theorem State.transitNext_canonical (s : State) (p : Nat) (h : s.canonical = true) :
    (State.transitNext s p).canonical = true := by
  simp (maxDischargeDepth := 99) [State.transitNext, h]

@[simp] theorem State.loadSpare_canonical (s : State) (h : s.canonical = true) :
    (State.loadSpare s).canonical = true := by
  simp (maxDischargeDepth := 99) [State.loadSpare, h]

@[simp] theorem State.loadRestore_canonical (s : State) (h : s.canonical = true) :
    (State.loadRestore s).canonical = true := by
  unfold State.loadRestore
  try dsimp only
  repeat' split
  all_goals simp (maxDischargeDepth := 99) +contextual [*]

@[simp] theorem State.mirrorStart_canonical (s : State) (h : s.canonical = true) :
    (State.mirrorStart s).canonical = true := by
  simp (maxDischargeDepth := 99) [State.mirrorStart, h]

@[simp] theorem State.spareFrameStart_canonical (s : State) (h : s.canonical = true) :
    (State.spareFrameStart s).canonical = true := by
  simp (maxDischargeDepth := 99) [State.spareFrameStart, h]

@[simp] theorem State.primeFails_canonical (s : State) (p : Nat) (h : s.canonical = true) :
    (State.primeFails s p).canonical = true := by
  simp (maxDischargeDepth := 99) [State.primeFails, h]

@[simp] theorem State.spareHeadFrame_canonical (s : State) (n : Nat) (h : s.canonical = true) :
    (State.spareHeadFrame s n).1.canonical = true := by
  unfold State.spareHeadFrame
  try dsimp only
  repeat' split
  all_goals simp (maxDischargeDepth := 99) +contextual [*]

theorem execEngineBistComplete_canonical (engine : Fin 9) (pass : Bool) (s : State) (h : s.canonical = true) :
    ∀ t, execEngineBistComplete engine pass s = .next t → t.canonical = true := by
  intro t ht
  unfold execEngineBistComplete at ht
  simp only [Host.Outcome.next.injEq] at ht
  subst ht
  repeat' split
  all_goals simp (maxDischargeDepth := 99) +contextual [*]

theorem execSpareTestComplete_canonical (pass : Bool) (s : State) (h : s.canonical = true) :
    ∀ t, execSpareTestComplete pass s = .next t → t.canonical = true := by
  intro t ht
  unfold execSpareTestComplete at ht
  simp only [Host.Outcome.next.injEq] at ht
  subst ht
  repeat' split
  all_goals simp (maxDischargeDepth := 99) +contextual [*]

@[simp] theorem State.renominate_canonical (s : State) (old : Nat) (h : s.canonical = true) :
    (State.renominate s old).canonical = true := by
  simp (maxDischargeDepth := 99) [State.renominate, h]

theorem specSpareSet_canonical : OpSpec.Canonical specSpareSet := by
  refine ⟨fun s o h => ?_, fun s o h => ?_⟩
  all_goals simp (maxDischargeDepth := 99) [specSpareSet, h]

@[simp] theorem spareActionRun_canonical (s : State) (o : Origin) (h : s.canonical = true) :
    (spareActionRun s o).1.canonical = true := by
  unfold spareActionRun
  try dsimp only
  repeat' split
  all_goals simp (maxDischargeDepth := 99) +contextual [*]

theorem specSpareAction_canonical : OpSpec.Canonical specSpareAction := by
  refine ⟨fun s o h => ?_, fun s o h => ?_⟩
  all_goals simp (maxDischargeDepth := 99) [specSpareAction, h]

theorem execSpareSet_canonical (p : Packet) (s : State) (h : s.canonical = true) :
    ∀ t, execSpareSet p s = .next t → t.canonical = true :=
  packetStep_canonical _ _ _ (specSpareSet_canonical) h

theorem execSpareTakeover_canonical (p : Packet) (s : State) (h : s.canonical = true) :
    ∀ t, execSpareTakeover p s = .next t → t.canonical = true :=
  packetStep_canonical _ _ _ (specSpareAction_canonical) h

theorem execSpareRestore_canonical (p : Packet) (s : State) (h : s.canonical = true) :
    ∀ t, execSpareRestore p s = .next t → t.canonical = true :=
  packetStep_canonical _ _ _ (specSpareAction_canonical) h

theorem execSpareTest_canonical (p : Packet) (s : State) (h : s.canonical = true) :
    ∀ t, execSpareTest p s = .next t → t.canonical = true :=
  packetStep_canonical _ _ _ (specSpareAction_canonical) h

end Sys2Proof.Machine
end

