-- ==== Sys2Proof/Laws/CanonicalInteg.lean ====
section
/-! SUPPORT. The canonical form through the operations of Machine/Integ.lean. -/
namespace Sys2Proof.Machine

@[simp] theorem State.evaluate_canonical (s : State) (m : Nat) (h : s.canonical = true) :
    (State.evaluate s m).canonical = true := by
  simp (maxDischargeDepth := 99) [State.evaluate, h]

@[simp] theorem State.startHold_canonical (s : State) (n : Nat) (kind : Nat) (event : Nat) (unit : Nat) (h : s.canonical = true) :
    (State.startHold s n kind event unit).canonical = true := by
  simp (maxDischargeDepth := 99) [State.startHold, h]

@[simp] theorem State.endHold_canonical (s : State) (n : Nat) (h : s.canonical = true) :
    (State.endHold s n).canonical = true := by
  simp (maxDischargeDepth := 99) [State.endHold, h]

@[simp] theorem State.pictureReturns_canonical (s : State) (n : Nat) (h : s.canonical = true) :
    (State.pictureReturns s n).canonical = true := by
  simp (maxDischargeDepth := 99) +contextual [State.pictureReturns, h]

@[simp] theorem State.c0Check_canonical (s : State) (n : Nat) (p : Nat) (err : Nat) (h : s.canonical = true) :
    (State.c0Check s n p err).canonical = true := by
  simp (maxDischargeDepth := 99) [State.c0Check, h]

@[simp] theorem State.superviseVerdict_canonical (s : State) (n : Nat) (ok : Bool) (h : s.canonical = true) :
    (State.superviseVerdict s n ok).canonical = true := by
  simp (maxDischargeDepth := 99) [State.superviseVerdict, h]

@[simp] theorem State.supvFrameStart_canonical (s : State) (h : s.canonical = true) :
    (State.supvFrameStart s).canonical = true := by
  simp (maxDischargeDepth := 99) +contextual [State.supvFrameStart, h]

@[simp] theorem State.raiseFirst_canonical (s : State) (n : Nat) (event : Nat) (l : List Nat) (h : s.canonical = true) :
    (State.raiseFirst s n event l).canonical = true := by
  unfold State.raiseFirst
  try dsimp only
  repeat' split
  all_goals simp (maxDischargeDepth := 99) +contextual [*]

@[simp] theorem State.recordVerdict_canonical (s : State) (n : Nat) (reason : Nat) (h : s.canonical = true) :
    (State.recordVerdict s n reason).canonical = true := by
  simp (maxDischargeDepth := 99) [State.recordVerdict, h]

@[simp] theorem State.recordResults_canonical (s : State) (n : Nat) (rects : List RectResult) (pinOk : Bool) (h : s.canonical = true) :
    (State.recordResults s n rects pinOk).canonical = true := by
  unfold State.recordResults
  try dsimp only
  repeat' first | with_reducible assumption | with_reducible refine ite_canonical ?_ ?_ | with_reducible refine each_canonical _ (fun _ _ _ => ?_) ?_ | with_reducible refine when_canonical _ (fun _ => ?_) ?_ | with_reducible refine State.barWrite_canonical _ _ ?_ (fun _ => ?_) | with_reducible refine State.barRead_canonical _ _ _ _ ?_ (fun _ => ?_) | with_reducible refine State.sealedWrite_canonical _ _ _ _ _ ?_ ?_ | split
  all_goals simp (maxDischargeDepth := 99) +contextual [*]

@[simp] theorem State.outcomeEvents_canonical (s : State) (n : Nat) (path : Nat) (rects : List RectResult) (h : s.canonical = true) :
    (State.outcomeEvents s n path rects).canonical = true := by
  unfold State.outcomeEvents
  try dsimp only
  repeat' split
  all_goals simp (maxDischargeDepth := 99) +contextual [*]

@[simp] theorem State.escalate_canonical (s : State) (n : Nat) (path : Nat) (rects : List RectResult) (h : s.canonical = true) :
    (State.escalate s n path rects).canonical = true := by
  unfold State.escalate
  try dsimp only
  repeat' split
  all_goals simp (maxDischargeDepth := 99) +contextual [*]

@[simp] theorem State.mirrorVerdict_canonical (s : State) (n : Nat) (rects : List RectResult) (seen : List RectSeen) (spareErr : List Nat) (h : s.canonical = true) :
    (State.mirrorVerdict s n rects seen spareErr).canonical = true := by
  simp (maxDischargeDepth := 99) [State.mirrorVerdict, h]

@[simp] theorem State.verdictOf_canonical (s : State) (n : Nat) (f : FrameFacts) (seen : List RectSeen × Nat) (pin : List Nat) (tap : List Nat) (spare : List Nat) (lost : Bool) (h : s.canonical = true) :
    (State.verdictOf s n f seen pin tap spare lost).canonical = true := by
  simp (maxDischargeDepth := 99) [State.verdictOf, h]

@[simp] theorem State.c0Finish_canonical (s : State) (n : Nat) (h : s.canonical = true) :
    (State.c0Finish s n).canonical = true := by
  simp (maxDischargeDepth := 99) [State.c0Finish, h]

@[simp] theorem State.headVerdict_canonical (s : State) (n : Nat) (pin : List Nat) (tap : List Nat) (spare : List Nat) (lost : Bool) (h : s.canonical = true) :
    (State.headVerdict s n pin tap spare lost).canonical = true := by
  unfold State.headVerdict
  try dsimp only
  repeat' split
  all_goals simp (maxDischargeDepth := 99) +contextual [*]

theorem execRbSelftestDue_canonical (port : Fin 8) (s : State) (h : s.canonical = true) :
    ∀ t, execRbSelftestDue port s = .next t → t.canonical = true := by
  intro t ht
  unfold execRbSelftestDue at ht
  simp only [Host.Outcome.next.injEq] at ht
  subst ht
  simp (maxDischargeDepth := 99) [h]

theorem execRbSelftestComplete_canonical (port : Fin 8) (pass : Bool) (s : State) (h : s.canonical = true) :
    ∀ t, execRbSelftestComplete port pass s = .next t → t.canonical = true := by
  intro t ht
  unfold execRbSelftestComplete at ht
  simp only [Host.Outcome.next.injEq] at ht
  subst ht
  repeat' split
  all_goals simp (maxDischargeDepth := 99) +contextual [*]

@[simp] theorem State.c0FrameStart_canonical (s : State) (n : Nat) (h : s.canonical = true) :
    (State.c0FrameStart s n).canonical = true := by
  simp (maxDischargeDepth := 99) +contextual [State.c0FrameStart, h]

@[simp] theorem State.sinkFrameStart_canonical (s : State) (n : Nat) (judged : Bool) (h : s.canonical = true) :
    (State.sinkFrameStart s n judged).canonical = true := by
  simp (maxDischargeDepth := 99) [State.sinkFrameStart, h]

@[simp] theorem State.sinkSample_canonical (s : State) (n : Nat) (crc : W64) (h : s.canonical = true) :
    (State.sinkSample s n crc).canonical = true := by
  unfold State.sinkSample
  try dsimp only
  repeat' split
  all_goals simp (maxDischargeDepth := 99) +contextual [*]

theorem execSinkCrcSample_canonical (head : Fin 8) (supported : Bool) (ok : Bool) (crc : BitVec 48) (s : State) (h : s.canonical = true) :
    ∀ t, execSinkCrcSample head supported ok crc s = .next t → t.canonical = true := by
  intro t ht
  unfold execSinkCrcSample at ht
  simp only [Host.Outcome.next.injEq] at ht
  subst ht
  simp (maxDischargeDepth := 99) [h]

@[simp] theorem State.checkInteg_canonical (s : State) (n : Nat) (h : s.canonical = true) :
    (State.checkInteg s n).canonical = true := by
  simp (maxDischargeDepth := 99) +contextual [State.checkInteg, h]

theorem specGuardSet_canonical : OpSpec.Canonical specGuardSet := by
  refine ⟨fun s o h => ?_, fun s o h => ?_⟩
  all_goals simp (maxDischargeDepth := 99) [specGuardSet, h]

theorem specFreshTime_canonical : OpSpec.Canonical specFreshTime := by
  refine ⟨fun s o h => ?_, fun s o h => ?_⟩
  all_goals simp (maxDischargeDepth := 99) [specFreshTime, h]

theorem specAgeQuery_canonical : OpSpec.Canonical specAgeQuery := by
  refine ⟨fun s o h => ?_, fun s o h => ?_⟩
  all_goals simp (maxDischargeDepth := 99) [specAgeQuery, h]

theorem specRectSet_canonical : OpSpec.Canonical specRectSet := by
  refine ⟨fun s o h => ?_, fun s o h => ?_⟩
  all_goals simp (maxDischargeDepth := 99) [specRectSet, h]

theorem specRectExpect_canonical : OpSpec.Canonical specRectExpect := by
  refine ⟨fun s o h => ?_, fun s o h => ?_⟩
  all_goals
    unfold specRectExpect
    try dsimp only
    repeat' split
    all_goals simp (maxDischargeDepth := 99) +contextual [*]

@[simp] theorem State.landEmberSet_canonical (s : State) (o : Origin) (h : s.canonical = true) :
    (State.landEmberSet s o).canonical = true := by
  simp (maxDischargeDepth := 99) [State.landEmberSet, h]

theorem specEmberSet_canonical : OpSpec.Canonical specEmberSet := by
  refine ⟨fun s o h => ?_, fun s o h => ?_⟩
  all_goals simp (maxDischargeDepth := 99) [specEmberSet, h]

theorem specEmberPalette_canonical : OpSpec.Canonical specEmberPalette := by
  refine ⟨fun s o h => ?_, fun s o h => ?_⟩
  all_goals
    unfold specEmberPalette
    try dsimp only
    repeat' split
    all_goals simp (maxDischargeDepth := 99) +contextual [*]

theorem specEmberExpect_canonical : OpSpec.Canonical specEmberExpect := by
  refine ⟨fun s o h => ?_, fun s o h => ?_⟩
  all_goals simp (maxDischargeDepth := 99) [specEmberExpect, h]

theorem specIntegCfg_canonical : OpSpec.Canonical specIntegCfg := by
  refine ⟨fun s o h => ?_, fun s o h => ?_⟩
  all_goals simp (maxDischargeDepth := 99) [specIntegCfg, h]

theorem specIntegResume_canonical : OpSpec.Canonical specIntegResume := by
  refine ⟨fun s o h => ?_, fun s o h => ?_⟩
  all_goals
    unfold specIntegResume
    try dsimp only
    repeat' split
    all_goals simp (maxDischargeDepth := 99) +contextual [*]

theorem specRbSelftest_canonical : OpSpec.Canonical specRbSelftest := by
  refine ⟨fun s o h => ?_, fun s o h => ?_⟩
  all_goals simp (maxDischargeDepth := 99) [specRbSelftest, h]

theorem specIntegQuery_canonical : OpSpec.Canonical specIntegQuery := by
  refine ⟨fun s o h => ?_, fun s o h => ?_⟩
  all_goals simp (maxDischargeDepth := 99) [specIntegQuery, h]

theorem specEmberWrite_canonical : OpSpec.Canonical specEmberWrite := by
  refine ⟨fun s o h => ?_, fun s o h => ?_⟩
  all_goals simp (maxDischargeDepth := 99) [specEmberWrite, h]

theorem specEmberLoad_canonical : OpSpec.Canonical specEmberLoad := by
  refine ⟨fun s o h => ?_, fun s o h => ?_⟩
  all_goals simp (maxDischargeDepth := 99) [specEmberLoad, h]

theorem execEmberLoadComplete_canonical (ring : Fin 34) (s : State) (h : s.canonical = true) :
    ∀ t, execEmberLoadComplete ring s = .next t → t.canonical = true := by
  intro t ht
  unfold execEmberLoadComplete at ht
  simp only [Host.Outcome.next.injEq] at ht
  subst ht
  repeat' split
  all_goals simp (maxDischargeDepth := 99) +contextual [*]

theorem execGuardSet_canonical (p : Packet) (s : State) (h : s.canonical = true) :
    ∀ t, execGuardSet p s = .next t → t.canonical = true :=
  packetStep_canonical _ _ _ (specGuardSet_canonical) h

theorem execFreshTime_canonical (p : Packet) (s : State) (h : s.canonical = true) :
    ∀ t, execFreshTime p s = .next t → t.canonical = true :=
  packetStep_canonical _ _ _ (specFreshTime_canonical) h

theorem execRectSet_canonical (p : Packet) (s : State) (h : s.canonical = true) :
    ∀ t, execRectSet p s = .next t → t.canonical = true :=
  packetStep_canonical _ _ _ (specRectSet_canonical) h

theorem execRectExpect_canonical (p : Packet) (s : State) (h : s.canonical = true) :
    ∀ t, execRectExpect p s = .next t → t.canonical = true :=
  packetStep_canonical _ _ _ (specRectExpect_canonical) h

theorem execEmberSet_canonical (p : Packet) (s : State) (h : s.canonical = true) :
    ∀ t, execEmberSet p s = .next t → t.canonical = true :=
  packetStep_canonical _ _ _ (specEmberSet_canonical) h

theorem execEmberPalette_canonical (p : Packet) (s : State) (h : s.canonical = true) :
    ∀ t, execEmberPalette p s = .next t → t.canonical = true :=
  packetStep_canonical _ _ _ (specEmberPalette_canonical) h

theorem execEmberExpect_canonical (p : Packet) (s : State) (h : s.canonical = true) :
    ∀ t, execEmberExpect p s = .next t → t.canonical = true :=
  packetStep_canonical _ _ _ (specEmberExpect_canonical) h

theorem execEmberWrite_canonical (p : Packet) (s : State) (h : s.canonical = true) :
    ∀ t, execEmberWrite p s = .next t → t.canonical = true :=
  packetStep_canonical _ _ _ (specEmberWrite_canonical) h

theorem execEmberLoad_canonical (p : Packet) (s : State) (h : s.canonical = true) :
    ∀ t, execEmberLoad p s = .next t → t.canonical = true :=
  packetStep_canonical _ _ _ (specEmberLoad_canonical) h

theorem execIntegCfg_canonical (p : Packet) (s : State) (h : s.canonical = true) :
    ∀ t, execIntegCfg p s = .next t → t.canonical = true :=
  packetStep_canonical _ _ _ (specIntegCfg_canonical) h

theorem execIntegResume_canonical (p : Packet) (s : State) (h : s.canonical = true) :
    ∀ t, execIntegResume p s = .next t → t.canonical = true :=
  packetStep_canonical _ _ _ (specIntegResume_canonical) h

theorem execRbSelftest_canonical (p : Packet) (s : State) (h : s.canonical = true) :
    ∀ t, execRbSelftest p s = .next t → t.canonical = true :=
  packetStep_canonical _ _ _ (specRbSelftest_canonical) h

theorem execIntegQuery_canonical (p : Packet) (s : State) (h : s.canonical = true) :
    ∀ t, execIntegQuery p s = .next t → t.canonical = true :=
  packetStep_canonical _ _ _ (specIntegQuery_canonical) h

theorem execAgeQuery_canonical (p : Packet) (s : State) (h : s.canonical = true) :
    ∀ t, execAgeQuery p s = .next t → t.canonical = true :=
  packetStep_canonical _ _ _ (specAgeQuery_canonical) h

end Sys2Proof.Machine
end

