-- ==== Sys2Proof/Laws/CanonicalHeads.lean ====
section
/-! SUPPORT. The canonical form through the operations of Machine/Heads.lean. -/
namespace Sys2Proof.Machine

@[simp] theorem State.latch_canonical (s : State) (n : Nat) (h : s.canonical = true) :
    (State.latch s n).canonical = true := by
  simp (maxDischargeDepth := 99) +contextual [State.latch, h]

@[simp] theorem State.armHeads_canonical (s : State) (h : s.canonical = true) :
    (State.armHeads s).canonical = true := by
  simp (maxDischargeDepth := 99) +contextual [State.armHeads, h]

@[simp] theorem State.stopHead_canonical (s : State) (n : Nat) (h : s.canonical = true) :
    (State.stopHead s n).canonical = true := by
  simp (maxDischargeDepth := 99) +contextual [State.stopHead, h]

@[simp] theorem State.keepLast_canonical (s : State) (n : Nat) (h : s.canonical = true) :
    (State.keepLast s n).canonical = true := by
  simp (maxDischargeDepth := 99) [State.keepLast, h]

@[simp] theorem State.scanCopy_canonical (s : State) (n : Nat) (h : s.canonical = true) :
    (State.scanCopy s n).canonical = true := by
  simp (maxDischargeDepth := 99) +contextual [State.scanCopy, h]

@[simp] theorem State.headFrameStart_canonical (s : State) (n : Nat) (kf : Nat) (start : Stamp) (h : s.canonical = true) :
    (State.headFrameStart s n kf start).canonical = true := by
  simp (maxDischargeDepth := 99) +contextual [State.headFrameStart, h]

@[simp] theorem State.relock_canonical (s : State) (n : Nat) (e : ℤ) (h : s.canonical = true) :
    (State.relock s n e).canonical = true := by
  simp (maxDischargeDepth := 99) [State.relock, h]

@[simp] theorem State.settleCancelled_canonical (s : State) (o : Origin) (a : Answer) (h : s.canonical = true) :
    (State.settleCancelled s o a).canonical = true := by
  simp (maxDischargeDepth := 99) [State.settleCancelled, h]

@[simp] theorem State.enableHead_canonical (s : State) (n : Nat) (h : s.canonical = true) :
    (State.enableHead s n).canonical = true := by
  simp (maxDischargeDepth := 99) [State.enableHead, h]

@[simp] theorem State.disableHead_canonical (s : State) (n : Nat) (h : s.canonical = true) :
    (State.disableHead s n).canonical = true := by
  simp (maxDischargeDepth := 99) +contextual [State.disableHead, h]

theorem execHeadEnWrite_canonical (who : Requester) (head : Fin 8) (value : W32) (s : State) (h : s.canonical = true) :
    ∀ t, execHeadEnWrite who head value s = .next t → t.canonical = true := by
  intro t ht
  unfold execHeadEnWrite at ht
  simp only [Host.Outcome.next.injEq] at ht
  subst ht
  simp (maxDischargeDepth := 99) [h]

theorem execHeadWallArmWrite_canonical (who : Requester) (value : W32) (s : State) (h : s.canonical = true) :
    ∀ t, execHeadWallArmWrite who value s = .next t → t.canonical = true := by
  intro t ht
  unfold execHeadWallArmWrite at ht
  simp only [Host.Outcome.next.injEq] at ht
  subst ht
  simp (maxDischargeDepth := 99) [h]

@[simp] theorem State.setTiming_canonical (s : State) (o : Origin) (h : s.canonical = true) :
    (State.setTiming s o).canonical = true := by
  simp (maxDischargeDepth := 99) [State.setTiming, h]

theorem specHeadTimingSet_canonical : OpSpec.Canonical specHeadTimingSet := by
  refine ⟨fun s o h => ?_, fun s o h => ?_⟩
  all_goals simp (maxDischargeDepth := 99) [specHeadTimingSet, h]

@[simp] theorem headEnableRun_canonical (s : State) (o : Origin) (h : s.canonical = true) :
    (headEnableRun s o).1.canonical = true := by
  unfold headEnableRun
  try dsimp only
  repeat' split
  all_goals simp (maxDischargeDepth := 99) +contextual [*]

theorem specHeadEnable_canonical : OpSpec.Canonical specHeadEnable := by
  refine ⟨fun s o h => ?_, fun s o h => ?_⟩
  all_goals simp (maxDischargeDepth := 99) [specHeadEnable, h]

theorem specHeadShow_canonical : OpSpec.Canonical specHeadShow := by
  refine ⟨fun s o h => ?_, fun s o h => ?_⟩
  all_goals simp (maxDischargeDepth := 99) [specHeadShow, h]

theorem specHeadQuery_canonical : OpSpec.Canonical specHeadQuery := by
  refine ⟨fun s o h => ?_, fun s o h => ?_⟩
  all_goals simp (maxDischargeDepth := 99) [specHeadQuery, h]

theorem execHeadTimingSet_canonical (p : Packet) (s : State) (h : s.canonical = true) :
    ∀ t, execHeadTimingSet p s = .next t → t.canonical = true :=
  packetStep_canonical _ _ _ (specHeadTimingSet_canonical) h

theorem execHeadEnable_canonical (p : Packet) (s : State) (h : s.canonical = true) :
    ∀ t, execHeadEnable p s = .next t → t.canonical = true :=
  packetStep_canonical _ _ _ (specHeadEnable_canonical) h

theorem execHeadDisable_canonical (p : Packet) (s : State) (h : s.canonical = true) :
    ∀ t, execHeadDisable p s = .next t → t.canonical = true :=
  packetStep_canonical _ _ _ (specHeadEnable_canonical) h

theorem execHeadShow_canonical (p : Packet) (s : State) (h : s.canonical = true) :
    ∀ t, execHeadShow p s = .next t → t.canonical = true :=
  packetStep_canonical _ _ _ (specHeadShow_canonical) h

theorem execHeadQuery_canonical (p : Packet) (s : State) (h : s.canonical = true) :
    ∀ t, execHeadQuery p s = .next t → t.canonical = true :=
  packetStep_canonical _ _ _ (specHeadQuery_canonical) h

end Sys2Proof.Machine
end

