-- ==== Sys2Proof/Laws/CanonicalGfx.lean ====
section
/-! SUPPORT. The canonical form through the operations of Machine/Gfx.lean. -/
namespace Sys2Proof.Machine

@[simp] theorem State.setCtx_canonical (s : State) (c : Nat) (st : Nat) (h : s.canonical = true) :
    (State.setCtx s c st).canonical = true := by
  simp (maxDischargeDepth := 99) [State.setCtx, h]

@[simp] theorem State.countClusters_canonical (s : State) (h : s.canonical = true) :
    (State.countClusters s).canonical = true := by
  simp (maxDischargeDepth := 99) [State.countClusters, h]

@[simp] theorem State.showGfx_canonical (s : State) (h : s.canonical = true) :
    (State.showGfx s).canonical = true := by
  simp (maxDischargeDepth := 99) [State.showGfx, h]

@[simp] theorem State.startCtx_canonical (s : State) (c : Nat) (h : s.canonical = true) :
    (State.startCtx s c).canonical = true := by
  simp (maxDischargeDepth := 99) [State.startCtx, h]

@[simp] theorem State.dispatchNext_canonical (s : State) (h : s.canonical = true) :
    (State.dispatchNext s).canonical = true := by
  unfold State.dispatchNext
  try dsimp only
  repeat' split
  all_goals simp (maxDischargeDepth := 99) +contextual [*]

@[simp] theorem State.schedule_canonical (s : State) (sliceEnded : Bool) (h : s.canonical = true) :
    (State.schedule s sliceEnded).canonical = true := by
  unfold State.schedule
  try dsimp only
  repeat' split
  all_goals simp (maxDischargeDepth := 99) +contextual [*]

@[simp] theorem State.leaveRunning_canonical (s : State) (c : Nat) (st : Nat) (h : s.canonical = true) :
    (State.leaveRunning s c st).canonical = true := by
  simp (maxDischargeDepth := 99) [State.leaveRunning, h]

@[simp] theorem State.shareClusters_canonical (s : State) (h : s.canonical = true) :
    (State.shareClusters s).canonical = true := by
  simp (maxDischargeDepth := 99) [State.shareClusters, h]

@[simp] theorem State.wakeCtx_canonical (s : State) (c : Nat) (h : s.canonical = true) :
    (State.wakeCtx s c).canonical = true := by
  simp (maxDischargeDepth := 99) [State.wakeCtx, h]

theorem execSchedSliceExpiry_canonical (s : State) (h : s.canonical = true) :
    ∀ t, execSchedSliceExpiry s = .next t → t.canonical = true := by
  intro t ht
  unfold execSchedSliceExpiry at ht
  simp only [Host.Outcome.next.injEq] at ht
  subst ht
  simp (maxDischargeDepth := 99) [h]

theorem execPreemptionComplete_canonical (tenths : W16) (saved : List Byte) (s : State) (h : s.canonical = true) :
    ∀ t, execPreemptionComplete tenths saved s = .next t → t.canonical = true := by
  intro t ht
  unfold execPreemptionComplete at ht
  simp only [Host.Outcome.next.injEq] at ht
  subst ht
  repeat' split
  all_goals simp (maxDischargeDepth := 99) +contextual [*]

@[simp] theorem State.setJob_canonical (s : State) (n : Nat) (p : JobPhase) (h : s.canonical = true) :
    (State.setJob s n p).canonical = true := by
  simp (maxDischargeDepth := 99) [State.setJob, h]

@[simp] theorem State.nextJob_canonical (s : State) (h : s.canonical = true) :
    (State.nextJob s).canonical = true := by
  unfold State.nextJob
  try dsimp only
  repeat' split
  all_goals simp (maxDischargeDepth := 99) +contextual [*]

@[simp] theorem State.releaseJob_canonical (s : State) (n : Nat) (h : s.canonical = true) :
    (State.releaseJob s n).canonical = true := by
  simp (maxDischargeDepth := 99) [State.releaseJob, h]

@[simp] theorem State.jobReady_canonical (s : State) (n : Nat) (h : s.canonical = true) :
    (State.jobReady s n).canonical = true := by
  simp (maxDischargeDepth := 99) [State.jobReady, h]

@[simp] theorem State.jobBegin_canonical (s : State) (n : Nat) (h : s.canonical = true) :
    (State.jobBegin s n).canonical = true := by
  simp (maxDischargeDepth := 99) [State.jobBegin, h]

@[simp] theorem State.jobMiss_canonical (s : State) (n : Nat) (cause : Nat) (h : s.canonical = true) :
    (State.jobMiss s n cause).canonical = true := by
  simp (maxDischargeDepth := 99) [State.jobMiss, h]

@[simp] theorem State.compWarn_canonical (s : State) (n : Nat) (h : s.canonical = true) :
    (State.compWarn s n).canonical = true := by
  unfold State.compWarn
  try dsimp only
  repeat' split
  all_goals simp (maxDischargeDepth := 99) +contextual [*]

@[simp] theorem State.compDeadline_canonical (s : State) (n : Nat) (h : s.canonical = true) :
    (State.compDeadline s n).canonical = true := by
  unfold State.compDeadline
  try dsimp only
  repeat' split
  all_goals simp (maxDischargeDepth := 99) +contextual [*]

@[simp] theorem State.swap_canonical (s : State) (n : Nat) (h : s.canonical = true) :
    (State.swap s n).canonical = true := by
  simp (maxDischargeDepth := 99) [State.swap, h]

@[simp] theorem State.gfxFrameStart_canonical (s : State) (h : s.canonical = true) :
    (State.gfxFrameStart s).canonical = true := by
  simp (maxDischargeDepth := 99) +contextual [State.gfxFrameStart, h]

@[simp] theorem State.ctxFaults_canonical (s : State) (c : Nat) (code : Nat) (addr : Nat) (h : s.canonical = true) :
    (State.ctxFaults s c code addr).canonical = true := by
  unfold State.ctxFaults
  try dsimp only
  repeat' split
  all_goals simp (maxDischargeDepth := 99) +contextual [*]

theorem execCtxHang_canonical (ctx : Fin 64) (s : State) (h : s.canonical = true) :
    ∀ t, execCtxHang ctx s = .next t → t.canonical = true := by
  intro t ht
  unfold execCtxHang at ht
  simp only [Host.Outcome.next.injEq] at ht
  subst ht
  simp (maxDischargeDepth := 99) [h]

@[simp] theorem State.signalFence_canonical (s : State) (c : Nat) (value : Nat) (event : Bool) (h : s.canonical = true) :
    (State.signalFence s c value event).canonical = true := by
  simp (maxDischargeDepth := 99) [State.signalFence, h]

@[simp] theorem State.signalAll_canonical (s : State) (c : Nat) (h : s.canonical = true) :
    (State.signalAll s c).canonical = true := by
  simp (maxDischargeDepth := 99) +contextual [State.signalAll, h]

theorem execFenceCounterUpdate_canonical (ctx : Fin 64) (s : State) (h : s.canonical = true) :
    ∀ t, execFenceCounterUpdate ctx s = .next t → t.canonical = true := by
  intro t ht
  unfold execFenceCounterUpdate at ht
  simp only [Host.Outcome.next.injEq] at ht
  subst ht
  repeat' split
  all_goals simp (maxDischargeDepth := 99) +contextual [*]

theorem execFenceWaitSatisfied_canonical (ctx : Fin 64) (s : State) (h : s.canonical = true) :
    ∀ t, execFenceWaitSatisfied ctx s = .next t → t.canonical = true := by
  intro t ht
  unfold execFenceWaitSatisfied at ht
  simp only [Host.Outcome.next.injEq] at ht
  subst ht
  repeat' split
  all_goals simp (maxDischargeDepth := 99) +contextual [*]

@[simp] theorem State.loadEntry_canonical (s : State) (c : Nat) (h : s.canonical = true) :
    (State.loadEntry s c).canonical = true := by
  simp (maxDischargeDepth := 99) [State.loadEntry, h]

theorem execCommandBufferComplete_canonical (ctx : Fin 64) (s : State) (h : s.canonical = true) :
    ∀ t, execCommandBufferComplete ctx s = .next t → t.canonical = true := by
  intro t ht
  unfold execCommandBufferComplete at ht
  simp only [Host.Outcome.next.injEq] at ht
  subst ht
  simp (maxDischargeDepth := 99) [h]

theorem execCompJobComplete_canonical (head : Fin 8) (s : State) (h : s.canonical = true) :
    ∀ t, execCompJobComplete head s = .next t → t.canonical = true := by
  intro t ht
  unfold execCompJobComplete at ht
  simp only [Host.Outcome.next.injEq] at ht
  subst ht
  simp (maxDischargeDepth := 99) [h]

@[simp] theorem State.stopCtx_canonical (s : State) (c : Nat) (h : s.canonical = true) :
    (State.stopCtx s c).canonical = true := by
  simp (maxDischargeDepth := 99) [State.stopCtx, h]

@[simp] theorem State.resetCtx_canonical (s : State) (c : Nat) (h : s.canonical = true) :
    (State.resetCtx s c).canonical = true := by
  simp (maxDischargeDepth := 99) +contextual [State.resetCtx, h]

@[simp] theorem State.dropPicks_canonical (s : State) (f : Nat) (h : s.canonical = true) :
    (State.dropPicks s f).canonical = true := by
  simp (maxDischargeDepth := 99) +contextual [State.dropPicks, h]

@[simp] theorem State.gfxResetFunction_canonical (s : State) (f : Nat) (h : s.canonical = true) :
    (s.gfxResetFunction f).canonical = true := by
  unfold State.gfxResetFunction
  split
  · exact h
  · refine State.schedule_canonical _ _ (State.dropPicks_canonical _ _ (each_canonical _ (fun u n hu => ?_) ?_))
    · rw [modJob_canonical]
      split
      · exact State.jobMiss_canonical _ _ _ hu
      · exact State.jobMiss_canonical _ _ _ hu
      · exact hu
    · rw [modGfx_canonical]
      exact each_canonical _ (fun _ _ ht => State.resetCtx_canonical _ _ ht) h

@[simp] theorem State.grantCtx_canonical (s : State) (c : Nat) (h : s.canonical = true) :
    (State.grantCtx s c).canonical = true := by
  simp (maxDischargeDepth := 99) +contextual [State.grantCtx, h]

@[simp] theorem State.gfxBanked_canonical (s : State) (h : s.canonical = true) :
    (State.gfxBanked s).canonical = true := by
  unfold State.gfxBanked
  try dsimp only
  repeat' first | with_reducible assumption | with_reducible refine ite_canonical ?_ ?_ | with_reducible refine each_canonical _ (fun _ _ _ => ?_) ?_ | with_reducible refine when_canonical _ (fun _ => ?_) ?_ | with_reducible refine State.barWrite_canonical _ _ ?_ (fun _ => ?_) | with_reducible refine State.barRead_canonical _ _ _ _ ?_ (fun _ => ?_) | with_reducible refine State.sealedWrite_canonical _ _ _ _ _ ?_ ?_ | split
  all_goals simp (maxDischargeDepth := 99) +contextual [*]

@[simp] theorem State.gfxResetWarm_canonical (s : State) (h : s.canonical = true) :
    (State.gfxResetWarm s).canonical = true := by
  simp (maxDischargeDepth := 99) +contextual [State.gfxResetWarm, h]

@[simp] theorem ctxSetRun_canonical (s : State) (o : Origin) (h : s.canonical = true) :
    (ctxSetRun s o).1.canonical = true := by
  unfold ctxSetRun
  try dsimp only
  repeat' split
  all_goals simp (maxDischargeDepth := 99) +contextual [*]

theorem specCtxSet_canonical : OpSpec.Canonical specCtxSet := by
  refine ⟨fun s o h => ?_, fun s o h => ?_⟩
  all_goals simp (maxDischargeDepth := 99) [specCtxSet, h]

@[simp] theorem State.kick_canonical (s : State) (c : Nat) (tail : Nat) (h : s.canonical = true) :
    (State.kick s c tail).canonical = true := by
  simp (maxDischargeDepth := 99) [State.kick, h]

theorem specGfxKick_canonical : OpSpec.Canonical specGfxKick := by
  refine ⟨fun s o h => ?_, fun s o h => ?_⟩
  all_goals simp (maxDischargeDepth := 99) [specGfxKick, h]

theorem execQtailWrite_canonical (who : Requester) (ctx : Fin 64) (value : W32) (s : State) (h : s.canonical = true) :
    ∀ t, execQtailWrite who ctx value s = .next t → t.canonical = true := by
  intro t ht
  unfold execQtailWrite at ht
  simp only [Host.Outcome.next.injEq] at ht
  subst ht
  simp (maxDischargeDepth := 99) [h]

theorem specCtxReset_canonical : OpSpec.Canonical specCtxReset := by
  refine ⟨fun s o h => ?_, fun s o h => ?_⟩
  all_goals simp (maxDischargeDepth := 99) [specCtxReset, h]

theorem specCtxQuery_canonical : OpSpec.Canonical specCtxQuery := by
  refine ⟨fun s o h => ?_, fun s o h => ?_⟩
  all_goals simp (maxDischargeDepth := 99) [specCtxQuery, h]

theorem specCompile_canonical : OpSpec.Canonical specCompile := by
  refine ⟨fun s o h => ?_, fun s o h => ?_⟩
  all_goals simp (maxDischargeDepth := 99) [specCompile, h]

theorem execCompileComplete_canonical (f : Fin 32) (job : W16) (detail : Fin 5) (size : W32) (object : List Byte) (s : State) (h : s.canonical = true) :
    ∀ t, execCompileComplete f job detail size object s = .next t → t.canonical = true := by
  intro t ht
  unfold execCompileComplete at ht
  simp only [Host.Outcome.next.injEq] at ht
  subst ht
  repeat' split
  all_goals simp (maxDischargeDepth := 99) +contextual [*]

theorem specDeadlineSet_canonical : OpSpec.Canonical specDeadlineSet := by
  refine ⟨fun s o h => ?_, fun s o h => ?_⟩
  all_goals simp (maxDischargeDepth := 99) [specDeadlineSet, h]

theorem specCompSet_canonical : OpSpec.Canonical specCompSet := by
  refine ⟨fun s o h => ?_, fun s o h => ?_⟩
  all_goals simp (maxDischargeDepth := 99) [specCompSet, h]

theorem specCompTime_canonical : OpSpec.Canonical specCompTime := by
  refine ⟨fun s o h => ?_, fun s o h => ?_⟩
  all_goals simp (maxDischargeDepth := 99) [specCompTime, h]

theorem specGfxQuery_canonical : OpSpec.Canonical specGfxQuery := by
  refine ⟨fun s o h => ?_, fun s o h => ?_⟩
  all_goals simp (maxDischargeDepth := 99) [specGfxQuery, h]

theorem specPassQuery_canonical : OpSpec.Canonical specPassQuery := by
  refine ⟨fun s o h => ?_, fun s o h => ?_⟩
  all_goals simp (maxDischargeDepth := 99) [specPassQuery, h]

theorem execCtxSet_canonical (p : Packet) (s : State) (h : s.canonical = true) :
    ∀ t, execCtxSet p s = .next t → t.canonical = true :=
  packetStep_canonical _ _ _ (specCtxSet_canonical) h

theorem execGfxKick_canonical (p : Packet) (s : State) (h : s.canonical = true) :
    ∀ t, execGfxKick p s = .next t → t.canonical = true :=
  packetStep_canonical _ _ _ (specGfxKick_canonical) h

theorem execCtxReset_canonical (p : Packet) (s : State) (h : s.canonical = true) :
    ∀ t, execCtxReset p s = .next t → t.canonical = true :=
  packetStep_canonical _ _ _ (specCtxReset_canonical) h

theorem execCtxQuery_canonical (p : Packet) (s : State) (h : s.canonical = true) :
    ∀ t, execCtxQuery p s = .next t → t.canonical = true :=
  packetStep_canonical _ _ _ (specCtxQuery_canonical) h

theorem execCompile_canonical (p : Packet) (s : State) (h : s.canonical = true) :
    ∀ t, execCompile p s = .next t → t.canonical = true :=
  packetStep_canonical _ _ _ (specCompile_canonical) h

theorem execDeadlineSet_canonical (p : Packet) (s : State) (h : s.canonical = true) :
    ∀ t, execDeadlineSet p s = .next t → t.canonical = true :=
  packetStep_canonical _ _ _ (specDeadlineSet_canonical) h

theorem execCompSet_canonical (p : Packet) (s : State) (h : s.canonical = true) :
    ∀ t, execCompSet p s = .next t → t.canonical = true :=
  packetStep_canonical _ _ _ (specCompSet_canonical) h

theorem execCompTime_canonical (p : Packet) (s : State) (h : s.canonical = true) :
    ∀ t, execCompTime p s = .next t → t.canonical = true :=
  packetStep_canonical _ _ _ (specCompTime_canonical) h

theorem execGfxQuery_canonical (p : Packet) (s : State) (h : s.canonical = true) :
    ∀ t, execGfxQuery p s = .next t → t.canonical = true :=
  packetStep_canonical _ _ _ (specGfxQuery_canonical) h

theorem execPassQuery_canonical (p : Packet) (s : State) (h : s.canonical = true) :
    ∀ t, execPassQuery p s = .next t → t.canonical = true :=
  packetStep_canonical _ _ _ (specPassQuery_canonical) h

end Sys2Proof.Machine
end

