-- ==== Sys2Proof/Laws/CanonicalDraws.lean ====
section
/-! SUPPORT. The canonical form through the operations of Machine/Draws.lean. -/
namespace Sys2Proof.Machine

@[simp] theorem State.packetFault_canonical (s : State) (d : DrawAt) (code : Nat) (h : s.canonical = true) :
    (State.packetFault s d code).canonical = true := by
  simp (maxDischargeDepth := 99) [State.packetFault, h]

@[simp] theorem State.past_canonical (s : State) (d : DrawAt) (h : s.canonical = true) :
    (State.past s d).canonical = true := by
  simp (maxDischargeDepth := 99) [State.past, h]

theorem State.takePacket_canonical (s : State) (c code : Nat) (run : State → DrawAt → State)
    (hr : ∀ t d, t.canonical = true → (run t d).canonical = true) (h : s.canonical = true) :
    (s.takePacket c code run).canonical = true := by
  unfold State.takePacket
  refine ite_canonical h ?_
  have h1 := State.loadEntry_canonical _ c (State.countClusters_canonical s h)
  dsimp only
  generalize s.countClusters.loadEntry c = t at h1 ⊢
  refine ite_canonical h1 ?_
  have h2 : (t.modGctx c fun x => { x with stack := dropEnded x.stack }).canonical = true := by
    rw [modGctx_canonical]; exact h1
  generalize (t.modGctx c fun x => { x with stack := dropEnded x.stack }) = u at h2 ⊢
  have hf (a : Nat) := State.ctxFaults_canonical u c 1 a h2
  split
  · exact h2
  · refine ite_canonical h2 (ite_canonical (hf _) ?_)
    split
    · exact hf _
    · exact ite_canonical (hf _) (ite_canonical h2 (ite_canonical (hf _) (hr _ _ h2)))

theorem drawStep_canonical (c code : Nat) (run : State → DrawAt → State) (s : State)
    (hr : ∀ t d, t.canonical = true → (run t d).canonical = true) (h : s.canonical = true) :
    ∀ t, drawStep c code run s = .next t → t.canonical = true := by
  intro t ht
  simp only [drawStep, Host.Outcome.next.injEq] at ht
  subst ht
  exact State.takePacket_canonical s c code run hr h

theorem execDrawPacketNop_canonical (ctx : Fin 64) (s : State) (h : s.canonical = true) :
    ∀ t, execDrawPacketNop ctx s = .next t → t.canonical = true := by
  refine drawStep_canonical _ _ _ _ (fun s d h => ?_) h
  repeat' first | with_reducible assumption | with_reducible refine ite_canonical ?_ ?_ | with_reducible refine each_canonical _ (fun _ _ _ => ?_) ?_ | split
  all_goals simp (maxDischargeDepth := 99) +contextual [*]

theorem execJump_canonical (ctx : Fin 64) (s : State) (h : s.canonical = true) :
    ∀ t, execJump ctx s = .next t → t.canonical = true := by
  refine drawStep_canonical _ _ _ _ (fun s d h => ?_) h
  repeat' first | with_reducible assumption | with_reducible refine ite_canonical ?_ ?_ | with_reducible refine each_canonical _ (fun _ _ _ => ?_) ?_ | split
  all_goals simp (maxDischargeDepth := 99) +contextual [*]

theorem execCallList_canonical (ctx : Fin 64) (s : State) (h : s.canonical = true) :
    ∀ t, execCallList ctx s = .next t → t.canonical = true := by
  refine drawStep_canonical _ _ _ _ (fun s d h => ?_) h
  repeat' first | with_reducible assumption | with_reducible refine ite_canonical ?_ ?_ | with_reducible refine each_canonical _ (fun _ _ _ => ?_) ?_ | split
  all_goals simp (maxDischargeDepth := 99) +contextual [*]

@[simp] theorem State.bindAt_canonical (s : State) (d : DrawAt) (i : Nat) (h : s.canonical = true) :
    (State.bindAt s d i).canonical = true := by
  simp (maxDischargeDepth := 99) [State.bindAt, h]

theorem execSetPipeline_canonical (ctx : Fin 64) (good : Bool) (s : State) (h : s.canonical = true) :
    ∀ t, execSetPipeline ctx good s = .next t → t.canonical = true := by
  refine drawStep_canonical _ _ _ _ (fun s d h => ?_) h
  repeat' first | with_reducible assumption | with_reducible refine ite_canonical ?_ ?_ | with_reducible refine each_canonical _ (fun _ _ _ => ?_) ?_ | split
  all_goals simp (maxDischargeDepth := 99) +contextual [*]

theorem execSetDescriptors_canonical (ctx : Fin 64) (s : State) (h : s.canonical = true) :
    ∀ t, execSetDescriptors ctx s = .next t → t.canonical = true := by
  refine drawStep_canonical _ _ _ _ (fun s d h => ?_) h
  repeat' first | with_reducible assumption | with_reducible refine ite_canonical ?_ ?_ | with_reducible refine each_canonical _ (fun _ _ _ => ?_) ?_ | split
  all_goals simp (maxDischargeDepth := 99) +contextual [*]

theorem execSetBuffers_canonical (ctx : Fin 64) (s : State) (h : s.canonical = true) :
    ∀ t, execSetBuffers ctx s = .next t → t.canonical = true := by
  refine drawStep_canonical _ _ _ _ (fun s d h => ?_) h
  repeat' first | with_reducible assumption | with_reducible refine ite_canonical ?_ ?_ | with_reducible refine each_canonical _ (fun _ _ _ => ?_) ?_ | split
  all_goals simp (maxDischargeDepth := 99) +contextual [*]

theorem execSetDynamic_canonical (ctx : Fin 64) (s : State) (h : s.canonical = true) :
    ∀ t, execSetDynamic ctx s = .next t → t.canonical = true := by
  refine drawStep_canonical _ _ _ _ (fun s d h => ?_) h
  repeat' first | with_reducible assumption | with_reducible refine ite_canonical ?_ ?_ | with_reducible refine each_canonical _ (fun _ _ _ => ?_) ?_ | split
  all_goals simp (maxDischargeDepth := 99) +contextual [*]

@[simp] theorem State.doWork_canonical (s : State) (d : DrawAt) (w : Work) (h : s.canonical = true) :
    (State.doWork s d w).canonical = true := by
  unfold State.doWork
  try dsimp only
  repeat' split
  all_goals simp (maxDischargeDepth := 99) +contextual [*]

theorem execDraw_canonical (ctx : Fin 64) (work : Work) (s : State) (h : s.canonical = true) :
    ∀ t, execDraw ctx work s = .next t → t.canonical = true := by
  refine drawStep_canonical _ _ _ _ (fun s d h => ?_) h
  repeat' first | with_reducible assumption | with_reducible refine ite_canonical ?_ ?_ | with_reducible refine each_canonical _ (fun _ _ _ => ?_) ?_ | split
  all_goals simp (maxDischargeDepth := 99) +contextual [*]

theorem execDrawIndexed_canonical (ctx : Fin 64) (work : Work) (s : State) (h : s.canonical = true) :
    ∀ t, execDrawIndexed ctx work s = .next t → t.canonical = true := by
  refine drawStep_canonical _ _ _ _ (fun s d h => ?_) h
  repeat' first | with_reducible assumption | with_reducible refine ite_canonical ?_ ?_ | with_reducible refine each_canonical _ (fun _ _ _ => ?_) ?_ | split
  all_goals simp (maxDischargeDepth := 99) +contextual [*]

theorem execDrawIndirect_canonical (ctx : Fin 64) (work : Work) (s : State) (h : s.canonical = true) :
    ∀ t, execDrawIndirect ctx work s = .next t → t.canonical = true := by
  refine drawStep_canonical _ _ _ _ (fun s d h => ?_) h
  repeat' first | with_reducible assumption | with_reducible refine ite_canonical ?_ ?_ | with_reducible refine each_canonical _ (fun _ _ _ => ?_) ?_ | split
  all_goals simp (maxDischargeDepth := 99) +contextual [*]

theorem execDispatch_canonical (ctx : Fin 64) (work : Work) (s : State) (h : s.canonical = true) :
    ∀ t, execDispatch ctx work s = .next t → t.canonical = true := by
  refine drawStep_canonical _ _ _ _ (fun s d h => ?_) h
  repeat' first | with_reducible assumption | with_reducible refine ite_canonical ?_ ?_ | with_reducible refine each_canonical _ (fun _ _ _ => ?_) ?_ | split
  all_goals simp (maxDischargeDepth := 99) +contextual [*]

theorem execDispatchIndirect_canonical (ctx : Fin 64) (work : Work) (s : State) (h : s.canonical = true) :
    ∀ t, execDispatchIndirect ctx work s = .next t → t.canonical = true := by
  refine drawStep_canonical _ _ _ _ (fun s d h => ?_) h
  repeat' first | with_reducible assumption | with_reducible refine ite_canonical ?_ ?_ | with_reducible refine each_canonical _ (fun _ _ _ => ?_) ?_ | split
  all_goals simp (maxDischargeDepth := 99) +contextual [*]

theorem execBarrier_canonical (ctx : Fin 64) (s : State) (h : s.canonical = true) :
    ∀ t, execBarrier ctx s = .next t → t.canonical = true := by
  refine drawStep_canonical _ _ _ _ (fun s d h => ?_) h
  repeat' first | with_reducible assumption | with_reducible refine ite_canonical ?_ ?_ | with_reducible refine each_canonical _ (fun _ _ _ => ?_) ?_ | split
  all_goals simp (maxDischargeDepth := 99) +contextual [*]

theorem execFenceSignal_canonical (ctx : Fin 64) (s : State) (h : s.canonical = true) :
    ∀ t, execFenceSignal ctx s = .next t → t.canonical = true := by
  refine drawStep_canonical _ _ _ _ (fun s d h => ?_) h
  repeat' first | with_reducible assumption | with_reducible refine ite_canonical ?_ ?_ | with_reducible refine each_canonical _ (fun _ _ _ => ?_) ?_ | split
  all_goals simp (maxDischargeDepth := 99) +contextual [*]

theorem execFenceWait_canonical (ctx : Fin 64) (s : State) (h : s.canonical = true) :
    ∀ t, execFenceWait ctx s = .next t → t.canonical = true := by
  refine drawStep_canonical _ _ _ _ (fun s d h => ?_) h
  repeat' first | with_reducible assumption | with_reducible refine ite_canonical ?_ ?_ | with_reducible refine each_canonical _ (fun _ _ _ => ?_) ?_ | split
  all_goals simp (maxDischargeDepth := 99) +contextual [*]

theorem execTimestamp_canonical (ctx : Fin 64) (s : State) (h : s.canonical = true) :
    ∀ t, execTimestamp ctx s = .next t → t.canonical = true := by
  refine drawStep_canonical _ _ _ _ (fun s d h => ?_) h
  repeat' first | with_reducible assumption | with_reducible refine ite_canonical ?_ ?_ | with_reducible refine each_canonical _ (fun _ _ _ => ?_) ?_ | split
  all_goals simp (maxDischargeDepth := 99) +contextual [*]

theorem execCopy_canonical (ctx : Fin 64) (s : State) (h : s.canonical = true) :
    ∀ t, execCopy ctx s = .next t → t.canonical = true := by
  refine drawStep_canonical _ _ _ _ (fun s d h => ?_) h
  repeat' first | with_reducible assumption | with_reducible refine ite_canonical ?_ ?_ | with_reducible refine each_canonical _ (fun _ _ _ => ?_) ?_ | split
  all_goals simp (maxDischargeDepth := 99) +contextual [*]

theorem execFill_canonical (ctx : Fin 64) (s : State) (h : s.canonical = true) :
    ∀ t, execFill ctx s = .next t → t.canonical = true := by
  refine drawStep_canonical _ _ _ _ (fun s d h => ?_) h
  repeat' first | with_reducible assumption | with_reducible refine ite_canonical ?_ ?_ | with_reducible refine each_canonical _ (fun _ _ _ => ?_) ?_ | split
  all_goals simp (maxDischargeDepth := 99) +contextual [*]

end Sys2Proof.Machine
end

