-- ==== Sys2Proof/Laws/CanonicalRender.lean ====
section
/-! SUPPORT. The canonical form through the operations of Machine/Render.lean. -/
namespace Sys2Proof.Machine

@[simp] theorem State.openTables_canonical (s : State) (c : Nat) (b : List Byte) (tiled : Bool) (h : s.canonical = true) :
    (State.openTables s c b tiled).1.canonical = true := by
  simp (maxDischargeDepth := 99) +contextual [State.openTables, h]

@[simp] theorem State.storeTile_canonical (s : State) (t : Attach) (b : List Byte) (given : Option TileData) (x : Nat) (y : Nat) (sign : Bool) (usable : Bool) (h : s.canonical = true) :
    (State.storeTile s t b given x y sign usable).1.canonical = true := by
  unfold State.storeTile
  try dsimp only
  repeat' split
  all_goals simp (maxDischargeDepth := 99) +contextual [*]

theorem State.storeAttach_canonical (s : State) (t : Attach) (b : List Byte) (tiles : List TileData) (sign usable : Bool)
    (h : s.canonical = true) : (s.storeAttach t b tiles sign usable).1.canonical = true := by
  refine foldl_fst_canonical _ (fun x y hx => foldl_fst_canonical _ (fun u v hu => ?_) hx) h
  dsimp only
  split <;> exact State.storeTile_canonical _ _ _ _ _ _ _ _ hu

theorem execBeginPass_canonical (ctx : Fin 64) (s : State) (h : s.canonical = true) :
    ∀ t, execBeginPass ctx s = .next t → t.canonical = true := by
  refine drawStep_canonical _ _ _ _ (fun s d h => ?_) h
  repeat' first | with_reducible assumption | with_reducible refine ite_canonical ?_ ?_ | with_reducible refine each_canonical _ (fun _ _ _ => ?_) ?_ | split
  all_goals simp (maxDischargeDepth := 99) +contextual [*]

@[simp] theorem State.passStats_canonical (s : State) (c : Nat) (p : PassRun) (written : Nat) (skipped : Nat) (h : s.canonical = true) :
    (State.passStats s c p written skipped).canonical = true := by
  simp (maxDischargeDepth := 99) [State.passStats, h]

@[simp] theorem State.endPass_canonical (s : State) (c : Nat) (p : PassRun) (tiles : List TileData) (h : s.canonical = true) :
    (s.endPass c p tiles).canonical = true := by
  unfold State.endPass
  rw [modGctx_canonical]
  refine State.passStats_canonical _ _ _ _ _ (foldl_fst_canonical _ (fun x t hx => ?_) h)
  dsimp only
  have h1 (si us : Bool) := State.storeAttach_canonical x.1 t p.bytes tiles si us hx
  have h2 (b si us : Bool) (a : Nat) (l : List Byte) :
      ((x.1.storeAttach t p.bytes tiles si us).1.when b fun s => s.store a l).canonical = true :=
    when_canonical _ (fun _ => State.store_canonical _ _ _ (h1 _ _)) (h1 _ _)
  split <;> exact when_canonical _ (fun _ => State.store_canonical _ _ _ (h1 _ _)) (h1 _ _)

theorem execEndPass_canonical (ctx : Fin 64) (tiles : List TileData) (s : State) (h : s.canonical = true) :
    ∀ t, execEndPass ctx tiles s = .next t → t.canonical = true := by
  refine drawStep_canonical _ _ _ _ (fun s d h => ?_) h
  repeat' first | with_reducible assumption | with_reducible refine ite_canonical ?_ ?_ | with_reducible refine each_canonical _ (fun _ _ _ => ?_) ?_ | split
  all_goals simp (maxDischargeDepth := 99) +contextual [*]

end Sys2Proof.Machine
end

