-- ==== Sys2Proof/Laws/CanonicalRay.lean ====
section
/-! SUPPORT. The canonical form through the operations of Machine/Ray.lean. -/
namespace Sys2Proof.Machine

@[simp] theorem State.floatField_canonical (s : State) (num : ℤ) (den : Nat) (h : s.canonical = true) :
    (State.floatField s num den).1.canonical = true := by
  unfold State.floatField
  try dsimp only
  repeat' split
  all_goals simp (maxDischargeDepth := 99) +contextual [*]

@[simp] theorem State.hitResult_canonical (s : State) (xx : RayHit) (h : s.canonical = true) :
    (State.hitResult s xx).1.canonical = true := by
  simp (maxDischargeDepth := 99) [State.hitResult, h]

@[simp] theorem State.openResult_canonical (s : State) (status : Option Nat) (h : s.canonical = true) :
    (State.openResult s status).1.canonical = true := by
  simp (maxDischargeDepth := 99) [State.openResult, h]

@[simp] theorem State.traceResult_canonical (s : State) (r : Ray) (tr : Trace) (any : Bool) (h : s.canonical = true) :
    (State.traceResult s r tr any).1.canonical = true := by
  unfold State.traceResult
  try dsimp only
  repeat' split
  all_goals simp (maxDischargeDepth := 99) +contextual [*]

@[simp] theorem State.castBatch_canonical (s : State) (sc : Option Scene) (d : DrawAt) (h : s.canonical = true) :
    (State.castBatch s sc d).canonical = true := by
  unfold State.castBatch
  try dsimp only
  repeat' split
  all_goals simp (maxDischargeDepth := 99) +contextual [*]

theorem execRayBatch_canonical (ctx : Fin 64) (s : State) (h : s.canonical = true) :
    ∀ t, execRayBatch ctx s = .next t → t.canonical = true := by
  refine drawStep_canonical _ _ _ _ (fun s d h => ?_) h
  repeat' first | with_reducible assumption | with_reducible refine ite_canonical ?_ ?_ | with_reducible refine each_canonical _ (fun _ _ _ => ?_) ?_ | split
  all_goals simp (maxDischargeDepth := 99) +contextual [*]

@[simp] theorem State.writePick_canonical (s : State) (p : Pick) (r : RayResult) (latency : Nat) (h : s.canonical = true) :
    (State.writePick s p r latency).canonical = true := by
  simp (maxDischargeDepth := 99) [State.writePick, h]

@[simp] theorem State.launchPick_canonical (s : State) (port : Nat) (contact : Nat) (px : Nat) (py : Nat) (zoned : Bool) (h : s.canonical = true) :
    (State.launchPick s port contact px py zoned).canonical = true := by
  unfold State.launchPick
  try dsimp only
  repeat' split
  all_goals simp (maxDischargeDepth := 99) +contextual [*]

theorem specPickSet_canonical : OpSpec.Canonical specPickSet := by
  refine ⟨fun s o h => ?_, fun s o h => ?_⟩
  all_goals
    unfold specPickSet
    try dsimp only
    repeat' split
    all_goals simp (maxDischargeDepth := 99) +contextual [*]

theorem specPickScene_canonical : OpSpec.Canonical specPickScene := by
  refine ⟨fun s o h => ?_, fun s o h => ?_⟩
  all_goals simp (maxDischargeDepth := 99) [specPickScene, h]

theorem specPickClasses_canonical : OpSpec.Canonical specPickClasses := by
  refine ⟨fun s o h => ?_, fun s o h => ?_⟩
  all_goals
    unfold specPickClasses
    try dsimp only
    repeat' split
    all_goals simp (maxDischargeDepth := 99) +contextual [*]

theorem specPickQuery_canonical : OpSpec.Canonical specPickQuery := by
  refine ⟨fun s o h => ?_, fun s o h => ?_⟩
  all_goals simp (maxDischargeDepth := 99) [specPickQuery, h]

theorem execPickSet_canonical (p : Packet) (s : State) (h : s.canonical = true) :
    ∀ t, execPickSet p s = .next t → t.canonical = true :=
  packetStep_canonical _ _ _ (specPickSet_canonical) h

theorem execPickScene_canonical (p : Packet) (s : State) (h : s.canonical = true) :
    ∀ t, execPickScene p s = .next t → t.canonical = true :=
  packetStep_canonical _ _ _ (specPickScene_canonical) h

theorem execPickClasses_canonical (p : Packet) (s : State) (h : s.canonical = true) :
    ∀ t, execPickClasses p s = .next t → t.canonical = true :=
  packetStep_canonical _ _ _ (specPickClasses_canonical) h

theorem execPickQuery_canonical (p : Packet) (s : State) (h : s.canonical = true) :
    ∀ t, execPickQuery p s = .next t → t.canonical = true :=
  packetStep_canonical _ _ _ (specPickQuery_canonical) h

end Sys2Proof.Machine
end

