-- ==== Sys2Proof/Laws/CanonicalHaptic.lean ====
section
/-! SUPPORT. The canonical form through the operations of Machine/Haptic.lean. -/
namespace Sys2Proof.Machine

@[simp] theorem State.hapEnter_canonical (s : State) (n : Nat) (st : Nat) (h : s.canonical = true) :
    (State.hapEnter s n st).canonical = true := by
  simp (maxDischargeDepth := 99) [State.hapEnter, h]

@[simp] theorem State.waveLevel_canonical (s : State) (n : Nat) (p : HapPlay) (h : s.canonical = true) :
    (State.waveLevel s n p).1.canonical = true := by
  unfold State.waveLevel
  try dsimp only
  repeat' split
  all_goals simp (maxDischargeDepth := 99) +contextual [*]

@[simp] theorem State.hapLevelNow_canonical (s : State) (n : Nat) (h : s.canonical = true) :
    (State.hapLevelNow s n).1.canonical = true := by
  unfold State.hapLevelNow
  try dsimp only
  repeat' split
  all_goals simp (maxDischargeDepth := 99) +contextual [*]

@[simp] theorem State.hapSetLevel_canonical (s : State) (n : Nat) (h : s.canonical = true) :
    (State.hapSetLevel s n).canonical = true := by
  simp (maxDischargeDepth := 99) [State.hapSetLevel, h]

@[simp] theorem State.startPlay_canonical (s : State) (n : Nat) (p : HapPlay) (h : s.canonical = true) :
    (State.startPlay s n p).canonical = true := by
  simp (maxDischargeDepth := 99) [State.startPlay, h]

@[simp] theorem State.clearPending_canonical (s : State) (n : Nat) (h : s.canonical = true) :
    (State.clearPending s n).canonical = true := by
  simp (maxDischargeDepth := 99) [State.clearPending, h]

@[simp] theorem State.hapRest_canonical (s : State) (n : Nat) (st : Nat) (h : s.canonical = true) :
    (State.hapRest s n st).canonical = true := by
  simp (maxDischargeDepth := 99) [State.hapRest, h]

@[simp] theorem State.finishPlay_canonical (s : State) (n : Nat) (h : s.canonical = true) :
    (State.finishPlay s n).canonical = true := by
  unfold State.finishPlay
  try dsimp only
  repeat' split
  all_goals simp (maxDischargeDepth := 99) +contextual [*]

@[simp] theorem State.learnK_canonical (s : State) (n : Nat) (p : HapPlay) (h : s.canonical = true) :
    (State.learnK s n p).canonical = true := by
  simp (maxDischargeDepth := 99) [State.learnK, h]

@[simp] theorem State.endDrive_canonical (s : State) (n : Nat) (h : s.canonical = true) :
    (State.endDrive s n).canonical = true := by
  unfold State.endDrive
  try dsimp only
  repeat' split
  all_goals simp (maxDischargeDepth := 99) +contextual [*]

@[simp] theorem State.stopPlay_canonical (s : State) (n : Nat) (h : s.canonical = true) :
    (State.stopPlay s n).canonical = true := by
  simp (maxDischargeDepth := 99) [State.stopPlay, h]

theorem execHapDriveEnd_canonical (channel : Fin 8) (s : State) (h : s.canonical = true) :
    ∀ t, execHapDriveEnd channel s = .next t → t.canonical = true := by
  intro t ht
  unfold execHapDriveEnd at ht
  simp only [Host.Outcome.next.injEq] at ht
  subst ht
  simp (maxDischargeDepth := 99) [h]

theorem execBrakeEnd_canonical (channel : Fin 8) (s : State) (h : s.canonical = true) :
    ∀ t, execBrakeEnd channel s = .next t → t.canonical = true := by
  intro t ht
  unfold execBrakeEnd at ht
  simp only [Host.Outcome.next.injEq] at ht
  subst ht
  simp (maxDischargeDepth := 99) [h]

theorem execRepeatGapEnd_canonical (channel : Fin 8) (s : State) (h : s.canonical = true) :
    ∀ t, execRepeatGapEnd channel s = .next t → t.canonical = true := by
  intro t ht
  unfold execRepeatGapEnd at ht
  simp only [Host.Outcome.next.injEq] at ht
  subst ht
  repeat' split
  all_goals simp (maxDischargeDepth := 99) +contextual [*]

@[simp] theorem State.trackPeriod_canonical (s : State) (n : Nat) (tm : Nat) (h : s.canonical = true) :
    (State.trackPeriod s n tm).canonical = true := by
  simp (maxDischargeDepth := 99) [State.trackPeriod, h]

@[simp] theorem State.halfCycle_canonical (s : State) (n : Nat) (vb : Nat) (tm : Nat) (current : Nat) (p : HapPlay) (h : s.canonical = true) :
    (State.halfCycle s n vb tm current p).canonical = true := by
  simp (maxDischargeDepth := 99) [State.halfCycle, h]

theorem execBackEmfWindow_canonical (channel : Fin 8) (vb : W16) (forward : Bool) (tm : W32) (current : W16) (s : State) (h : s.canonical = true) :
    ∀ t, execBackEmfWindow channel vb forward tm current s = .next t → t.canonical = true := by
  intro t ht
  unfold execBackEmfWindow at ht
  simp only [Host.Outcome.next.injEq] at ht
  subst ht
  repeat' split
  all_goals simp (maxDischargeDepth := 99) +contextual [*]

@[simp] theorem State.hapDrop_canonical (s : State) (n : Nat) (cause : Nat) (h : s.canonical = true) :
    (State.hapDrop s n cause).canonical = true := by
  simp (maxDischargeDepth := 99) [State.hapDrop, h]

@[simp] theorem State.replacePending_canonical (s : State) (n : Nat) (h : s.canonical = true) :
    (State.replacePending s n).canonical = true := by
  simp (maxDischargeDepth := 99) [State.replacePending, h]

@[simp] theorem State.urgentCut_canonical (s : State) (n : Nat) (e : Nat) (r : List Byte) (h : s.canonical = true) :
    (State.urgentCut s n e r).canonical = true := by
  simp (maxDischargeDepth := 99) [State.urgentCut, h]

@[simp] theorem State.hapAct_canonical (s : State) (n : Nat) (e : Nat) (urgent : Bool) (h : s.canonical = true) :
    (State.hapAct s n e urgent).1.canonical = true := by
  unfold State.hapAct
  try dsimp only
  repeat' split
  all_goals simp (maxDischargeDepth := 99) +contextual [*]

@[simp] theorem State.trigger_canonical (s : State) (tt : HapTrigger) (h : s.canonical = true) :
    (State.trigger s tt).canonical = true := by
  simp (maxDischargeDepth := 99) [State.trigger, h]

@[simp] theorem State.playReply_canonical (s : State) (tt : HapTrigger) (outcome : Nat) (h : s.canonical = true) :
    (State.playReply s tt outcome).canonical = true := by
  unfold State.playReply
  try dsimp only
  repeat' split
  all_goals simp (maxDischargeDepth := 99) +contextual [*]

@[simp] theorem State.settleChannel_canonical (s : State) (n : Nat) (due : List HapTrigger) (h : s.canonical = true) :
    (State.settleChannel s n due).canonical = true := by
  unfold State.settleChannel
  try dsimp only
  repeat' split
  all_goals simp (maxDischargeDepth := 99) +contextual [*]

@[simp] theorem State.settleTriggers_canonical (s : State) (h : s.canonical = true) :
    (State.settleTriggers s).canonical = true := by
  simp (maxDischargeDepth := 99) +contextual [State.settleTriggers, h]

@[simp] theorem State.hapResetFunction_canonical (s : State) (f : Nat) (h : s.canonical = true) :
    (State.hapResetFunction s f).canonical = true := by
  simp (maxDischargeDepth := 99) [State.hapResetFunction, h]

@[simp] theorem State.hapFail_canonical (s : State) (n : Nat) (code : Nat) (h : s.canonical = true) :
    (State.hapFail s n code).canonical = true := by
  simp (maxDischargeDepth := 99) [State.hapFail, h]

theorem execActuatorFaultDetect_canonical (channel : Fin 8) (code : Fin 6) (s : State) (h : s.canonical = true) :
    ∀ t, execActuatorFaultDetect channel code s = .next t → t.canonical = true := by
  intro t ht
  unfold execActuatorFaultDetect at ht
  simp only [Host.Outcome.next.injEq] at ht
  subst ht
  simp (maxDischargeDepth := 99) [h]

@[simp] theorem State.startCheck_canonical (s : State) (n : Nat) (h : s.canonical = true) :
    (State.startCheck s n).canonical = true := by
  simp (maxDischargeDepth := 99) [State.startCheck, h]

theorem execResistanceCheckComplete_canonical (channel : Fin 8) (microamps : W32) (tenths : W16) (s : State) (h : s.canonical = true) :
    ∀ t, execResistanceCheckComplete channel microamps tenths s = .next t → t.canonical = true := by
  intro t ht
  unfold execResistanceCheckComplete at ht
  simp only [Host.Outcome.next.injEq] at ht
  subst ht
  repeat' split
  all_goals simp (maxDischargeDepth := 99) +contextual [*]

@[simp] theorem State.typeChanged_canonical (s : State) (n : Nat) (old : Nat) (h : s.canonical = true) :
    (State.typeChanged s n old).canonical = true := by
  simp (maxDischargeDepth := 99) [State.typeChanged, h]

@[simp] theorem State.reconfigure_canonical (s : State) (n : Nat) (settings : State → State)
    (hset : ∀ t, t.canonical = true → (settings t).canonical = true) (h : s.canonical = true) :
    (s.reconfigure n settings).canonical = true := by
  unfold State.reconfigure
  exact State.typeChanged_canonical _ _ _ (hset _ (ite_canonical (State.stopPlay_canonical _ _ h) h))

@[simp] theorem State.hapFrameStart_canonical (s : State) (h : s.canonical = true) :
    (State.hapFrameStart s).canonical = true := by
  simp (maxDischargeDepth := 99) +contextual [State.hapFrameStart, h]

@[simp] theorem State.hapWarm_canonical (s : State) (h : s.canonical = true) :
    (State.hapWarm s).canonical = true := by
  simp (maxDischargeDepth := 99) +contextual [State.hapWarm, h]

@[simp] theorem State.hapAfterWarm_canonical (s : State) (h : s.canonical = true) :
    (State.hapAfterWarm s).canonical = true := by
  simp (maxDischargeDepth := 99) +contextual [State.hapAfterWarm, h]

theorem specHapChannelSet_canonical : OpSpec.Canonical specHapChannelSet := by
  refine ⟨fun s o h => ?_, fun s o h => ?_⟩
  all_goals
    unfold specHapChannelSet
    try dsimp only
    repeat' split
    all_goals simp (maxDischargeDepth := 99) +contextual [*]

theorem specHapEffectSet_canonical : OpSpec.Canonical specHapEffectSet := by
  refine ⟨fun s o h => ?_, fun s o h => ?_⟩
  all_goals
    unfold specHapEffectSet
    try dsimp only
    repeat' split
    all_goals simp (maxDischargeDepth := 99) +contextual [*]

theorem specHapWaveWrite_canonical : OpSpec.Canonical specHapWaveWrite := by
  refine ⟨fun s o h => ?_, fun s o h => ?_⟩
  all_goals
    unfold specHapWaveWrite
    try dsimp only
    repeat' split
    all_goals simp (maxDischargeDepth := 99) +contextual [*]

theorem specHapPlay_canonical : OpSpec.Canonical specHapPlay := by
  refine ⟨fun s o h => ?_, fun s o h => ?_⟩
  all_goals simp (maxDischargeDepth := 99) [specHapPlay, h]

theorem specHapStop_canonical : OpSpec.Canonical specHapStop := by
  refine ⟨fun s o h => ?_, fun s o h => ?_⟩
  all_goals simp (maxDischargeDepth := 99) [specHapStop, h]

theorem specHapClear_canonical : OpSpec.Canonical specHapClear := by
  refine ⟨fun s o h => ?_, fun s o h => ?_⟩
  all_goals simp (maxDischargeDepth := 99) [specHapClear, h]

theorem specHapQuery_canonical : OpSpec.Canonical specHapQuery := by
  refine ⟨fun s o h => ?_, fun s o h => ?_⟩
  all_goals simp (maxDischargeDepth := 99) [specHapQuery, h]

theorem execHapChannelSet_canonical (p : Packet) (s : State) (h : s.canonical = true) :
    ∀ t, execHapChannelSet p s = .next t → t.canonical = true :=
  packetStep_canonical _ _ _ (specHapChannelSet_canonical) h

theorem execHapEffectSet_canonical (p : Packet) (s : State) (h : s.canonical = true) :
    ∀ t, execHapEffectSet p s = .next t → t.canonical = true :=
  packetStep_canonical _ _ _ (specHapEffectSet_canonical) h

theorem execHapWaveWrite_canonical (p : Packet) (s : State) (h : s.canonical = true) :
    ∀ t, execHapWaveWrite p s = .next t → t.canonical = true :=
  packetStep_canonical _ _ _ (specHapWaveWrite_canonical) h

theorem execHapPlay_canonical (p : Packet) (s : State) (h : s.canonical = true) :
    ∀ t, execHapPlay p s = .next t → t.canonical = true :=
  packetStep_canonical _ _ _ (specHapPlay_canonical) h

theorem execHapStop_canonical (p : Packet) (s : State) (h : s.canonical = true) :
    ∀ t, execHapStop p s = .next t → t.canonical = true :=
  packetStep_canonical _ _ _ (specHapStop_canonical) h

theorem execHapClear_canonical (p : Packet) (s : State) (h : s.canonical = true) :
    ∀ t, execHapClear p s = .next t → t.canonical = true :=
  packetStep_canonical _ _ _ (specHapClear_canonical) h

theorem execHapQuery_canonical (p : Packet) (s : State) (h : s.canonical = true) :
    ∀ t, execHapQuery p s = .next t → t.canonical = true :=
  packetStep_canonical _ _ _ (specHapQuery_canonical) h

end Sys2Proof.Machine
end

