-- ==== Sys2Proof/Laws/CanonicalTouch.lean ====
section
/-! SUPPORT. The canonical form through the operations of Machine/Touch.lean. -/
namespace Sys2Proof.Machine

@[simp] theorem State.setBases_canonical (s : State) (p : Nat) (l : List Nat) (h : s.canonical = true) :
    (State.setBases s p l).canonical = true := by
  simp (maxDischargeDepth := 99) [State.setBases, h]

@[simp] theorem State.setRaws_canonical (s : State) (p : Nat) (l : List Nat) (h : s.canonical = true) :
    (State.setRaws s p l).canonical = true := by
  simp (maxDischargeDepth := 99) [State.setRaws, h]

@[simp] theorem State.setContacts_canonical (s : State) (p : Nat) (l : List Contact) (h : s.canonical = true) :
    (State.setContacts s p l).canonical = true := by
  simp (maxDischargeDepth := 99) [State.setContacts, h]

@[simp] theorem State.setSuspect_canonical (s : State) (p : Nat) (l : List (Nat × BitVec 8)) (h : s.canonical = true) :
    (State.setSuspect s p l).canonical = true := by
  simp (maxDischargeDepth := 99) [State.setSuspect, h]

@[simp] theorem State.startScan_canonical (s : State) (p : Nat) (how : TouchStart) (h : s.canonical = true) :
    (State.startScan s p how).canonical = true := by
  simp (maxDischargeDepth := 99) [State.startScan, h]

@[simp] theorem State.enableTouch_canonical (s : State) (p : Nat) (h : s.canonical = true) :
    (State.enableTouch s p).canonical = true := by
  simp (maxDischargeDepth := 99) [State.enableTouch, h]

@[simp] theorem State.disableTouch_canonical (s : State) (p : Nat) (h : s.canonical = true) :
    (State.disableTouch s p).canonical = true := by
  simp (maxDischargeDepth := 99) [State.disableTouch, h]

@[simp] theorem State.touchEnChanged_canonical (s : State) (p : Nat) (old : Bool) (h : s.canonical = true) :
    (State.touchEnChanged s p old).canonical = true := by
  simp (maxDischargeDepth := 99) [State.touchEnChanged, h]

@[simp] theorem State.applyTouch_canonical (s : State) (p : Nat) (h : s.canonical = true) :
    (State.applyTouch s p).canonical = true := by
  simp (maxDischargeDepth := 99) [State.applyTouch, h]

@[simp] theorem State.hopNow_canonical (s : State) (p : Nat) (h : s.canonical = true) :
    (State.hopNow s p).canonical = true := by
  unfold State.hopNow
  try dsimp only
  repeat' split
  all_goals simp (maxDischargeDepth := 99) +contextual [*]

@[simp] theorem State.touchFrameStart_canonical (s : State) (h : s.canonical = true) :
    (State.touchFrameStart s).canonical = true := by
  simp (maxDischargeDepth := 99) +contextual [State.touchFrameStart, h]

@[simp] theorem State.touchWarm_canonical (s : State) (h : s.canonical = true) :
    (State.touchWarm s).canonical = true := by
  simp (maxDischargeDepth := 99) +contextual [State.touchWarm, h]

@[simp] theorem State.exclude_canonical (s : State) (p : Nat) (code : Nat) (e : Electrode) (h : s.canonical = true) :
    (State.exclude s p code e).canonical = true := by
  simp (maxDischargeDepth := 99) [State.exclude, h]

@[simp] theorem State.checkElectrodes_canonical (s : State) (p : Nat) (raw : List Nat) (monitor : List W16) (h : s.canonical = true) :
    (State.checkElectrodes s p raw monitor).canonical = true := by
  simp (maxDischargeDepth := 99) +contextual [State.checkElectrodes, h]

@[simp] theorem State.setSource_canonical (s : State) (p : Nat) (src : Nat) (h : s.canonical = true) :
    (State.setSource s p src).canonical = true := by
  simp (maxDischargeDepth := 99) [State.setSource, h]

@[simp] theorem State.snapshot_canonical (s : State) (p : Nat) (raw : List Nat) (h : s.canonical = true) :
    (State.snapshot s p raw).canonical = true := by
  simp (maxDischargeDepth := 99) [State.snapshot, h]

@[simp] theorem State.startBaseline_canonical (s : State) (p : Nat) (raw : List Nat) (h : s.canonical = true) :
    (State.startBaseline s p raw).canonical = true := by
  unfold State.startBaseline
  try dsimp only
  repeat' split
  all_goals simp (maxDischargeDepth := 99) +contextual [*]

@[simp] theorem State.hopBaseline_canonical (s : State) (p : Nat) (raw : List Nat) (h : s.canonical = true) :
    (State.hopBaseline s p raw).canonical = true := by
  unfold State.hopBaseline
  try dsimp only
  repeat' split
  all_goals simp (maxDischargeDepth := 99) +contextual [*]

@[simp] theorem State.report_canonical (s : State) (p : Nat) (ups : List Contact) (limited : Bool) (h : s.canonical = true) :
    (State.report s p ups limited).canonical = true := by
  simp (maxDischargeDepth := 99) [State.report, h]

@[simp] theorem State.contactDown_canonical (s : State) (p : Nat) (c : Contact) (h : s.canonical = true) :
    (State.contactDown s p c).canonical = true := by
  unfold State.contactDown
  try dsimp only
  repeat' split
  all_goals simp (maxDischargeDepth := 99) +contextual [*]

@[simp] theorem State.trackBases_canonical (s : State) (p : Nat) (raw : List Nat) (delta : List ℤ) (h : s.canonical = true) :
    (State.trackBases s p raw delta).canonical = true := by
  simp (maxDischargeDepth := 99) [State.trackBases, h]

@[simp] theorem State.scanWindow_canonical (s : State) (p : Nat) (raw : List Nat) (monitor : List W16) (h : s.canonical = true) :
    (State.scanWindow s p raw monitor).canonical = true := by
  simp (maxDischargeDepth := 99) +contextual [State.scanWindow, h]

@[simp] theorem State.storeWindow_canonical (s : State) (p : Nat) (raw : List Nat) (b : BaselineStore) (h : s.canonical = true) :
    (State.storeWindow s p raw b).canonical = true := by
  simp (maxDischargeDepth := 99) [State.storeWindow, h]

@[simp] theorem State.touchWindow_canonical (s : State) (p : Nat) (slot : Nat) (raw : List W16) (clipped : BitVec 112) (monitor : List W16) (h : s.canonical = true) :
    (State.touchWindow s p slot raw clipped monitor).canonical = true := by
  unfold State.touchWindow
  try dsimp only
  repeat' split
  all_goals simp (maxDischargeDepth := 99) +contextual [*]

theorem execLongTouch_canonical (port : Fin 4) (contact : Fin 16) (s : State) (h : s.canonical = true) :
    ∀ t, execLongTouch port contact s = .next t → t.canonical = true := by
  intro t ht
  unfold execLongTouch at ht
  simp only [Host.Outcome.next.injEq] at ht
  subst ht
  simp (maxDischargeDepth := 99) [h]

theorem execListenWindowEnd_canonical (port : Fin 4) (n0 : W16) (n1 : W16) (n2 : W16) (n3 : W16) (s : State) (h : s.canonical = true) :
    ∀ t, execListenWindowEnd port n0 n1 n2 n3 s = .next t → t.canonical = true := by
  intro t ht
  unfold execListenWindowEnd at ht
  simp only [Host.Outcome.next.injEq] at ht
  subst ht
  repeat' split
  all_goals simp (maxDischargeDepth := 99) +contextual [*]

theorem execTouchSelftestComplete_canonical (port : Fin 4) (raw : List W16) (clipped : BitVec 112) (monitor : List W16) (bias : List (Byte × Byte)) (s : State) (h : s.canonical = true) :
    ∀ t, execTouchSelftestComplete port raw clipped monitor bias s = .next t → t.canonical = true := by
  intro t ht
  unfold execTouchSelftestComplete at ht
  simp only [Host.Outcome.next.injEq] at ht
  subst ht
  repeat' split
  all_goals simp (maxDischargeDepth := 99) +contextual [*]

theorem execBaselineStoreComplete_canonical (port : Fin 4) (s : State) (h : s.canonical = true) :
    ∀ t, execBaselineStoreComplete port s = .next t → t.canonical = true := by
  intro t ht
  unfold execBaselineStoreComplete at ht
  simp only [Host.Outcome.next.injEq] at ht
  subst ht
  repeat' split
  all_goals simp (maxDischargeDepth := 99) +contextual [*]

@[simp] theorem State.setSlot_canonical (s : State) (line : RF) (en : RF) (l : Option Nat) (h : s.canonical = true) :
    (State.setSlot s line en l).canonical = true := by
  unfold State.setSlot
  try dsimp only
  repeat' split
  all_goals simp (maxDischargeDepth := 99) +contextual [*]

@[simp] theorem State.landTouch_canonical (s : State) (o : Origin) (h : s.canonical = true) :
    (State.landTouch s o).canonical = true := by
  simp (maxDischargeDepth := 99) +contextual [State.landTouch, h]

theorem specTouchSet_canonical : OpSpec.Canonical specTouchSet := by
  refine ⟨fun s o h => ?_, fun s o h => ?_⟩
  all_goals simp (maxDischargeDepth := 99) [specTouchSet, h]

theorem specZoneSet_canonical : OpSpec.Canonical specZoneSet := by
  refine ⟨fun s o h => ?_, fun s o h => ?_⟩
  all_goals
    unfold specZoneSet
    try dsimp only
    repeat' split
    all_goals simp (maxDischargeDepth := 99) +contextual [*]

theorem specTouchSelftest_canonical : OpSpec.Canonical specTouchSelftest := by
  refine ⟨fun s o h => ?_, fun s o h => ?_⟩
  all_goals simp (maxDischargeDepth := 99) [specTouchSelftest, h]

theorem specBaselineStore_canonical : OpSpec.Canonical specBaselineStore := by
  refine ⟨fun s o h => ?_, fun s o h => ?_⟩
  all_goals simp (maxDischargeDepth := 99) [specBaselineStore, h]

theorem specBaselineReset_canonical : OpSpec.Canonical specBaselineReset := by
  refine ⟨fun s o h => ?_, fun s o h => ?_⟩
  all_goals simp (maxDischargeDepth := 99) [specBaselineReset, h]

theorem specTouchQuery_canonical : OpSpec.Canonical specTouchQuery := by
  refine ⟨fun s o h => ?_, fun s o h => ?_⟩
  all_goals simp (maxDischargeDepth := 99) [specTouchQuery, h]

theorem execTouchSet_canonical (p : Packet) (s : State) (h : s.canonical = true) :
    ∀ t, execTouchSet p s = .next t → t.canonical = true :=
  packetStep_canonical _ _ _ (specTouchSet_canonical) h

theorem execZoneSet_canonical (p : Packet) (s : State) (h : s.canonical = true) :
    ∀ t, execZoneSet p s = .next t → t.canonical = true :=
  packetStep_canonical _ _ _ (specZoneSet_canonical) h

theorem execTouchSelftest_canonical (p : Packet) (s : State) (h : s.canonical = true) :
    ∀ t, execTouchSelftest p s = .next t → t.canonical = true :=
  packetStep_canonical _ _ _ (specTouchSelftest_canonical) h

theorem execBaselineStore_canonical (p : Packet) (s : State) (h : s.canonical = true) :
    ∀ t, execBaselineStore p s = .next t → t.canonical = true :=
  packetStep_canonical _ _ _ (specBaselineStore_canonical) h

theorem execBaselineReset_canonical (p : Packet) (s : State) (h : s.canonical = true) :
    ∀ t, execBaselineReset p s = .next t → t.canonical = true :=
  packetStep_canonical _ _ _ (specBaselineReset_canonical) h

theorem execTouchQuery_canonical (p : Packet) (s : State) (h : s.canonical = true) :
    ∀ t, execTouchQuery p s = .next t → t.canonical = true :=
  packetStep_canonical _ _ _ (specTouchQuery_canonical) h

end Sys2Proof.Machine
end

