-- ==== Sys2Proof/Laws/CanonicalPicks.lean ====
section
/-! SUPPORT. The canonical form through the operations of Machine/Picks.lean. -/
namespace Sys2Proof.Machine

@[simp] theorem State.pickResult_canonical (s : State) (p : Pick) (spent : Bool) (h : s.canonical = true) :
    (State.pickResult s p spent).1.canonical = true := by
  unfold State.pickResult
  try dsimp only
  repeat' split
  all_goals simp (maxDischargeDepth := 99) +contextual [*]

@[simp] theorem State.classTrigger_canonical (s : State) (p : Pick) (r : RayResult) (h : s.canonical = true) :
    (State.classTrigger s p r).canonical = true := by
  simp (maxDischargeDepth := 99) [State.classTrigger, h]

theorem execPickComplete_canonical (port : Fin 4) (contact : Fin 16) (spent : Bool) (s : State) (h : s.canonical = true) :
    ∀ t, execPickComplete port contact spent s = .next t → t.canonical = true := by
  intro t ht
  unfold execPickComplete at ht
  simp only [Host.Outcome.next.injEq] at ht
  subst ht
  repeat' split
  all_goals simp (maxDischargeDepth := 99) +contextual [*]

end Sys2Proof.Machine
end

