-- ==== Sys2Proof/Laws/CanonicalAudio.lean ====
section
/-! SUPPORT. The canonical form through the operations of Machine/Audio.lean. -/
namespace Sys2Proof.Machine

@[simp] theorem State.countTimeout_canonical (s : State) (b : Bool) (h : s.canonical = true) :
    (State.countTimeout s b).canonical = true := by
  simp (maxDischargeDepth := 99) [State.countTimeout, h]

@[simp] theorem State.endTone_canonical (s : State) (tt : Nat) (h : s.canonical = true) :
    (State.endTone s tt).canonical = true := by
  simp (maxDischargeDepth := 99) [State.endTone, h]

@[simp] theorem State.enterPart_canonical (s : State) (tt : Nat) (part : Nat) (h : s.canonical = true) :
    (State.enterPart s tt part).canonical = true := by
  simp (maxDischargeDepth := 99) [State.enterPart, h]

@[simp] theorem State.startTone_canonical (s : State) (tt : Nat) (h : s.canonical = true) :
    (State.startTone s tt).canonical = true := by
  unfold State.startTone
  try dsimp only
  repeat' split
  all_goals simp (maxDischargeDepth := 99) +contextual [*]

@[simp] theorem State.partEnd_canonical (s : State) (tt : Nat) (h : s.canonical = true) :
    (State.partEnd s tt).canonical = true := by
  unfold State.partEnd
  try dsimp only
  repeat' split
  all_goals simp (maxDischargeDepth := 99) +contextual [*]

theorem execTonePartEnd_canonical (tt : Fin 8) (s : State) (h : s.canonical = true) :
    ∀ t, execTonePartEnd tt s = .next t → t.canonical = true := by
  intro t ht
  unfold execTonePartEnd at ht
  simp only [Host.Outcome.next.injEq] at ht
  subst ht
  simp (maxDischargeDepth := 99) [h]

@[simp] theorem State.toneBegin_canonical (s : State) (tt : Nat) (n : Nat) (h : s.canonical = true) :
    (State.toneBegin s tt n).canonical = true := by
  unfold State.toneBegin
  try dsimp only
  repeat' split
  all_goals simp (maxDischargeDepth := 99) +contextual [*]

@[simp] theorem State.toneAdvance_canonical (s : State) (tt : Nat) (h : s.canonical = true) :
    (State.toneAdvance s tt).canonical = true := by
  simp (maxDischargeDepth := 99) [State.toneAdvance, h]

@[simp] theorem State.beginStream_canonical (s : State) (i : Nat) (n : Nat) (h : s.canonical = true) :
    (State.beginStream s i n).canonical = true := by
  simp (maxDischargeDepth := 99) [State.beginStream, h]

@[simp] theorem State.countWritten_canonical (s : State) (i : Nat) (h : s.canonical = true) :
    (State.countWritten s i).canonical = true := by
  simp (maxDischargeDepth := 99) [State.countWritten, h]

@[simp] theorem State.readStream_canonical (s : State) (i : Nat) (h : s.canonical = true) :
    (State.readStream s i).1.canonical = true := by
  simp (maxDischargeDepth := 99) [State.readStream, h]

theorem State.dueSamples_canonical (i n fuel : Nat) (r : State × Int) (h : r.1.canonical = true) :
    (State.dueSamples i n fuel r).1.canonical = true := by
  induction fuel generalizing r with
  | zero => exact h
  | succ fuel ih =>
    unfold State.dueSamples
    dsimp only
    split
    · exact ih _ (State.readStream_canonical _ _ h)
    · exact h

@[simp] theorem State.positionReport_canonical (s : State) (i : Nat) (h : s.canonical = true) :
    (State.positionReport s i).canonical = true := by
  simp (maxDischargeDepth := 99) [State.positionReport, h]

theorem execStreamPositionReport_canonical (i : Fin 32) (s : State) (h : s.canonical = true) :
    ∀ t, execStreamPositionReport i s = .next t → t.canonical = true := by
  intro t ht
  unfold execStreamPositionReport at ht
  simp only [Host.Outcome.next.injEq] at ht
  subst ht
  simp (maxDischargeDepth := 99) [h]

@[simp] theorem State.streamSample_canonical (s : State) (i n : Nat) (h : s.canonical = true) :
    (s.streamSample i n).1.canonical = true := by
  unfold State.streamSample
  split
  · dsimp only
    rw [modStream_canonical]; exact h
  · dsimp only
    have h1 : (if (s.stream i).on then s else s.beginStream i n).canonical = true :=
      ite_canonical h (State.beginStream_canonical _ _ _ h)
    generalize (if (s.stream i).on then s else s.beginStream i n) = u at h1 ⊢
    have h2 := State.countWritten_canonical u i h1
    generalize u.countWritten i = v at h2 ⊢
    split
    · exact h2
    · refine State.dueSamples_canonical _ _ _ _ ?_
      rw [modStream_canonical]
      exact ite_canonical (State.positionReport_canonical _ _ h2) h2

@[simp] theorem State.stepXp_canonical (s : State) (src : Nat) (b : Nat) (x : ℤ) (last : ℤ) (h : s.canonical = true) :
    (State.stepXp s src b x last).canonical = true := by
  simp (maxDischargeDepth := 99) [State.stepXp, h]

@[simp] theorem State.duckChange_canonical (s : State) (b : Nat) (h : s.canonical = true) :
    (State.duckChange s b).canonical = true := by
  simp (maxDischargeDepth := 99) [State.duckChange, h]

@[simp] theorem State.busSum_canonical (s : State) (b : Nat) (src : List ℤ) (h : s.canonical = true) :
    (State.busSum s b src).1.canonical = true := by
  simp (maxDischargeDepth := 99) [State.busSum, h]

@[simp] theorem State.equalise_canonical (s : State) (b : Nat) (x : ℤ) (h : s.canonical = true) :
    (State.equalise s b x).1.canonical = true := by
  simp (maxDischargeDepth := 99) [State.equalise, h]

@[simp] theorem State.limiter_canonical (s : State) (b : Nat) (x : ℤ) (h : s.canonical = true) :
    (State.limiter s b x).1.canonical = true := by
  unfold State.limiter
  try dsimp only
  repeat' split
  all_goals simp (maxDischargeDepth := 99) +contextual [*]

@[simp] theorem State.stepBus_canonical (s : State) (b : Nat) (r : Bool × Bool) (h : s.canonical = true) :
    (State.stepBus s b r).canonical = true := by
  simp (maxDischargeDepth := 99) [State.stepBus, h]

@[simp] theorem State.switchBus_canonical (s : State) (b : Nat) (r : Bool × Bool) (h : s.canonical = true) :
    (State.switchBus s b r).canonical = true := by
  simp (maxDischargeDepth := 99) [State.switchBus, h]

@[simp] theorem State.busClip_canonical (s : State) (b : Nat) (n : Nat) (x : ℤ) (h : s.canonical = true) :
    (State.busClip s b n x).canonical = true := by
  simp (maxDischargeDepth := 99) [State.busClip, h]

@[simp] theorem State.runBus_canonical (s : State) (b : Nat) (n : Nat) (src : List ℤ) (h : s.canonical = true) :
    (State.runBus s b n src).canonical = true := by
  unfold State.runBus
  try dsimp only
  repeat' split
  all_goals simp (maxDischargeDepth := 99) +contextual [*]

@[simp] theorem State.stepSink_canonical (s : State) (k : Nat) (r : Bool × Bool) (h : s.canonical = true) :
    (State.stepSink s k r).canonical = true := by
  simp (maxDischargeDepth := 99) [State.stepSink, h]

@[simp] theorem State.runSink_canonical (s : State) (k : Nat) (h : s.canonical = true) :
    (State.runSink s k).canonical = true := by
  simp (maxDischargeDepth := 99) [State.runSink, h]

@[simp] theorem State.lineClip_canonical (s : State) (i : Nat) (n : Nat) (x : ℤ) (h : s.canonical = true) :
    (State.lineClip s i n x).canonical = true := by
  simp (maxDischargeDepth := 99) [State.lineClip, h]

@[simp] theorem State.hapSample_canonical (s : State) (n : Nat) (limited : Bool) (h : s.canonical = true) :
    (State.hapSample s n limited).canonical = true := by
  simp (maxDischargeDepth := 99) [State.hapSample, h]

@[simp] theorem State.mixSample_canonical (s : State) (n : Nat) (line tdm : List Int) (limited : BitVec 8)
    (h : s.canonical = true) : (s.mixSample n line tdm limited).canonical = true := by
  unfold State.mixSample
  dsimp only
  have h1 : ((s.each (List.range 8) fun s c => s.hapSample c (limited.getLsbD c)).modAud
      fun a => { a with sample := n }).canonical = true := by
    rw [modAud_canonical]
    exact each_canonical _ (fun _ _ ht => State.hapSample_canonical _ _ _ ht) h
  generalize ((s.each (List.range 8) fun s c => s.hapSample c (limited.getLsbD c)).modAud
      fun a => { a with sample := n }) = t at h1 ⊢
  refine ite_canonical h1 ?_
  have h2 : ((t.each (List.range 2) fun s i => s.lineClip i n (line.getD i 0)).each (List.range 8)
      fun s t => s.toneBegin t n).canonical = true :=
    each_canonical _ (fun _ _ hu => State.toneBegin_canonical _ _ _ hu)
      (each_canonical _ (fun _ _ hu => State.lineClip_canonical _ _ _ _ hu) h1)
  generalize ((t.each (List.range 2) fun s i => s.lineClip i n (line.getD i 0)).each (List.range 8)
      fun s t => s.toneBegin t n) = u at h2 ⊢
  have h3 : ((List.range 32).foldl (fun (acc : State × List Int) i =>
      ((acc.1.streamSample i n).1, acc.2 ++ [(acc.1.streamSample i n).2])) (u, [])).1.canonical = true :=
    foldl_fst_canonical (List.range 32)
      (f := fun (acc : State × List Int) i => ((acc.1.streamSample i n).1, acc.2 ++ [(acc.1.streamSample i n).2]))
      (fun x i hx => State.streamSample_canonical x.1 i n hx) (x := (u, [])) h2
  generalize ((List.range 32).foldl (fun (acc : State × List Int) i =>
      ((acc.1.streamSample i n).1, acc.2 ++ [(acc.1.streamSample i n).2])) (u, [])) = v at h3 ⊢
  refine each_canonical _ (fun w t hw => State.toneAdvance_canonical w t hw) ?_
  refine each_canonical _ (fun w k hw => State.runSink_canonical w k hw) ?_
  refine each_canonical _ (fun w b hw => State.runBus_canonical w b _ _ hw) ?_
  rw [modAud_canonical]
  refine each_canonical _ (fun w i hw => ?_) ?_
  · exact each_canonical _ (fun x b hx => State.stepXp_canonical x _ _ _ _ hx) hw
  · rw [modAud_canonical]
    exact h3

theorem execZcTimeoutExpiry_canonical (kind : Fin 5) (index : Fin 800) (s : State) (h : s.canonical = true) :
    ∀ t, execZcTimeoutExpiry kind index s = .next t → t.canonical = true := by
  intro t ht
  unfold execZcTimeoutExpiry at ht
  simp only [Host.Outcome.next.injEq] at ht
  subst ht
  repeat' split
  all_goals simp (maxDischargeDepth := 99) +contextual [*]

theorem execSpeakerFaultDetect_canonical (speaker : Fin 2) (code : Fin 4) (s : State) (h : s.canonical = true) :
    ∀ t, execSpeakerFaultDetect speaker code s = .next t → t.canonical = true := by
  intro t ht
  unfold execSpeakerFaultDetect at ht
  simp only [Host.Outcome.next.injEq] at ht
  subst ht
  simp (maxDischargeDepth := 99) [h]

theorem execAudNowRead_canonical (who : Requester) (s : State) (h : s.canonical = true) :
    ∀ t, execAudNowRead who s = .next t → t.canonical = true := by
  intro t ht
  unfold execAudNowRead at ht
  simp only [Host.Outcome.next.injEq] at ht
  subst ht
  simp (maxDischargeDepth := 99) [h]

@[simp] theorem State.audWarm_canonical (s : State) (h : s.canonical = true) :
    (State.audWarm s).canonical = true := by
  simp (maxDischargeDepth := 99) +contextual [State.audWarm, h]

@[simp] theorem State.audResetFunction_canonical (s : State) (f : Nat) (h : s.canonical = true) :
    (State.audResetFunction s f).canonical = true := by
  simp (maxDischargeDepth := 99) +contextual [State.audResetFunction, h]

theorem specAudAssign_canonical : OpSpec.Canonical specAudAssign := by
  refine ⟨fun s o h => ?_, fun s o h => ?_⟩
  all_goals simp (maxDischargeDepth := 99) [specAudAssign, h]

theorem specRouteSet_canonical : OpSpec.Canonical specRouteSet := by
  refine ⟨fun s o h => ?_, fun s o h => ?_⟩
  all_goals
    unfold specRouteSet
    try dsimp only
    repeat' split
    all_goals simp (maxDischargeDepth := 99) +contextual [*]

theorem specBusSet_canonical : OpSpec.Canonical specBusSet := by
  refine ⟨fun s o h => ?_, fun s o h => ?_⟩
  all_goals simp (maxDischargeDepth := 99) [specBusSet, h]

theorem specEqSet_canonical : OpSpec.Canonical specEqSet := by
  refine ⟨fun s o h => ?_, fun s o h => ?_⟩
  all_goals
    unfold specEqSet
    try dsimp only
    repeat' split
    all_goals simp (maxDischargeDepth := 99) +contextual [*]

@[simp] theorem State.sinkEnabled_canonical (s : State) (k : Nat) (old : Bool) (h : s.canonical = true) :
    (State.sinkEnabled s k old).canonical = true := by
  unfold State.sinkEnabled
  try dsimp only
  repeat' split
  all_goals simp (maxDischargeDepth := 99) +contextual [*]

theorem specSinkSet_canonical : OpSpec.Canonical specSinkSet := by
  refine ⟨fun s o h => ?_, fun s o h => ?_⟩
  all_goals simp (maxDischargeDepth := 99) [specSinkSet, h]

theorem specStreamSet_canonical : OpSpec.Canonical specStreamSet := by
  refine ⟨fun s o h => ?_, fun s o h => ?_⟩
  all_goals simp (maxDischargeDepth := 99) [specStreamSet, h]

theorem specStreamKick_canonical : OpSpec.Canonical specStreamKick := by
  refine ⟨fun s o h => ?_, fun s o h => ?_⟩
  all_goals simp (maxDischargeDepth := 99) [specStreamKick, h]

theorem specToneSet_canonical : OpSpec.Canonical specToneSet := by
  refine ⟨fun s o h => ?_, fun s o h => ?_⟩
  all_goals simp (maxDischargeDepth := 99) [specToneSet, h]

@[simp] theorem State.tonePlay_canonical (s : State) (o : Origin) (h : s.canonical = true) :
    (State.tonePlay s o).canonical = true := by
  simp (maxDischargeDepth := 99) [State.tonePlay, h]

theorem specTonePlay_canonical : OpSpec.Canonical specTonePlay := by
  refine ⟨fun s o h => ?_, fun s o h => ?_⟩
  all_goals simp (maxDischargeDepth := 99) [specTonePlay, h]

theorem specTdmSet_canonical : OpSpec.Canonical specTdmSet := by
  refine ⟨fun s o h => ?_, fun s o h => ?_⟩
  all_goals simp (maxDischargeDepth := 99) [specTdmSet, h]

theorem specAudQuery_canonical : OpSpec.Canonical specAudQuery := by
  refine ⟨fun s o h => ?_, fun s o h => ?_⟩
  all_goals simp (maxDischargeDepth := 99) [specAudQuery, h]

theorem execAudAssign_canonical (p : Packet) (s : State) (h : s.canonical = true) :
    ∀ t, execAudAssign p s = .next t → t.canonical = true :=
  packetStep_canonical _ _ _ (specAudAssign_canonical) h

theorem execRouteSet_canonical (p : Packet) (s : State) (h : s.canonical = true) :
    ∀ t, execRouteSet p s = .next t → t.canonical = true :=
  packetStep_canonical _ _ _ (specRouteSet_canonical) h

theorem execBusSet_canonical (p : Packet) (s : State) (h : s.canonical = true) :
    ∀ t, execBusSet p s = .next t → t.canonical = true :=
  packetStep_canonical _ _ _ (specBusSet_canonical) h

theorem execEqSet_canonical (p : Packet) (s : State) (h : s.canonical = true) :
    ∀ t, execEqSet p s = .next t → t.canonical = true :=
  packetStep_canonical _ _ _ (specEqSet_canonical) h

theorem execSinkSet_canonical (p : Packet) (s : State) (h : s.canonical = true) :
    ∀ t, execSinkSet p s = .next t → t.canonical = true :=
  packetStep_canonical _ _ _ (specSinkSet_canonical) h

theorem execStreamSet_canonical (p : Packet) (s : State) (h : s.canonical = true) :
    ∀ t, execStreamSet p s = .next t → t.canonical = true :=
  packetStep_canonical _ _ _ (specStreamSet_canonical) h

theorem execStreamKick_canonical (p : Packet) (s : State) (h : s.canonical = true) :
    ∀ t, execStreamKick p s = .next t → t.canonical = true :=
  packetStep_canonical _ _ _ (specStreamKick_canonical) h

theorem execToneSet_canonical (p : Packet) (s : State) (h : s.canonical = true) :
    ∀ t, execToneSet p s = .next t → t.canonical = true :=
  packetStep_canonical _ _ _ (specToneSet_canonical) h

theorem execTonePlayStart_canonical (p : Packet) (s : State) (h : s.canonical = true) :
    ∀ t, execTonePlayStart p s = .next t → t.canonical = true :=
  packetStep_canonical _ _ _ (specTonePlay_canonical) h

theorem execTonePlayStop_canonical (p : Packet) (s : State) (h : s.canonical = true) :
    ∀ t, execTonePlayStop p s = .next t → t.canonical = true :=
  packetStep_canonical _ _ _ (specTonePlay_canonical) h

theorem execTdmSet_canonical (p : Packet) (s : State) (h : s.canonical = true) :
    ∀ t, execTdmSet p s = .next t → t.canonical = true :=
  packetStep_canonical _ _ _ (specTdmSet_canonical) h

theorem execAudQuery_canonical (p : Packet) (s : State) (h : s.canonical = true) :
    ∀ t, execAudQuery p s = .next t → t.canonical = true :=
  packetStep_canonical _ _ _ (specAudQuery_canonical) h

end Sys2Proof.Machine
end

