-- ==== Sys2Proof/Laws/CanonicalMem.lean ====
section
/-! SUPPORT. The canonical form through the operations of Machine/Mem.lean. -/
namespace Sys2Proof.Machine

@[simp] theorem State.setForcing_canonical (s : State) (c : Nat) (b : Bool) (h : s.canonical = true) :
    (State.setForcing s c b).canonical = true := by
  simp (maxDischargeDepth := 99) [State.setForcing, h]

theorem execRefreshDue_canonical (channel : Fin 8) (s : State) (h : s.canonical = true) :
    ∀ t, execRefreshDue channel s = .next t → t.canonical = true := by
  intro t ht
  unfold execRefreshDue at ht
  simp only [Host.Outcome.next.injEq] at ht
  subst ht
  simp (maxDischargeDepth := 99) [h]

@[simp] theorem State.refreshChannel_canonical (s : State) (c : Nat) (h : s.canonical = true) :
    (State.refreshChannel s c).canonical = true := by
  simp (maxDischargeDepth := 99) [State.refreshChannel, h]

theorem execRefreshSlot_canonical (waiting : Byte) (s : State) (h : s.canonical = true) :
    ∀ t, execRefreshSlot waiting s = .next t → t.canonical = true := by
  intro t ht
  unfold execRefreshSlot at ht
  simp only [Host.Outcome.next.injEq] at ht
  subst ht
  repeat' split
  all_goals simp (maxDischargeDepth := 99) +contextual [*]

theorem execMr4TempRead_canonical (channel : Fin 8) (temp : Byte) (s : State) (h : s.canonical = true) :
    ∀ t, execMr4TempRead channel temp s = .next t → t.canonical = true := by
  intro t ht
  unfold execMr4TempRead at ht
  simp only [Host.Outcome.next.injEq] at ht
  subst ht
  simp (maxDischargeDepth := 99) [h]

@[simp] theorem State.syndrome_canonical (s : State) (line : Nat) (kind : Nat) (agent : Nat) (h : s.canonical = true) :
    (State.syndrome s line kind agent).canonical = true := by
  simp (maxDischargeDepth := 99) [State.syndrome, h]

theorem execPatrolScrub_canonical (region : Fin 8) (line : BitVec 42) (kind : Fin 4) (s : State) (h : s.canonical = true) :
    ∀ t, execPatrolScrub region line kind s = .next t → t.canonical = true := by
  intro t ht
  unfold execPatrolScrub at ht
  simp only [Host.Outcome.next.injEq] at ht
  subst ht
  simp (maxDischargeDepth := 99) [h]

theorem execRtLate_canonical (channel : Fin 8) (s : State) (h : s.canonical = true) :
    ∀ t, execRtLate channel s = .next t → t.canonical = true := by
  intro t ht
  unfold execRtLate at ht
  simp only [Host.Outcome.next.injEq] at ht
  subst ht
  simp (maxDischargeDepth := 99) [h]

theorem execHotWindowEnd_canonical (accesses : List W32) (last : List W32) (busy : Byte) (traffic : List (W64 × W64)) (s : State) (h : s.canonical = true) :
    ∀ t, execHotWindowEnd accesses last busy traffic s = .next t → t.canonical = true := by
  intro t ht
  unfold execHotWindowEnd at ht
  simp only [Host.Outcome.next.injEq] at ht
  subst ht
  repeat' split
  all_goals simp (maxDischargeDepth := 99) +contextual [*]

@[simp] theorem State.takeDeferred_canonical (s : State) (h : s.canonical = true) :
    (State.takeDeferred s).canonical = true := by
  simp (maxDischargeDepth := 99) [State.takeDeferred, h]

@[simp] theorem State.changeArms_canonical (s : State) (h : s.canonical = true) :
    (State.changeArms s).canonical = true := by
  simp (maxDischargeDepth := 99) [State.changeArms, h]

@[simp] theorem State.changeLine_canonical (s : State) (h : s.canonical = true) :
    (State.changeLine s).canonical = true := by
  unfold State.changeLine
  try dsimp only
  repeat' split
  all_goals simp (maxDischargeDepth := 99) +contextual [*]

@[simp] theorem State.endChange_canonical (s : State) (a : Answer) (h : s.canonical = true) :
    (State.endChange s a).canonical = true := by
  unfold State.endChange
  try dsimp only
  repeat' split
  all_goals simp (maxDischargeDepth := 99) +contextual [*]

theorem execFreqChangeComplete_canonical (s : State) (h : s.canonical = true) :
    ∀ t, execFreqChangeComplete s = .next t → t.canonical = true := by
  intro t ht
  unfold execFreqChangeComplete at ht
  simp only [Host.Outcome.next.injEq] at ht
  subst ht
  simp (maxDischargeDepth := 99) [h]

@[simp] theorem State.askChange_canonical (s : State) (tt : Nat) (line : Nat) (origin : Option Origin) (h : s.canonical = true) :
    (State.askChange s tt line origin).canonical = true := by
  simp (maxDischargeDepth := 99) [State.askChange, h]

theorem specMemFreqSet_canonical : OpSpec.Canonical specMemFreqSet := by
  refine ⟨fun s o h => ?_, fun s o h => ?_⟩
  all_goals simp (maxDischargeDepth := 99) [specMemFreqSet, h]

theorem execFchgGoWrite_canonical (who : Requester) (value : W32) (s : State) (h : s.canonical = true) :
    ∀ t, execFchgGoWrite who value s = .next t → t.canonical = true := by
  intro t ht
  unfold execFchgGoWrite at ht
  simp only [Host.Outcome.next.injEq] at ht
  subst ht
  simp (maxDischargeDepth := 99) [h]

@[simp] theorem State.beginTraining_canonical (s : State) (h : s.canonical = true) :
    (State.beginTraining s).canonical = true := by
  simp (maxDischargeDepth := 99) [State.beginTraining, h]

@[simp] theorem State.trainLane_canonical (s : State) (c : Nat) (l : Nat) (sp : Nat) (rd : Byte × Byte) (wrRun : Byte × Byte) (h : s.canonical = true) :
    (State.trainLane s c l sp rd wrRun).canonical = true := by
  simp (maxDischargeDepth := 99) [State.trainLane, h]

@[simp] theorem State.loseChannels_canonical (s : State) (h : s.canonical = true) :
    (State.loseChannels s).canonical = true := by
  simp (maxDischargeDepth := 99) +contextual [State.loseChannels, h]

theorem execTrainingSetPointDone_canonical (runs : List ((Byte × Byte) × Byte × Byte)) (s : State) (h : s.canonical = true) :
    ∀ t, execTrainingSetPointDone runs s = .next t → t.canonical = true := by
  intro t ht
  unfold execTrainingSetPointDone at ht
  simp only [Host.Outcome.next.injEq] at ht
  subst ht
  repeat' split
  all_goals simp (maxDischargeDepth := 99) +contextual [*]

theorem specMemRetrain_canonical : OpSpec.Canonical specMemRetrain := by
  refine ⟨fun s o h => ?_, fun s o h => ?_⟩
  all_goals simp (maxDischargeDepth := 99) [specMemRetrain, h]

theorem execDramInitClearDone_canonical (s : State) (h : s.canonical = true) :
    ∀ t, execDramInitClearDone s = .next t → t.canonical = true := by
  intro t ht
  unfold execDramInitClearDone at ht
  simp only [Host.Outcome.next.injEq] at ht
  subst ht
  simp (maxDischargeDepth := 99) [h]

@[simp] theorem State.dramcResetWarm_canonical (s : State) (h : s.canonical = true) :
    (State.dramcResetWarm s).canonical = true := by
  unfold State.dramcResetWarm
  try dsimp only
  repeat' split
  all_goals simp (maxDischargeDepth := 99) +contextual [*]

theorem specMemRefPlan_canonical : OpSpec.Canonical specMemRefPlan := by
  refine ⟨fun s o h => ?_, fun s o h => ?_⟩
  all_goals simp (maxDischargeDepth := 99) [specMemRefPlan, h]

@[simp] theorem State.setDramcCfg_canonical (s : State) (grain : Nat) (cap : Nat) (ways : Nat) (fchg : Nat) (h : s.canonical = true) :
    (State.setDramcCfg s grain cap ways fchg).canonical = true := by
  simp (maxDischargeDepth := 99) [State.setDramcCfg, h]

theorem specMemCfg_canonical : OpSpec.Canonical specMemCfg := by
  refine ⟨fun s o h => ?_, fun s o h => ?_⟩
  all_goals simp (maxDischargeDepth := 99) [specMemCfg, h]

@[simp] theorem memQueryRun_canonical (s : State) (o : Origin) (h : s.canonical = true) :
    (memQueryRun s o).1.canonical = true := by
  unfold memQueryRun
  try dsimp only
  repeat' split
  all_goals simp (maxDischargeDepth := 99) +contextual [*]

theorem specMemQuery_canonical : OpSpec.Canonical specMemQuery := by
  refine ⟨fun s o h => ?_, fun s o h => ?_⟩
  all_goals simp (maxDischargeDepth := 99) [specMemQuery, h]

theorem execMemFreqSet_canonical (p : Packet) (s : State) (h : s.canonical = true) :
    ∀ t, execMemFreqSet p s = .next t → t.canonical = true :=
  packetStep_canonical _ _ _ (specMemFreqSet_canonical) h

theorem execMemRetrain_canonical (p : Packet) (s : State) (h : s.canonical = true) :
    ∀ t, execMemRetrain p s = .next t → t.canonical = true :=
  packetStep_canonical _ _ _ (specMemRetrain_canonical) h

theorem execMemRefPlan_canonical (p : Packet) (s : State) (h : s.canonical = true) :
    ∀ t, execMemRefPlan p s = .next t → t.canonical = true :=
  packetStep_canonical _ _ _ (specMemRefPlan_canonical) h

theorem execMemCfg_canonical (p : Packet) (s : State) (h : s.canonical = true) :
    ∀ t, execMemCfg p s = .next t → t.canonical = true :=
  packetStep_canonical _ _ _ (specMemCfg_canonical) h

theorem execMemQuery_canonical (p : Packet) (s : State) (h : s.canonical = true) :
    ∀ t, execMemQuery p s = .next t → t.canonical = true :=
  packetStep_canonical _ _ _ (specMemQuery_canonical) h

end Sys2Proof.Machine
end

