-- ==== Sys2Proof/Laws/CanonicalPorts.lean ====
section
/-! SUPPORT. The canonical form through the operations of Machine/Ports.lean. -/
namespace Sys2Proof.Machine

@[simp] theorem State.discardWork_canonical (s : State) (f : Nat) (h : s.canonical = true) :
    (State.discardWork s f).canonical = true := by
  simp (maxDischargeDepth := 99) +contextual [State.discardWork, h]

@[simp] theorem State.squash_canonical (s : State) (f : Nat) (h : s.canonical = true) :
    (State.squash s f).canonical = true := by
  simp (maxDischargeDepth := 99) [State.squash, h]

@[simp] theorem State.decideReset_canonical (s : State) (f : Nat) (h : s.canonical = true) :
    (State.decideReset s f).canonical = true := by
  unfold State.decideReset
  try dsimp only
  repeat' split
  all_goals simp (maxDischargeDepth := 99) +contextual [*]

@[simp] theorem State.requestReset_canonical (s : State) (f : Nat) (source : Nat) (replies : List Origin) (destroy : Option Origin) (h : s.canonical = true) :
    (State.requestReset s f source replies destroy).canonical = true := by
  unfold State.requestReset
  try dsimp only
  repeat' split
  all_goals simp (maxDischargeDepth := 99) +contextual [*]

theorem execDrainEnd_canonical (f : Fin 32) (s : State) (h : s.canonical = true) :
    ∀ t, execDrainEnd f s = .next t → t.canonical = true := by
  intro t ht
  unfold execDrainEnd at ht
  simp only [Host.Outcome.next.injEq] at ht
  subst ht
  repeat' split
  all_goals simp (maxDischargeDepth := 99) +contextual [*]

theorem execResetSpacingEnd_canonical (f : Fin 32) (s : State) (h : s.canonical = true) :
    ∀ t, execResetSpacingEnd f s = .next t → t.canonical = true := by
  intro t ht
  unfold execResetSpacingEnd at ht
  simp only [Host.Outcome.next.injEq] at ht
  subst ht
  simp (maxDischargeDepth := 99) [h]

theorem execTagTimeout_canonical (f : Fin 32) (s : State) (h : s.canonical = true) :
    ∀ t, execTagTimeout f s = .next t → t.canonical = true := by
  intro t ht
  unfold execTagTimeout at ht
  simp only [Host.Outcome.next.injEq] at ht
  subst ht
  simp (maxDischargeDepth := 99) [h]

@[simp] theorem State.passUnits_canonical (s : State) (f : Nat) (heir : Nat) (h : s.canonical = true) :
    (State.passUnits s f heir).canonical = true := by
  simp (maxDischargeDepth := 99) +contextual [State.passUnits, h]

@[simp] theorem State.clearHome_canonical (s : State) (q : Nat) (h : s.canonical = true) :
    (State.clearHome s q).canonical = true := by
  simp (maxDischargeDepth := 99) [State.clearHome, h]

@[simp] theorem State.clearDone_canonical (s : State) (f : Nat) (h : s.canonical = true) :
    (State.clearDone s f).canonical = true := by
  unfold State.clearDone
  try dsimp only
  repeat' split
  all_goals simp (maxDischargeDepth := 99) +contextual [*]

@[simp] theorem State.giveBack_canonical (s : State) (f : Nat) (origin : Option Origin) (h : s.canonical = true) :
    (State.giveBack s f origin).canonical = true := by
  unfold State.giveBack
  try dsimp only
  repeat' split
  all_goals simp (maxDischargeDepth := 99) +contextual [*]

theorem execDramClearComplete_canonical (f : Fin 32) (s : State) (h : s.canonical = true) :
    ∀ t, execDramClearComplete f s = .next t → t.canonical = true := by
  intro t ht
  unfold execDramClearComplete at ht
  simp only [Host.Outcome.next.injEq] at ht
  subst ht
  simp (maxDischargeDepth := 99) [h]

@[simp] theorem State.ringsWarm_canonical (s : State) (f : Nat) (h : s.canonical = true) :
    (State.ringsWarm s f).canonical = true := by
  simp (maxDischargeDepth := 99) +contextual [State.ringsWarm, h]

theorem execFuncResetComplete_canonical (f : Fin 32) (s : State) (h : s.canonical = true) :
    ∀ t, execFuncResetComplete f s = .next t → t.canonical = true := by
  intro t ht
  unfold execFuncResetComplete at ht
  simp only [Host.Outcome.next.injEq] at ht
  subst ht
  repeat' split
  all_goals simp (maxDischargeDepth := 99) +contextual [*]

@[simp] theorem State.resetPort_canonical (s : State) (p : Nat) (source : Nat) (h : s.canonical = true) :
    (State.resetPort s p source).canonical = true := by
  simp (maxDischargeDepth := 99) +contextual [State.resetPort, h]

@[simp] theorem State.regainPort_canonical (s : State) (p : Nat) (h : s.canonical = true) :
    (State.regainPort s p).canonical = true := by
  simp (maxDischargeDepth := 99) +contextual [State.regainPort, h]

theorem execLinkUp_canonical (port : Fin 2) (speed : Fin 5) (width : Fin 5) (s : State) (h : s.canonical = true) :
    ∀ t, execLinkUp port speed width s = .next t → t.canonical = true := by
  intro t ht
  unfold execLinkUp at ht
  simp only [Host.Outcome.next.injEq] at ht
  subst ht
  simp (maxDischargeDepth := 99) [h]

@[simp] theorem State.dropLink_canonical (s : State) (p : Nat) (h : s.canonical = true) :
    (State.dropLink s p).canonical = true := by
  simp (maxDischargeDepth := 99) [State.dropLink, h]

theorem execLinkDown_canonical (port : Fin 2) (s : State) (h : s.canonical = true) :
    ∀ t, execLinkDown port s = .next t → t.canonical = true := by
  intro t ht
  unfold execLinkDown at ht
  simp only [Host.Outcome.next.injEq] at ht
  subst ht
  simp (maxDischargeDepth := 99) [h]

theorem execHotReset_canonical (port : Fin 2) (s : State) (h : s.canonical = true) :
    ∀ t, execHotReset port s = .next t → t.canonical = true := by
  intro t ht
  unfold execHotReset at ht
  simp only [Host.Outcome.next.injEq] at ht
  subst ht
  simp (maxDischargeDepth := 99) [h]

theorem execFunctionLevelReset_canonical (f : Fin 32) (s : State) (h : s.canonical = true) :
    ∀ t, execFunctionLevelReset f s = .next t → t.canonical = true := by
  intro t ht
  unfold execFunctionLevelReset at ht
  simp only [Host.Outcome.next.injEq] at ht
  subst ht
  simp (maxDischargeDepth := 99) [h]

theorem execVfEnableChange_canonical (port : Fin 2) (enable : Bool) (numVfs : Fin 16) (s : State) (h : s.canonical = true) :
    ∀ t, execVfEnableChange port enable numVfs s = .next t → t.canonical = true := by
  intro t ht
  unfold execVfEnableChange at ht
  simp only [Host.Outcome.next.injEq] at ht
  subst ht
  repeat' split
  all_goals simp (maxDischargeDepth := 99) +contextual [*]

@[simp] theorem State.losePort_canonical (s : State) (p : Nat) (cause : Nat) (h : s.canonical = true) :
    (State.losePort s p cause).canonical = true := by
  simp (maxDischargeDepth := 99) +contextual [State.losePort, h]

theorem execPortLinkLossTimeout_canonical (port : Fin 2) (s : State) (h : s.canonical = true) :
    ∀ t, execPortLinkLossTimeout port s = .next t → t.canonical = true := by
  intro t ht
  unfold execPortLinkLossTimeout at ht
  simp only [Host.Outcome.next.injEq] at ht
  subst ht
  simp (maxDischargeDepth := 99) [h]

theorem execHeartbeatTimeout_canonical (port : Fin 2) (s : State) (h : s.canonical = true) :
    ∀ t, execHeartbeatTimeout port s = .next t → t.canonical = true := by
  intro t ht
  unfold execHeartbeatTimeout at ht
  simp only [Host.Outcome.next.injEq] at ht
  subst ht
  simp (maxDischargeDepth := 99) [h]

theorem execFnHeartbeatWrite_canonical (f : Fin 32) (_value : W32) (s : State) (h : s.canonical = true) :
    ∀ t, execFnHeartbeatWrite f _value s = .next t → t.canonical = true := by
  intro t ht
  unfold execFnHeartbeatWrite at ht
  simp only [Host.Outcome.next.injEq] at ht
  subst ht
  simp (maxDischargeDepth := 99) [h]

@[simp] theorem State.ringBell_canonical (s : State) (r : Nat) (tail : Nat) (h : s.canonical = true) :
    (State.ringBell s r tail).canonical = true := by
  simp (maxDischargeDepth := 99) [State.ringBell, h]

theorem execFnDoorbellWrite_canonical (f : Fin 32) (tail : W32) (s : State) (h : s.canonical = true) :
    ∀ t, execFnDoorbellWrite f tail s = .next t → t.canonical = true := by
  intro t ht
  unfold execFnDoorbellWrite at ht
  simp only [Host.Outcome.next.injEq] at ht
  subst ht
  simp (maxDischargeDepth := 99) [h]

theorem execRingReadResume_canonical (ring : Fin 34) (s : State) (h : s.canonical = true) :
    ∀ t, execRingReadResume ring s = .next t → t.canonical = true := by
  intro t ht
  unfold execRingReadResume at ht
  simp only [Host.Outcome.next.injEq] at ht
  subst ht
  simp (maxDischargeDepth := 99) [h]

theorem execBar2Access_canonical (f : Fin 32) (offset : BitVec 26) (data : List Byte) (len : Fin 4097) (write : Bool) (ecc : Fin 4) (s : State) (h : s.canonical = true) :
    ∀ t, execBar2Access f offset data len write ecc s = .next t → t.canonical = true := by
  intro t ht
  unfold execBar2Access at ht
  simp only [Host.Outcome.next.injEq] at ht
  subst ht
  simp (maxDischargeDepth := 99) [h]

@[simp] theorem createRun_canonical (s : State) (o : Origin) (h : s.canonical = true) :
    (createRun s o).1.canonical = true := by
  simp (maxDischargeDepth := 99) +contextual [createRun, h]

theorem specTenantCreate_canonical : OpSpec.Canonical specTenantCreate := by
  refine ⟨fun s o h => ?_, fun s o h => ?_⟩
  all_goals simp (maxDischargeDepth := 99) [specTenantCreate, h]

theorem specTenantDestroy_canonical : OpSpec.Canonical specTenantDestroy := by
  refine ⟨fun s o h => ?_, fun s o h => ?_⟩
  all_goals simp (maxDischargeDepth := 99) [specTenantDestroy, h]

theorem specTenantShare_canonical : OpSpec.Canonical specTenantShare := by
  refine ⟨fun s o h => ?_, fun s o h => ?_⟩
  all_goals simp (maxDischargeDepth := 99) [specTenantShare, h]

theorem specFuncReset_canonical : OpSpec.Canonical specFuncReset := by
  refine ⟨fun s o h => ?_, fun s o h => ?_⟩
  all_goals
    unfold specFuncReset
    try dsimp only
    repeat' split
    all_goals simp (maxDischargeDepth := 99) +contextual [*]

theorem specTenantQuery_canonical : OpSpec.Canonical specTenantQuery := by
  refine ⟨fun s o h => ?_, fun s o h => ?_⟩
  all_goals simp (maxDischargeDepth := 99) [specTenantQuery, h]

@[simp] theorem homeRun_canonical (s : State) (o : Origin) (h : s.canonical = true) :
    (homeRun s o).1.canonical = true := by
  simp (maxDischargeDepth := 99) [homeRun, h]

theorem specHomeSet_canonical : OpSpec.Canonical specHomeSet := by
  refine ⟨fun s o h => ?_, fun s o h => ?_⟩
  all_goals simp (maxDischargeDepth := 99) [specHomeSet, h]

@[simp] theorem State.moveTenant_canonical (s : State) (src : Nat) (dst : Nat) (primary : Nat) (h : s.canonical = true) :
    (State.moveTenant s src dst primary).canonical = true := by
  simp (maxDischargeDepth := 99) +contextual [State.moveTenant, h]

@[simp] theorem State.moveHomes_canonical (s : State) (h : s.canonical = true) :
    (State.moveHomes s).canonical = true := by
  simp (maxDischargeDepth := 99) +contextual [State.moveHomes, h]

@[simp] theorem State.takeShares_canonical (s : State) (h : s.canonical = true) :
    (State.takeShares s).canonical = true := by
  simp (maxDischargeDepth := 99) [State.takeShares, h]

theorem execTenantCreate_canonical (p : Packet) (s : State) (h : s.canonical = true) :
    ∀ t, execTenantCreate p s = .next t → t.canonical = true :=
  packetStep_canonical _ _ _ (specTenantCreate_canonical) h

theorem execTenantDestroy_canonical (p : Packet) (s : State) (h : s.canonical = true) :
    ∀ t, execTenantDestroy p s = .next t → t.canonical = true :=
  packetStep_canonical _ _ _ (specTenantDestroy_canonical) h

theorem execTenantShare_canonical (p : Packet) (s : State) (h : s.canonical = true) :
    ∀ t, execTenantShare p s = .next t → t.canonical = true :=
  packetStep_canonical _ _ _ (specTenantShare_canonical) h

theorem execFuncReset_canonical (p : Packet) (s : State) (h : s.canonical = true) :
    ∀ t, execFuncReset p s = .next t → t.canonical = true :=
  packetStep_canonical _ _ _ (specFuncReset_canonical) h

theorem execTenantQuery_canonical (p : Packet) (s : State) (h : s.canonical = true) :
    ∀ t, execTenantQuery p s = .next t → t.canonical = true :=
  packetStep_canonical _ _ _ (specTenantQuery_canonical) h

theorem execHomeSet_canonical (p : Packet) (s : State) (h : s.canonical = true) :
    ∀ t, execHomeSet p s = .next t → t.canonical = true :=
  packetStep_canonical _ _ _ (specHomeSet_canonical) h

end Sys2Proof.Machine
end

