-- ==== Sys2Proof/Laws/CanonicalCpc.lean ====
section
/-! SUPPORT. The canonical form through the operations of Machine/Cpc.lean. -/
namespace Sys2Proof.Machine

@[simp] theorem State.putBlockBit_canonical (s : State) (r : Reg) (bit : Nat) (b : Bool) (h : s.canonical = true) :
    (State.putBlockBit s r bit b).canonical = true := by
  simp (maxDischargeDepth := 99) [State.putBlockBit, h]

@[simp] theorem State.coldRange_canonical (s : State) (lo : Nat) (hi : Nat) (h : s.canonical = true) :
    (State.coldRange s lo hi).canonical = true := by
  simp (maxDischargeDepth := 99) [State.coldRange, h]

@[simp] theorem State.coldChannel_canonical (s : State) (n : Nat) (h : s.canonical = true) :
    (State.coldChannel s n).canonical = true := by
  simp (maxDischargeDepth := 99) [State.coldChannel, h]

@[simp] theorem State.coldBlock_canonical (s : State) (bit : Nat) (h : s.canonical = true) :
    (State.coldBlock s bit).canonical = true := by
  simp (maxDischargeDepth := 99) +contextual [State.coldBlock, h]

@[simp] theorem State.cpcRecord_canonical (s : State) (d : Nat) (result : Nat) (agent : Nat) (h : s.canonical = true) :
    (State.cpcRecord s d result agent).canonical = true := by
  simp (maxDischargeDepth := 99) [State.cpcRecord, h]

@[simp] theorem State.cpcRequest_canonical (s : State) (who : Requester) (d : Nat) (action : Nat) (h : s.canonical = true) :
    (State.cpcRequest s who d action).canonical = true := by
  simp (maxDischargeDepth := 99) [State.cpcRequest, h]

theorem execCpcClockStop_canonical (who : Requester) (domain : Fin 64) (s : State) (h : s.canonical = true) :
    ∀ t, execCpcClockStop who domain s = .next t → t.canonical = true := by
  intro t ht
  unfold execCpcClockStop at ht
  simp only [Host.Outcome.next.injEq] at ht
  subst ht
  simp (maxDischargeDepth := 99) [h]

theorem execCpcClockRun_canonical (who : Requester) (domain : Fin 64) (s : State) (h : s.canonical = true) :
    ∀ t, execCpcClockRun who domain s = .next t → t.canonical = true := by
  intro t ht
  unfold execCpcClockRun at ht
  simp only [Host.Outcome.next.injEq] at ht
  subst ht
  simp (maxDischargeDepth := 99) [h]

theorem execCpcPowerOff_canonical (who : Requester) (domain : Fin 64) (s : State) (h : s.canonical = true) :
    ∀ t, execCpcPowerOff who domain s = .next t → t.canonical = true := by
  intro t ht
  unfold execCpcPowerOff at ht
  simp only [Host.Outcome.next.injEq] at ht
  subst ht
  simp (maxDischargeDepth := 99) [h]

theorem execCpcPowerOn_canonical (who : Requester) (domain : Fin 64) (s : State) (h : s.canonical = true) :
    ∀ t, execCpcPowerOn who domain s = .next t → t.canonical = true := by
  intro t ht
  unfold execCpcPowerOn at ht
  simp only [Host.Outcome.next.injEq] at ht
  subst ht
  simp (maxDischargeDepth := 99) [h]

@[simp] theorem State.cpcApply_canonical (s : State) (d : Nat) (action : Nat) (h : s.canonical = true) :
    (State.cpcApply s d action).canonical = true := by
  unfold State.cpcApply
  try dsimp only
  repeat' split
  all_goals simp (maxDischargeDepth := 99) +contextual [*]

@[simp] theorem State.cpcLine_canonical (s : State) (h : s.canonical = true) :
    (State.cpcLine s).canonical = true := by
  simp (maxDischargeDepth := 99) +contextual [State.cpcLine, h]

theorem execDomainPowerSlot_canonical (domain : Fin 64) (s : State) (h : s.canonical = true) :
    ∀ t, execDomainPowerSlot domain s = .next t → t.canonical = true := by
  intro t ht
  unfold execDomainPowerSlot at ht
  simp only [Host.Outcome.next.injEq] at ht
  subst ht
  repeat' split
  all_goals simp (maxDischargeDepth := 99) +contextual [*]

@[simp] theorem State.setClaim_canonical (s : State) (mask : Nat) (h : s.canonical = true) :
    (State.setClaim s mask).canonical = true := by
  simp (maxDischargeDepth := 99) +contextual [State.setClaim, h]

theorem specClaimSet_canonical : OpSpec.Canonical specClaimSet := by
  refine ⟨fun s o h => ?_, fun s o h => ?_⟩
  all_goals simp (maxDischargeDepth := 99) [specClaimSet, h]

theorem execClaimSet_canonical (p : Packet) (s : State) (h : s.canonical = true) :
    ∀ t, execClaimSet p s = .next t → t.canonical = true :=
  packetStep_canonical _ _ _ (specClaimSet_canonical) h

@[simp] theorem State.holdBlock_canonical (s : State) (bit : Nat) (h : s.canonical = true) :
    (State.holdBlock s bit).canonical = true := by
  simp (maxDischargeDepth := 99) [State.holdBlock, h]

@[simp] theorem State.releaseBlock_canonical (s : State) (bit : Nat) (h : s.canonical = true) :
    (State.releaseBlock s bit).canonical = true := by
  simp (maxDischargeDepth := 99) [State.releaseBlock, h]

theorem execSwrstWrite_canonical (who : Requester) (value : W64) (s : State) (h : s.canonical = true) :
    ∀ t, execSwrstWrite who value s = .next t → t.canonical = true := by
  intro t ht
  unfold execSwrstWrite at ht
  simp only [Host.Outcome.next.injEq] at ht
  subst ht
  repeat' split
  all_goals simp (maxDischargeDepth := 99) +contextual [*]

theorem execSwrstRelease_canonical (bit : Fin 40) (s : State) (h : s.canonical = true) :
    ∀ t, execSwrstRelease bit s = .next t → t.canonical = true := by
  intro t ht
  unfold execSwrstRelease at ht
  simp only [Host.Outcome.next.injEq] at ht
  subst ht
  simp (maxDischargeDepth := 99) [h]

theorem execSwrstStuck_canonical (bit : Fin 40) (s : State) (h : s.canonical = true) :
    ∀ t, execSwrstStuck bit s = .next t → t.canonical = true := by
  intro t ht
  unfold execSwrstStuck at ht
  simp only [Host.Outcome.next.injEq] at ht
  subst ht
  simp (maxDischargeDepth := 99) [h]

end Sys2Proof.Machine
end

