-- ==== Sys2Proof/Laws/CanonicalModes.lean ====
section
/-! SUPPORT. The canonical form through the operations of Machine/Modes.lean. -/
namespace Sys2Proof.Machine

theorem specSysQuery_canonical : OpSpec.Canonical specSysQuery := by
  refine ⟨fun s o h => ?_, fun s o h => ?_⟩
  all_goals simp (maxDischargeDepth := 99) [specSysQuery, h]

theorem specNop_canonical : OpSpec.Canonical specNop := by
  refine ⟨fun s o h => ?_, fun s o h => ?_⟩
  all_goals simp (maxDischargeDepth := 99) [specNop, h]

theorem specSeqSync_canonical (expected : Nat) (wasSet : Bool) : OpSpec.Canonical (specSeqSync expected wasSet) := by
  refine ⟨fun s o h => ?_, fun s o h => ?_⟩
  all_goals simp (maxDischargeDepth := 99) [specSeqSync, h]

theorem specMarginSet_canonical : OpSpec.Canonical specMarginSet := by
  refine ⟨fun s o h => ?_, fun s o h => ?_⟩
  all_goals simp (maxDischargeDepth := 99) [specMarginSet, h]

theorem execSysQuery_canonical (p : Packet) (s : State) (h : s.canonical = true) :
    ∀ t, execSysQuery p s = .next t → t.canonical = true :=
  packetStep_canonical _ _ _ (specSysQuery_canonical) h

theorem execNop_canonical (p : Packet) (s : State) (h : s.canonical = true) :
    ∀ t, execNop p s = .next t → t.canonical = true :=
  packetStep_canonical _ _ _ (specNop_canonical) h

theorem execSeqSync_canonical (p : Packet) (s : State) (h : s.canonical = true) :
    ∀ t, execSeqSync p s = .next t → t.canonical = true :=
  packetStep_canonical _ _ _ (specSeqSync_canonical _ _) h

theorem execMarginSet_canonical (p : Packet) (s : State) (h : s.canonical = true) :
    ∀ t, execMarginSet p s = .next t → t.canonical = true :=
  packetStep_canonical _ _ _ (specMarginSet_canonical) h

@[simp] theorem State.pktFrameStart_canonical (s : State) (h : s.canonical = true) :
    (State.pktFrameStart s).canonical = true := by
  unfold State.pktFrameStart
  try dsimp only
  repeat' split
  all_goals simp (maxDischargeDepth := 99) +contextual [*]

@[simp] theorem State.setRingSize_canonical (s : State) (w : Nat) (reply : Bool) (value : Nat) (h : s.canonical = true) :
    (State.setRingSize s w reply value).canonical = true := by
  simp (maxDischargeDepth := 99) [State.setRingSize, h]

theorem execInternalRingEnableWrite_canonical (who : Requester) (world : World) (reply : Bool) (value : W32) (s : State) (h : s.canonical = true) :
    ∀ t, execInternalRingEnableWrite who world reply value s = .next t → t.canonical = true := by
  intro t ht
  unfold execInternalRingEnableWrite at ht
  simp only [Host.Outcome.next.injEq] at ht
  subst ht
  simp (maxDischargeDepth := 99) [h]

@[simp] theorem State.enterDormant_canonical (s : State) (h : s.canonical = true) :
    (State.enterDormant s).canonical = true := by
  simp (maxDischargeDepth := 99) [State.enterDormant, h]

@[simp] theorem modeRun_canonical (s : State) (o : Origin) (h : s.canonical = true) :
    (modeRun s o).1.canonical = true := by
  unfold modeRun
  try dsimp only
  repeat' split
  all_goals simp (maxDischargeDepth := 99) +contextual [*]

theorem specModeRequest_canonical : OpSpec.Canonical specModeRequest := by
  refine ⟨fun s o h => ?_, fun s o h => ?_⟩
  all_goals simp (maxDischargeDepth := 99) [specModeRequest, h]

theorem execModeRequest_canonical (p : Packet) (s : State) (h : s.canonical = true) :
    ∀ t, execModeRequest p s = .next t → t.canonical = true :=
  packetStep_canonical _ _ _ (specModeRequest_canonical) h

@[simp] theorem State.hapCut_canonical (s : State) (h : s.canonical = true) :
    (State.hapCut s).canonical = true := by
  simp (maxDischargeDepth := 99) +contextual [State.hapCut, h]

@[simp] theorem State.enterMode_canonical (s : State) (m : Nat) (h : s.canonical = true) :
    (State.enterMode s m).canonical = true := by
  simp (maxDischargeDepth := 99) [State.enterMode, h]

@[simp] theorem State.evaluateMode_canonical (s : State) (h : s.canonical = true) :
    (State.evaluateMode s).canonical = true := by
  simp (maxDischargeDepth := 99) [State.evaluateMode, h]

@[simp] theorem State.pendingMode_canonical (s : State) (h : s.canonical = true) :
    (State.pendingMode s).canonical = true := by
  unfold State.pendingMode
  try dsimp only
  repeat' split
  all_goals simp (maxDischargeDepth := 99) +contextual [*]

@[simp] theorem State.makeForced_canonical (s : State) (f : ForcedMode) (h : s.canonical = true) :
    (State.makeForced s f).canonical = true := by
  simp (maxDischargeDepth := 99) [State.makeForced, h]

@[simp] theorem State.modeFrameStart_canonical (s : State) (h : s.canonical = true) :
    (State.modeFrameStart s).canonical = true := by
  unfold State.modeFrameStart
  try dsimp only
  repeat' split
  all_goals simp (maxDischargeDepth := 99) +contextual [*]

@[simp] theorem State.switchDone_canonical (s : State) (h : s.canonical = true) :
    (State.switchDone s).canonical = true := by
  simp (maxDischargeDepth := 99) [State.switchDone, h]

theorem execRegimeSwitchEnd_canonical (s : State) (h : s.canonical = true) :
    ∀ t, execRegimeSwitchEnd s = .next t → t.canonical = true := by
  intro t ht
  unfold execRegimeSwitchEnd at ht
  simp only [Host.Outcome.next.injEq] at ht
  subst ht
  repeat' split
  all_goals simp (maxDischargeDepth := 99) +contextual [*]

end Sys2Proof.Machine
end

