-- ==== Sys2Proof/Laws/CanonicalPower.lean ====
section
/-! SUPPORT. The canonical form through the operations of Machine/Power.lean. -/
namespace Sys2Proof.Machine

@[simp] theorem State.keep_canonical (s old : State) (r : Reg) (h : s.canonical = true) : (s.keep old r).canonical = true :=
  State.wr_canonical _ _ _ h

@[simp] theorem State.wipe_canonical (s : State) (stage : PowerStage) (h : s.canonical = true) :
    (s.wipe stage).canonical = true := by
  unfold State.wipe
  dsimp only
  refine (fun hb => ite_canonical (State.emit_canonical _ _ hb) hb) ?_
  refine State.put_canonical _ _ _ (State.put_canonical _ _ _ (State.put_canonical _ _ _ ?_))
  refine each_canonical _ (fun t r ht => State.keep_canonical _ _ _ ht) ?_
  rw [canonical_mk]
  simp [h, State.reset, swf, PeatState.cold, PowerState.cold, TouchState.cold]

@[simp] theorem State.coldReset_canonical (s : State) (code : Nat) (cycled : Bool) (h : s.canonical = true) :
    (State.coldReset s code cycled).canonical = true := by
  simp (maxDischargeDepth := 99) [State.coldReset, h]

@[simp] theorem State.coldSource_canonical (s : State) (code : Nat) (cycled : Bool) (h : s.canonical = true) :
    (State.coldSource s code cycled).canonical = true := by
  simp (maxDischargeDepth := 99) [State.coldSource, h]

@[simp] theorem State.powerOff_canonical (s : State) (code : Nat) (stage : PowerStage) (h : s.canonical = true) :
    (State.powerOff s code stage).canonical = true := by
  simp (maxDischargeDepth := 99) [State.powerOff, h]

@[simp] theorem State.alwaysOnLost_canonical (s : State) (h : s.canonical = true) :
    (State.alwaysOnLost s).canonical = true := by
  simp (maxDischargeDepth := 99) [State.alwaysOnLost, h]

theorem execPowerOn_canonical (s : State) (h : s.canonical = true) :
    ∀ t, execPowerOn s = .next t → t.canonical = true := by
  intro t ht
  unfold execPowerOn at ht
  simp only [Host.Outcome.next.injEq] at ht
  subst ht
  simp (maxDischargeDepth := 99) [h]

theorem execVmainLowDetect_canonical (mv10 : BitVec 12) (s : State) (h : s.canonical = true) :
    ∀ t, execVmainLowDetect mv10 s = .next t → t.canonical = true := by
  intro t ht
  unfold execVmainLowDetect at ht
  simp only [Host.Outcome.next.injEq] at ht
  subst ht
  simp (maxDischargeDepth := 99) [h]

theorem execVmainRecovery_canonical (mv10 : BitVec 12) (s : State) (h : s.canonical = true) :
    ∀ t, execVmainRecovery mv10 s = .next t → t.canonical = true := by
  intro t ht
  unfold execVmainRecovery at ht
  simp only [Host.Outcome.next.injEq] at ht
  subst ht
  simp (maxDischargeDepth := 99) [h]

theorem execBrownOut_canonical (vmainLost : Bool) (s : State) (h : s.canonical = true) :
    ∀ t, execBrownOut vmainLost s = .next t → t.canonical = true := by
  intro t ht
  unfold execBrownOut at ht
  simp only [Host.Outcome.next.injEq] at ht
  subst ht
  repeat' split
  all_goals simp (maxDischargeDepth := 99) +contextual [*]

theorem execVstbyLossDetect_canonical (s : State) (h : s.canonical = true) :
    ∀ t, execVstbyLossDetect s = .next t → t.canonical = true := by
  intro t ht
  unfold execVstbyLossDetect at ht
  simp only [Host.Outcome.next.injEq] at ht
  subst ht
  repeat' split
  all_goals simp (maxDischargeDepth := 99) +contextual [*]

theorem execVstbyGoodDetect_canonical (s : State) (h : s.canonical = true) :
    ∀ t, execVstbyGoodDetect s = .next t → t.canonical = true := by
  intro t ht
  unfold execVstbyGoodDetect at ht
  simp only [Host.Outcome.next.injEq] at ht
  subst ht
  simp (maxDischargeDepth := 99) [h]

@[simp] theorem State.slotsDone_canonical (s : State) (h : s.canonical = true) :
    (State.slotsDone s).canonical = true := by
  unfold State.slotsDone
  try dsimp only
  repeat' split
  all_goals simp (maxDischargeDepth := 99) +contextual [*]

theorem execPowerSlotEnd_canonical (recLow : Bool) (tapSel : Bool) (s : State) (h : s.canonical = true) :
    ∀ t, execPowerSlotEnd recLow tapSel s = .next t → t.canonical = true := by
  intro t ht
  unfold execPowerSlotEnd at ht
  simp only [Host.Outcome.next.injEq] at ht
  subst ht
  repeat' split
  all_goals simp (maxDischargeDepth := 99) +contextual [*]

theorem execRailFaultTimeout_canonical (s : State) (h : s.canonical = true) :
    ∀ t, execRailFaultTimeout s = .next t → t.canonical = true := by
  intro t ht
  unfold execRailFaultTimeout at ht
  simp only [Host.Outcome.next.injEq] at ht
  subst ht
  repeat' split
  all_goals simp (maxDischargeDepth := 99) +contextual [*]

theorem execRailFaultRetry_canonical (s : State) (h : s.canonical = true) :
    ∀ t, execRailFaultRetry s = .next t → t.canonical = true := by
  intro t ht
  unfold execRailFaultRetry at ht
  simp only [Host.Outcome.next.injEq] at ht
  subst ht
  simp (maxDischargeDepth := 99) [h]

@[simp] theorem State.startFrom_canonical (s : State) (wake : Nat) (h : s.canonical = true) :
    (State.startFrom s wake).canonical = true := by
  simp (maxDischargeDepth := 99) [State.startFrom, h]

@[simp] theorem State.leaveLockout_canonical (s : State) (wake : Nat) (h : s.canonical = true) :
    (State.leaveLockout s wake).canonical = true := by
  simp (maxDischargeDepth := 99) [State.leaveLockout, h]

@[simp] theorem State.romRecovery_canonical (s : State) (cause : Nat) (h : s.canonical = true) :
    (State.romRecovery s cause).canonical = true := by
  simp (maxDischargeDepth := 99) [State.romRecovery, h]

@[simp] theorem State.startFirmware_canonical (s : State) (slotB : Bool) (hash0 : Bool) (version : W32) (h : s.canonical = true) :
    (State.startFirmware s slotB hash0 version).canonical = true := by
  simp (maxDischargeDepth := 99) [State.startFirmware, h]

theorem execBootRomChain_canonical (a1 : Fin 6) (a2 : Fin 6) (b1 : Fin 6) (b2 : Fin 6) (hash0 : Bool) (version : W32) (s : State) (h : s.canonical = true) :
    ∀ t, execBootRomChain a1 a2 b1 b2 hash0 version s = .next t → t.canonical = true := by
  intro t ht
  unfold execBootRomChain at ht
  simp only [Host.Outcome.next.injEq] at ht
  subst ht
  repeat' split
  all_goals simp (maxDischargeDepth := 99) +contextual [*]

theorem execFirmwareImageCheck_canonical (k4 : Fin 6) (k3 : Fin 6) (s : State) (h : s.canonical = true) :
    ∀ t, execFirmwareImageCheck k4 k3 s = .next t → t.canonical = true := by
  intro t ht
  unfold execFirmwareImageCheck at ht
  simp only [Host.Outcome.next.injEq] at ht
  subst ht
  repeat' split
  all_goals simp (maxDischargeDepth := 99) +contextual [*]

theorem execThermalTrip_canonical (s : State) (h : s.canonical = true) :
    ∀ t, execThermalTrip s = .next t → t.canonical = true := by
  intro t ht
  unfold execThermalTrip at ht
  simp only [Host.Outcome.next.injEq] at ht
  subst ht
  simp (maxDischargeDepth := 99) [h]

theorem execThermalRestart_canonical (s : State) (h : s.canonical = true) :
    ∀ t, execThermalRestart s = .next t → t.canonical = true := by
  intro t ht
  unfold execThermalRestart at ht
  simp only [Host.Outcome.next.injEq] at ht
  subst ht
  simp (maxDischargeDepth := 99) [h]

theorem execDieTempSample_canonical (die : Byte) (plate : Byte) (s : State) (h : s.canonical = true) :
    ∀ t, execDieTempSample die plate s = .next t → t.canonical = true := by
  intro t ht
  unfold execDieTempSample at ht
  simp only [Host.Outcome.next.injEq] at ht
  subst ht
  simp (maxDischargeDepth := 99) [h]

theorem execDormantPowerDown_canonical (s : State) (h : s.canonical = true) :
    ∀ t, execDormantPowerDown s = .next t → t.canonical = true := by
  intro t ht
  unfold execDormantPowerDown at ht
  simp only [Host.Outcome.next.injEq] at ht
  subst ht
  simp (maxDischargeDepth := 99) [h]

@[simp] theorem State.latchWake_canonical (s : State) (source : Nat) (h : s.canonical = true) :
    (State.latchWake s source).canonical = true := by
  simp (maxDischargeDepth := 99) [State.latchWake, h]

theorem execWakeNAssert_canonical (s : State) (h : s.canonical = true) :
    ∀ t, execWakeNAssert s = .next t → t.canonical = true := by
  intro t ht
  unfold execWakeNAssert at ht
  simp only [Host.Outcome.next.injEq] at ht
  subst ht
  simp (maxDischargeDepth := 99) [h]

theorem execPerstRisingEdge_canonical (port : Fin 2) (s : State) (h : s.canonical = true) :
    ∀ t, execPerstRisingEdge port s = .next t → t.canonical = true := by
  intro t ht
  unfold execPerstRisingEdge at ht
  simp only [Host.Outcome.next.injEq] at ht
  subst ht
  simp (maxDischargeDepth := 99) [h]

theorem execVmainWake_canonical (s : State) (h : s.canonical = true) :
    ∀ t, execVmainWake s = .next t → t.canonical = true := by
  intro t ht
  unfold execVmainWake at ht
  simp only [Host.Outcome.next.injEq] at ht
  subst ht
  repeat' split
  all_goals simp (maxDischargeDepth := 99) +contextual [*]

@[simp] theorem State.setGpio_canonical (s : State) (i : Nat) (op : Nat) (h : s.canonical = true) :
    (State.setGpio s i op).canonical = true := by
  simp (maxDischargeDepth := 99) [State.setGpio, h]

@[simp] theorem gpioRun_canonical (s : State) (o : Origin) (h : s.canonical = true) :
    (gpioRun s o).1.canonical = true := by
  unfold gpioRun
  try dsimp only
  repeat' split
  all_goals simp (maxDischargeDepth := 99) +contextual [*]

theorem specGpioSet_canonical : OpSpec.Canonical specGpioSet := by
  refine ⟨fun s o h => ?_, fun s o h => ?_⟩
  all_goals simp (maxDischargeDepth := 99) [specGpioSet, h]

@[simp] theorem State.gpioFrameStart_canonical (s : State) (h : s.canonical = true) :
    (State.gpioFrameStart s).canonical = true := by
  unfold State.gpioFrameStart
  try dsimp only
  repeat' first | with_reducible assumption | with_reducible refine ite_canonical ?_ ?_ | with_reducible refine each_canonical _ (fun _ _ _ => ?_) ?_ | with_reducible refine when_canonical _ (fun _ => ?_) ?_ | with_reducible refine State.barWrite_canonical _ _ ?_ (fun _ => ?_) | with_reducible refine State.barRead_canonical _ _ _ _ ?_ (fun _ => ?_) | with_reducible refine State.sealedWrite_canonical _ _ _ _ _ ?_ ?_ | split
  all_goals simp (maxDischargeDepth := 99) +contextual [*]

theorem specRecoveryLoad_canonical : OpSpec.Canonical specRecoveryLoad := by
  refine ⟨fun s o h => ?_, fun s o h => ?_⟩
  all_goals simp (maxDischargeDepth := 99) [specRecoveryLoad, h]

theorem execRecoveryLoadComplete_canonical (ring : Fin 34) (kind : Fin 5) (cause : Fin 6) (readBack : Bool) (image : List Byte) (s : State) (h : s.canonical = true) :
    ∀ t, execRecoveryLoadComplete ring kind cause readBack image s = .next t → t.canonical = true := by
  intro t ht
  unfold execRecoveryLoadComplete at ht
  simp only [Host.Outcome.next.injEq] at ht
  subst ht
  repeat' split
  all_goals simp (maxDischargeDepth := 99) +contextual [*]

theorem specWakeSet_canonical : OpSpec.Canonical specWakeSet := by
  refine ⟨fun s o h => ?_, fun s o h => ?_⟩
  all_goals simp (maxDischargeDepth := 99) [specWakeSet, h]

theorem specPowerQuery_canonical : OpSpec.Canonical specPowerQuery := by
  refine ⟨fun s o h => ?_, fun s o h => ?_⟩
  all_goals simp (maxDischargeDepth := 99) [specPowerQuery, h]

theorem execGpioSet_canonical (p : Packet) (s : State) (h : s.canonical = true) :
    ∀ t, execGpioSet p s = .next t → t.canonical = true :=
  packetStep_canonical _ _ _ (specGpioSet_canonical) h

theorem execGpioRelease_canonical (p : Packet) (s : State) (h : s.canonical = true) :
    ∀ t, execGpioRelease p s = .next t → t.canonical = true :=
  packetStep_canonical _ _ _ (specGpioSet_canonical) h

theorem execRecoveryLoad_canonical (p : Packet) (s : State) (h : s.canonical = true) :
    ∀ t, execRecoveryLoad p s = .next t → t.canonical = true :=
  packetStep_canonical _ _ _ (specRecoveryLoad_canonical) h

theorem execWakeSet_canonical (p : Packet) (s : State) (h : s.canonical = true) :
    ∀ t, execWakeSet p s = .next t → t.canonical = true :=
  packetStep_canonical _ _ _ (specWakeSet_canonical) h

theorem execPowerQuery_canonical (p : Packet) (s : State) (h : s.canonical = true) :
    ∀ t, execPowerQuery p s = .next t → t.canonical = true :=
  packetStep_canonical _ _ _ (specPowerQuery_canonical) h

end Sys2Proof.Machine
end

