-- ==== Sys2Proof/Laws/CanonicalResets.lean ====
section
/-! SUPPORT. The canonical form through the operations of Machine/Resets.lean. -/
namespace Sys2Proof.Machine

@[simp] theorem State.warmField_canonical (s : State) (x : FieldInfo) (h : s.canonical = true) :
    (State.warmField s x).canonical = true := by
  unfold State.warmField
  try dsimp only
  repeat' split
  all_goals simp (maxDischargeDepth := 99) +contextual [*]

@[simp] theorem State.warmRegisters_canonical (s : State) (h : s.canonical = true) :
    (State.warmRegisters s).canonical = true := by
  unfold State.warmRegisters
  try dsimp only
  repeat' first | with_reducible assumption | with_reducible refine ite_canonical ?_ ?_ | with_reducible refine each_canonical _ (fun _ _ _ => ?_) ?_ | with_reducible refine when_canonical _ (fun _ => ?_) ?_ | with_reducible refine State.barWrite_canonical _ _ ?_ (fun _ => ?_) | with_reducible refine State.barRead_canonical _ _ _ _ ?_ (fun _ => ?_) | with_reducible refine State.sealedWrite_canonical _ _ _ _ _ ?_ ?_ | split
  all_goals simp (maxDischargeDepth := 99) +contextual [*]

@[simp] theorem State.dropInternal_canonical (s : State) (r : Nat) (h : s.canonical = true) :
    (State.dropInternal s r).canonical = true := by
  simp (maxDischargeDepth := 99) [State.dropInternal, h]

@[simp] theorem State.releaseAll_canonical (s : State) (h : s.canonical = true) :
    (State.releaseAll s).canonical = true := by
  simp (maxDischargeDepth := 99) +contextual [State.releaseAll, h]

@[simp] theorem State.beginWarm_canonical (s : State) (code : Nat) (h : s.canonical = true) :
    (State.beginWarm s code).canonical = true := by
  simp (maxDischargeDepth := 99) +contextual [State.beginWarm, h]

@[simp] theorem State.warmSource_canonical (s : State) (code : Nat) (h : s.canonical = true) :
    (State.warmSource s code).canonical = true := by
  unfold State.warmSource
  try dsimp only
  repeat' split
  all_goals simp (maxDischargeDepth := 99) +contextual [*]

@[simp] theorem State.supervisorReset_canonical (s : State) (h : s.canonical = true) :
    (State.supervisorReset s).canonical = true := by
  unfold State.supervisorReset
  try dsimp only
  repeat' split
  all_goals simp (maxDischargeDepth := 99) +contextual [*]

theorem execWarmResetReady_canonical (k3 : Fin 6) (s : State) (h : s.canonical = true) :
    ∀ t, execWarmResetReady k3 s = .next t → t.canonical = true := by
  intro t ht
  unfold execWarmResetReady at ht
  simp only [Host.Outcome.next.injEq] at ht
  subst ht
  repeat' split
  all_goals simp (maxDischargeDepth := 99) +contextual [*]

@[simp] theorem State.warmFrameStart_canonical (s : State) (h : s.canonical = true) :
    (State.warmFrameStart s).canonical = true := by
  unfold State.warmFrameStart
  try dsimp only
  repeat' split
  all_goals simp (maxDischargeDepth := 99) +contextual [*]

theorem execResetNAssert_canonical (s : State) (h : s.canonical = true) :
    ∀ t, execResetNAssert s = .next t → t.canonical = true := by
  intro t ht
  unfold execResetNAssert at ht
  simp only [Host.Outcome.next.injEq] at ht
  subst ht
  simp (maxDischargeDepth := 99) [h]

theorem execWarmNAssert_canonical (s : State) (h : s.canonical = true) :
    ∀ t, execWarmNAssert s = .next t → t.canonical = true := by
  intro t ht
  unfold execWarmNAssert at ht
  simp only [Host.Outcome.next.injEq] at ht
  subst ht
  simp (maxDischargeDepth := 99) [h]

theorem execSupvWdExpired_canonical (s : State) (h : s.canonical = true) :
    ∀ t, execSupvWdExpired s = .next t → t.canonical = true := by
  intro t ht
  unfold execSupvWdExpired at ht
  simp only [Host.Outcome.next.injEq] at ht
  subst ht
  simp (maxDischargeDepth := 99) [h]

theorem execLockstepResetDelay_canonical (s : State) (h : s.canonical = true) :
    ∀ t, execLockstepResetDelay s = .next t → t.canonical = true := by
  intro t ht
  unfold execLockstepResetDelay at ht
  simp only [Host.Outcome.next.injEq] at ht
  subst ht
  simp (maxDischargeDepth := 99) [h]

theorem execSysCcKickWrite_canonical (who : Requester) (value : W32) (s : State) (h : s.canonical = true) :
    ∀ t, execSysCcKickWrite who value s = .next t → t.canonical = true := by
  intro t ht
  unfold execSysCcKickWrite at ht
  simp only [Host.Outcome.next.injEq] at ht
  subst ht
  simp (maxDischargeDepth := 99) [h]

theorem execCcWatchdogExpiry_canonical (s : State) (h : s.canonical = true) :
    ∀ t, execCcWatchdogExpiry s = .next t → t.canonical = true := by
  intro t ht
  unfold execCcWatchdogExpiry at ht
  simp only [Host.Outcome.next.injEq] at ht
  subst ht
  simp (maxDischargeDepth := 99) [h]

@[simp] theorem State.resetCommand_canonical (s : State) (who : Requester) (key : Nat) (kind : Nat) (h : s.canonical = true) :
    (State.resetCommand s who key kind).canonical = true := by
  simp (maxDischargeDepth := 99) [State.resetCommand, h]

theorem execResetCmdWarm_canonical (who : Requester) (key : Byte) (s : State) (h : s.canonical = true) :
    ∀ t, execResetCmdWarm who key s = .next t → t.canonical = true := by
  intro t ht
  unfold execResetCmdWarm at ht
  simp only [Host.Outcome.next.injEq] at ht
  subst ht
  simp (maxDischargeDepth := 99) [h]

theorem execResetCmdCold_canonical (who : Requester) (key : Byte) (s : State) (h : s.canonical = true) :
    ∀ t, execResetCmdCold who key s = .next t → t.canonical = true := by
  intro t ht
  unfold execResetCmdCold at ht
  simp only [Host.Outcome.next.injEq] at ht
  subst ht
  simp (maxDischargeDepth := 99) [h]

theorem specModuleReset_canonical : OpSpec.Canonical specModuleReset := by
  refine ⟨fun s o h => ?_, fun s o h => ?_⟩
  all_goals simp (maxDischargeDepth := 99) [specModuleReset, h]

theorem execModuleResetWarm_canonical (p : Packet) (s : State) (h : s.canonical = true) :
    ∀ t, execModuleResetWarm p s = .next t → t.canonical = true :=
  packetStep_canonical _ _ _ (specModuleReset_canonical) h

theorem execModuleResetCold_canonical (p : Packet) (s : State) (h : s.canonical = true) :
    ∀ t, execModuleResetCold p s = .next t → t.canonical = true :=
  packetStep_canonical _ _ _ (specModuleReset_canonical) h

end Sys2Proof.Machine
end

