-- ==== Sys2Proof/Laws/CanonicalRaster.lean ====
section
/-! SUPPORT. The canonical form through the operations of Machine/Raster.lean. -/
namespace Sys2Proof.Machine

@[simp] theorem State.askRaster_canonical (s : State) (r : RasterReq) (h : s.canonical = true) :
    (State.askRaster s r).canonical = true := by
  simp (maxDischargeDepth := 99) [State.askRaster, h]

theorem specRasterSet_canonical : OpSpec.Canonical specRasterSet := by
  refine ⟨fun s o h => ?_, fun s o h => ?_⟩
  all_goals simp (maxDischargeDepth := 99) [specRasterSet, h]

theorem execRasterSet_canonical (p : Packet) (s : State) (h : s.canonical = true) :
    ∀ t, execRasterSet p s = .next t → t.canonical = true :=
  packetStep_canonical _ _ _ (specRasterSet_canonical) h

@[simp] theorem State.stageWall_canonical (s : State) (r : Reg) (value : Nat) (h : s.canonical = true) :
    (State.stageWall s r value).canonical = true := by
  simp (maxDischargeDepth := 99) [State.stageWall, h]

@[simp] theorem State.applyStagedWall_canonical (s : State) (h : s.canonical = true) :
    (State.applyStagedWall s).canonical = true := by
  simp (maxDischargeDepth := 99) [State.applyStagedWall, h]

theorem execWallApplyWrite_canonical (who : Requester) (value : W32) (s : State) (h : s.canonical = true) :
    ∀ t, execWallApplyWrite who value s = .next t → t.canonical = true := by
  intro t ht
  unfold execWallApplyWrite at ht
  simp only [Host.Outcome.next.injEq] at ht
  subst ht
  repeat' split
  all_goals simp (maxDischargeDepth := 99) +contextual [*]

end Sys2Proof.Machine
end

