-- ==== Sys2Proof/Laws/CanonicalTime.lean ====
section
/-! SUPPORT. The canonical form through the operations of Machine/Time.lean. -/
namespace Sys2Proof.Machine

theorem memberSpecs_canonical : ∀ x ∈ memberSpecs, x.Canonical := by
  intro x hx
  simp only [memberSpecs, List.cons_append, List.nil_append, List.mem_cons, List.not_mem_nil, or_false] at hx
  rcases hx with rfl | rfl | rfl | rfl | rfl | rfl | rfl | rfl | rfl | rfl | rfl | rfl | rfl | rfl | rfl | rfl | rfl | rfl
    | rfl | rfl | rfl | rfl | rfl | rfl | rfl | rfl | rfl | rfl | rfl | rfl | rfl | rfl | rfl | rfl | rfl
  · exact specCaravanTime_canonical
  · exact specCaravanFence_canonical
  · exact specCaravanEnd_canonical
  · exact specHeadShow_canonical
  · exact specHeadOutputSet_canonical
  · exact specHeadGammaSet_canonical
  · exact specLayerSet_canonical
  · exact specLayerAddr_canonical
  · exact specLayerColour_canonical
  · exact specWbSet_canonical
  · exact specGuardSet_canonical
  · exact specFreshTime_canonical
  · exact specRectSet_canonical
  · exact specRectExpect_canonical
  · exact specEmberSet_canonical
  · exact specEmberPalette_canonical
  · exact specEmberExpect_canonical
  · exact specIntegCfg_canonical
  · exact specDeadlineSet_canonical
  · exact specCompSet_canonical
  · exact specCompTime_canonical
  · exact specTouchSet_canonical
  · exact specZoneSet_canonical
  · exact specPickSet_canonical
  · exact specPickScene_canonical
  · exact specPickClasses_canonical
  · exact specHapChannelSet_canonical
  · exact specHapEffectSet_canonical
  · exact specRouteSet_canonical
  · exact specBusSet_canonical
  · exact specEqSet_canonical
  · exact specSinkSet_canonical
  · exact specStreamSet_canonical
  · exact specToneSet_canonical
  · exact specTonePlay_canonical

/-- Every opcode that a caravan carries keeps the canonical form. -/
theorem memberSpec_canonical : SpecTable.Canonical memberSpec := fun _ x hx =>
  memberSpecs_canonical x (List.mem_of_find?_eq_some hx)

theorem execCaravanValidationDone_canonical (ring : Fin 34) (id : W32) (s : State) (h : s.canonical = true) :
    ∀ t, execCaravanValidationDone ring id s = .next t → t.canonical = true := by
  intro t ht
  simp only [execCaravanValidationDone, Host.Outcome.next.injEq] at ht
  subst ht
  exact State.validated_canonical _ _ _ _ h

@[simp] theorem State.closeFrame_canonical (s : State) (h : s.canonical = true) :
    (State.closeFrame s).canonical = true := by
  simp (maxDischargeDepth := 99) +contextual [State.closeFrame, h]

@[simp] theorem State.openFrame_canonical (s : State) (h : s.canonical = true) :
    (State.openFrame s).canonical = true := by
  simp (maxDischargeDepth := 99) [State.openFrame, h]

@[simp] theorem State.frameStart_canonical (s : State) (h : s.canonical = true) : s.frameStart.canonical = true := by
  unfold State.frameStart
  have h1 := State.armCaravans_canonical _ _ memberSpec_canonical (State.openFrame_canonical _ (State.closeFrame_canonical _ h))
  simp (maxDischargeDepth := 99) [h1]

@[simp] theorem State.latchDue_canonical (s : State) (n : Nat) (h : s.canonical = true) :
    (State.latchDue s n).canonical = true := by
  simp (maxDischargeDepth := 99) [State.latchDue, h]

@[simp] theorem State.compDue_canonical (s : State) (n : Nat) (h : s.canonical = true) :
    (State.compDue s n).canonical = true := by
  simp (maxDischargeDepth := 99) [State.compDue, h]

@[simp] theorem State.headDue_canonical (s : State) (n : Nat) (h : s.canonical = true) :
    (State.headDue s n).canonical = true := by
  unfold State.headDue
  try dsimp only
  repeat' split
  all_goals simp (maxDischargeDepth := 99) +contextual [*]

@[simp] theorem State.teDue_canonical (s : State) (p : Nat) (h : s.canonical = true) :
    (State.teDue s p).canonical = true := by
  simp (maxDischargeDepth := 99) [State.teDue, h]

@[simp] theorem State.mirageDue_canonical (s : State) (m : Nat) (h : s.canonical = true) :
    (State.mirageDue s m).canonical = true := by
  simp (maxDischargeDepth := 99) [State.mirageDue, h]

@[simp] theorem State.lineDue_canonical (s : State) (h : s.canonical = true) :
    (State.lineDue s).canonical = true := by
  simp (maxDischargeDepth := 99) [State.lineDue, h]

@[simp] theorem State.grainStart_canonical (s : State) (h : s.canonical = true) :
    (State.grainStart s).canonical = true := by
  simp (maxDischargeDepth := 99) +contextual [State.grainStart, h]

@[simp] theorem State.checksDue_canonical (s : State) (h : s.canonical = true) :
    (State.checksDue s).canonical = true := by
  simp (maxDischargeDepth := 99) +contextual [State.checksDue, h]

@[simp] theorem State.grainEnd_canonical (s : State) (h : s.canonical = true) :
    (State.grainEnd s).canonical = true := by
  simp (maxDischargeDepth := 99) [State.grainEnd, h]

@[simp] theorem State.tick_canonical (s : State) (h : s.canonical = true) :
    (State.tick s).canonical = true := by
  simp (maxDischargeDepth := 99) [State.tick, h]

@[simp] theorem State.advance_canonical (n : Nat) (s : State) (h : s.canonical = true) : (State.advance n s).canonical = true := by
  induction n generalizing s with
  | zero => exact h
  | succ n ih => exact ih _ (State.tick_canonical _ h)

@[simp] theorem State.advanceTo_canonical (s : State) (tt : Stamp) (h : s.canonical = true) :
    (State.advanceTo s tt).canonical = true := by
  simp (maxDischargeDepth := 99) [State.advanceTo, h]

theorem execMasterFrameStart_canonical (s : State) (h : s.canonical = true) :
    ∀ t, execMasterFrameStart s = .next t → t.canonical = true := by
  intro t ht
  unfold execMasterFrameStart at ht
  simp only [Host.Outcome.next.injEq] at ht
  subst ht
  simp (maxDischargeDepth := 99) [h]

theorem execWarmResetComplete_canonical (s : State) (h : s.canonical = true) :
    ∀ t, execWarmResetComplete s = .next t → t.canonical = true := by
  intro t ht
  unfold execWarmResetComplete at ht
  simp only [Host.Outcome.next.injEq] at ht
  subst ht
  simp (maxDischargeDepth := 99) [h]

theorem execHeadLatch_canonical (head : Fin 8) (s : State) (h : s.canonical = true) :
    ∀ t, execHeadLatch head s = .next t → t.canonical = true := by
  intro t ht
  unfold execHeadLatch at ht
  simp only [Host.Outcome.next.injEq] at ht
  subst ht
  simp (maxDischargeDepth := 99) [h]

theorem execHeadFrameStart_canonical (head : Fin 8) (s : State) (h : s.canonical = true) :
    ∀ t, execHeadFrameStart head s = .next t → t.canonical = true := by
  intro t ht
  unfold execHeadFrameStart at ht
  simp only [Host.Outcome.next.injEq] at ht
  subst ht
  repeat' split
  all_goals simp (maxDischargeDepth := 99) +contextual [*]

theorem execTeTimeout_canonical (port : Fin 8) (s : State) (h : s.canonical = true) :
    ∀ t, execTeTimeout port s = .next t → t.canonical = true := by
  intro t ht
  unfold execTeTimeout at ht
  simp only [Host.Outcome.next.injEq] at ht
  subst ht
  simp (maxDischargeDepth := 99) [h]

theorem execCompJobReady_canonical (head : Fin 8) (s : State) (h : s.canonical = true) :
    ∀ t, execCompJobReady head s = .next t → t.canonical = true := by
  intro t ht
  unfold execCompJobReady at ht
  simp only [Host.Outcome.next.injEq] at ht
  subst ht
  simp (maxDischargeDepth := 99) [h]

theorem execCompWarn_canonical (head : Fin 8) (s : State) (h : s.canonical = true) :
    ∀ t, execCompWarn head s = .next t → t.canonical = true := by
  intro t ht
  unfold execCompWarn at ht
  simp only [Host.Outcome.next.injEq] at ht
  subst ht
  simp (maxDischargeDepth := 99) [h]

theorem execCompDeadline_canonical (head : Fin 8) (s : State) (h : s.canonical = true) :
    ∀ t, execCompDeadline head s = .next t → t.canonical = true := by
  intro t ht
  unfold execCompDeadline at ht
  simp only [Host.Outcome.next.injEq] at ht
  subst ht
  simp (maxDischargeDepth := 99) [h]

theorem execFreqChangeLine_canonical (s : State) (h : s.canonical = true) :
    ∀ t, execFreqChangeLine s = .next t → t.canonical = true := by
  intro t ht
  unfold execFreqChangeLine at ht
  simp only [Host.Outcome.next.injEq] at ht
  subst ht
  simp (maxDischargeDepth := 99) [h]

theorem execMirageEvaluation_canonical (pipe : Fin 48) (s : State) (h : s.canonical = true) :
    ∀ t, execMirageEvaluation pipe s = .next t → t.canonical = true := by
  intro t ht
  unfold execMirageEvaluation at ht
  simp only [Host.Outcome.next.injEq] at ht
  subst ht
  simp (maxDischargeDepth := 99) [h]

theorem execLayerFirstLine_canonical (pipe : Fin 48) (ready : Bool) (s : State) (h : s.canonical = true) :
    ∀ t, execLayerFirstLine pipe ready s = .next t → t.canonical = true := by
  intro t ht
  unfold execLayerFirstLine at ht
  simp only [Host.Outcome.next.injEq] at ht
  subst ht
  simp (maxDischargeDepth := 99) [h]

theorem execC0CheckComplete_canonical (head : Fin 8) (plane : Fin 2) (err : W32) (s : State) (h : s.canonical = true) :
    ∀ t, execC0CheckComplete head plane err s = .next t → t.canonical = true := by
  intro t ht
  unfold execC0CheckComplete at ht
  simp only [Host.Outcome.next.injEq] at ht
  subst ht
  simp (maxDischargeDepth := 99) [h]

theorem execHeadVerdict_canonical (head : Fin 8) (pin : List W32) (tap : List W32) (spare : List W32) (lost : Bool) (s : State) (h : s.canonical = true) :
    ∀ t, execHeadVerdict head pin tap spare lost s = .next t → t.canonical = true := by
  intro t ht
  unfold execHeadVerdict at ht
  simp only [Host.Outcome.next.injEq] at ht
  subst ht
  simp (maxDischargeDepth := 99) [h]

theorem execTouchWindowEnd_canonical (port : Fin 4) (slot : Fin 8) (raw : List W16) (clipped : BitVec 112) (monitor : List W16) (s : State) (h : s.canonical = true) :
    ∀ t, execTouchWindowEnd port slot raw clipped monitor s = .next t → t.canonical = true := by
  intro t ht
  unfold execTouchWindowEnd at ht
  simp only [Host.Outcome.next.injEq] at ht
  subst ht
  simp (maxDischargeDepth := 99) [h]

theorem execAudioSample_canonical (line0 : BitVec 24) (line1 : BitVec 24) (tdm : List (BitVec 24)) (limited : Byte) (s : State) (h : s.canonical = true) :
    ∀ t, execAudioSample line0 line1 tdm limited s = .next t → t.canonical = true := by
  intro t ht
  unfold execAudioSample at ht
  simp only [Host.Outcome.next.injEq] at ht
  subst ht
  simp (maxDischargeDepth := 99) [h]

end Sys2Proof.Machine
end

