-- ==== Sys2Proof/Laws/CanonicalBus.lean ====
section
/-! SUPPORT. The canonical form through the operations of Machine/Bus.lean. -/
namespace Sys2Proof.Machine

/-- Every outcome of a command is canonical, if it is a next state. -/
def Canonically (o : Host.Outcome State Fault Refusal) : Prop := ∀ t, o = .next t → t.canonical = true

theorem canonically_next {s : State} (h : s.canonical = true) : Canonically (.next s) := by
  intro t ht; cases ht; exact h

/-- The same of an optional outcome. -/
def MaybeCanonically (x : Option (Host.Outcome State Fault Refusal)) : Prop := ∀ o, x = some o → Canonically o

theorem maybe_none : MaybeCanonically none := by intro o ho; simp at ho
theorem maybe_some {o : Host.Outcome State Fault Refusal} (h : Canonically o) : MaybeCanonically (some o) :=
  fun _ ho => Option.some.inj ho ▸ h
theorem maybe_ite {c : Prop} [Decidable c] {x y : Option (Host.Outcome State Fault Refusal)} (hx : MaybeCanonically x)
    (hy : MaybeCanonically y) : MaybeCanonically (if c then x else y) := by split <;> assumption

theorem readRow_canonically (a : Access) (s : State) (h : s.canonical = true) : MaybeCanonically (readRow a s) := by
  unfold readRow
  dsimp only
  split
  · exact maybe_ite (maybe_some (execLockRead_canonical _ _ _ h)) maybe_none
  · refine maybe_ite maybe_none (maybe_ite ?_ (maybe_ite ?_ (maybe_ite ?_ (maybe_ite ?_ maybe_none))))
    · exact maybe_some (execWallNowRead_canonical _ _ h)
    · exact maybe_some (execAudNowRead_canonical _ _ h)
    · exact maybe_some (execQueueRead_canonical _ _ _ _ h)
    · exact maybe_some (execLockRead_canonical _ _ _ h)

theorem hostWriteRow_canonically (f : Fin 32) (x v : Nat) (s : State) (h : s.canonical = true) :
    MaybeCanonically (hostWriteRow f x v s) := by
  unfold hostWriteRow
  dsimp only
  refine maybe_ite (maybe_some (execFnHeartbeatWrite_canonical _ _ _ h))
    (maybe_ite (maybe_some (execFnDoorbellWrite_canonical _ _ _ h)) (maybe_ite ?_ maybe_none))
  exact maybe_ite (maybe_some (execMailboxPop_canonical _ _ _ _ h)) (maybe_ite (maybe_some (execMailboxPost_canonical _ _ _ _ h))
    (maybe_ite (maybe_some (execLockReleaseWrite_canonical _ _ _ h)) maybe_none))

theorem coreWriteRow_canonically (who : Requester) (x v : Nat) (s : State) (h : s.canonical = true) :
    MaybeCanonically (coreWriteRow who x v s) := by
  unfold coreWriteRow
  dsimp only
  refine maybe_ite (maybe_some (execWallApplyWrite_canonical _ _ _ h)) ?_
  refine maybe_ite (maybe_some (execInternalRingEnableWrite_canonical _ _ _ _ _ h)) ?_
  refine maybe_ite (maybe_some (execInternalRingEnableWrite_canonical _ _ _ _ _ h)) ?_
  refine maybe_ite (maybe_some (execInternalRingEnableWrite_canonical _ _ _ _ _ h)) ?_
  refine maybe_ite (maybe_some (execInternalRingEnableWrite_canonical _ _ _ _ _ h)) ?_
  refine maybe_ite (maybe_some (execEvtRingEnableWrite_canonical _ _ _ _ h)) ?_
  refine maybe_ite (maybe_some (execEvtRingEnableWrite_canonical _ _ _ _ h)) ?_
  refine maybe_ite (maybe_some (execMailboxPost_canonical _ _ _ _ h)) ?_
  refine maybe_ite (maybe_some (execMailboxPop_canonical _ _ _ _ h)) ?_
  refine maybe_ite (maybe_some (execLockReleaseWrite_canonical _ _ _ h)) ?_
  refine maybe_ite (maybe_some (execSupvKickWrite_canonical _ _ _ h)) ?_
  refine maybe_ite (maybe_some (execPeatWrapWrite_canonical _ _ _ h)) ?_
  refine maybe_ite (maybe_some ?_) ?_
  · split
    · exact execCpcClockStop_canonical _ _ _ h
    · exact execCpcClockRun_canonical _ _ _ h
    · exact execCpcPowerOff_canonical _ _ _ h
    · exact execCpcPowerOn_canonical _ _ _ h
  refine maybe_ite (maybe_some (execCuDirectGo_canonical _ _ _ _ h)) ?_
  refine maybe_ite (maybe_some (execHeadEnWrite_canonical _ _ _ _ h)) ?_
  refine maybe_ite (maybe_some (execHeadWallArmWrite_canonical _ _ _ h)) ?_
  refine maybe_ite (maybe_some (execQtailWrite_canonical _ _ _ _ h)) ?_
  refine maybe_ite (maybe_some (execFchgGoWrite_canonical _ _ _ h)) ?_
  refine maybe_ite (maybe_some (execSysCcKickWrite_canonical _ _ _ h)) ?_
  refine maybe_ite (maybe_some (execResetCmdWarm_canonical _ _ _ h)) ?_
  exact maybe_ite (maybe_some (execResetCmdCold_canonical _ _ _ h)) maybe_none

@[simp] theorem State.readDone_canonical (s : State) (p : Part) (h : s.canonical = true) : (s.readDone p).canonical = true := by
  unfold State.readDone
  dsimp only
  have h1 := when_canonical (p.hit.info.reg.addr == sysGpio.addr) (fun _ => State.freeUsed_canonical s h) h
  refine ite_canonical h1 (foldl_canonical _ (fun t f ht => ?_) h1)
  exact ite_canonical (State.put_canonical _ _ _ ht) ht

theorem readAt_canonical (s : State) (a n : Nat) (h : s.canonical = true) (r : State × Nat) (hr : s.readAt a n = some r) :
    r.1.canonical = true := by
  have hd (l : List Part) : (l.foldl State.readDone s).canonical = true := by
    refine foldl_canonical l (fun t p ht => ?_) h
    exact State.readDone_canonical t p ht
  unfold State.readAt at hr
  dsimp only at hr
  repeat' split at hr
  all_goals first
    | (cases hr; done)
    | (cases hr; exact h)
    | (cases hp : partsOf a n <;> rw [hp] at hr <;> simp only [Option.map_none, Option.map_some, Option.some.injEq, reduceCtorEq] at hr
       subst hr; exact hd _)

@[simp] theorem State.writeGpio_canonical (s : State) (new : Nat) (h : s.canonical = true) :
    (State.writeGpio s new).canonical = true := by
  simp (maxDischargeDepth := 99) +contextual [State.writeGpio, h]

@[simp] theorem State.ctxWritten_canonical (s : State) (c : Nat) (h : s.canonical = true) :
    (State.ctxWritten s c).canonical = true := by
  simp (maxDischargeDepth := 99) [State.ctxWritten, h]

@[simp] theorem State.afterWrite_canonical (s : State) (xx : Hit) (old : Nat) (h : s.canonical = true) :
    (State.afterWrite s xx old).canonical = true := by
  unfold State.afterWrite
  try dsimp only
  repeat' split
  all_goals simp (maxDischargeDepth := 99) +contextual [*]

@[simp] theorem State.storeReg_canonical (s : State) (xx : Hit) (new : Nat) (h : s.canonical = true) :
    (State.storeReg s xx new).canonical = true := by
  unfold State.storeReg
  try dsimp only
  repeat' split
  all_goals simp (maxDischargeDepth := 99) +contextual [*]

@[simp] theorem State.accessMemory_canonical (s : State) (who : Requester) (a n : Nat) (write : Bool) (effect : State → State)
    (h : s.canonical = true) (he : (effect s).canonical = true) : (s.accessMemory who a n write effect).canonical = true := by
  unfold State.accessMemory
  exact ite_canonical (State.emit_canonical _ _ h)
    (ite_canonical (State.violation_canonical _ _ _ _ (State.emit_canonical _ _ h)) he)

@[simp] theorem State.busRead_canonical (s : State) (who : Requester) (a n : Nat) (h : s.canonical = true) :
    (s.busRead who a n).canonical = true := by
  unfold State.busRead
  dsimp only
  refine ite_canonical (State.emit_canonical _ _ h) (ite_canonical ?_ (ite_canonical (State.emit_canonical _ _ h)
    (ite_canonical (State.refuseRead_canonical _ _ _ h) ?_)))
  · exact State.accessMemory_canonical _ _ _ _ _ _ h (State.emit_canonical _ _ h)
  · cases hb : (bankAddr who a).bind fun b => s.readAt b n with
    | none => exact State.emit_canonical _ _ h
    | some r =>
      obtain ⟨b, _, hr⟩ := Option.bind_eq_some_iff.mp hb
      exact State.emit_canonical _ _ (readAt_canonical s b n h r hr)

@[simp] theorem State.hostRead_canonical (s : State) (f off n : Nat) (h : s.canonical = true) :
    (s.hostRead f off n).canonical = true := by
  unfold State.hostRead
  dsimp only
  refine ite_canonical h (State.barRead_canonical _ _ _ _ h fun _ => ?_)
  cases s.hostAddr f off with
  | none => exact State.emit_canonical _ _ h
  | some b =>
    dsimp only
    cases hr : s.readAt b n with
    | none => exact State.emit_canonical _ _ h
    | some r => exact State.emit_canonical _ _ (readAt_canonical s b n h r hr)

theorem execRegisterRead_canonical (a : Access) (s : State) (h : s.canonical = true) :
    ∀ t, execRegisterRead a s = .next t → t.canonical = true := by
  unfold execRegisterRead
  split
  · rename_i o ho; exact readRow_canonically a s h o ho
  · refine canonically_next ?_
    split
    · exact State.hostRead_canonical _ _ _ _ h
    · exact State.busRead_canonical _ _ _ _ h

@[simp] theorem State.writeParts_canonical (s : State) (who : Requester) (a : Nat) (v : Nat) (ps : List Part) (h : s.canonical = true) :
    (State.writeParts s who a v ps).canonical = true := by
  unfold State.writeParts
  try dsimp only
  repeat' split
  all_goals simp (maxDischargeDepth := 99) +contextual [*]

@[simp] theorem State.busWrite_canonical (s : State) (who : Requester) (a : Nat) (n : Nat) (v : Nat) (h : s.canonical = true) :
    (State.busWrite s who a n v).canonical = true := by
  unfold State.busWrite
  try dsimp only
  repeat' split
  all_goals simp (maxDischargeDepth := 99) +contextual [*]

@[simp] theorem State.hostWrite_canonical (s : State) (f : Nat) (off : Nat) (n : Nat) (v : Nat) (h : s.canonical = true) :
    (State.hostWrite s f off n v).canonical = true := by
  unfold State.hostWrite
  try dsimp only
  repeat' first | with_reducible assumption | with_reducible refine ite_canonical ?_ ?_ | with_reducible refine each_canonical _ (fun _ _ _ => ?_) ?_ | with_reducible refine when_canonical _ (fun _ => ?_) ?_ | with_reducible refine State.barWrite_canonical _ _ ?_ (fun _ => ?_) | with_reducible refine State.barRead_canonical _ _ _ _ ?_ (fun _ => ?_) | with_reducible refine State.sealedWrite_canonical _ _ _ _ _ ?_ ?_ | split
  all_goals simp (maxDischargeDepth := 99) +contextual [*]

@[simp] theorem State.internalBell_canonical (s : State) (who : Requester) (w v : Nat) (h : s.canonical = true) :
    (s.internalBell who w v).canonical = true := by
  simp (maxDischargeDepth := 99) [State.internalBell, h]

theorem writeRow_canonically (a : Access) (value : W64) (s : State) (h : s.canonical = true) :
    MaybeCanonically (writeRow a value s) := by
  unfold writeRow
  dsimp only
  split
  · exact hostWriteRow_canonically _ _ _ _ h
  · exact maybe_none
  · refine maybe_ite (maybe_some (canonically_next (State.internalBell_canonical _ _ _ _ h))) ?_
    refine maybe_ite (maybe_some (canonically_next (State.internalBell_canonical _ _ _ _ h))) ?_
    refine maybe_ite (maybe_some (execSwrstWrite_canonical _ _ _ h)) ?_
    refine maybe_ite (maybe_some (execSwrstWrite_canonical _ _ _ h)) ?_
    exact maybe_ite (maybe_some (execQueueItemWrite_canonical _ _ _ _ h)) (coreWriteRow_canonically _ _ _ _ h)
  · refine maybe_ite (maybe_some (execSwrstWrite_canonical _ _ _ h)) ?_
    exact maybe_ite (maybe_some (execQueueItemWrite_canonical _ _ _ _ h)) maybe_none
  · exact maybe_none

theorem execRegisterWrite_canonical (a : Access) (value : W64) (s : State) (h : s.canonical = true) :
    ∀ t, execRegisterWrite a value s = .next t → t.canonical = true := by
  unfold execRegisterWrite
  split
  · rename_i o ho; exact writeRow_canonically a value s h o ho
  · refine canonically_next ?_
    split
    · exact State.hostWrite_canonical _ _ _ _ _ h
    · exact State.busWrite_canonical _ _ _ _ _ h

end Sys2Proof.Machine
end

