-- ==== Sys2Proof/Laws/Registers.lean ====
section
/-! SUPPORT. Laws of registers: what a field reads as after a write, and which fields a write leaves as they were. -/
namespace Sys2Proof.Machine

/-! ### Fields of a number -/

theorem setField_read {old lsb w v : Nat} : setField old lsb w v / 2 ^ lsb % 2 ^ w = v % 2 ^ w := by
  have h : setField old lsb w v = (old / 2 ^ (lsb + w) * 2 ^ w + v % 2 ^ w) * 2 ^ lsb + old % 2 ^ lsb := by
    unfold setField; rw [pow_add]; ring
  rw [h, Nat.add_comm, Nat.add_mul_div_right _ _ (by positivity), Nat.div_eq_of_lt (Nat.mod_lt _ (by positivity)),
    Nat.zero_add, Nat.add_comm, Nat.add_mul_mod_self_right, Nat.mod_mod]

theorem setField_low {old lsb w v : Nat} : setField old lsb w v % 2 ^ lsb = old % 2 ^ lsb := by
  have h : setField old lsb w v = (old / 2 ^ (lsb + w) * 2 ^ w + v % 2 ^ w) * 2 ^ lsb + old % 2 ^ lsb := by
    unfold setField; rw [pow_add]; ring
  rw [h, Nat.add_comm, Nat.add_mul_mod_self_right, Nat.mod_mod]

theorem setField_high {old lsb w v : Nat} : setField old lsb w v / 2 ^ (lsb + w) = old / 2 ^ (lsb + w) := by
  have hb : v % 2 ^ w * 2 ^ lsb + old % 2 ^ lsb < 2 ^ (lsb + w) := by
    have h1 : v % 2 ^ w + 1 ≤ 2 ^ w := Nat.mod_lt _ (by positivity)
    have h2 : old % 2 ^ lsb < 2 ^ lsb := Nat.mod_lt _ (by positivity)
    have h3 : (v % 2 ^ w + 1) * 2 ^ lsb ≤ 2 ^ w * 2 ^ lsb := Nat.mul_le_mul_right _ h1
    rw [pow_add, Nat.mul_comm (2 ^ lsb)]
    have h4 : (v % 2 ^ w + 1) * 2 ^ lsb = v % 2 ^ w * 2 ^ lsb + 2 ^ lsb := by ring
    omega
  have h : setField old lsb w v = v % 2 ^ w * 2 ^ lsb + old % 2 ^ lsb + old / 2 ^ (lsb + w) * 2 ^ (lsb + w) := by
    unfold setField; ring
  rw [h, Nat.add_mul_div_right _ _ (by positivity), Nat.div_eq_of_lt hb, Nat.zero_add]

theorem setField_lt {old lsb w v : Nat} (h : old < 2 ^ 64) (hf : lsb + w ≤ 64) : setField old lsb w v < 2 ^ 64 := by
  have h1 : setField old lsb w v / 2 ^ (lsb + w) < 2 ^ (64 - (lsb + w)) := by
    rw [setField_high, Nat.div_lt_iff_lt_mul (by positivity), ← pow_add, Nat.sub_add_cancel hf]; exact h
  rwa [Nat.div_lt_iff_lt_mul (by positivity), ← pow_add, Nat.sub_add_cancel hf] at h1

/-- Bits below a field, or above it, are as before. -/
theorem setField_apart {old lsb w v l k : Nat} (h : l + k ≤ lsb ∨ lsb + w ≤ l) :
    setField old lsb w v / 2 ^ l % 2 ^ k = old / 2 ^ l % 2 ^ k := by
  rcases h with h | h
  · have e (x : Nat) : x / 2 ^ l % 2 ^ k = x % 2 ^ lsb / 2 ^ l % 2 ^ k := by
      obtain ⟨d, rfl⟩ := Nat.exists_eq_add_of_le h
      rw [show l + k + d = l + (k + d) by ring, Nat.pow_add 2 l, Nat.mod_mul_right_div_self, pow_add 2 k,
        Nat.mod_mul_right_mod]
    rw [e, setField_low, ← e]
  · obtain ⟨d, rfl⟩ := Nat.exists_eq_add_of_le h
    rw [pow_add, ← Nat.div_div_eq_div_mul, ← Nat.div_div_eq_div_mul, setField_high]

/-! ### Registers -/

@[simp] theorem swf_wr {s : State} (h : swf s.regs = true) (r : Reg) (v : W64) : swf (s.wr r v).regs = true := swf_sset h _ _
@[simp] theorem swf_put {s : State} (h : swf s.regs = true) (f : RF) (v : Nat) : swf (s.put f v).regs = true := swf_sset h _ _
@[simp] theorem swf_cold {s : State} (h : swf s.regs = true) (r : Reg) : swf (s.cold r).regs = true := swf_sset h _ _

/-- A register reads as what was written to it. -/
@[simp] theorem rd_wr {s : State} (h : swf s.regs = true) (r : Reg) (v : W64) : (s.wr r v).rd r = v := by
  unfold State.rd State.wr
  rw [sget_sset_same h, BitVec.xor_assoc, BitVec.xor_self, BitVec.xor_zero]

/-- A write leaves every register at another address as it was. -/
theorem rd_wr_ne {s : State} (h : swf s.regs = true) {r q : Reg} (hq : q.addr ≠ r.addr) (v : W64) :
    (s.wr r v).rd q = s.rd q := by
  unfold State.rd State.wr
  rw [sget_sset_ne h hq]

/-- A field reads as what was put into it, modulo its width. -/
@[simp] theorem get_put {s : State} (h : swf s.regs = true) {f : RF} (hf : f.lsb + f.width ≤ 64) (v : Nat) :
    (s.put f v).get f = v % 2 ^ f.width := by
  unfold State.get State.put
  rw [rd_wr h, BitVec.toNat_ofNat, Nat.mod_eq_of_lt (setField_lt (s.rd f.reg).isLt hf), setField_read]

/-- A put leaves every field apart from it as it was. -/
theorem get_put_apart {s : State} (h : swf s.regs = true) {f g : RF} (hf : f.lsb + f.width ≤ 64) (hg : g.apart f) (v : Nat) :
    (s.put f v).get g = s.get g := by
  unfold State.get State.put
  rcases hg with hg | ⟨hr, hb⟩
  · rw [rd_wr_ne h hg]
  · rw [hr, rd_wr h, BitVec.toNat_ofNat, Nat.mod_eq_of_lt (setField_lt (s.rd f.reg).isLt hf), setField_apart hb]

/-- A field of a register at another address. -/
theorem get_put_ne {s : State} (h : swf s.regs = true) {f g : RF} (hg : g.reg.addr ≠ f.reg.addr) (v : Nat) :
    (s.put f v).get g = s.get g := by
  unfold State.get State.put; rw [rd_wr_ne h hg]

/-! ### What a step keeps -/

theorem State.keeps.refl (s : State) (l : List RF) : s.keeps s l := fun _ _ => rfl

theorem State.keeps.of_regs {s t : State} (h : t.regs = s.regs) (l : List RF) : s.keeps t l := by
  intro f _; unfold State.get State.rd; rw [h]

theorem State.keeps.trans {s t u : State} {l m : List RF} (h : s.keeps t l) (k : t.keeps u m) : s.keeps u (l ++ m) :=
  fun f hf => (k f fun g hg => hf g (List.mem_append_right _ hg)).trans (h f fun g hg => hf g (List.mem_append_left _ hg))

theorem State.keeps.mono {s t : State} {l m : List RF} (h : s.keeps t l) (hm : ∀ g ∈ l, g ∈ m) : s.keeps t m :=
  fun f hf => h f fun g hg => hf g (hm g hg)

theorem State.keeps.put {s : State} (h : swf s.regs = true) {f : RF} (hf : f.lsb + f.width ≤ 64) (v : Nat) :
    s.keeps (s.put f v) [f] :=
  fun _ hg => get_put_apart h hf (hg f (by simp)) v

/-- What a further put adds to what a step keeps. -/
theorem State.keeps.andPut {s t : State} {l : List RF} (k : s.keeps t l) (h : swf t.regs = true) {f : RF}
    (hf : f.lsb + f.width ≤ 64) (hm : f ∈ l) (v : Nat) : s.keeps (t.put f v) l := by
  intro g hg
  rw [get_put_apart h hf (hg f hm) v]; exact k g hg

end Sys2Proof.Machine
end

