-- ==== Sys2Proof/Laws/Packets.lean ====
section
/-! SUPPORT. Laws of packet service: what an entry that passes the checks of R79 comes to. -/
namespace Sys2Proof.Machine

/-- What comes after step 12 of the check order for an accepted packet. -/
theorem packet_accepted {sp : OpSpec} {p : Packet} {s : State} {b : Bool} (h : accepted sp p s b) :
    s.packet sp p = if sp.member == MemberKind.immediate then (readBy p s).interpret sp (entryOrigin p sp s)
      else State.carryMember ((reading p s).expect p.ring.val (p.seq.toNat + 1)) sp p (entryOrigin p sp s) := by
  obtain ⟨h1, h2, h3, h4, h5, h6, h7, h8, h9, h10, h11, h12, h13⟩ := h
  have h6' : ¬ s.unread p.ring.val < entrySize p := by omega
  have h32 : ¬ s.unread p.ring.val < 32 := by unfold entrySize at h6; omega
  have hl : ¬ (p.length.toNat % 8 ≠ 0 ∨ p.length.toNat > 4064 ∨ entrySize p + 8 > s.ringSize p.ring.val) := by omega
  obtain ⟨s1, hs1⟩ : ∃ x, x = reading p s := ⟨_, rfl⟩
  rw [← hs1] at h13
  have e1 : s1.ringSize p.ring.val = s.ringSize p.ring.val := by subst hs1; rfl
  have e2 : s1.unread p.ring.val = s.unread p.ring.val := by subst hs1; rfl
  have e3 : s1.seqSet p.ring.val = s.seqSet p.ring.val := by subst hs1; rfl
  have e4 : s1.get (pktSeq_EXPECT p.ring.val) = s.get (pktSeq_EXPECT p.ring.val) := by subst hs1; rfl
  have e5 : entryOrigin p sp s1 = entryOrigin p sp s := by subst hs1; rfl
  have hs2 : ({ s with pkt := { s.pkt with stopped := s.pkt.stopped.set p.ring.val false } } : State) = s1 := hs1.symm
  have hq : ((s.seqSet p.ring.val && !(sp.opcode == 0x0104)) && decide (p.seq.toNat ≠ s.get (pktSeq_EXPECT p.ring.val))) = false := by
    rcases h12 with h | h | h <;> simp [h]
  unfold State.packet State.readEntry readBy
  simp only [h1, h2, hs2, ← hs1, e1, e2, e3, e4, e5, h32, h6', hl, h7, h8, h9, h10, h11, hq, h13, Option.getD_some,
    Bool.not_true, Bool.false_or, decide_false, if_false, Bool.false_eq_true, ne_eq, not_true_eq_false]

/-- An opcode that is not counted in the summary counts no flip. -/
theorem countFlip_of {sp : OpSpec} (h : ∀ g, sp.log ≠ .flip g) (s : State) (o : Origin) (st : Nat) : s.countFlip sp o st = s := by
  unfold State.countFlip
  cases hl : sp.log <;> simp_all

/-- What `interpret` comes to once its own checks and the log let a packet pass. -/
theorem packet_passes {sp : OpSpec} {p : Packet} {s : State} (h : passes sp p s) (hm : sp.member = .immediate)
    (hf : ∀ g, sp.log ≠ .flip g) :
    s.packet sp p = match sp.run (readBy p s) (entryOrigin p sp s) with
      | (u, .answer a) => u.conclude (entryOrigin p sp s) a
      | (u, .refuseLogged a) => u.recordAndAnswer (entryOrigin p sp s) a a.status true
      | (u, .later) => u.defer (entryOrigin p sp s)
      | (u, .silent) => if (entryOrigin p sp s).logged then u.recordAndAnswer (entryOrigin p sp s) (done 0 0) stDone false else u := by
  obtain ⟨ha, hc, hl⟩ := h
  rw [packet_accepted ha, hm, if_pos (by decide)]
  unfold State.interpret
  rw [hc]
  have h2 : (sp.log == LogKind.logged && (readBy p s).logRefuses 1) = false := by
    by_cases hk : sp.log = .logged
    · simp [hl hk]
    · simp [hk]
  simp only [h2, Bool.false_eq_true, if_false, countFlip_of hf]
  all_goals (rcases sp.run (readBy p s) (entryOrigin p sp s) with ⟨u, _ | _ | _ | _⟩ <;> rfl)

/-- A packet that is answered at once. -/
theorem packet_answer {sp : OpSpec} {p : Packet} {s u : State} {a : Answer} (h : passes sp p s) (hm : sp.member = .immediate)
    (hf : ∀ g, sp.log ≠ .flip g) (hr : sp.run (readBy p s) (entryOrigin p sp s) = (u, .answer a)) :
    packetStep sp p s = .next (u.conclude (entryOrigin p sp s) a) := by
  unfold packetStep; rw [packet_passes h hm hf, hr]

/-- A packet that is answered later. -/
theorem packet_later {sp : OpSpec} {p : Packet} {s u : State} (h : passes sp p s) (hm : sp.member = .immediate)
    (hf : ∀ g, sp.log ≠ .flip g) (hr : sp.run (readBy p s) (entryOrigin p sp s) = (u, .later)) :
    packetStep sp p s = .next (u.defer (entryOrigin p sp s)) := by
  unfold packetStep; rw [packet_passes h hm hf, hr]

/-- A packet that is answered at once, of an opcode that the summary of the log counts. -/
theorem packet_answer_flip {sp : OpSpec} {p : Packet} {s u : State} {a : Answer} (h : passes sp p s) (hm : sp.member = .immediate)
    (hr : sp.run (readBy p s) (entryOrigin p sp s) = (u, .answer a)) (hl : (sp.log == LogKind.logged) = false) :
    packetStep sp p s = .next ((u.countFlip sp (entryOrigin p sp s) a.status).conclude (entryOrigin p sp s) a) := by
  obtain ⟨ha, hc, -⟩ := h
  unfold packetStep
  rw [packet_accepted ha, hm, if_pos (by decide)]
  unfold State.interpret
  rw [hc]
  simp only [hl, Bool.false_and, Bool.false_eq_true, if_false, hr]

/-- A packet that is answered later, of an opcode that the summary of the log counts. -/
theorem packet_later_flip {sp : OpSpec} {p : Packet} {s u : State} (h : passes sp p s) (hm : sp.member = .immediate)
    (hr : sp.run (readBy p s) (entryOrigin p sp s) = (u, .later)) (hl : (sp.log == LogKind.logged) = false) :
    packetStep sp p s = .next ((u.countFlip sp (entryOrigin p sp s) stDone).defer (entryOrigin p sp s)) := by
  obtain ⟨ha, hc, -⟩ := h
  unfold packetStep
  rw [packet_accepted ha, hm, if_pos (by decide)]
  unfold State.interpret
  rw [hc]
  simp only [hl, Bool.false_and, Bool.false_eq_true, if_false, hr]

/-- A member-capable packet outside every caravan is carried as a caravan of one. -/
theorem packet_lone {sp : OpSpec} {p : Packet} {s : State} (h : lone sp p s) (hm : sp.member = .capable) :
    packetStep sp p s = .next (carried sp p s) := by
  obtain ⟨ha, hf, h8, h64⟩ := h
  have hb := ha.2.2.2.2.2.2.2.2.2.2.1
  unfold packetStep
  rw [packet_accepted ha, hm, if_neg (by decide)]
  have hn : (readBy p s).now = s.now := rfl
  unfold State.waiting at h8 h64
  have hr : (entryOrigin p sp s).ring = p.ring.val := rfl
  simp only [State.carryMember, hb, Bool.not_false, if_true]
  change Host.Outcome.next (State.commitCaravan (readBy p s) _ _ (coverStamp p s)) = _
  simp only [State.commitCaravan, Caravan.fresh, hr, hn, Option.getD_none]
  rw [if_neg (by omega), if_neg (by omega), if_neg (by omega), if_neg (by omega)]
  simp only [show s.now.frame + 1 - ((coverStamp p s).frame + 1) = 0 by omega, List.range_zero, State.each, List.foldl_nil,
    Nat.add_zero]
  rfl

/-- A context that stands at a packet takes it. -/
theorem draw_taken {s : State} {c code : Nat} {d : DrawAt} (h : stands s c code d) (run : State → DrawAt → State) :
    drawStep c code run s = .next (run (s.looking c) d) := by
  obtain ⟨h1, h2, h3, h4, ⟨e, rest, h5, h5'⟩, h6, h7, h8, h9, h10, h11⟩ := h
  obtain ⟨u, hu⟩ : ∃ x, x = s.looking c := ⟨_, rfl⟩
  rw [← hu] at h4 h5 h6 h7
  have hu' : (s.countClusters.loadEntry c).modGctx c (fun x => { x with stack := dropEnded x.stack }) = u := hu.symm
  obtain ⟨dc, da, dw, db⟩ := d
  simp only at h3 h4 h5 h5' h6 h7 h8 h9 h10 h11
  subst h3
  unfold drawStep State.takePacket
  simp only [h1, h2, hu', ← hu, h5, h6, h7, Bool.not_true, Bool.false_eq_true, if_false]
  rw [if_neg (by omega), if_neg (by omega)]
  rcases h10 with hd | hd
  · simp only [hd]
    rw [if_neg (by omega), if_neg (by simp)]
    simp only [← h4, h11, Option.isSome_none, Bool.false_eq_true, if_false]
  · simp only [hd]
    rw [if_neg (by omega), if_neg (by simp)]
    simp only [← h4, h11, Option.isSome_none, Bool.false_eq_true, if_false]

end Sys2Proof.Machine
end

