-- ==== Sys2Proof/Laws/Members.lean ====
section
/-! SUPPORT. Laws of caravan members: the table of opcodes that caravans carry, and what a caravan of one comes to at its arm instant. -/
namespace Sys2Proof.Machine

/-- The table finds each of its rows by its opcode. -/
theorem memberSpec_mem {sp : OpSpec} (h : memberSpec sp.opcode = some sp) (p : Packet) (s t : State) :
    t.landMembers memberSpec (loneCaravan sp p s) = sp.land t (entryOrigin p sp s) := by
  have e : (entryOrigin p sp s).opcode = sp.opcode := rfl
  simp only [State.landMembers, loneCaravan, State.each, List.foldl_cons, List.foldl_nil, e, h]

theorem memberSpec_CaravanTime : memberSpec specCaravanTime.opcode = some specCaravanTime := rfl
theorem memberSpec_CaravanFence : memberSpec specCaravanFence.opcode = some specCaravanFence := rfl
theorem memberSpec_CaravanEnd : memberSpec specCaravanEnd.opcode = some specCaravanEnd := rfl
theorem memberSpec_HeadShow : memberSpec specHeadShow.opcode = some specHeadShow := rfl
theorem memberSpec_HeadOutputSet : memberSpec specHeadOutputSet.opcode = some specHeadOutputSet := rfl
theorem memberSpec_HeadGammaSet : memberSpec specHeadGammaSet.opcode = some specHeadGammaSet := rfl
theorem memberSpec_LayerSet : memberSpec specLayerSet.opcode = some specLayerSet := rfl
theorem memberSpec_LayerAddr : memberSpec specLayerAddr.opcode = some specLayerAddr := rfl
theorem memberSpec_LayerColour : memberSpec specLayerColour.opcode = some specLayerColour := rfl
theorem memberSpec_WbSet : memberSpec specWbSet.opcode = some specWbSet := rfl
theorem memberSpec_GuardSet : memberSpec specGuardSet.opcode = some specGuardSet := rfl
theorem memberSpec_FreshTime : memberSpec specFreshTime.opcode = some specFreshTime := rfl
theorem memberSpec_RectSet : memberSpec specRectSet.opcode = some specRectSet := rfl
theorem memberSpec_RectExpect : memberSpec specRectExpect.opcode = some specRectExpect := rfl
theorem memberSpec_EmberSet : memberSpec specEmberSet.opcode = some specEmberSet := rfl
theorem memberSpec_EmberPalette : memberSpec specEmberPalette.opcode = some specEmberPalette := rfl
theorem memberSpec_EmberExpect : memberSpec specEmberExpect.opcode = some specEmberExpect := rfl
theorem memberSpec_IntegCfg : memberSpec specIntegCfg.opcode = some specIntegCfg := rfl
theorem memberSpec_DeadlineSet : memberSpec specDeadlineSet.opcode = some specDeadlineSet := rfl
theorem memberSpec_CompSet : memberSpec specCompSet.opcode = some specCompSet := rfl
theorem memberSpec_CompTime : memberSpec specCompTime.opcode = some specCompTime := rfl
theorem memberSpec_TouchSet : memberSpec specTouchSet.opcode = some specTouchSet := rfl
theorem memberSpec_ZoneSet : memberSpec specZoneSet.opcode = some specZoneSet := rfl
theorem memberSpec_PickSet : memberSpec specPickSet.opcode = some specPickSet := rfl
theorem memberSpec_PickScene : memberSpec specPickScene.opcode = some specPickScene := rfl
theorem memberSpec_PickClasses : memberSpec specPickClasses.opcode = some specPickClasses := rfl
theorem memberSpec_HapChannelSet : memberSpec specHapChannelSet.opcode = some specHapChannelSet := rfl
theorem memberSpec_HapEffectSet : memberSpec specHapEffectSet.opcode = some specHapEffectSet := rfl
theorem memberSpec_RouteSet : memberSpec specRouteSet.opcode = some specRouteSet := rfl
theorem memberSpec_BusSet : memberSpec specBusSet.opcode = some specBusSet := rfl
theorem memberSpec_EqSet : memberSpec specEqSet.opcode = some specEqSet := rfl
theorem memberSpec_SinkSet : memberSpec specSinkSet.opcode = some specSinkSet := rfl
theorem memberSpec_StreamSet : memberSpec specStreamSet.opcode = some specStreamSet := rfl
theorem memberSpec_ToneSet : memberSpec specToneSet.opcode = some specToneSet := rfl
theorem memberSpec_TonePlay : memberSpec specTonePlay.opcode = some specTonePlay := rfl

end Sys2Proof.Machine
end

