-- ==== Sys2Proof/Laws/Reads.lean ====
section
/-! SUPPORT. Laws of reads: an update of anything but the register file leaves what registers read as, and a put leaves every
field apart from it. -/
namespace Sys2Proof.Machine

variable (s : State)

@[simp] theorem State.modAud_rd (f : AudState → AudState) (r : Reg) : (s.modAud f).rd r = s.rd r := rfl
@[simp] theorem State.modAud_get (f : AudState → AudState) (x : RF) : (s.modAud f).get x = s.get x := rfl
@[simp] theorem State.modAud_flag (f : AudState → AudState) (x : RF) : (s.modAud f).flag x = s.flag x := rfl
@[simp] theorem State.modBus_rd (b : Nat) (f : AudBus → AudBus) (r : Reg) : (s.modBus b f).rd r = s.rd r := rfl
@[simp] theorem State.modBus_get (b : Nat) (f : AudBus → AudBus) (x : RF) : (s.modBus b f).get x = s.get x := rfl
@[simp] theorem State.modBus_flag (b : Nat) (f : AudBus → AudBus) (x : RF) : (s.modBus b f).flag x = s.flag x := rfl
@[simp] theorem State.modSink_rd (k : Nat) (f : AudSink → AudSink) (r : Reg) : (s.modSink k f).rd r = s.rd r := rfl
@[simp] theorem State.modSink_get (k : Nat) (f : AudSink → AudSink) (x : RF) : (s.modSink k f).get x = s.get x := rfl
@[simp] theorem State.modSink_flag (k : Nat) (f : AudSink → AudSink) (x : RF) : (s.modSink k f).flag x = s.flag x := rfl
@[simp] theorem State.modStream_rd (i : Nat) (f : AudStream → AudStream) (r : Reg) : (s.modStream i f).rd r = s.rd r := rfl
@[simp] theorem State.modStream_get (i : Nat) (f : AudStream → AudStream) (x : RF) : (s.modStream i f).get x = s.get x := rfl
@[simp] theorem State.modStream_flag (i : Nat) (f : AudStream → AudStream) (x : RF) : (s.modStream i f).flag x = s.flag x := rfl
@[simp] theorem State.modTone_rd (t : Nat) (f : AudTone → AudTone) (r : Reg) : (s.modTone t f).rd r = s.rd r := rfl
@[simp] theorem State.modTone_get (t : Nat) (f : AudTone → AudTone) (x : RF) : (s.modTone t f).get x = s.get x := rfl
@[simp] theorem State.modTone_flag (t : Nat) (f : AudTone → AudTone) (x : RF) : (s.modTone t f).flag x = s.flag x := rfl
@[simp] theorem State.modCu_rd (f : CuState → CuState) (r : Reg) : (s.modCu f).rd r = s.rd r := rfl
@[simp] theorem State.modCu_get (f : CuState → CuState) (x : RF) : (s.modCu f).get x = s.get x := rfl
@[simp] theorem State.modCu_flag (f : CuState → CuState) (x : RF) : (s.modCu f).flag x = s.flag x := rfl
@[simp] theorem State.modDisplay_rd (f : DisplayState → DisplayState) (r : Reg) : (s.modDisplay f).rd r = s.rd r := rfl
@[simp] theorem State.modDisplay_get (f : DisplayState → DisplayState) (x : RF) : (s.modDisplay f).get x = s.get x := rfl
@[simp] theorem State.modDisplay_flag (f : DisplayState → DisplayState) (x : RF) : (s.modDisplay f).flag x = s.flag x := rfl
@[simp] theorem State.modHead_rd (n : Nat) (f : HeadState → HeadState) (r : Reg) : (s.modHead n f).rd r = s.rd r := rfl
@[simp] theorem State.modHead_get (n : Nat) (f : HeadState → HeadState) (x : RF) : (s.modHead n f).get x = s.get x := rfl
@[simp] theorem State.modHead_flag (n : Nat) (f : HeadState → HeadState) (x : RF) : (s.modHead n f).flag x = s.flag x := rfl
@[simp] theorem State.modFrame_rd (n : Nat) (f : FrameFacts → FrameFacts) (r : Reg) : (s.modFrame n f).rd r = s.rd r := rfl
@[simp] theorem State.modFrame_get (n : Nat) (f : FrameFacts → FrameFacts) (x : RF) : (s.modFrame n f).get x = s.get x := rfl
@[simp] theorem State.modFrame_flag (n : Nat) (f : FrameFacts → FrameFacts) (x : RF) : (s.modFrame n f).flag x = s.flag x := rfl
@[simp] theorem State.modLink_rd (p : Nat) (f : LinkState → LinkState) (r : Reg) : (s.modLink p f).rd r = s.rd r := rfl
@[simp] theorem State.modLink_get (p : Nat) (f : LinkState → LinkState) (x : RF) : (s.modLink p f).get x = s.get x := rfl
@[simp] theorem State.modLink_flag (p : Nat) (f : LinkState → LinkState) (x : RF) : (s.modLink p f).flag x = s.flag x := rfl
@[simp] theorem State.modSpare_rd (f : SpareState → SpareState) (r : Reg) : (s.modSpare f).rd r = s.rd r := rfl
@[simp] theorem State.modSpare_get (f : SpareState → SpareState) (x : RF) : (s.modSpare f).get x = s.get x := rfl
@[simp] theorem State.modSpare_flag (f : SpareState → SpareState) (x : RF) : (s.modSpare f).flag x = s.flag x := rfl
@[simp] theorem State.modPipe_rd (n : Nat) (f : PipeState → PipeState) (r : Reg) : (s.modPipe n f).rd r = s.rd r := rfl
@[simp] theorem State.modPipe_get (n : Nat) (f : PipeState → PipeState) (x : RF) : (s.modPipe n f).get x = s.get x := rfl
@[simp] theorem State.modPipe_flag (n : Nat) (f : PipeState → PipeState) (x : RF) : (s.modPipe n f).flag x = s.flag x := rfl
@[simp] theorem State.modWb_rd (u : Nat) (f : WbState → WbState) (r : Reg) : (s.modWb u f).rd r = s.rd r := rfl
@[simp] theorem State.modWb_get (u : Nat) (f : WbState → WbState) (x : RF) : (s.modWb u f).get x = s.get x := rfl
@[simp] theorem State.modWb_flag (u : Nat) (f : WbState → WbState) (x : RF) : (s.modWb u f).flag x = s.flag x := rfl
@[simp] theorem State.modSupv_rd (f : SupvState → SupvState) (r : Reg) : (s.modSupv f).rd r = s.rd r := rfl
@[simp] theorem State.modSupv_get (f : SupvState → SupvState) (x : RF) : (s.modSupv f).get x = s.get x := rfl
@[simp] theorem State.modSupv_flag (f : SupvState → SupvState) (x : RF) : (s.modSupv f).flag x = s.flag x := rfl
@[simp] theorem State.modGfx_rd (f : GfxState → GfxState) (r : Reg) : (s.modGfx f).rd r = s.rd r := rfl
@[simp] theorem State.modGfx_get (f : GfxState → GfxState) (x : RF) : (s.modGfx f).get x = s.get x := rfl
@[simp] theorem State.modGfx_flag (f : GfxState → GfxState) (x : RF) : (s.modGfx f).flag x = s.flag x := rfl
@[simp] theorem State.modGctx_rd (c : Nat) (f : GfxCtx → GfxCtx) (r : Reg) : (s.modGctx c f).rd r = s.rd r := rfl
@[simp] theorem State.modGctx_get (c : Nat) (f : GfxCtx → GfxCtx) (x : RF) : (s.modGctx c f).get x = s.get x := rfl
@[simp] theorem State.modGctx_flag (c : Nat) (f : GfxCtx → GfxCtx) (x : RF) : (s.modGctx c f).flag x = s.flag x := rfl
@[simp] theorem State.modJob_rd (n : Nat) (f : CompJob → CompJob) (r : Reg) : (s.modJob n f).rd r = s.rd r := rfl
@[simp] theorem State.modJob_get (n : Nat) (f : CompJob → CompJob) (x : RF) : (s.modJob n f).get x = s.get x := rfl
@[simp] theorem State.modJob_flag (n : Nat) (f : CompJob → CompJob) (x : RF) : (s.modJob n f).flag x = s.flag x := rfl
@[simp] theorem State.modHap_rd (f : HapState → HapState) (r : Reg) : (s.modHap f).rd r = s.rd r := rfl
@[simp] theorem State.modHap_get (f : HapState → HapState) (x : RF) : (s.modHap f).get x = s.get x := rfl
@[simp] theorem State.modHap_flag (f : HapState → HapState) (x : RF) : (s.modHap f).flag x = s.flag x := rfl
@[simp] theorem State.modChan_rd (n : Nat) (f : HapChan → HapChan) (r : Reg) : (s.modChan n f).rd r = s.rd r := rfl
@[simp] theorem State.modChan_get (n : Nat) (f : HapChan → HapChan) (x : RF) : (s.modChan n f).get x = s.get x := rfl
@[simp] theorem State.modChan_flag (n : Nat) (f : HapChan → HapChan) (x : RF) : (s.modChan n f).flag x = s.flag x := rfl
@[simp] theorem State.modPlay_rd (n : Nat) (f : HapPlay → HapPlay) (r : Reg) : (s.modPlay n f).rd r = s.rd r := rfl
@[simp] theorem State.modPlay_get (n : Nat) (f : HapPlay → HapPlay) (x : RF) : (s.modPlay n f).get x = s.get x := rfl
@[simp] theorem State.modPlay_flag (n : Nat) (f : HapPlay → HapPlay) (x : RF) : (s.modPlay n f).flag x = s.flag x := rfl
@[simp] theorem State.modMbq_rd (f : MbqState → MbqState) (r : Reg) : (s.modMbq f).rd r = s.rd r := rfl
@[simp] theorem State.modMbq_get (f : MbqState → MbqState) (x : RF) : (s.modMbq f).get x = s.get x := rfl
@[simp] theorem State.modMbq_flag (f : MbqState → MbqState) (x : RF) : (s.modMbq f).flag x = s.flag x := rfl
@[simp] theorem State.modDramc_rd (f : DramcState → DramcState) (r : Reg) : (s.modDramc f).rd r = s.rd r := rfl
@[simp] theorem State.modDramc_get (f : DramcState → DramcState) (x : RF) : (s.modDramc f).get x = s.get x := rfl
@[simp] theorem State.modDramc_flag (f : DramcState → DramcState) (x : RF) : (s.modDramc f).flag x = s.flag x := rfl
@[simp] theorem State.modPower_rd (f : PowerState → PowerState) (r : Reg) : (s.modPower f).rd r = s.rd r := rfl
@[simp] theorem State.modPower_get (f : PowerState → PowerState) (x : RF) : (s.modPower f).get x = s.get x := rfl
@[simp] theorem State.modPower_flag (f : PowerState → PowerState) (x : RF) : (s.modPower f).flag x = s.flag x := rfl
@[simp] theorem State.modFn_rd (f : Nat) (g : FnState → FnState) (r : Reg) : (s.modFn f g).rd r = s.rd r := rfl
@[simp] theorem State.modFn_get (f : Nat) (g : FnState → FnState) (x : RF) : (s.modFn f g).get x = s.get x := rfl
@[simp] theorem State.modFn_flag (f : Nat) (g : FnState → FnState) (x : RF) : (s.modFn f g).flag x = s.flag x := rfl
@[simp] theorem State.modTenant_rd (f : Nat) (g : Tenant → Tenant) (r : Reg) : (s.modTenant f g).rd r = s.rd r := rfl
@[simp] theorem State.modTenant_get (f : Nat) (g : Tenant → Tenant) (x : RF) : (s.modTenant f g).get x = s.get x := rfl
@[simp] theorem State.modTenant_flag (f : Nat) (g : Tenant → Tenant) (x : RF) : (s.modTenant f g).flag x = s.flag x := rfl
@[simp] theorem State.modPeat_rd (f : PeatState → PeatState) (r : Reg) : (s.modPeat f).rd r = s.rd r := rfl
@[simp] theorem State.modPeat_get (f : PeatState → PeatState) (x : RF) : (s.modPeat f).get x = s.get x := rfl
@[simp] theorem State.modPeat_flag (f : PeatState → PeatState) (x : RF) : (s.modPeat f).flag x = s.flag x := rfl
@[simp] theorem State.modHostPort_rd (p : Nat) (f : PortState → PortState) (r : Reg) : (s.modHostPort p f).rd r = s.rd r := rfl
@[simp] theorem State.modHostPort_get (p : Nat) (f : PortState → PortState) (x : RF) : (s.modHostPort p f).get x = s.get x := rfl
@[simp] theorem State.modHostPort_flag (p : Nat) (f : PortState → PortState) (x : RF) : (s.modHostPort p f).flag x = s.flag x := rfl
@[simp] theorem State.modPort_rd (p : Nat) (f : TouchPort → TouchPort) (r : Reg) : (s.modPort p f).rd r = s.rd r := rfl
@[simp] theorem State.modPort_get (p : Nat) (f : TouchPort → TouchPort) (x : RF) : (s.modPort p f).get x = s.get x := rfl
@[simp] theorem State.modPort_flag (p : Nat) (f : TouchPort → TouchPort) (x : RF) : (s.modPort p f).flag x = s.flag x := rfl
@[simp] theorem State.modWall_rd (f : WallState → WallState) (r : Reg) : (s.modWall f).rd r = s.rd r := rfl
@[simp] theorem State.modWall_get (f : WallState → WallState) (x : RF) : (s.modWall f).get x = s.get x := rfl
@[simp] theorem State.modWall_flag (f : WallState → WallState) (x : RF) : (s.modWall f).flag x = s.flag x := rfl
@[simp] theorem State.freeUsed_rd (r : Reg) : s.freeUsed.rd r = s.rd r := rfl
@[simp] theorem State.freeUsed_get (x : RF) : s.freeUsed.get x = s.get x := rfl
@[simp] theorem State.freeUsed_flag (x : RF) : s.freeUsed.flag x = s.flag x := rfl
@[simp] theorem State.emit_rd (o : Output) (r : Reg) : (s.emit o).rd r = s.rd r := rfl
@[simp] theorem State.emit_get (o : Output) (x : RF) : (s.emit o).get x = s.get x := rfl
@[simp] theorem State.emit_flag (o : Output) (x : RF) : (s.emit o).flag x = s.flag x := rfl
@[simp] theorem State.store_rd (a : Nat) (l : List Byte) (r : Reg) : (s.store a l).rd r = s.rd r := rfl
@[simp] theorem State.store_get (a : Nat) (l : List Byte) (x : RF) : (s.store a l).get x = s.get x := rfl
@[simp] theorem State.store_flag (a : Nat) (l : List Byte) (x : RF) : (s.store a l).flag x = s.flag x := rfl
@[simp] theorem State.zeroMem_rd (lo hi : Nat) (r : Reg) : (s.zeroMem lo hi).rd r = s.rd r := rfl
@[simp] theorem State.zeroMem_get (lo hi : Nat) (x : RF) : (s.zeroMem lo hi).get x = s.get x := rfl
@[simp] theorem State.zeroMem_flag (lo hi : Nat) (x : RF) : (s.zeroMem lo hi).flag x = s.flag x := rfl
@[simp] theorem State.signal_rd (n v : Nat) (r : Reg) : (s.signal n v).rd r = s.rd r := rfl
@[simp] theorem State.signal_get (n v : Nat) (x : RF) : (s.signal n v).get x = s.get x := rfl
@[simp] theorem State.signal_flag (n v : Nat) (x : RF) : (s.signal n v).flag x = s.flag x := rfl
@[simp] theorem State.signalFixed_rd (n u : Nat) (r : Reg) : (s.signalFixed n u).rd r = s.rd r := rfl
@[simp] theorem State.signalFixed_get (n u : Nat) (x : RF) : (s.signalFixed n u).get x = s.get x := rfl
@[simp] theorem State.signalFixed_flag (n u : Nat) (x : RF) : (s.signalFixed n u).flag x = s.flag x := rfl
@[simp] theorem State.mirrorDue_rd (n : Nat) (r : Reg) : (s.mirrorDue n).rd r = s.rd r := rfl
@[simp] theorem State.mirrorDue_get (n : Nat) (x : RF) : (s.mirrorDue n).get x = s.get x := rfl
@[simp] theorem State.mirrorDue_flag (n : Nat) (x : RF) : (s.mirrorDue n).flag x = s.flag x := rfl

/-- Whether two fields share no bit, as a truth value. -/
def RF.apartB (f g : RF) : Bool :=
  !Nat.beq f.reg.addr g.reg.addr
    || (Nat.beq f.reg.cold g.reg.cold && (Nat.ble (f.lsb + f.width) g.lsb || Nat.ble (g.lsb + g.width) f.lsb))

theorem RF.apart_of {f g : RF} (h : f.apartB g = true) : f.apart g := by
  simp only [RF.apartB, Bool.or_eq_true, Bool.not_eq_true', Bool.and_eq_true, Nat.beq_eq, Nat.ble_eq] at h
  by_cases ha : f.reg.addr = g.reg.addr
  · right
    have : Nat.beq f.reg.addr g.reg.addr = true := by rw [ha]; exact Nat.beq_refl _
    obtain ⟨⟨fa, fc⟩, fl, fw⟩ := f
    obtain ⟨⟨ga, gc⟩, gl, gw⟩ := g
    simp_all
  · exact .inl ha

variable {s}

/-- A put leaves every field apart from it, where that can be computed. -/
theorem get_put_c (h : swf s.regs = true) {f g : RF} (hf : decide (f.lsb + f.width ≤ 64) = true) (hg : g.apartB f = true) (v : Nat) :
    (s.put f v).get g = s.get g := get_put_apart h (of_decide_eq_true hf) (RF.apart_of hg) v

/-- A put leaves a field of a register at another address. -/
theorem rd_put_ne (h : swf s.regs = true) {f : RF} {r : Reg} (hr : r.addr ≠ f.reg.addr) (v : Nat) :
    (s.put f v).rd r = s.rd r := rd_wr_ne h hr _

/-- A put leaves another field of the same register. -/
theorem get_put_r (h : swf s.regs = true) {r : Reg} {l w l' w' : Nat} (hf : decide (l + w ≤ 64) = true)
    (hg : (Nat.ble (l' + w') l || Nat.ble (l + w) l') = true) (v : Nat) :
    (s.put ⟨r, l, w⟩ v).get ⟨r, l', w'⟩ = s.get ⟨r, l', w'⟩ := by
  apply get_put_apart h (of_decide_eq_true hf)
  right; refine ⟨rfl, ?_⟩
  simpa using hg

/-- A put to one of a row of registers leaves the register of another row under the same number. -/
theorem get_put_i (h : swf s.regs = true) {a b k i c c' l w l' w' : Nat} (hab : Nat.beq a b = false) (v : Nat) :
    (s.put ⟨⟨a + k * i, c⟩, l, w⟩ v).get ⟨⟨b + k * i, c'⟩, l', w'⟩ = s.get ⟨⟨b + k * i, c'⟩, l', w'⟩ :=
  get_put_ne h (by
    show b + k * i ≠ a + k * i
    intro e
    have : a = b := by omega
    rw [this] at hab; simp at hab) v

/-! ### One place of a list -/

/-- Place `i` of a list after it has changed. -/
theorem modAt_same {α : Type} {l : List α} {i : Nat} {x : α} (h : l[i]? = some x) (f : α → α) (d : α) :
    (modAt l i f).getD i d = f x := by
  induction l generalizing i with
  | nil => simp at h
  | cons a l ih =>
    cases i with
    | zero => simp at h; simp [modAt, h]
    | succ i =>
      simp only [List.getElem?_cons_succ] at h
      simpa [modAt] using ih h

/-- Every other place is as before. -/
theorem modAt_other {α : Type} (l : List α) {i j : Nat} (h : j ≠ i) (f : α → α) : (modAt l i f)[j]? = l[j]? := by
  induction l generalizing i j with
  | nil => simp [modAt]
  | cons a l ih =>
    cases i with
    | zero => cases j with
      | zero => exact absurd rfl h
      | succ j => simp [modAt]
    | succ i => cases j with
      | zero => simp [modAt]
      | succ j => simpa [modAt] using ih (by omega)

/-- A change of one place keeps the length. -/
@[simp] theorem modAt_length {α : Type} (l : List α) (i : Nat) (f : α → α) : (modAt l i f).length = l.length := by
  induction l generalizing i with
  | nil => rfl
  | cons a l ih => cases i <;> simp [modAt, ih]

/-- Two changes of one place. -/
theorem modAt_modAt {α : Type} (l : List α) (i : Nat) (f g : α → α) : modAt (modAt l i f) i g = modAt l i fun x => g (f x) := by
  induction l generalizing i with
  | nil => rfl
  | cons a l ih => cases i <;> simp [modAt, ih]

/-- The place itself. -/
theorem modAt_get {α : Type} (l : List α) (i : Nat) (f : α → α) : (modAt l i f)[i]? = l[i]?.map f := by
  induction l generalizing i with
  | nil => simp [modAt]
  | cons a l ih => cases i <;> simp [modAt, ih]

/-- The register file of a canonical state is in canonical form. -/
theorem State.canonical.regs (h : s.canonical = true) : swf s.regs = true := by
  simp only [State.canonical, Bool.and_eq_true] at h; exact h.1.1.1.1

/-- So is its memory. -/
theorem State.canonical.mem (h : s.canonical = true) : swf s.mem = true := by
  simp only [State.canonical, Bool.and_eq_true] at h; exact h.1.1.1.2

end Sys2Proof.Machine
end

