-- ==== Sys2Proof/Laws/Parts.lean ====
section
/-! SUPPORT. Laws of the parts of the blocks: a change of one head, port, pipe, channel, bus or context leaves the rest of the state. -/
namespace Sys2Proof.Machine

variable (s : State)

@[simp] theorem State.modHead_variant (n : Nat) (f : HeadState → HeadState) : (s.modHead n f).variant = s.variant := rfl
@[simp] theorem State.modHead_now (n : Nat) (f : HeadState → HeadState) : (s.modHead n f).now = s.now := rfl
@[simp] theorem State.modHead_regs (n : Nat) (f : HeadState → HeadState) : (s.modHead n f).regs = s.regs := rfl
@[simp] theorem State.modHead_mem (n : Nat) (f : HeadState → HeadState) : (s.modHead n f).mem = s.mem := rfl
@[simp] theorem State.modHead_wall (n : Nat) (f : HeadState → HeadState) : (s.modHead n f).wall = s.wall := rfl
@[simp] theorem State.modHead_fns (n : Nat) (f : HeadState → HeadState) : (s.modHead n f).fns = s.fns := rfl
@[simp] theorem State.modHead_ports (n : Nat) (f : HeadState → HeadState) : (s.modHead n f).ports = s.ports := rfl
@[simp] theorem State.modHead_pkt (n : Nat) (f : HeadState → HeadState) : (s.modHead n f).pkt = s.pkt := rfl
@[simp] theorem State.modHead_mbq (n : Nat) (f : HeadState → HeadState) : (s.modHead n f).mbq = s.mbq := rfl
@[simp] theorem State.modHead_peat (n : Nat) (f : HeadState → HeadState) : (s.modHead n f).peat = s.peat := rfl
@[simp] theorem State.modHead_evt (n : Nat) (f : HeadState → HeadState) : (s.modHead n f).evt = s.evt := rfl
@[simp] theorem State.modHead_supv (n : Nat) (f : HeadState → HeadState) : (s.modHead n f).supv = s.supv := rfl
@[simp] theorem State.modHead_world (n : Nat) (f : HeadState → HeadState) : (s.modHead n f).world = s.world := rfl
@[simp] theorem State.modHead_cu (n : Nat) (f : HeadState → HeadState) : (s.modHead n f).cu = s.cu := rfl
@[simp] theorem State.modHead_power (n : Nat) (f : HeadState → HeadState) : (s.modHead n f).power = s.power := rfl
@[simp] theorem State.modHead_gfx (n : Nat) (f : HeadState → HeadState) : (s.modHead n f).gfx = s.gfx := rfl
@[simp] theorem State.modHead_hap (n : Nat) (f : HeadState → HeadState) : (s.modHead n f).hap = s.hap := rfl
@[simp] theorem State.modHead_touch (n : Nat) (f : HeadState → HeadState) : (s.modHead n f).touch = s.touch := rfl
@[simp] theorem State.modHead_aud (n : Nat) (f : HeadState → HeadState) : (s.modHead n f).aud = s.aud := rfl
@[simp] theorem State.modHead_dramc (n : Nat) (f : HeadState → HeadState) : (s.modHead n f).dramc = s.dramc := rfl
@[simp] theorem State.modHead_staged (n : Nat) (f : HeadState → HeadState) : (s.modHead n f).staged = s.staged := rfl
@[simp] theorem State.modHead_out (n : Nat) (f : HeadState → HeadState) : (s.modHead n f).out = s.out := rfl
@[simp] theorem State.modHead_freeCtr (n : Nat) (f : HeadState → HeadState) : (s.modHead n f).freeCtr = s.freeCtr := rfl
@[simp] theorem State.modHead_pending (n : Nat) (f : HeadState → HeadState) : (s.modHead n f).pending = s.pending := rfl

@[simp] theorem State.modFrame_variant (n : Nat) (f : FrameFacts → FrameFacts) : (s.modFrame n f).variant = s.variant := rfl
@[simp] theorem State.modFrame_now (n : Nat) (f : FrameFacts → FrameFacts) : (s.modFrame n f).now = s.now := rfl
@[simp] theorem State.modFrame_regs (n : Nat) (f : FrameFacts → FrameFacts) : (s.modFrame n f).regs = s.regs := rfl
@[simp] theorem State.modFrame_mem (n : Nat) (f : FrameFacts → FrameFacts) : (s.modFrame n f).mem = s.mem := rfl
@[simp] theorem State.modFrame_wall (n : Nat) (f : FrameFacts → FrameFacts) : (s.modFrame n f).wall = s.wall := rfl
@[simp] theorem State.modFrame_fns (n : Nat) (f : FrameFacts → FrameFacts) : (s.modFrame n f).fns = s.fns := rfl
@[simp] theorem State.modFrame_ports (n : Nat) (f : FrameFacts → FrameFacts) : (s.modFrame n f).ports = s.ports := rfl
@[simp] theorem State.modFrame_pkt (n : Nat) (f : FrameFacts → FrameFacts) : (s.modFrame n f).pkt = s.pkt := rfl
@[simp] theorem State.modFrame_mbq (n : Nat) (f : FrameFacts → FrameFacts) : (s.modFrame n f).mbq = s.mbq := rfl
@[simp] theorem State.modFrame_peat (n : Nat) (f : FrameFacts → FrameFacts) : (s.modFrame n f).peat = s.peat := rfl
@[simp] theorem State.modFrame_evt (n : Nat) (f : FrameFacts → FrameFacts) : (s.modFrame n f).evt = s.evt := rfl
@[simp] theorem State.modFrame_supv (n : Nat) (f : FrameFacts → FrameFacts) : (s.modFrame n f).supv = s.supv := rfl
@[simp] theorem State.modFrame_world (n : Nat) (f : FrameFacts → FrameFacts) : (s.modFrame n f).world = s.world := rfl
@[simp] theorem State.modFrame_cu (n : Nat) (f : FrameFacts → FrameFacts) : (s.modFrame n f).cu = s.cu := rfl
@[simp] theorem State.modFrame_power (n : Nat) (f : FrameFacts → FrameFacts) : (s.modFrame n f).power = s.power := rfl
@[simp] theorem State.modFrame_gfx (n : Nat) (f : FrameFacts → FrameFacts) : (s.modFrame n f).gfx = s.gfx := rfl
@[simp] theorem State.modFrame_hap (n : Nat) (f : FrameFacts → FrameFacts) : (s.modFrame n f).hap = s.hap := rfl
@[simp] theorem State.modFrame_touch (n : Nat) (f : FrameFacts → FrameFacts) : (s.modFrame n f).touch = s.touch := rfl
@[simp] theorem State.modFrame_aud (n : Nat) (f : FrameFacts → FrameFacts) : (s.modFrame n f).aud = s.aud := rfl
@[simp] theorem State.modFrame_dramc (n : Nat) (f : FrameFacts → FrameFacts) : (s.modFrame n f).dramc = s.dramc := rfl
@[simp] theorem State.modFrame_staged (n : Nat) (f : FrameFacts → FrameFacts) : (s.modFrame n f).staged = s.staged := rfl
@[simp] theorem State.modFrame_out (n : Nat) (f : FrameFacts → FrameFacts) : (s.modFrame n f).out = s.out := rfl
@[simp] theorem State.modFrame_freeCtr (n : Nat) (f : FrameFacts → FrameFacts) : (s.modFrame n f).freeCtr = s.freeCtr := rfl
@[simp] theorem State.modFrame_pending (n : Nat) (f : FrameFacts → FrameFacts) : (s.modFrame n f).pending = s.pending := rfl

@[simp] theorem State.modLink_variant (p : Nat) (f : LinkState → LinkState) : (s.modLink p f).variant = s.variant := rfl
@[simp] theorem State.modLink_now (p : Nat) (f : LinkState → LinkState) : (s.modLink p f).now = s.now := rfl
@[simp] theorem State.modLink_regs (p : Nat) (f : LinkState → LinkState) : (s.modLink p f).regs = s.regs := rfl
@[simp] theorem State.modLink_mem (p : Nat) (f : LinkState → LinkState) : (s.modLink p f).mem = s.mem := rfl
@[simp] theorem State.modLink_wall (p : Nat) (f : LinkState → LinkState) : (s.modLink p f).wall = s.wall := rfl
@[simp] theorem State.modLink_fns (p : Nat) (f : LinkState → LinkState) : (s.modLink p f).fns = s.fns := rfl
@[simp] theorem State.modLink_ports (p : Nat) (f : LinkState → LinkState) : (s.modLink p f).ports = s.ports := rfl
@[simp] theorem State.modLink_pkt (p : Nat) (f : LinkState → LinkState) : (s.modLink p f).pkt = s.pkt := rfl
@[simp] theorem State.modLink_mbq (p : Nat) (f : LinkState → LinkState) : (s.modLink p f).mbq = s.mbq := rfl
@[simp] theorem State.modLink_peat (p : Nat) (f : LinkState → LinkState) : (s.modLink p f).peat = s.peat := rfl
@[simp] theorem State.modLink_evt (p : Nat) (f : LinkState → LinkState) : (s.modLink p f).evt = s.evt := rfl
@[simp] theorem State.modLink_supv (p : Nat) (f : LinkState → LinkState) : (s.modLink p f).supv = s.supv := rfl
@[simp] theorem State.modLink_world (p : Nat) (f : LinkState → LinkState) : (s.modLink p f).world = s.world := rfl
@[simp] theorem State.modLink_cu (p : Nat) (f : LinkState → LinkState) : (s.modLink p f).cu = s.cu := rfl
@[simp] theorem State.modLink_power (p : Nat) (f : LinkState → LinkState) : (s.modLink p f).power = s.power := rfl
@[simp] theorem State.modLink_gfx (p : Nat) (f : LinkState → LinkState) : (s.modLink p f).gfx = s.gfx := rfl
@[simp] theorem State.modLink_hap (p : Nat) (f : LinkState → LinkState) : (s.modLink p f).hap = s.hap := rfl
@[simp] theorem State.modLink_touch (p : Nat) (f : LinkState → LinkState) : (s.modLink p f).touch = s.touch := rfl
@[simp] theorem State.modLink_aud (p : Nat) (f : LinkState → LinkState) : (s.modLink p f).aud = s.aud := rfl
@[simp] theorem State.modLink_dramc (p : Nat) (f : LinkState → LinkState) : (s.modLink p f).dramc = s.dramc := rfl
@[simp] theorem State.modLink_staged (p : Nat) (f : LinkState → LinkState) : (s.modLink p f).staged = s.staged := rfl
@[simp] theorem State.modLink_out (p : Nat) (f : LinkState → LinkState) : (s.modLink p f).out = s.out := rfl
@[simp] theorem State.modLink_freeCtr (p : Nat) (f : LinkState → LinkState) : (s.modLink p f).freeCtr = s.freeCtr := rfl
@[simp] theorem State.modLink_pending (p : Nat) (f : LinkState → LinkState) : (s.modLink p f).pending = s.pending := rfl

@[simp] theorem State.modSpare_variant (f : SpareState → SpareState) : (s.modSpare f).variant = s.variant := rfl
@[simp] theorem State.modSpare_now (f : SpareState → SpareState) : (s.modSpare f).now = s.now := rfl
@[simp] theorem State.modSpare_regs (f : SpareState → SpareState) : (s.modSpare f).regs = s.regs := rfl
@[simp] theorem State.modSpare_mem (f : SpareState → SpareState) : (s.modSpare f).mem = s.mem := rfl
@[simp] theorem State.modSpare_wall (f : SpareState → SpareState) : (s.modSpare f).wall = s.wall := rfl
@[simp] theorem State.modSpare_fns (f : SpareState → SpareState) : (s.modSpare f).fns = s.fns := rfl
@[simp] theorem State.modSpare_ports (f : SpareState → SpareState) : (s.modSpare f).ports = s.ports := rfl
@[simp] theorem State.modSpare_pkt (f : SpareState → SpareState) : (s.modSpare f).pkt = s.pkt := rfl
@[simp] theorem State.modSpare_mbq (f : SpareState → SpareState) : (s.modSpare f).mbq = s.mbq := rfl
@[simp] theorem State.modSpare_peat (f : SpareState → SpareState) : (s.modSpare f).peat = s.peat := rfl
@[simp] theorem State.modSpare_evt (f : SpareState → SpareState) : (s.modSpare f).evt = s.evt := rfl
@[simp] theorem State.modSpare_supv (f : SpareState → SpareState) : (s.modSpare f).supv = s.supv := rfl
@[simp] theorem State.modSpare_world (f : SpareState → SpareState) : (s.modSpare f).world = s.world := rfl
@[simp] theorem State.modSpare_cu (f : SpareState → SpareState) : (s.modSpare f).cu = s.cu := rfl
@[simp] theorem State.modSpare_power (f : SpareState → SpareState) : (s.modSpare f).power = s.power := rfl
@[simp] theorem State.modSpare_gfx (f : SpareState → SpareState) : (s.modSpare f).gfx = s.gfx := rfl
@[simp] theorem State.modSpare_hap (f : SpareState → SpareState) : (s.modSpare f).hap = s.hap := rfl
@[simp] theorem State.modSpare_touch (f : SpareState → SpareState) : (s.modSpare f).touch = s.touch := rfl
@[simp] theorem State.modSpare_aud (f : SpareState → SpareState) : (s.modSpare f).aud = s.aud := rfl
@[simp] theorem State.modSpare_dramc (f : SpareState → SpareState) : (s.modSpare f).dramc = s.dramc := rfl
@[simp] theorem State.modSpare_staged (f : SpareState → SpareState) : (s.modSpare f).staged = s.staged := rfl
@[simp] theorem State.modSpare_out (f : SpareState → SpareState) : (s.modSpare f).out = s.out := rfl
@[simp] theorem State.modSpare_freeCtr (f : SpareState → SpareState) : (s.modSpare f).freeCtr = s.freeCtr := rfl
@[simp] theorem State.modSpare_pending (f : SpareState → SpareState) : (s.modSpare f).pending = s.pending := rfl

@[simp] theorem State.modPipe_variant (n : Nat) (f : PipeState → PipeState) : (s.modPipe n f).variant = s.variant := rfl
@[simp] theorem State.modPipe_now (n : Nat) (f : PipeState → PipeState) : (s.modPipe n f).now = s.now := rfl
@[simp] theorem State.modPipe_regs (n : Nat) (f : PipeState → PipeState) : (s.modPipe n f).regs = s.regs := rfl
@[simp] theorem State.modPipe_mem (n : Nat) (f : PipeState → PipeState) : (s.modPipe n f).mem = s.mem := rfl
@[simp] theorem State.modPipe_wall (n : Nat) (f : PipeState → PipeState) : (s.modPipe n f).wall = s.wall := rfl
@[simp] theorem State.modPipe_fns (n : Nat) (f : PipeState → PipeState) : (s.modPipe n f).fns = s.fns := rfl
@[simp] theorem State.modPipe_ports (n : Nat) (f : PipeState → PipeState) : (s.modPipe n f).ports = s.ports := rfl
@[simp] theorem State.modPipe_pkt (n : Nat) (f : PipeState → PipeState) : (s.modPipe n f).pkt = s.pkt := rfl
@[simp] theorem State.modPipe_mbq (n : Nat) (f : PipeState → PipeState) : (s.modPipe n f).mbq = s.mbq := rfl
@[simp] theorem State.modPipe_peat (n : Nat) (f : PipeState → PipeState) : (s.modPipe n f).peat = s.peat := rfl
@[simp] theorem State.modPipe_evt (n : Nat) (f : PipeState → PipeState) : (s.modPipe n f).evt = s.evt := rfl
@[simp] theorem State.modPipe_supv (n : Nat) (f : PipeState → PipeState) : (s.modPipe n f).supv = s.supv := rfl
@[simp] theorem State.modPipe_world (n : Nat) (f : PipeState → PipeState) : (s.modPipe n f).world = s.world := rfl
@[simp] theorem State.modPipe_cu (n : Nat) (f : PipeState → PipeState) : (s.modPipe n f).cu = s.cu := rfl
@[simp] theorem State.modPipe_power (n : Nat) (f : PipeState → PipeState) : (s.modPipe n f).power = s.power := rfl
@[simp] theorem State.modPipe_gfx (n : Nat) (f : PipeState → PipeState) : (s.modPipe n f).gfx = s.gfx := rfl
@[simp] theorem State.modPipe_hap (n : Nat) (f : PipeState → PipeState) : (s.modPipe n f).hap = s.hap := rfl
@[simp] theorem State.modPipe_touch (n : Nat) (f : PipeState → PipeState) : (s.modPipe n f).touch = s.touch := rfl
@[simp] theorem State.modPipe_aud (n : Nat) (f : PipeState → PipeState) : (s.modPipe n f).aud = s.aud := rfl
@[simp] theorem State.modPipe_dramc (n : Nat) (f : PipeState → PipeState) : (s.modPipe n f).dramc = s.dramc := rfl
@[simp] theorem State.modPipe_staged (n : Nat) (f : PipeState → PipeState) : (s.modPipe n f).staged = s.staged := rfl
@[simp] theorem State.modPipe_out (n : Nat) (f : PipeState → PipeState) : (s.modPipe n f).out = s.out := rfl
@[simp] theorem State.modPipe_freeCtr (n : Nat) (f : PipeState → PipeState) : (s.modPipe n f).freeCtr = s.freeCtr := rfl
@[simp] theorem State.modPipe_pending (n : Nat) (f : PipeState → PipeState) : (s.modPipe n f).pending = s.pending := rfl

@[simp] theorem State.modWb_variant (u : Nat) (f : WbState → WbState) : (s.modWb u f).variant = s.variant := rfl
@[simp] theorem State.modWb_now (u : Nat) (f : WbState → WbState) : (s.modWb u f).now = s.now := rfl
@[simp] theorem State.modWb_regs (u : Nat) (f : WbState → WbState) : (s.modWb u f).regs = s.regs := rfl
@[simp] theorem State.modWb_mem (u : Nat) (f : WbState → WbState) : (s.modWb u f).mem = s.mem := rfl
@[simp] theorem State.modWb_wall (u : Nat) (f : WbState → WbState) : (s.modWb u f).wall = s.wall := rfl
@[simp] theorem State.modWb_fns (u : Nat) (f : WbState → WbState) : (s.modWb u f).fns = s.fns := rfl
@[simp] theorem State.modWb_ports (u : Nat) (f : WbState → WbState) : (s.modWb u f).ports = s.ports := rfl
@[simp] theorem State.modWb_pkt (u : Nat) (f : WbState → WbState) : (s.modWb u f).pkt = s.pkt := rfl
@[simp] theorem State.modWb_mbq (u : Nat) (f : WbState → WbState) : (s.modWb u f).mbq = s.mbq := rfl
@[simp] theorem State.modWb_peat (u : Nat) (f : WbState → WbState) : (s.modWb u f).peat = s.peat := rfl
@[simp] theorem State.modWb_evt (u : Nat) (f : WbState → WbState) : (s.modWb u f).evt = s.evt := rfl
@[simp] theorem State.modWb_supv (u : Nat) (f : WbState → WbState) : (s.modWb u f).supv = s.supv := rfl
@[simp] theorem State.modWb_world (u : Nat) (f : WbState → WbState) : (s.modWb u f).world = s.world := rfl
@[simp] theorem State.modWb_cu (u : Nat) (f : WbState → WbState) : (s.modWb u f).cu = s.cu := rfl
@[simp] theorem State.modWb_power (u : Nat) (f : WbState → WbState) : (s.modWb u f).power = s.power := rfl
@[simp] theorem State.modWb_gfx (u : Nat) (f : WbState → WbState) : (s.modWb u f).gfx = s.gfx := rfl
@[simp] theorem State.modWb_hap (u : Nat) (f : WbState → WbState) : (s.modWb u f).hap = s.hap := rfl
@[simp] theorem State.modWb_touch (u : Nat) (f : WbState → WbState) : (s.modWb u f).touch = s.touch := rfl
@[simp] theorem State.modWb_aud (u : Nat) (f : WbState → WbState) : (s.modWb u f).aud = s.aud := rfl
@[simp] theorem State.modWb_dramc (u : Nat) (f : WbState → WbState) : (s.modWb u f).dramc = s.dramc := rfl
@[simp] theorem State.modWb_staged (u : Nat) (f : WbState → WbState) : (s.modWb u f).staged = s.staged := rfl
@[simp] theorem State.modWb_out (u : Nat) (f : WbState → WbState) : (s.modWb u f).out = s.out := rfl
@[simp] theorem State.modWb_freeCtr (u : Nat) (f : WbState → WbState) : (s.modWb u f).freeCtr = s.freeCtr := rfl
@[simp] theorem State.modWb_pending (u : Nat) (f : WbState → WbState) : (s.modWb u f).pending = s.pending := rfl

@[simp] theorem State.modBus_variant (b : Nat) (f : AudBus → AudBus) : (s.modBus b f).variant = s.variant := rfl
@[simp] theorem State.modBus_now (b : Nat) (f : AudBus → AudBus) : (s.modBus b f).now = s.now := rfl
@[simp] theorem State.modBus_regs (b : Nat) (f : AudBus → AudBus) : (s.modBus b f).regs = s.regs := rfl
@[simp] theorem State.modBus_mem (b : Nat) (f : AudBus → AudBus) : (s.modBus b f).mem = s.mem := rfl
@[simp] theorem State.modBus_wall (b : Nat) (f : AudBus → AudBus) : (s.modBus b f).wall = s.wall := rfl
@[simp] theorem State.modBus_fns (b : Nat) (f : AudBus → AudBus) : (s.modBus b f).fns = s.fns := rfl
@[simp] theorem State.modBus_ports (b : Nat) (f : AudBus → AudBus) : (s.modBus b f).ports = s.ports := rfl
@[simp] theorem State.modBus_pkt (b : Nat) (f : AudBus → AudBus) : (s.modBus b f).pkt = s.pkt := rfl
@[simp] theorem State.modBus_mbq (b : Nat) (f : AudBus → AudBus) : (s.modBus b f).mbq = s.mbq := rfl
@[simp] theorem State.modBus_peat (b : Nat) (f : AudBus → AudBus) : (s.modBus b f).peat = s.peat := rfl
@[simp] theorem State.modBus_evt (b : Nat) (f : AudBus → AudBus) : (s.modBus b f).evt = s.evt := rfl
@[simp] theorem State.modBus_supv (b : Nat) (f : AudBus → AudBus) : (s.modBus b f).supv = s.supv := rfl
@[simp] theorem State.modBus_world (b : Nat) (f : AudBus → AudBus) : (s.modBus b f).world = s.world := rfl
@[simp] theorem State.modBus_cu (b : Nat) (f : AudBus → AudBus) : (s.modBus b f).cu = s.cu := rfl
@[simp] theorem State.modBus_power (b : Nat) (f : AudBus → AudBus) : (s.modBus b f).power = s.power := rfl
@[simp] theorem State.modBus_display (b : Nat) (f : AudBus → AudBus) : (s.modBus b f).display = s.display := rfl
@[simp] theorem State.modBus_gfx (b : Nat) (f : AudBus → AudBus) : (s.modBus b f).gfx = s.gfx := rfl
@[simp] theorem State.modBus_hap (b : Nat) (f : AudBus → AudBus) : (s.modBus b f).hap = s.hap := rfl
@[simp] theorem State.modBus_touch (b : Nat) (f : AudBus → AudBus) : (s.modBus b f).touch = s.touch := rfl
@[simp] theorem State.modBus_dramc (b : Nat) (f : AudBus → AudBus) : (s.modBus b f).dramc = s.dramc := rfl
@[simp] theorem State.modBus_staged (b : Nat) (f : AudBus → AudBus) : (s.modBus b f).staged = s.staged := rfl
@[simp] theorem State.modBus_out (b : Nat) (f : AudBus → AudBus) : (s.modBus b f).out = s.out := rfl
@[simp] theorem State.modBus_freeCtr (b : Nat) (f : AudBus → AudBus) : (s.modBus b f).freeCtr = s.freeCtr := rfl
@[simp] theorem State.modBus_pending (b : Nat) (f : AudBus → AudBus) : (s.modBus b f).pending = s.pending := rfl

@[simp] theorem State.modSink_variant (k : Nat) (f : AudSink → AudSink) : (s.modSink k f).variant = s.variant := rfl
@[simp] theorem State.modSink_now (k : Nat) (f : AudSink → AudSink) : (s.modSink k f).now = s.now := rfl
@[simp] theorem State.modSink_regs (k : Nat) (f : AudSink → AudSink) : (s.modSink k f).regs = s.regs := rfl
@[simp] theorem State.modSink_mem (k : Nat) (f : AudSink → AudSink) : (s.modSink k f).mem = s.mem := rfl
@[simp] theorem State.modSink_wall (k : Nat) (f : AudSink → AudSink) : (s.modSink k f).wall = s.wall := rfl
@[simp] theorem State.modSink_fns (k : Nat) (f : AudSink → AudSink) : (s.modSink k f).fns = s.fns := rfl
@[simp] theorem State.modSink_ports (k : Nat) (f : AudSink → AudSink) : (s.modSink k f).ports = s.ports := rfl
@[simp] theorem State.modSink_pkt (k : Nat) (f : AudSink → AudSink) : (s.modSink k f).pkt = s.pkt := rfl
@[simp] theorem State.modSink_mbq (k : Nat) (f : AudSink → AudSink) : (s.modSink k f).mbq = s.mbq := rfl
@[simp] theorem State.modSink_peat (k : Nat) (f : AudSink → AudSink) : (s.modSink k f).peat = s.peat := rfl
@[simp] theorem State.modSink_evt (k : Nat) (f : AudSink → AudSink) : (s.modSink k f).evt = s.evt := rfl
@[simp] theorem State.modSink_supv (k : Nat) (f : AudSink → AudSink) : (s.modSink k f).supv = s.supv := rfl
@[simp] theorem State.modSink_world (k : Nat) (f : AudSink → AudSink) : (s.modSink k f).world = s.world := rfl
@[simp] theorem State.modSink_cu (k : Nat) (f : AudSink → AudSink) : (s.modSink k f).cu = s.cu := rfl
@[simp] theorem State.modSink_power (k : Nat) (f : AudSink → AudSink) : (s.modSink k f).power = s.power := rfl
@[simp] theorem State.modSink_display (k : Nat) (f : AudSink → AudSink) : (s.modSink k f).display = s.display := rfl
@[simp] theorem State.modSink_gfx (k : Nat) (f : AudSink → AudSink) : (s.modSink k f).gfx = s.gfx := rfl
@[simp] theorem State.modSink_hap (k : Nat) (f : AudSink → AudSink) : (s.modSink k f).hap = s.hap := rfl
@[simp] theorem State.modSink_touch (k : Nat) (f : AudSink → AudSink) : (s.modSink k f).touch = s.touch := rfl
@[simp] theorem State.modSink_dramc (k : Nat) (f : AudSink → AudSink) : (s.modSink k f).dramc = s.dramc := rfl
@[simp] theorem State.modSink_staged (k : Nat) (f : AudSink → AudSink) : (s.modSink k f).staged = s.staged := rfl
@[simp] theorem State.modSink_out (k : Nat) (f : AudSink → AudSink) : (s.modSink k f).out = s.out := rfl
@[simp] theorem State.modSink_freeCtr (k : Nat) (f : AudSink → AudSink) : (s.modSink k f).freeCtr = s.freeCtr := rfl
@[simp] theorem State.modSink_pending (k : Nat) (f : AudSink → AudSink) : (s.modSink k f).pending = s.pending := rfl

@[simp] theorem State.modStream_variant (i : Nat) (f : AudStream → AudStream) : (s.modStream i f).variant = s.variant := rfl
@[simp] theorem State.modStream_now (i : Nat) (f : AudStream → AudStream) : (s.modStream i f).now = s.now := rfl
@[simp] theorem State.modStream_regs (i : Nat) (f : AudStream → AudStream) : (s.modStream i f).regs = s.regs := rfl
@[simp] theorem State.modStream_mem (i : Nat) (f : AudStream → AudStream) : (s.modStream i f).mem = s.mem := rfl
@[simp] theorem State.modStream_wall (i : Nat) (f : AudStream → AudStream) : (s.modStream i f).wall = s.wall := rfl
@[simp] theorem State.modStream_fns (i : Nat) (f : AudStream → AudStream) : (s.modStream i f).fns = s.fns := rfl
@[simp] theorem State.modStream_ports (i : Nat) (f : AudStream → AudStream) : (s.modStream i f).ports = s.ports := rfl
@[simp] theorem State.modStream_pkt (i : Nat) (f : AudStream → AudStream) : (s.modStream i f).pkt = s.pkt := rfl
@[simp] theorem State.modStream_mbq (i : Nat) (f : AudStream → AudStream) : (s.modStream i f).mbq = s.mbq := rfl
@[simp] theorem State.modStream_peat (i : Nat) (f : AudStream → AudStream) : (s.modStream i f).peat = s.peat := rfl
@[simp] theorem State.modStream_evt (i : Nat) (f : AudStream → AudStream) : (s.modStream i f).evt = s.evt := rfl
@[simp] theorem State.modStream_supv (i : Nat) (f : AudStream → AudStream) : (s.modStream i f).supv = s.supv := rfl
@[simp] theorem State.modStream_world (i : Nat) (f : AudStream → AudStream) : (s.modStream i f).world = s.world := rfl
@[simp] theorem State.modStream_cu (i : Nat) (f : AudStream → AudStream) : (s.modStream i f).cu = s.cu := rfl
@[simp] theorem State.modStream_power (i : Nat) (f : AudStream → AudStream) : (s.modStream i f).power = s.power := rfl
@[simp] theorem State.modStream_display (i : Nat) (f : AudStream → AudStream) : (s.modStream i f).display = s.display := rfl
@[simp] theorem State.modStream_gfx (i : Nat) (f : AudStream → AudStream) : (s.modStream i f).gfx = s.gfx := rfl
@[simp] theorem State.modStream_hap (i : Nat) (f : AudStream → AudStream) : (s.modStream i f).hap = s.hap := rfl
@[simp] theorem State.modStream_touch (i : Nat) (f : AudStream → AudStream) : (s.modStream i f).touch = s.touch := rfl
@[simp] theorem State.modStream_dramc (i : Nat) (f : AudStream → AudStream) : (s.modStream i f).dramc = s.dramc := rfl
@[simp] theorem State.modStream_staged (i : Nat) (f : AudStream → AudStream) : (s.modStream i f).staged = s.staged := rfl
@[simp] theorem State.modStream_out (i : Nat) (f : AudStream → AudStream) : (s.modStream i f).out = s.out := rfl
@[simp] theorem State.modStream_freeCtr (i : Nat) (f : AudStream → AudStream) : (s.modStream i f).freeCtr = s.freeCtr := rfl
@[simp] theorem State.modStream_pending (i : Nat) (f : AudStream → AudStream) : (s.modStream i f).pending = s.pending := rfl

@[simp] theorem State.modTone_variant (t : Nat) (f : AudTone → AudTone) : (s.modTone t f).variant = s.variant := rfl
@[simp] theorem State.modTone_now (t : Nat) (f : AudTone → AudTone) : (s.modTone t f).now = s.now := rfl
@[simp] theorem State.modTone_regs (t : Nat) (f : AudTone → AudTone) : (s.modTone t f).regs = s.regs := rfl
@[simp] theorem State.modTone_mem (t : Nat) (f : AudTone → AudTone) : (s.modTone t f).mem = s.mem := rfl
@[simp] theorem State.modTone_wall (t : Nat) (f : AudTone → AudTone) : (s.modTone t f).wall = s.wall := rfl
@[simp] theorem State.modTone_fns (t : Nat) (f : AudTone → AudTone) : (s.modTone t f).fns = s.fns := rfl
@[simp] theorem State.modTone_ports (t : Nat) (f : AudTone → AudTone) : (s.modTone t f).ports = s.ports := rfl
@[simp] theorem State.modTone_pkt (t : Nat) (f : AudTone → AudTone) : (s.modTone t f).pkt = s.pkt := rfl
@[simp] theorem State.modTone_mbq (t : Nat) (f : AudTone → AudTone) : (s.modTone t f).mbq = s.mbq := rfl
@[simp] theorem State.modTone_peat (t : Nat) (f : AudTone → AudTone) : (s.modTone t f).peat = s.peat := rfl
@[simp] theorem State.modTone_evt (t : Nat) (f : AudTone → AudTone) : (s.modTone t f).evt = s.evt := rfl
@[simp] theorem State.modTone_supv (t : Nat) (f : AudTone → AudTone) : (s.modTone t f).supv = s.supv := rfl
@[simp] theorem State.modTone_world (t : Nat) (f : AudTone → AudTone) : (s.modTone t f).world = s.world := rfl
@[simp] theorem State.modTone_cu (t : Nat) (f : AudTone → AudTone) : (s.modTone t f).cu = s.cu := rfl
@[simp] theorem State.modTone_power (t : Nat) (f : AudTone → AudTone) : (s.modTone t f).power = s.power := rfl
@[simp] theorem State.modTone_display (t : Nat) (f : AudTone → AudTone) : (s.modTone t f).display = s.display := rfl
@[simp] theorem State.modTone_gfx (t : Nat) (f : AudTone → AudTone) : (s.modTone t f).gfx = s.gfx := rfl
@[simp] theorem State.modTone_hap (t : Nat) (f : AudTone → AudTone) : (s.modTone t f).hap = s.hap := rfl
@[simp] theorem State.modTone_touch (t : Nat) (f : AudTone → AudTone) : (s.modTone t f).touch = s.touch := rfl
@[simp] theorem State.modTone_dramc (t : Nat) (f : AudTone → AudTone) : (s.modTone t f).dramc = s.dramc := rfl
@[simp] theorem State.modTone_staged (t : Nat) (f : AudTone → AudTone) : (s.modTone t f).staged = s.staged := rfl
@[simp] theorem State.modTone_out (t : Nat) (f : AudTone → AudTone) : (s.modTone t f).out = s.out := rfl
@[simp] theorem State.modTone_freeCtr (t : Nat) (f : AudTone → AudTone) : (s.modTone t f).freeCtr = s.freeCtr := rfl
@[simp] theorem State.modTone_pending (t : Nat) (f : AudTone → AudTone) : (s.modTone t f).pending = s.pending := rfl

@[simp] theorem State.modChan_variant (n : Nat) (f : HapChan → HapChan) : (s.modChan n f).variant = s.variant := rfl
@[simp] theorem State.modChan_now (n : Nat) (f : HapChan → HapChan) : (s.modChan n f).now = s.now := rfl
@[simp] theorem State.modChan_regs (n : Nat) (f : HapChan → HapChan) : (s.modChan n f).regs = s.regs := rfl
@[simp] theorem State.modChan_mem (n : Nat) (f : HapChan → HapChan) : (s.modChan n f).mem = s.mem := rfl
@[simp] theorem State.modChan_wall (n : Nat) (f : HapChan → HapChan) : (s.modChan n f).wall = s.wall := rfl
@[simp] theorem State.modChan_fns (n : Nat) (f : HapChan → HapChan) : (s.modChan n f).fns = s.fns := rfl
@[simp] theorem State.modChan_ports (n : Nat) (f : HapChan → HapChan) : (s.modChan n f).ports = s.ports := rfl
@[simp] theorem State.modChan_pkt (n : Nat) (f : HapChan → HapChan) : (s.modChan n f).pkt = s.pkt := rfl
@[simp] theorem State.modChan_mbq (n : Nat) (f : HapChan → HapChan) : (s.modChan n f).mbq = s.mbq := rfl
@[simp] theorem State.modChan_peat (n : Nat) (f : HapChan → HapChan) : (s.modChan n f).peat = s.peat := rfl
@[simp] theorem State.modChan_evt (n : Nat) (f : HapChan → HapChan) : (s.modChan n f).evt = s.evt := rfl
@[simp] theorem State.modChan_supv (n : Nat) (f : HapChan → HapChan) : (s.modChan n f).supv = s.supv := rfl
@[simp] theorem State.modChan_world (n : Nat) (f : HapChan → HapChan) : (s.modChan n f).world = s.world := rfl
@[simp] theorem State.modChan_cu (n : Nat) (f : HapChan → HapChan) : (s.modChan n f).cu = s.cu := rfl
@[simp] theorem State.modChan_power (n : Nat) (f : HapChan → HapChan) : (s.modChan n f).power = s.power := rfl
@[simp] theorem State.modChan_display (n : Nat) (f : HapChan → HapChan) : (s.modChan n f).display = s.display := rfl
@[simp] theorem State.modChan_gfx (n : Nat) (f : HapChan → HapChan) : (s.modChan n f).gfx = s.gfx := rfl
@[simp] theorem State.modChan_touch (n : Nat) (f : HapChan → HapChan) : (s.modChan n f).touch = s.touch := rfl
@[simp] theorem State.modChan_aud (n : Nat) (f : HapChan → HapChan) : (s.modChan n f).aud = s.aud := rfl
@[simp] theorem State.modChan_dramc (n : Nat) (f : HapChan → HapChan) : (s.modChan n f).dramc = s.dramc := rfl
@[simp] theorem State.modChan_staged (n : Nat) (f : HapChan → HapChan) : (s.modChan n f).staged = s.staged := rfl
@[simp] theorem State.modChan_out (n : Nat) (f : HapChan → HapChan) : (s.modChan n f).out = s.out := rfl
@[simp] theorem State.modChan_freeCtr (n : Nat) (f : HapChan → HapChan) : (s.modChan n f).freeCtr = s.freeCtr := rfl
@[simp] theorem State.modChan_pending (n : Nat) (f : HapChan → HapChan) : (s.modChan n f).pending = s.pending := rfl

@[simp] theorem State.modPlay_variant (n : Nat) (f : HapPlay → HapPlay) : (s.modPlay n f).variant = s.variant := rfl
@[simp] theorem State.modPlay_now (n : Nat) (f : HapPlay → HapPlay) : (s.modPlay n f).now = s.now := rfl
@[simp] theorem State.modPlay_regs (n : Nat) (f : HapPlay → HapPlay) : (s.modPlay n f).regs = s.regs := rfl
@[simp] theorem State.modPlay_mem (n : Nat) (f : HapPlay → HapPlay) : (s.modPlay n f).mem = s.mem := rfl
@[simp] theorem State.modPlay_wall (n : Nat) (f : HapPlay → HapPlay) : (s.modPlay n f).wall = s.wall := rfl
@[simp] theorem State.modPlay_fns (n : Nat) (f : HapPlay → HapPlay) : (s.modPlay n f).fns = s.fns := rfl
@[simp] theorem State.modPlay_ports (n : Nat) (f : HapPlay → HapPlay) : (s.modPlay n f).ports = s.ports := rfl
@[simp] theorem State.modPlay_pkt (n : Nat) (f : HapPlay → HapPlay) : (s.modPlay n f).pkt = s.pkt := rfl
@[simp] theorem State.modPlay_mbq (n : Nat) (f : HapPlay → HapPlay) : (s.modPlay n f).mbq = s.mbq := rfl
@[simp] theorem State.modPlay_peat (n : Nat) (f : HapPlay → HapPlay) : (s.modPlay n f).peat = s.peat := rfl
@[simp] theorem State.modPlay_evt (n : Nat) (f : HapPlay → HapPlay) : (s.modPlay n f).evt = s.evt := rfl
@[simp] theorem State.modPlay_supv (n : Nat) (f : HapPlay → HapPlay) : (s.modPlay n f).supv = s.supv := rfl
@[simp] theorem State.modPlay_world (n : Nat) (f : HapPlay → HapPlay) : (s.modPlay n f).world = s.world := rfl
@[simp] theorem State.modPlay_cu (n : Nat) (f : HapPlay → HapPlay) : (s.modPlay n f).cu = s.cu := rfl
@[simp] theorem State.modPlay_power (n : Nat) (f : HapPlay → HapPlay) : (s.modPlay n f).power = s.power := rfl
@[simp] theorem State.modPlay_display (n : Nat) (f : HapPlay → HapPlay) : (s.modPlay n f).display = s.display := rfl
@[simp] theorem State.modPlay_gfx (n : Nat) (f : HapPlay → HapPlay) : (s.modPlay n f).gfx = s.gfx := rfl
@[simp] theorem State.modPlay_touch (n : Nat) (f : HapPlay → HapPlay) : (s.modPlay n f).touch = s.touch := rfl
@[simp] theorem State.modPlay_aud (n : Nat) (f : HapPlay → HapPlay) : (s.modPlay n f).aud = s.aud := rfl
@[simp] theorem State.modPlay_dramc (n : Nat) (f : HapPlay → HapPlay) : (s.modPlay n f).dramc = s.dramc := rfl
@[simp] theorem State.modPlay_staged (n : Nat) (f : HapPlay → HapPlay) : (s.modPlay n f).staged = s.staged := rfl
@[simp] theorem State.modPlay_out (n : Nat) (f : HapPlay → HapPlay) : (s.modPlay n f).out = s.out := rfl
@[simp] theorem State.modPlay_freeCtr (n : Nat) (f : HapPlay → HapPlay) : (s.modPlay n f).freeCtr = s.freeCtr := rfl
@[simp] theorem State.modPlay_pending (n : Nat) (f : HapPlay → HapPlay) : (s.modPlay n f).pending = s.pending := rfl

@[simp] theorem State.modGctx_variant (c : Nat) (f : GfxCtx → GfxCtx) : (s.modGctx c f).variant = s.variant := rfl
@[simp] theorem State.modGctx_now (c : Nat) (f : GfxCtx → GfxCtx) : (s.modGctx c f).now = s.now := rfl
@[simp] theorem State.modGctx_regs (c : Nat) (f : GfxCtx → GfxCtx) : (s.modGctx c f).regs = s.regs := rfl
@[simp] theorem State.modGctx_mem (c : Nat) (f : GfxCtx → GfxCtx) : (s.modGctx c f).mem = s.mem := rfl
@[simp] theorem State.modGctx_wall (c : Nat) (f : GfxCtx → GfxCtx) : (s.modGctx c f).wall = s.wall := rfl
@[simp] theorem State.modGctx_fns (c : Nat) (f : GfxCtx → GfxCtx) : (s.modGctx c f).fns = s.fns := rfl
@[simp] theorem State.modGctx_ports (c : Nat) (f : GfxCtx → GfxCtx) : (s.modGctx c f).ports = s.ports := rfl
@[simp] theorem State.modGctx_pkt (c : Nat) (f : GfxCtx → GfxCtx) : (s.modGctx c f).pkt = s.pkt := rfl
@[simp] theorem State.modGctx_mbq (c : Nat) (f : GfxCtx → GfxCtx) : (s.modGctx c f).mbq = s.mbq := rfl
@[simp] theorem State.modGctx_peat (c : Nat) (f : GfxCtx → GfxCtx) : (s.modGctx c f).peat = s.peat := rfl
@[simp] theorem State.modGctx_evt (c : Nat) (f : GfxCtx → GfxCtx) : (s.modGctx c f).evt = s.evt := rfl
@[simp] theorem State.modGctx_supv (c : Nat) (f : GfxCtx → GfxCtx) : (s.modGctx c f).supv = s.supv := rfl
@[simp] theorem State.modGctx_world (c : Nat) (f : GfxCtx → GfxCtx) : (s.modGctx c f).world = s.world := rfl
@[simp] theorem State.modGctx_cu (c : Nat) (f : GfxCtx → GfxCtx) : (s.modGctx c f).cu = s.cu := rfl
@[simp] theorem State.modGctx_power (c : Nat) (f : GfxCtx → GfxCtx) : (s.modGctx c f).power = s.power := rfl
@[simp] theorem State.modGctx_display (c : Nat) (f : GfxCtx → GfxCtx) : (s.modGctx c f).display = s.display := rfl
@[simp] theorem State.modGctx_hap (c : Nat) (f : GfxCtx → GfxCtx) : (s.modGctx c f).hap = s.hap := rfl
@[simp] theorem State.modGctx_touch (c : Nat) (f : GfxCtx → GfxCtx) : (s.modGctx c f).touch = s.touch := rfl
@[simp] theorem State.modGctx_aud (c : Nat) (f : GfxCtx → GfxCtx) : (s.modGctx c f).aud = s.aud := rfl
@[simp] theorem State.modGctx_dramc (c : Nat) (f : GfxCtx → GfxCtx) : (s.modGctx c f).dramc = s.dramc := rfl
@[simp] theorem State.modGctx_staged (c : Nat) (f : GfxCtx → GfxCtx) : (s.modGctx c f).staged = s.staged := rfl
@[simp] theorem State.modGctx_out (c : Nat) (f : GfxCtx → GfxCtx) : (s.modGctx c f).out = s.out := rfl
@[simp] theorem State.modGctx_freeCtr (c : Nat) (f : GfxCtx → GfxCtx) : (s.modGctx c f).freeCtr = s.freeCtr := rfl
@[simp] theorem State.modGctx_pending (c : Nat) (f : GfxCtx → GfxCtx) : (s.modGctx c f).pending = s.pending := rfl

@[simp] theorem State.modJob_variant (n : Nat) (f : CompJob → CompJob) : (s.modJob n f).variant = s.variant := rfl
@[simp] theorem State.modJob_now (n : Nat) (f : CompJob → CompJob) : (s.modJob n f).now = s.now := rfl
@[simp] theorem State.modJob_regs (n : Nat) (f : CompJob → CompJob) : (s.modJob n f).regs = s.regs := rfl
@[simp] theorem State.modJob_mem (n : Nat) (f : CompJob → CompJob) : (s.modJob n f).mem = s.mem := rfl
@[simp] theorem State.modJob_wall (n : Nat) (f : CompJob → CompJob) : (s.modJob n f).wall = s.wall := rfl
@[simp] theorem State.modJob_fns (n : Nat) (f : CompJob → CompJob) : (s.modJob n f).fns = s.fns := rfl
@[simp] theorem State.modJob_ports (n : Nat) (f : CompJob → CompJob) : (s.modJob n f).ports = s.ports := rfl
@[simp] theorem State.modJob_pkt (n : Nat) (f : CompJob → CompJob) : (s.modJob n f).pkt = s.pkt := rfl
@[simp] theorem State.modJob_mbq (n : Nat) (f : CompJob → CompJob) : (s.modJob n f).mbq = s.mbq := rfl
@[simp] theorem State.modJob_peat (n : Nat) (f : CompJob → CompJob) : (s.modJob n f).peat = s.peat := rfl
@[simp] theorem State.modJob_evt (n : Nat) (f : CompJob → CompJob) : (s.modJob n f).evt = s.evt := rfl
@[simp] theorem State.modJob_supv (n : Nat) (f : CompJob → CompJob) : (s.modJob n f).supv = s.supv := rfl
@[simp] theorem State.modJob_world (n : Nat) (f : CompJob → CompJob) : (s.modJob n f).world = s.world := rfl
@[simp] theorem State.modJob_cu (n : Nat) (f : CompJob → CompJob) : (s.modJob n f).cu = s.cu := rfl
@[simp] theorem State.modJob_power (n : Nat) (f : CompJob → CompJob) : (s.modJob n f).power = s.power := rfl
@[simp] theorem State.modJob_display (n : Nat) (f : CompJob → CompJob) : (s.modJob n f).display = s.display := rfl
@[simp] theorem State.modJob_hap (n : Nat) (f : CompJob → CompJob) : (s.modJob n f).hap = s.hap := rfl
@[simp] theorem State.modJob_touch (n : Nat) (f : CompJob → CompJob) : (s.modJob n f).touch = s.touch := rfl
@[simp] theorem State.modJob_aud (n : Nat) (f : CompJob → CompJob) : (s.modJob n f).aud = s.aud := rfl
@[simp] theorem State.modJob_dramc (n : Nat) (f : CompJob → CompJob) : (s.modJob n f).dramc = s.dramc := rfl
@[simp] theorem State.modJob_staged (n : Nat) (f : CompJob → CompJob) : (s.modJob n f).staged = s.staged := rfl
@[simp] theorem State.modJob_out (n : Nat) (f : CompJob → CompJob) : (s.modJob n f).out = s.out := rfl
@[simp] theorem State.modJob_freeCtr (n : Nat) (f : CompJob → CompJob) : (s.modJob n f).freeCtr = s.freeCtr := rfl
@[simp] theorem State.modJob_pending (n : Nat) (f : CompJob → CompJob) : (s.modJob n f).pending = s.pending := rfl

@[simp] theorem State.modLink_head (p : Nat) (f : LinkState → LinkState) (k : Nat) : (s.modLink p f).head k = s.head k := rfl
@[simp] theorem State.modSpare_head (f : SpareState → SpareState) (k : Nat) : (s.modSpare f).head k = s.head k := rfl
@[simp] theorem State.modPipe_head (n : Nat) (f : PipeState → PipeState) (k : Nat) : (s.modPipe n f).head k = s.head k := rfl
@[simp] theorem State.modWb_head (u : Nat) (f : WbState → WbState) (k : Nat) : (s.modWb u f).head k = s.head k := rfl
@[simp] theorem State.modHead_link (n : Nat) (f : HeadState → HeadState) (k : Nat) : (s.modHead n f).link k = s.link k := rfl
@[simp] theorem State.modFrame_link (n : Nat) (f : FrameFacts → FrameFacts) (k : Nat) : (s.modFrame n f).link k = s.link k := rfl
@[simp] theorem State.modSpare_link (f : SpareState → SpareState) (k : Nat) : (s.modSpare f).link k = s.link k := rfl
@[simp] theorem State.modPipe_link (n : Nat) (f : PipeState → PipeState) (k : Nat) : (s.modPipe n f).link k = s.link k := rfl
@[simp] theorem State.modWb_link (u : Nat) (f : WbState → WbState) (k : Nat) : (s.modWb u f).link k = s.link k := rfl
@[simp] theorem State.modHead_pipe (n : Nat) (f : HeadState → HeadState) (k : Nat) : (s.modHead n f).pipe k = s.pipe k := rfl
@[simp] theorem State.modFrame_pipe (n : Nat) (f : FrameFacts → FrameFacts) (k : Nat) : (s.modFrame n f).pipe k = s.pipe k := rfl
@[simp] theorem State.modLink_pipe (p : Nat) (f : LinkState → LinkState) (k : Nat) : (s.modLink p f).pipe k = s.pipe k := rfl
@[simp] theorem State.modSpare_pipe (f : SpareState → SpareState) (k : Nat) : (s.modSpare f).pipe k = s.pipe k := rfl
@[simp] theorem State.modWb_pipe (u : Nat) (f : WbState → WbState) (k : Nat) : (s.modWb u f).pipe k = s.pipe k := rfl
@[simp] theorem State.modHead_wb (n : Nat) (f : HeadState → HeadState) (k : Nat) : (s.modHead n f).wb k = s.wb k := rfl
@[simp] theorem State.modFrame_wb (n : Nat) (f : FrameFacts → FrameFacts) (k : Nat) : (s.modFrame n f).wb k = s.wb k := rfl
@[simp] theorem State.modLink_wb (p : Nat) (f : LinkState → LinkState) (k : Nat) : (s.modLink p f).wb k = s.wb k := rfl
@[simp] theorem State.modSpare_wb (f : SpareState → SpareState) (k : Nat) : (s.modSpare f).wb k = s.wb k := rfl
@[simp] theorem State.modPipe_wb (n : Nat) (f : PipeState → PipeState) (k : Nat) : (s.modPipe n f).wb k = s.wb k := rfl
@[simp] theorem State.modHead_spare (n : Nat) (f : HeadState → HeadState) : (s.modHead n f).spare = s.spare := rfl
@[simp] theorem State.modFrame_spare (n : Nat) (f : FrameFacts → FrameFacts) : (s.modFrame n f).spare = s.spare := rfl
@[simp] theorem State.modLink_spare (p : Nat) (f : LinkState → LinkState) : (s.modLink p f).spare = s.spare := rfl
@[simp] theorem State.modPipe_spare (n : Nat) (f : PipeState → PipeState) : (s.modPipe n f).spare = s.spare := rfl
@[simp] theorem State.modWb_spare (u : Nat) (f : WbState → WbState) : (s.modWb u f).spare = s.spare := rfl

/-! ### Two changes of one part -/

theorem State.modHead_modHead (n : Nat) (f1 f2 : HeadState → HeadState) : (s.modHead n f1).modHead n f2 = s.modHead n fun x => f2 (f1 x) := by
  simp only [State.modHead, State.modDisplay, modAt_modAt]
theorem State.modLink_modLink (p : Nat) (f1 f2 : LinkState → LinkState) : (s.modLink p f1).modLink p f2 = s.modLink p fun x => f2 (f1 x) := by
  simp only [State.modLink, State.modDisplay, modAt_modAt]
theorem State.modPipe_modPipe (n : Nat) (f1 f2 : PipeState → PipeState) : (s.modPipe n f1).modPipe n f2 = s.modPipe n fun x => f2 (f1 x) := by
  simp only [State.modPipe, State.modDisplay, modAt_modAt]
theorem State.modWb_modWb (u : Nat) (f1 f2 : WbState → WbState) : (s.modWb u f1).modWb u f2 = s.modWb u fun x => f2 (f1 x) := by
  simp only [State.modWb, State.modDisplay, modAt_modAt]
theorem State.modBus_modBus (b : Nat) (f1 f2 : AudBus → AudBus) : (s.modBus b f1).modBus b f2 = s.modBus b fun x => f2 (f1 x) := by
  simp only [State.modBus, State.modAud, modAt_modAt]
theorem State.modSink_modSink (k : Nat) (f1 f2 : AudSink → AudSink) : (s.modSink k f1).modSink k f2 = s.modSink k fun x => f2 (f1 x) := by
  simp only [State.modSink, State.modAud, modAt_modAt]
theorem State.modStream_modStream (i : Nat) (f1 f2 : AudStream → AudStream) : (s.modStream i f1).modStream i f2 = s.modStream i fun x => f2 (f1 x) := by
  simp only [State.modStream, State.modAud, modAt_modAt]
theorem State.modTone_modTone (t : Nat) (f1 f2 : AudTone → AudTone) : (s.modTone t f1).modTone t f2 = s.modTone t fun x => f2 (f1 x) := by
  simp only [State.modTone, State.modAud, modAt_modAt]
theorem State.modChan_modChan (n : Nat) (f1 f2 : HapChan → HapChan) : (s.modChan n f1).modChan n f2 = s.modChan n fun x => f2 (f1 x) := by
  simp only [State.modChan, State.modHap, modAt_modAt]
theorem State.modGctx_modGctx (c : Nat) (f1 f2 : GfxCtx → GfxCtx) : (s.modGctx c f1).modGctx c f2 = s.modGctx c fun x => f2 (f1 x) := by
  simp only [State.modGctx, State.modGfx, modAt_modAt]
theorem State.modJob_modJob (n : Nat) (f1 f2 : CompJob → CompJob) : (s.modJob n f1).modJob n f2 = s.modJob n fun x => f2 (f1 x) := by
  simp only [State.modJob, State.modGfx, modAt_modAt]
theorem State.modFn_modFn (f : Nat) (f1 f2 : FnState → FnState) : (s.modFn f f1).modFn f f2 = s.modFn f fun x => f2 (f1 x) := by
  simp only [State.modFn, modAt_modAt]
theorem State.modHostPort_modHostPort (p : Nat) (f1 f2 : PortState → PortState) : (s.modHostPort p f1).modHostPort p f2 = s.modHostPort p fun x => f2 (f1 x) := by
  simp only [State.modHostPort, modAt_modAt]
theorem State.modPort_modPort (p : Nat) (f1 f2 : TouchPort → TouchPort) : (s.modPort p f1).modPort p f2 = s.modPort p fun x => f2 (f1 x) := by
  simp only [State.modPort, modAt_modAt]

/-! ### Registers apart from the parts -/

@[simp] theorem State.put_bus (x : RF) (v : Nat) (k : Nat) : (s.put x v).bus k = s.bus k := rfl
@[simp] theorem State.wr_bus (x : Reg) (v : W64) (k : Nat) : (s.wr x v).bus k = s.bus k := rfl
@[simp] theorem State.cold_bus (x : Reg) (k : Nat) : (s.cold x).bus k = s.bus k := rfl
@[simp] theorem State.putBit_bus (x : RF) (v : Bool) (k : Nat) : (s.putBit x v).bus k = s.bus k := rfl
@[simp] theorem State.putBitAt_bus (x : RF) (i : Nat) (v : Bool) (k : Nat) : (s.putBitAt x i v).bus k = s.bus k := rfl
@[simp] theorem State.bump_bus (x : RF) (k : Nat) : (s.bump x).bus k = s.bus k := rfl
@[simp] theorem State.bumpBy_bus (x : RF) (v : Nat) (k : Nat) : (s.bumpBy x v).bus k = s.bus k := rfl
@[simp] theorem State.emit_bus (x : Output) (k : Nat) : (s.emit x).bus k = s.bus k := rfl
@[simp] theorem State.put_sink (x : RF) (v : Nat) (k : Nat) : (s.put x v).sink k = s.sink k := rfl
@[simp] theorem State.wr_sink (x : Reg) (v : W64) (k : Nat) : (s.wr x v).sink k = s.sink k := rfl
@[simp] theorem State.cold_sink (x : Reg) (k : Nat) : (s.cold x).sink k = s.sink k := rfl
@[simp] theorem State.putBit_sink (x : RF) (v : Bool) (k : Nat) : (s.putBit x v).sink k = s.sink k := rfl
@[simp] theorem State.putBitAt_sink (x : RF) (i : Nat) (v : Bool) (k : Nat) : (s.putBitAt x i v).sink k = s.sink k := rfl
@[simp] theorem State.bump_sink (x : RF) (k : Nat) : (s.bump x).sink k = s.sink k := rfl
@[simp] theorem State.bumpBy_sink (x : RF) (v : Nat) (k : Nat) : (s.bumpBy x v).sink k = s.sink k := rfl
@[simp] theorem State.emit_sink (x : Output) (k : Nat) : (s.emit x).sink k = s.sink k := rfl
@[simp] theorem State.put_stream (x : RF) (v : Nat) (k : Nat) : (s.put x v).stream k = s.stream k := rfl
@[simp] theorem State.wr_stream (x : Reg) (v : W64) (k : Nat) : (s.wr x v).stream k = s.stream k := rfl
@[simp] theorem State.cold_stream (x : Reg) (k : Nat) : (s.cold x).stream k = s.stream k := rfl
@[simp] theorem State.putBit_stream (x : RF) (v : Bool) (k : Nat) : (s.putBit x v).stream k = s.stream k := rfl
@[simp] theorem State.putBitAt_stream (x : RF) (i : Nat) (v : Bool) (k : Nat) : (s.putBitAt x i v).stream k = s.stream k := rfl
@[simp] theorem State.bump_stream (x : RF) (k : Nat) : (s.bump x).stream k = s.stream k := rfl
@[simp] theorem State.bumpBy_stream (x : RF) (v : Nat) (k : Nat) : (s.bumpBy x v).stream k = s.stream k := rfl
@[simp] theorem State.emit_stream (x : Output) (k : Nat) : (s.emit x).stream k = s.stream k := rfl
@[simp] theorem State.put_tone (x : RF) (v : Nat) (k : Nat) : (s.put x v).tone k = s.tone k := rfl
@[simp] theorem State.wr_tone (x : Reg) (v : W64) (k : Nat) : (s.wr x v).tone k = s.tone k := rfl
@[simp] theorem State.cold_tone (x : Reg) (k : Nat) : (s.cold x).tone k = s.tone k := rfl
@[simp] theorem State.putBit_tone (x : RF) (v : Bool) (k : Nat) : (s.putBit x v).tone k = s.tone k := rfl
@[simp] theorem State.putBitAt_tone (x : RF) (i : Nat) (v : Bool) (k : Nat) : (s.putBitAt x i v).tone k = s.tone k := rfl
@[simp] theorem State.bump_tone (x : RF) (k : Nat) : (s.bump x).tone k = s.tone k := rfl
@[simp] theorem State.bumpBy_tone (x : RF) (v : Nat) (k : Nat) : (s.bumpBy x v).tone k = s.tone k := rfl
@[simp] theorem State.emit_tone (x : Output) (k : Nat) : (s.emit x).tone k = s.tone k := rfl
@[simp] theorem State.put_head (x : RF) (v : Nat) (k : Nat) : (s.put x v).head k = s.head k := rfl
@[simp] theorem State.wr_head (x : Reg) (v : W64) (k : Nat) : (s.wr x v).head k = s.head k := rfl
@[simp] theorem State.cold_head (x : Reg) (k : Nat) : (s.cold x).head k = s.head k := rfl
@[simp] theorem State.putBit_head (x : RF) (v : Bool) (k : Nat) : (s.putBit x v).head k = s.head k := rfl
@[simp] theorem State.putBitAt_head (x : RF) (i : Nat) (v : Bool) (k : Nat) : (s.putBitAt x i v).head k = s.head k := rfl
@[simp] theorem State.bump_head (x : RF) (k : Nat) : (s.bump x).head k = s.head k := rfl
@[simp] theorem State.bumpBy_head (x : RF) (v : Nat) (k : Nat) : (s.bumpBy x v).head k = s.head k := rfl
@[simp] theorem State.emit_head (x : Output) (k : Nat) : (s.emit x).head k = s.head k := rfl
@[simp] theorem State.put_link (x : RF) (v : Nat) (k : Nat) : (s.put x v).link k = s.link k := rfl
@[simp] theorem State.wr_link (x : Reg) (v : W64) (k : Nat) : (s.wr x v).link k = s.link k := rfl
@[simp] theorem State.cold_link (x : Reg) (k : Nat) : (s.cold x).link k = s.link k := rfl
@[simp] theorem State.putBit_link (x : RF) (v : Bool) (k : Nat) : (s.putBit x v).link k = s.link k := rfl
@[simp] theorem State.putBitAt_link (x : RF) (i : Nat) (v : Bool) (k : Nat) : (s.putBitAt x i v).link k = s.link k := rfl
@[simp] theorem State.bump_link (x : RF) (k : Nat) : (s.bump x).link k = s.link k := rfl
@[simp] theorem State.bumpBy_link (x : RF) (v : Nat) (k : Nat) : (s.bumpBy x v).link k = s.link k := rfl
@[simp] theorem State.emit_link (x : Output) (k : Nat) : (s.emit x).link k = s.link k := rfl
@[simp] theorem State.put_spare (x : RF) (v : Nat) : (s.put x v).spare = s.spare := rfl
@[simp] theorem State.wr_spare (x : Reg) (v : W64) : (s.wr x v).spare = s.spare := rfl
@[simp] theorem State.cold_spare (x : Reg) : (s.cold x).spare = s.spare := rfl
@[simp] theorem State.putBit_spare (x : RF) (v : Bool) : (s.putBit x v).spare = s.spare := rfl
@[simp] theorem State.putBitAt_spare (x : RF) (i : Nat) (v : Bool) : (s.putBitAt x i v).spare = s.spare := rfl
@[simp] theorem State.bump_spare (x : RF) : (s.bump x).spare = s.spare := rfl
@[simp] theorem State.bumpBy_spare (x : RF) (v : Nat) : (s.bumpBy x v).spare = s.spare := rfl
@[simp] theorem State.emit_spare (x : Output) : (s.emit x).spare = s.spare := rfl
@[simp] theorem State.put_pipe (x : RF) (v : Nat) (k : Nat) : (s.put x v).pipe k = s.pipe k := rfl
@[simp] theorem State.wr_pipe (x : Reg) (v : W64) (k : Nat) : (s.wr x v).pipe k = s.pipe k := rfl
@[simp] theorem State.cold_pipe (x : Reg) (k : Nat) : (s.cold x).pipe k = s.pipe k := rfl
@[simp] theorem State.putBit_pipe (x : RF) (v : Bool) (k : Nat) : (s.putBit x v).pipe k = s.pipe k := rfl
@[simp] theorem State.putBitAt_pipe (x : RF) (i : Nat) (v : Bool) (k : Nat) : (s.putBitAt x i v).pipe k = s.pipe k := rfl
@[simp] theorem State.bump_pipe (x : RF) (k : Nat) : (s.bump x).pipe k = s.pipe k := rfl
@[simp] theorem State.bumpBy_pipe (x : RF) (v : Nat) (k : Nat) : (s.bumpBy x v).pipe k = s.pipe k := rfl
@[simp] theorem State.emit_pipe (x : Output) (k : Nat) : (s.emit x).pipe k = s.pipe k := rfl
@[simp] theorem State.put_wb (x : RF) (v : Nat) (k : Nat) : (s.put x v).wb k = s.wb k := rfl
@[simp] theorem State.wr_wb (x : Reg) (v : W64) (k : Nat) : (s.wr x v).wb k = s.wb k := rfl
@[simp] theorem State.cold_wb (x : Reg) (k : Nat) : (s.cold x).wb k = s.wb k := rfl
@[simp] theorem State.putBit_wb (x : RF) (v : Bool) (k : Nat) : (s.putBit x v).wb k = s.wb k := rfl
@[simp] theorem State.putBitAt_wb (x : RF) (i : Nat) (v : Bool) (k : Nat) : (s.putBitAt x i v).wb k = s.wb k := rfl
@[simp] theorem State.bump_wb (x : RF) (k : Nat) : (s.bump x).wb k = s.wb k := rfl
@[simp] theorem State.bumpBy_wb (x : RF) (v : Nat) (k : Nat) : (s.bumpBy x v).wb k = s.wb k := rfl
@[simp] theorem State.emit_wb (x : Output) (k : Nat) : (s.emit x).wb k = s.wb k := rfl
@[simp] theorem State.put_gctx (x : RF) (v : Nat) (k : Nat) : (s.put x v).gctx k = s.gctx k := rfl
@[simp] theorem State.wr_gctx (x : Reg) (v : W64) (k : Nat) : (s.wr x v).gctx k = s.gctx k := rfl
@[simp] theorem State.cold_gctx (x : Reg) (k : Nat) : (s.cold x).gctx k = s.gctx k := rfl
@[simp] theorem State.putBit_gctx (x : RF) (v : Bool) (k : Nat) : (s.putBit x v).gctx k = s.gctx k := rfl
@[simp] theorem State.putBitAt_gctx (x : RF) (i : Nat) (v : Bool) (k : Nat) : (s.putBitAt x i v).gctx k = s.gctx k := rfl
@[simp] theorem State.bump_gctx (x : RF) (k : Nat) : (s.bump x).gctx k = s.gctx k := rfl
@[simp] theorem State.bumpBy_gctx (x : RF) (v : Nat) (k : Nat) : (s.bumpBy x v).gctx k = s.gctx k := rfl
@[simp] theorem State.emit_gctx (x : Output) (k : Nat) : (s.emit x).gctx k = s.gctx k := rfl
@[simp] theorem State.put_job (x : RF) (v : Nat) (k : Nat) : (s.put x v).job k = s.job k := rfl
@[simp] theorem State.wr_job (x : Reg) (v : W64) (k : Nat) : (s.wr x v).job k = s.job k := rfl
@[simp] theorem State.cold_job (x : Reg) (k : Nat) : (s.cold x).job k = s.job k := rfl
@[simp] theorem State.putBit_job (x : RF) (v : Bool) (k : Nat) : (s.putBit x v).job k = s.job k := rfl
@[simp] theorem State.putBitAt_job (x : RF) (i : Nat) (v : Bool) (k : Nat) : (s.putBitAt x i v).job k = s.job k := rfl
@[simp] theorem State.bump_job (x : RF) (k : Nat) : (s.bump x).job k = s.job k := rfl
@[simp] theorem State.bumpBy_job (x : RF) (v : Nat) (k : Nat) : (s.bumpBy x v).job k = s.job k := rfl
@[simp] theorem State.emit_job (x : Output) (k : Nat) : (s.emit x).job k = s.job k := rfl
@[simp] theorem State.put_chan (x : RF) (v : Nat) (k : Nat) : (s.put x v).chan k = s.chan k := rfl
@[simp] theorem State.wr_chan (x : Reg) (v : W64) (k : Nat) : (s.wr x v).chan k = s.chan k := rfl
@[simp] theorem State.cold_chan (x : Reg) (k : Nat) : (s.cold x).chan k = s.chan k := rfl
@[simp] theorem State.putBit_chan (x : RF) (v : Bool) (k : Nat) : (s.putBit x v).chan k = s.chan k := rfl
@[simp] theorem State.putBitAt_chan (x : RF) (i : Nat) (v : Bool) (k : Nat) : (s.putBitAt x i v).chan k = s.chan k := rfl
@[simp] theorem State.bump_chan (x : RF) (k : Nat) : (s.bump x).chan k = s.chan k := rfl
@[simp] theorem State.bumpBy_chan (x : RF) (v : Nat) (k : Nat) : (s.bumpBy x v).chan k = s.chan k := rfl
@[simp] theorem State.emit_chan (x : Output) (k : Nat) : (s.emit x).chan k = s.chan k := rfl
@[simp] theorem State.put_fn (x : RF) (v : Nat) (k : Nat) : (s.put x v).fn k = s.fn k := rfl
@[simp] theorem State.wr_fn (x : Reg) (v : W64) (k : Nat) : (s.wr x v).fn k = s.fn k := rfl
@[simp] theorem State.cold_fn (x : Reg) (k : Nat) : (s.cold x).fn k = s.fn k := rfl
@[simp] theorem State.putBit_fn (x : RF) (v : Bool) (k : Nat) : (s.putBit x v).fn k = s.fn k := rfl
@[simp] theorem State.putBitAt_fn (x : RF) (i : Nat) (v : Bool) (k : Nat) : (s.putBitAt x i v).fn k = s.fn k := rfl
@[simp] theorem State.bump_fn (x : RF) (k : Nat) : (s.bump x).fn k = s.fn k := rfl
@[simp] theorem State.bumpBy_fn (x : RF) (v : Nat) (k : Nat) : (s.bumpBy x v).fn k = s.fn k := rfl
@[simp] theorem State.emit_fn (x : Output) (k : Nat) : (s.emit x).fn k = s.fn k := rfl
@[simp] theorem State.put_tenant (x : RF) (v : Nat) (k : Nat) : (s.put x v).tenant k = s.tenant k := rfl
@[simp] theorem State.wr_tenant (x : Reg) (v : W64) (k : Nat) : (s.wr x v).tenant k = s.tenant k := rfl
@[simp] theorem State.cold_tenant (x : Reg) (k : Nat) : (s.cold x).tenant k = s.tenant k := rfl
@[simp] theorem State.putBit_tenant (x : RF) (v : Bool) (k : Nat) : (s.putBit x v).tenant k = s.tenant k := rfl
@[simp] theorem State.putBitAt_tenant (x : RF) (i : Nat) (v : Bool) (k : Nat) : (s.putBitAt x i v).tenant k = s.tenant k := rfl
@[simp] theorem State.bump_tenant (x : RF) (k : Nat) : (s.bump x).tenant k = s.tenant k := rfl
@[simp] theorem State.bumpBy_tenant (x : RF) (v : Nat) (k : Nat) : (s.bumpBy x v).tenant k = s.tenant k := rfl
@[simp] theorem State.emit_tenant (x : Output) (k : Nat) : (s.emit x).tenant k = s.tenant k := rfl
@[simp] theorem State.put_hostPort (x : RF) (v : Nat) (k : Nat) : (s.put x v).hostPort k = s.hostPort k := rfl
@[simp] theorem State.wr_hostPort (x : Reg) (v : W64) (k : Nat) : (s.wr x v).hostPort k = s.hostPort k := rfl
@[simp] theorem State.cold_hostPort (x : Reg) (k : Nat) : (s.cold x).hostPort k = s.hostPort k := rfl
@[simp] theorem State.putBit_hostPort (x : RF) (v : Bool) (k : Nat) : (s.putBit x v).hostPort k = s.hostPort k := rfl
@[simp] theorem State.putBitAt_hostPort (x : RF) (i : Nat) (v : Bool) (k : Nat) : (s.putBitAt x i v).hostPort k = s.hostPort k := rfl
@[simp] theorem State.bump_hostPort (x : RF) (k : Nat) : (s.bump x).hostPort k = s.hostPort k := rfl
@[simp] theorem State.bumpBy_hostPort (x : RF) (v : Nat) (k : Nat) : (s.bumpBy x v).hostPort k = s.hostPort k := rfl
@[simp] theorem State.emit_hostPort (x : Output) (k : Nat) : (s.emit x).hostPort k = s.hostPort k := rfl
@[simp] theorem State.put_epoch (x : RF) (v : Nat) (k : Nat) : (s.put x v).epoch k = s.epoch k := rfl
@[simp] theorem State.wr_epoch (x : Reg) (v : W64) (k : Nat) : (s.wr x v).epoch k = s.epoch k := rfl
@[simp] theorem State.cold_epoch (x : Reg) (k : Nat) : (s.cold x).epoch k = s.epoch k := rfl
@[simp] theorem State.putBit_epoch (x : RF) (v : Bool) (k : Nat) : (s.putBit x v).epoch k = s.epoch k := rfl
@[simp] theorem State.putBitAt_epoch (x : RF) (i : Nat) (v : Bool) (k : Nat) : (s.putBitAt x i v).epoch k = s.epoch k := rfl
@[simp] theorem State.bump_epoch (x : RF) (k : Nat) : (s.bump x).epoch k = s.epoch k := rfl
@[simp] theorem State.bumpBy_epoch (x : RF) (v : Nat) (k : Nat) : (s.bumpBy x v).epoch k = s.epoch k := rfl
@[simp] theorem State.emit_epoch (x : Output) (k : Nat) : (s.emit x).epoch k = s.epoch k := rfl

end Sys2Proof.Machine
end

