-- ==== Sys2Proof/Laws/Raise.lean ====
section
/-! SUPPORT. Laws of events: what raising an event changes, and what it leaves (R26, R436, R441, R453). -/
namespace Sys2Proof.Machine

variable (s : State)

/-! ### What an occurrence, a log record and an event leave as they were -/

@[simp] theorem State.occur_variant (e d : Nat) : (s.occur e d).variant = s.variant := by unfold State.occur; dsimp only; split <;> rfl
@[simp] theorem State.occur_now (e d : Nat) : (s.occur e d).now = s.now := by unfold State.occur; dsimp only; split <;> rfl
@[simp] theorem State.occur_mem (e d : Nat) : (s.occur e d).mem = s.mem := by unfold State.occur; dsimp only; split <;> rfl
@[simp] theorem State.occur_wall (e d : Nat) : (s.occur e d).wall = s.wall := by unfold State.occur; dsimp only; split <;> rfl
@[simp] theorem State.occur_fns (e d : Nat) : (s.occur e d).fns = s.fns := by unfold State.occur; dsimp only; split <;> rfl
@[simp] theorem State.occur_ports (e d : Nat) : (s.occur e d).ports = s.ports := by unfold State.occur; dsimp only; split <;> rfl
@[simp] theorem State.occur_pkt (e d : Nat) : (s.occur e d).pkt = s.pkt := by unfold State.occur; dsimp only; split <;> rfl
@[simp] theorem State.occur_mbq (e d : Nat) : (s.occur e d).mbq = s.mbq := by unfold State.occur; dsimp only; split <;> rfl
@[simp] theorem State.occur_supv (e d : Nat) : (s.occur e d).supv = s.supv := by unfold State.occur; dsimp only; split <;> rfl
@[simp] theorem State.occur_world (e d : Nat) : (s.occur e d).world = s.world := by unfold State.occur; dsimp only; split <;> rfl
@[simp] theorem State.occur_cu (e d : Nat) : (s.occur e d).cu = s.cu := by unfold State.occur; dsimp only; split <;> rfl
@[simp] theorem State.occur_power (e d : Nat) : (s.occur e d).power = s.power := by unfold State.occur; dsimp only; split <;> rfl
@[simp] theorem State.occur_display (e d : Nat) : (s.occur e d).display = s.display := by unfold State.occur; dsimp only; split <;> rfl
@[simp] theorem State.occur_gfx (e d : Nat) : (s.occur e d).gfx = s.gfx := by unfold State.occur; dsimp only; split <;> rfl
@[simp] theorem State.occur_hap (e d : Nat) : (s.occur e d).hap = s.hap := by unfold State.occur; dsimp only; split <;> rfl
@[simp] theorem State.occur_touch (e d : Nat) : (s.occur e d).touch = s.touch := by unfold State.occur; dsimp only; split <;> rfl
@[simp] theorem State.occur_aud (e d : Nat) : (s.occur e d).aud = s.aud := by unfold State.occur; dsimp only; split <;> rfl
@[simp] theorem State.occur_dramc (e d : Nat) : (s.occur e d).dramc = s.dramc := by unfold State.occur; dsimp only; split <;> rfl
@[simp] theorem State.occur_staged (e d : Nat) : (s.occur e d).staged = s.staged := by unfold State.occur; dsimp only; split <;> rfl
@[simp] theorem State.occur_out (e d : Nat) : (s.occur e d).out = s.out := by unfold State.occur; dsimp only; split <;> rfl
@[simp] theorem State.occur_freeCtr (e d : Nat) : (s.occur e d).freeCtr = s.freeCtr := by unfold State.occur; dsimp only; split <;> rfl
@[simp] theorem State.occur_pending (e d : Nat) : (s.occur e d).pending = s.pending := by unfold State.occur; dsimp only; split <;> rfl
@[simp] theorem State.unlogged_variant (k : Nat) : (s.unlogged k).variant = s.variant := by
  unfold State.unlogged; dsimp only; split <;> simp
@[simp] theorem State.unlogged_now (k : Nat) : (s.unlogged k).now = s.now := by
  unfold State.unlogged; dsimp only; split <;> simp
@[simp] theorem State.unlogged_mem (k : Nat) : (s.unlogged k).mem = s.mem := by
  unfold State.unlogged; dsimp only; split <;> simp
@[simp] theorem State.unlogged_wall (k : Nat) : (s.unlogged k).wall = s.wall := by
  unfold State.unlogged; dsimp only; split <;> simp
@[simp] theorem State.unlogged_fns (k : Nat) : (s.unlogged k).fns = s.fns := by
  unfold State.unlogged; dsimp only; split <;> simp
@[simp] theorem State.unlogged_ports (k : Nat) : (s.unlogged k).ports = s.ports := by
  unfold State.unlogged; dsimp only; split <;> simp
@[simp] theorem State.unlogged_pkt (k : Nat) : (s.unlogged k).pkt = s.pkt := by
  unfold State.unlogged; dsimp only; split <;> simp
@[simp] theorem State.unlogged_mbq (k : Nat) : (s.unlogged k).mbq = s.mbq := by
  unfold State.unlogged; dsimp only; split <;> simp
@[simp] theorem State.unlogged_supv (k : Nat) : (s.unlogged k).supv = s.supv := by
  unfold State.unlogged; dsimp only; split <;> simp
@[simp] theorem State.unlogged_world (k : Nat) : (s.unlogged k).world = s.world := by
  unfold State.unlogged; dsimp only; split <;> simp
@[simp] theorem State.unlogged_cu (k : Nat) : (s.unlogged k).cu = s.cu := by
  unfold State.unlogged; dsimp only; split <;> simp
@[simp] theorem State.unlogged_power (k : Nat) : (s.unlogged k).power = s.power := by
  unfold State.unlogged; dsimp only; split <;> simp
@[simp] theorem State.unlogged_display (k : Nat) : (s.unlogged k).display = s.display := by
  unfold State.unlogged; dsimp only; split <;> simp
@[simp] theorem State.unlogged_gfx (k : Nat) : (s.unlogged k).gfx = s.gfx := by
  unfold State.unlogged; dsimp only; split <;> simp
@[simp] theorem State.unlogged_hap (k : Nat) : (s.unlogged k).hap = s.hap := by
  unfold State.unlogged; dsimp only; split <;> simp
@[simp] theorem State.unlogged_touch (k : Nat) : (s.unlogged k).touch = s.touch := by
  unfold State.unlogged; dsimp only; split <;> simp
@[simp] theorem State.unlogged_aud (k : Nat) : (s.unlogged k).aud = s.aud := by
  unfold State.unlogged; dsimp only; split <;> simp
@[simp] theorem State.unlogged_dramc (k : Nat) : (s.unlogged k).dramc = s.dramc := by
  unfold State.unlogged; dsimp only; split <;> simp
@[simp] theorem State.unlogged_staged (k : Nat) : (s.unlogged k).staged = s.staged := by
  unfold State.unlogged; dsimp only; split <;> simp
@[simp] theorem State.unlogged_out (k : Nat) : (s.unlogged k).out = s.out := by
  unfold State.unlogged; dsimp only; split <;> simp
@[simp] theorem State.unlogged_freeCtr (k : Nat) : (s.unlogged k).freeCtr = s.freeCtr := by
  unfold State.unlogged; dsimp only; split <;> simp
@[simp] theorem State.unlogged_pending (k : Nat) : (s.unlogged k).pending = s.pending := by
  unfold State.unlogged; dsimp only; split <;> simp
@[simp] theorem State.log_variant (r : PeatRec) : (s.log r).1.variant = s.variant := by
  unfold State.log; split <;> simp
@[simp] theorem State.log_now (r : PeatRec) : (s.log r).1.now = s.now := by
  unfold State.log; split <;> simp
@[simp] theorem State.log_mem (r : PeatRec) : (s.log r).1.mem = s.mem := by
  unfold State.log; split <;> simp
@[simp] theorem State.log_wall (r : PeatRec) : (s.log r).1.wall = s.wall := by
  unfold State.log; split <;> simp
@[simp] theorem State.log_fns (r : PeatRec) : (s.log r).1.fns = s.fns := by
  unfold State.log; split <;> simp
@[simp] theorem State.log_ports (r : PeatRec) : (s.log r).1.ports = s.ports := by
  unfold State.log; split <;> simp
@[simp] theorem State.log_pkt (r : PeatRec) : (s.log r).1.pkt = s.pkt := by
  unfold State.log; split <;> simp
@[simp] theorem State.log_mbq (r : PeatRec) : (s.log r).1.mbq = s.mbq := by
  unfold State.log; split <;> simp
@[simp] theorem State.log_supv (r : PeatRec) : (s.log r).1.supv = s.supv := by
  unfold State.log; split <;> simp
@[simp] theorem State.log_world (r : PeatRec) : (s.log r).1.world = s.world := by
  unfold State.log; split <;> simp
@[simp] theorem State.log_cu (r : PeatRec) : (s.log r).1.cu = s.cu := by
  unfold State.log; split <;> simp
@[simp] theorem State.log_power (r : PeatRec) : (s.log r).1.power = s.power := by
  unfold State.log; split <;> simp
@[simp] theorem State.log_display (r : PeatRec) : (s.log r).1.display = s.display := by
  unfold State.log; split <;> simp
@[simp] theorem State.log_gfx (r : PeatRec) : (s.log r).1.gfx = s.gfx := by
  unfold State.log; split <;> simp
@[simp] theorem State.log_hap (r : PeatRec) : (s.log r).1.hap = s.hap := by
  unfold State.log; split <;> simp
@[simp] theorem State.log_touch (r : PeatRec) : (s.log r).1.touch = s.touch := by
  unfold State.log; split <;> simp
@[simp] theorem State.log_aud (r : PeatRec) : (s.log r).1.aud = s.aud := by
  unfold State.log; split <;> simp
@[simp] theorem State.log_dramc (r : PeatRec) : (s.log r).1.dramc = s.dramc := by
  unfold State.log; split <;> simp
@[simp] theorem State.log_staged (r : PeatRec) : (s.log r).1.staged = s.staged := by
  unfold State.log; split <;> simp
@[simp] theorem State.log_out (r : PeatRec) : (s.log r).1.out = s.out := by
  unfold State.log; split <;> simp
@[simp] theorem State.log_freeCtr (r : PeatRec) : (s.log r).1.freeCtr = s.freeCtr := by
  unfold State.log; split <;> simp
@[simp] theorem State.log_pending (r : PeatRec) : (s.log r).1.pending = s.pending := by
  unfold State.log; split <;> simp
@[simp] theorem State.raise_variant (e d : Nat) : (s.raise e d).variant = s.variant := by
  unfold State.raise; dsimp only; split <;> simp
@[simp] theorem State.raise_now (e d : Nat) : (s.raise e d).now = s.now := by
  unfold State.raise; dsimp only; split <;> simp
@[simp] theorem State.raise_mem (e d : Nat) : (s.raise e d).mem = s.mem := by
  unfold State.raise; dsimp only; split <;> simp
@[simp] theorem State.raise_wall (e d : Nat) : (s.raise e d).wall = s.wall := by
  unfold State.raise; dsimp only; split <;> simp
@[simp] theorem State.raise_fns (e d : Nat) : (s.raise e d).fns = s.fns := by
  unfold State.raise; dsimp only; split <;> simp
@[simp] theorem State.raise_ports (e d : Nat) : (s.raise e d).ports = s.ports := by
  unfold State.raise; dsimp only; split <;> simp
@[simp] theorem State.raise_pkt (e d : Nat) : (s.raise e d).pkt = s.pkt := by
  unfold State.raise; dsimp only; split <;> simp
@[simp] theorem State.raise_mbq (e d : Nat) : (s.raise e d).mbq = s.mbq := by
  unfold State.raise; dsimp only; split <;> simp
@[simp] theorem State.raise_supv (e d : Nat) : (s.raise e d).supv = s.supv := by
  unfold State.raise; dsimp only; split <;> simp
@[simp] theorem State.raise_world (e d : Nat) : (s.raise e d).world = s.world := by
  unfold State.raise; dsimp only; split <;> simp
@[simp] theorem State.raise_cu (e d : Nat) : (s.raise e d).cu = s.cu := by
  unfold State.raise; dsimp only; split <;> simp
@[simp] theorem State.raise_power (e d : Nat) : (s.raise e d).power = s.power := by
  unfold State.raise; dsimp only; split <;> simp
@[simp] theorem State.raise_display (e d : Nat) : (s.raise e d).display = s.display := by
  unfold State.raise; dsimp only; split <;> simp
@[simp] theorem State.raise_gfx (e d : Nat) : (s.raise e d).gfx = s.gfx := by
  unfold State.raise; dsimp only; split <;> simp
@[simp] theorem State.raise_hap (e d : Nat) : (s.raise e d).hap = s.hap := by
  unfold State.raise; dsimp only; split <;> simp
@[simp] theorem State.raise_touch (e d : Nat) : (s.raise e d).touch = s.touch := by
  unfold State.raise; dsimp only; split <;> simp
@[simp] theorem State.raise_aud (e d : Nat) : (s.raise e d).aud = s.aud := by
  unfold State.raise; dsimp only; split <;> simp
@[simp] theorem State.raise_dramc (e d : Nat) : (s.raise e d).dramc = s.dramc := by
  unfold State.raise; dsimp only; split <;> simp
@[simp] theorem State.raise_staged (e d : Nat) : (s.raise e d).staged = s.staged := by
  unfold State.raise; dsimp only; split <;> simp
@[simp] theorem State.raise_out (e d : Nat) : (s.raise e d).out = s.out := by
  unfold State.raise; dsimp only; split <;> simp
@[simp] theorem State.raise_freeCtr (e d : Nat) : (s.raise e d).freeCtr = s.freeCtr := by
  unfold State.raise; dsimp only; split <;> simp
@[simp] theorem State.raise_pending (e d : Nat) : (s.raise e d).pending = s.pending := by
  unfold State.raise; dsimp only; split <;> simp

/-! ### The registers -/

/-- A field outside the event counters and pending bits, and not of PEAT_UNLOGGED. -/
def RF.offEvents (f : RF) : Bool :=
  (Nat.ble (f.reg.addr + 1) 0x40200000 || Nat.ble 0x40201800 f.reg.addr) && !Nat.beq f.reg.addr 0x47000018

variable {s}

@[simp] theorem swf_occur (h : swf s.regs = true) (e d : Nat) : swf (s.occur e d).regs = true := by
  unfold State.occur; dsimp only; split <;> simp [State.putBitAt, State.bump, State.bumpBy, h]

@[simp] theorem swf_unlogged (h : swf s.regs = true) (k : Nat) : swf (s.unlogged k).regs = true := by
  unfold State.unlogged; dsimp only; split <;> simp [State.bump, State.bumpBy, h]

@[simp] theorem swf_log (h : swf s.regs = true) (r : PeatRec) : swf (s.log r).1.regs = true := by
  unfold State.log; split <;> simp [h]

@[simp] theorem swf_raise (h : swf s.regs = true) (e d : Nat) : swf (s.raise e d).regs = true := by
  unfold State.raise; dsimp only; split <;> simp [h]

/-- An occurrence of an event changes no field but its pending bit and its counter. -/
theorem get_occur (h : swf s.regs = true) {f : RF} (hf : f.offEvents = true) {e : Nat} (he : e < 512) (d : Nat) :
    (s.occur e d).get f = s.get f := by
  simp only [RF.offEvents, Bool.and_eq_true, Bool.or_eq_true, Nat.ble_eq] at hf
  have h1 : f.reg.addr ≠ (evtPend (e / 32)).addr := by simp only [evtPend]; omega
  have h2 : f.reg.addr ≠ (evtSrc e).addr := by simp only [evtSrc]; omega
  have h3 (t : State) (x : EvtState) : ({ t with evt := x } : State).get f = t.get f := rfl
  have h5 (t : State) (x : EvtState) (ht : swf t.regs = true) (g : RF) (hg : f.reg.addr ≠ g.reg.addr) :
      ({ t.bump g with evt := x } : State).get f = t.get f := by
    rw [h3]; unfold State.bump State.bumpBy; exact get_put_ne ht hg _
  have h6 : (s.putBitAt (evtPend_PEND (e / 32)) (e % 32) true).get f = s.get f := get_put_ne h h1 _
  unfold State.occur; dsimp only; split
  · rw [h5 _ _ (by simp [State.putBitAt, h]) _ h2, h6]
  · rw [h5 _ _ (by simp [State.putBitAt, h]) _ h2, h6]

theorem get_unlogged (h : swf s.regs = true) {f : RF} (hf : f.offEvents = true) (k : Nat) : (s.unlogged k).get f = s.get f := by
  have h3 : f.reg.addr ≠ peatUnlogged.addr := by
    simp only [RF.offEvents, Bool.and_eq_true, Bool.not_eq_true'] at hf
    intro e; rw [e] at hf; exact absurd hf.2 (by decide)
  unfold State.unlogged; dsimp only; split
  · show (State.bump _ _).get f = _
    unfold State.bump State.bumpBy; rw [get_put_ne h h3]
  · rw [get_occur (by show swf (State.bump _ _).regs = true; simp [State.bump, State.bumpBy, h]) hf (by omega)]
    show (State.bump _ _).get f = _
    unfold State.bump State.bumpBy; rw [get_put_ne h h3]

theorem get_log (h : swf s.regs = true) {f : RF} (hf : f.offEvents = true) (r : PeatRec) : (s.log r).1.get f = s.get f := by
  unfold State.log; split
  · rfl
  · exact get_unlogged h hf _

/-- Raising an event changes no register field outside the EVT block but PEAT_UNLOGGED, which counts a record that is lost. -/
theorem get_raise (h : swf s.regs = true) {f : RF} (hf : f.offEvents = true) {e : Nat} (he : e < 512) (d : Nat) :
    (s.raise e d).get f = s.get f := by
  unfold State.raise; dsimp only; split
  · rw [get_log (by simp [h]) hf, get_occur h hf he]
  · exact get_occur h hf he d

/-- A register read whole is its field of 64 bits. -/
theorem rd_of_get {s t : State} {r : Reg} (h : t.get ⟨r, 0, 64⟩ = s.get ⟨r, 0, 64⟩) : t.rd r = s.rd r := by
  unfold State.get at h
  simp only [Nat.pow_zero, Nat.div_one] at h
  rw [Nat.mod_eq_of_lt (t.rd r).isLt, Nat.mod_eq_of_lt (s.rd r).isLt] at h
  exact BitVec.eq_of_toNat_eq h

/-- Raising an event leaves every register outside the EVT block but PEAT_UNLOGGED as it was. -/
theorem rd_raise (h : swf s.regs = true) {r : Reg} (hf : RF.offEvents ⟨r, 0, 64⟩ = true) {e : Nat} (he : e < 512) (d : Nat) :
    (s.raise e d).rd r = s.rd r := rd_of_get (get_raise h hf he d)

end Sys2Proof.Machine
end

