-- ==== Sys2Proof/Laws/Replies.lean ====
section
/-! SUPPORT. Laws of replies: answering and recording a packet changes no register but those of the rings, of the PEAT block and of
the EVT block. -/
namespace Sys2Proof.Machine

variable {s : State}

/-- A field outside the EVT, PKT and PEAT blocks and outside the functions' registers. -/
def RF.offPackets (f : RF) : Bool :=
  (Nat.ble (f.reg.addr + 1) 0x40200000 || Nat.ble 0x40201800 f.reg.addr)
    && (Nat.ble (f.reg.addr + 1) 0x40500000 || Nat.ble 0x40600000 f.reg.addr)
    && (Nat.ble (f.reg.addr + 1) 0x47000000 || Nat.ble 0x48000000 f.reg.addr) && Nat.ble (f.reg.addr + 1) 0x1000000000000

theorem RF.offPackets_spec {f : RF} (h : f.offPackets = true) :
    (f.reg.addr < 0x40200000 ∨ 0x40201800 ≤ f.reg.addr) ∧ (f.reg.addr < 0x40500000 ∨ 0x40600000 ≤ f.reg.addr)
      ∧ (f.reg.addr < 0x47000000 ∨ 0x48000000 ≤ f.reg.addr) ∧ f.reg.addr < 0x1000000000000 := by
  simp only [RF.offPackets, Bool.and_eq_true, Bool.or_eq_true, Nat.ble_eq] at h
  omega

theorem RF.offPackets_events {f : RF} (h : f.offPackets = true) : f.offEvents = true := by
  obtain ⟨h1, _, h3, _⟩ := RF.offPackets_spec h
  simp only [RF.offEvents, Bool.and_eq_true, Bool.or_eq_true, Nat.ble_eq, Bool.not_eq_true']
  refine ⟨by omega, ?_⟩
  cases hb : Nat.beq f.reg.addr 0x47000018 with
  | false => rfl
  | true => have := Nat.eq_of_beq_eq_true hb; omega

@[simp] theorem swf_writeReply (h : swf s.regs = true) (r : Nat) (q : W32) (a : Answer) (t : W64) :
    swf (s.writeReply r q a t).regs = true := by
  unfold State.writeReply; dsimp only; split <;> simp [h]

theorem get_writeReply (h : swf s.regs = true) {f : RF} (hf : f.offPackets = true) {r : Nat} (hr : r < 34) (q : W32) (a : Answer)
    (t : W64) : (s.writeReply r q a t).get f = s.get f := by
  obtain ⟨_, h2, _, h4⟩ := RF.offPackets_spec hf
  have e : f.reg.addr ≠ (replyTail r).reg.addr := by
    unfold replyTail; split
    · simp only [fnRplTail_TAIL, fnRplTail]; omega
    · simp only [pktIrRplTail_TAIL, pktIrRplTail]; omega
  unfold State.writeReply; dsimp only
  split
  · rw [State.mirrorDue_get, State.emit_get, get_put_ne h e]
  · rw [State.store_get, State.emit_get, get_put_ne h e]

@[simp] theorem swf_answer (h : swf s.regs = true) (o : Origin) (a : Answer) (t : W64) : swf (s.answer o a t).regs = true := by
  unfold State.answer State.when; dsimp only
  split
  · exact h
  · split <;> simp [h]

theorem get_answer (h : swf s.regs = true) {f : RF} (hf : f.offPackets = true) {o : Origin} (hr : o.ring < 34) (a : Answer)
    (t : W64) : (s.answer o a t).get f = s.get f := by
  unfold State.answer State.when; dsimp only
  split
  · rfl
  · split
    · rw [State.signalFixed_get, get_writeReply h hf hr]
    · rw [get_writeReply h hf hr]

/-- A fold of puts to one row of registers. -/
theorem each_swf {α : Type} {l : List α} {g : State → α → State} (hg : ∀ (t : State) (x : α), swf t.regs = true → swf (g t x).regs = true)
    (h : swf s.regs = true) : swf (s.each l g).regs = true := by
  induction l generalizing s with
  | nil => exact h
  | cons a l ih => exact ih (hg s a h)

theorem each_get {α : Type} {l : List α} {g : State → α → State} {f : RF}
    (hg : ∀ (t : State) (x : α), swf t.regs = true → x ∈ l → swf (g t x).regs = true ∧ (g t x).get f = t.get f) (h : swf s.regs = true) :
    (s.each l g).get f = s.get f := by
  induction l generalizing s with
  | nil => rfl
  | cons a l ih =>
    have h1 := hg s a h (by simp)
    have h2 := ih (s := g s a) (fun t x ht hx => hg t x ht (by simp [hx])) h1.1
    exact h2.trans h1.2

@[simp] theorem swf_endScope (h : swf s.regs = true) (r : Nat) : swf (s.endScope r).regs = true := by
  unfold State.endScope; dsimp only
  refine each_swf (fun t x ht => ?_) h
  split
  · exact swf_put ht _ _
  · exact ht

theorem get_endScope (h : swf s.regs = true) {f : RF} (hf : f.offPackets = true) (r : Nat) : (s.endScope r).get f = s.get f := by
  obtain ⟨_, _, _, h4⟩ := RF.offPackets_spec hf
  unfold State.endScope; dsimp only
  refine (each_get (fun t x ht _ => ?_) (by exact h)).trans rfl
  split
  · exact ⟨swf_put ht _ _, get_put_ne ht (by simp only [peatScope_ACTIVE, peatScope]; omega) _⟩
  · exact ⟨ht, rfl⟩

/-- A record that cannot be written hands back the reply it carries. -/
theorem log_snd (s : State) (r : PeatRec) : (s.log r).2 = none ∨ (s.log r).2 = r.reply := by
  unfold State.log; split
  · exact .inl rfl
  · exact .inr rfl

@[simp] theorem swf_recordPacket (h : swf s.regs = true) (o : Origin) (st : Nat) (r : Option DueReply) :
    swf (s.recordPacket o st r).regs = true := by
  have h1 := swf_log h (s.packetRecord o st r)
  unfold State.recordPacket
  split <;> rename_i heq
  · rw [heq] at h1; exact swf_endScope h1 _
  · rw [heq] at h1; exact swf_answer h1 _ _ _

theorem get_recordPacket (h : swf s.regs = true) {f : RF} (hf : f.offPackets = true) (o : Origin) (st : Nat) {r : Option DueReply}
    (hr : ∀ d ∈ r, d.origin.ring < 34) : (s.recordPacket o st r).get f = s.get f := by
  have h1 := swf_log h (s.packetRecord o st r)
  have h2 := get_log h (RF.offPackets_events hf) (s.packetRecord o st r)
  have h3 := log_snd s (s.packetRecord o st r)
  unfold State.recordPacket
  split <;> rename_i heq
  · rw [heq] at h1 h2; rw [get_endScope h1 hf]; exact h2
  · rename_i d
    rw [heq] at h1 h2 h3
    have hd : some d = r := by
      rcases h3 with h3 | h3
      · cases h3
      · exact h3
    rw [get_answer h1 hf (hr d (by rw [← hd]; rfl))]; exact h2

@[simp] theorem swf_concludeAt (h : swf s.regs = true) (o : Origin) (a : Answer) (t : W64) : swf (s.concludeAt o a t).regs = true := by
  unfold State.concludeAt; split <;> simp [h]

@[simp] theorem swf_conclude (h : swf s.regs = true) (o : Origin) (a : Answer) : swf (s.conclude o a).regs = true :=
  swf_concludeAt h _ _ _

theorem get_concludeAt (h : swf s.regs = true) {f : RF} (hf : f.offPackets = true) {o : Origin} (hr : o.ring < 34) (a : Answer)
    (t : W64) : (s.concludeAt o a t).get f = s.get f := by
  unfold State.concludeAt; split
  · exact get_recordPacket h hf _ _ (by intro d hd; cases hd; exact hr)
  · exact get_answer h hf hr _ _

/-- Recording and answering a packet changes no field outside the EVT, PKT and PEAT blocks and the functions' registers. -/
theorem get_conclude (h : swf s.regs = true) {f : RF} (hf : f.offPackets = true) {o : Origin} (hr : o.ring < 34) (a : Answer) :
    (s.conclude o a).get f = s.get f := get_concludeAt h hf hr _ _

@[simp] theorem State.dropReply_regs (s : State) (o : Origin) : (s.dropReply o).regs = s.regs := by
  unfold State.dropReply State.when; dsimp only; split <;> split <;> rfl

@[simp] theorem State.dropReply_get (s : State) (o : Origin) (f : RF) : (s.dropReply o).get f = s.get f := by
  unfold State.get State.rd; rw [State.dropReply_regs]

@[simp] theorem State.defer_regs (s : State) (o : Origin) : (s.defer o).regs = s.regs := by
  unfold State.defer State.when; dsimp only; split <;> rfl

@[simp] theorem State.defer_get (s : State) (o : Origin) (f : RF) : (s.defer o).get f = s.get f := by
  unfold State.get State.rd; rw [State.defer_regs]

@[simp] theorem swf_settle (h : swf s.regs = true) (o : Origin) (a : Answer) : swf (s.settle o a).regs = true :=
  swf_concludeAt (by simpa using h) _ _ _

theorem get_settle (h : swf s.regs = true) {f : RF} (hf : f.offPackets = true) {o : Origin} (hr : o.ring < 34) (a : Answer) :
    (s.settle o a).get f = s.get f := by
  unfold State.settle State.settleAt
  rw [get_concludeAt (by simpa using h) hf hr, State.dropReply_get]

/-! ### Reading an entry -/

@[simp] theorem swf_readBy (h : swf s.regs = true) (p : Packet) : swf (readBy p s).regs = true := by
  unfold readBy State.consume State.expect State.putBitAt
  simp (maxDischargeDepth := 9) [reading, h]

/-- Reading an entry changes no register outside the PKT block and the functions' registers. -/
theorem get_readBy (h : swf s.regs = true) {f : RF} (hf : f.offPackets = true) (p : Packet) : (readBy p s).get f = s.get f := by
  obtain ⟨_, h2, _, h4⟩ := RF.offPackets_spec hf
  have hp := p.ring.isLt
  have e1 : f.reg.addr ≠ (ringHead p.ring.val).reg.addr := by
    unfold ringHead; split
    · simp only [fnCmdHead_HEAD, fnCmdHead]; omega
    · simp only [pktIrCmdHead_HEAD, pktIrCmdHead]; omega
  have e2 : f.reg.addr ≠ (pktSeq_EXPECT p.ring.val).reg.addr := by simp only [pktSeq_EXPECT, pktSeq]; omega
  have e3 : f.reg.addr ≠ pktSeqSet_SET.reg.addr := by simp only [pktSeqSet_SET, pktSeqSet]; omega
  have hr : swf (reading p s).regs = true := h
  have e4 (t : State) (x : PktState) : ({ t with pkt := x } : State).get f = t.get f := rfl
  unfold readBy State.consume State.expect State.putBitAt
  dsimp only
  rw [e4, get_put_ne (by simp (maxDischargeDepth := 9) [hr]) e1, get_put_ne (by simp [hr]) e3, get_put_ne hr e2]
  rfl

end Sys2Proof.Machine
end

