-- ==== Sys2Proof/WellFormed.lean ====
section
/-! DEFINITION. Which commands the outside can send: data as long as the interface carries, numbers within what is measured. The
machine gives every term a meaning; these checks name the terms that stand for no event at all. -/
namespace Sys2Proof

/-- A packet as a ring holds it: 12 reserved header bytes, and as many payload bytes as its length field says (R73, R78). -/
def Packet.framed (p : Packet) : Bool := p.reserved.length == 12 && p.payload.length == p.length.toNat

/-- A register access: a host reaches the 64 KiB of its BAR 0 alone (R42). -/
def Access.inReach (a : Access) : Bool :=
  match a.who with
  | .host _ => decide (a.addr.toNat < 0x10000)
  | _ => true

/-- Whether a value fits the width of an access. -/
def Access.holds (a : Access) (value : W64) : Bool :=
  match a.width with
  | .w8 => decide (value.toNat < 2 ^ 8)
  | .w16 => decide (value.toNat < 2 ^ 16)
  | .w32 => decide (value.toNat < 2 ^ 32)
  | .w64 => true

/-- A BAR 2 access carries at least one byte and at most 4,096; a read carries no data (R45). -/
def bar2Sized (data : List Byte) (len : Nat) (write : Bool) : Bool :=
  if write then decide (0 < data.length ∧ data.length ≤ 4096) else data.isEmpty && decide (0 < len)

/-- The results of the checks of a head's 16 rectangles, from each of the three places that compute them (R192 to R194). -/
def rectsSized (pin tap spare : List W32) : Bool := pin.length == 16 && tap.length == 16 && spare.length == 16

/-- A tile carries 32 rows of 32 pixels of 1, 2, 4 or 8 bytes. -/
def TileData.sized (t : TileData) : Bool := [1024, 2048, 4096, 8192].contains t.bytes.length

/-- The raw counts of a panel: 64 drive by 112 sense electrodes (R271). -/
def rawSized (raw : List W16) : Bool := raw.length == 7168

/-- Whether a command is well formed. -/
def Instr.wellFormed (i : Instr) : Bool :=
  match i with
  | .registerWrite a value => a.inReach && a.holds value
  | .registerRead a => a.inReach
  | .bar2Access _ _ data len write _ => bar2Sized data len.val write
  | .headVerdict _ pin tap spare _ => rectsSized pin tap spare
  | .touchWindowEnd _ _ raw _ _ => rawSized raw
  | .touchSelftestComplete _ raw _ _ bias => rawSized raw && bias.length == 112
  | .audioSample _ _ tdm _ => tdm.length == 8
  | .hotWindowEnd accesses last _ traffic => accesses.length == 8 && last.length == 8 && traffic.length == 32
  | .trainingSetPointDone runs => runs.length == 16
  | .endPass _ tiles => tiles.all TileData.sized
  | .rasterSet p | .syncSet p | .wallQuery p | .tenantCreate p | .tenantDestroy p | .tenantShare p | .funcReset p
  | .tenantQuery p | .homeSet p | .sysQuery p | .modeRequest p | .nop p | .seqSync p | .marginSet p | .caravanTime p
  | .caravanFence p | .caravanAbort p | .caravanQuery p | .caravanEnd p | .headTimingSet p | .headEnable p | .headDisable p
  | .portConfig p | .portRetrain p | .sinkRead p | .dsiConfig p | .headShow p | .headQuery p | .spareSet p | .spareTakeover p
  | .spareRestore p | .spareTest p | .layerList p | .layerSet p | .layerAddr p | .layerColour p | .layerQuery p | .wbSet p
  | .wbQuery p | .headOutputSet p | .headGammaSet p | .guardSet p | .freshTime p | .rectSet p | .rectExpect p | .emberSet p
  | .emberPalette p | .emberExpect p | .emberWrite p | .emberLoad p | .integCfg p | .integResume p | .rbSelftest p
  | .integQuery p | .ageQuery p | .ctxSet p | .gfxKick p | .ctxReset p | .ctxQuery p | .compile p | .deadlineSet p
  | .compSet p | .compTime p | .gfxQuery p | .passQuery p | .pickSet p | .pickScene p | .pickClasses p | .pickQuery p
  | .touchSet p | .zoneSet p | .touchSelftest p | .baselineStore p | .baselineReset p | .touchQuery p | .hapChannelSet p
  | .hapEffectSet p | .hapWaveWrite p | .hapPlay p | .hapStop p | .hapClear p | .hapQuery p | .audAssign p | .routeSet p
  | .busSet p | .eqSet p | .sinkSet p | .streamSet p | .streamKick p | .toneSet p | .tonePlayStart p | .tonePlayStop p
  | .tdmSet p | .audQuery p | .mbAllow p | .mbQuery p | .qSet p | .qQuery p | .lockTake p | .lockGive p | .memFreqSet p
  | .memRetrain p | .memRefPlan p | .memCfg p | .memQuery p | .wmarkSet p | .claimSet p | .debugSet p | .fuseBlow p
  | .worldQuery p | .cuJob p | .cuQuery p | .logQuery p | .logExport p | .logPolicy p | .logRelease p | .logMark p
  | .evtRoute p | .evtRingSet p | .evtQuery p | .supvPolicySet p | .supvQuery p | .moduleResetWarm p | .moduleResetCold p
  | .recoveryLoad p | .wakeSet p | .gpioSet p | .gpioRelease p | .powerQuery p => p.framed
  | .undefinedOpcode _ p => p.framed
  | .masterFrameStart | .houseSyncReference _ _ _ _ _ _ | .syncLost | .holdoverLimit | .wallApplyWrite _ _ | .wallNowRead _
  | .audNowRead _ | .linkUp _ _ _ | .linkDown _ | .hotReset _ | .functionLevelReset _ | .vfEnableChange _ _ _
  | .fnHeartbeatWrite _ _ | .portLinkLossTimeout _ | .heartbeatTimeout _ | .fnDoorbellWrite _ _ | .ringReadResume _
  | .tagTimeout _ | .resetSpacingEnd _ | .drainEnd _ | .funcResetComplete _ | .dramClearComplete _
  | .caravanValidationDone _ _ | .caravanExpired _ _ | .internalRingEnableWrite _ _ _ _ | .hpdPlug _ _ _ _ | .hpdUnplug _
  | .hpdIrq _ _ _ _ | .linkTrainAttemptEnd _ _ _ _ | .auxReadComplete _ _ _ | .teEdge _ | .teTimeout _ | .dsiErrPoll _ _
  | .headLatch _ | .headFrameStart _ | .headEnWrite _ _ _ | .headWallArmWrite _ _ | .engineDatapathFault _
  | .engineTimingWatchdog _ | .engineBistComplete _ _ | .spareTestComplete _ | .layerUnderrun _ _ _ | .layerFirstLine _ _
  | .wbCaptureComplete _ | .wbOverflow _ _ | .mirageEvaluation _ | .c0CheckComplete _ _ _ | .rbSelftestDue _
  | .rbSelftestComplete _ _ | .sinkCrcSample _ _ _ _ | .emberLoadComplete _ | .qtailWrite _ _ _ | .compileComplete _ _ _ _ _
  | .schedSliceExpiry | .ctxHang _ | .preemptionComplete _ _ | .commandBufferComplete _ | .fenceCounterUpdate _
  | .fenceWaitSatisfied _ | .compJobReady _ | .compWarn _ | .compJobComplete _ | .compDeadline _ | .drawPacketNop _ | .jump _
  | .callList _ | .setPipeline _ _ | .setDescriptors _ | .setBuffers _ | .setDynamic _ | .beginPass _ | .draw _ _
  | .drawIndexed _ _ | .drawIndirect _ _ | .dispatch _ _ | .dispatchIndirect _ _ | .barrier _ | .fenceSignal _ | .fenceWait _
  | .timestamp _ | .copy _ | .fill _ | .rayBatch _ | .pickComplete _ _ _ | .listenWindowEnd _ _ _ _ _ | .longTouch _ _
  | .baselineStoreComplete _ | .hapDriveEnd _ | .brakeEnd _ | .repeatGapEnd _ | .backEmfWindow _ _ _ _ _
  | .actuatorFaultDetect _ _ | .resistanceCheckComplete _ _ _ | .zcTimeoutExpiry _ _ | .tonePartEnd _
  | .streamPositionReport _ | .speakerFaultDetect _ _ | .mailboxPost _ _ _ | .mailboxPop _ _ _ | .queueRead _ _ _
  | .queueItemWrite _ _ _ | .queueHostDelivery _ | .lockRead _ _ | .lockReleaseWrite _ _ | .refreshSlot _ | .mr4TempRead _ _
  | .freqChangeLine | .freqChangeComplete | .fchgGoWrite _ _ | .patrolScrub _ _ _ | .rtLate _ | .dramInitClearDone
  | .regimeSwitchEnd | .cpcClockStop _ _ | .cpcClockRun _ _ | .cpcPowerOff _ _ | .cpcPowerOn _ _ | .domainPowerSlot _
  | .debugSessionAttach _ _ _ | .fuseBlowComplete | .cuDispatch _ | .cuDirectGo _ _ _ | .cuJobComplete _ | .peatRecordCommit
  | .summaryRecord | .peatWrapWrite _ _ | .logExportComplete _ | .evtRingEnableWrite _ _ _ | .eventHostDelivery _
  | .supvKickWrite _ _ | .supvWdExpired | .lockstepMismatch | .lockstepResetDelay | .rasterStall | .oscCompare _
  | .healthAHalfPeriod | .healthBFrame | .policyAlarmExpiry | .powerSlotEnd _ _ | .railFaultTimeout | .railFaultRetry
  | .bootRomChain _ _ _ _ _ _ | .vmainLowDetect _ | .vmainRecovery _ | .brownOut _ | .vstbyLossDetect | .vstbyGoodDetect
  | .thermalTrip | .thermalRestart | .dieTempSample _ _ | .resetNAssert | .warmNAssert | .warmResetReady _
  | .warmResetComplete | .wakeNAssert | .perstRisingEdge _ | .vmainWake | .dormantPowerDown | .sysCcKickWrite _ _
  | .ccWatchdogExpiry | .resetCmdWarm _ _ | .resetCmdCold _ _ | .swrstWrite _ _ | .swrstRelease _ | .swrstStuck _
  | .recoveryLoadComplete _ _ _ _ _ | .refreshDue _ | .expectedReferenceMissing | .cuDescriptorComplete _ _ | .powerOn
  | .firmwareImageCheck _ _ => true

end Sys2Proof
end

