-- ==== Sys2Proof/Tests/Slice0.lean ====
section
/-! SUPPORT. Tests: for every obligation with hypotheses, states and operands that meet them (`witness_<obligation>`), one clause each;
the spec's worked examples; and an ill-formed term for each check of `Instr.wellFormed`. -/
namespace Sys2Proof.Tests

-- One test after another: side by side their evaluations would need more threads than the sandbox gives.
set_option Elab.async false

open Sys2Proof Sys2Proof.Machine

/-- Registers set on a state. -/
def rig (s : State) (l : List (RF × Nat)) : State := l.foldl (fun s e => s.put e.1 e.2) s

/-- A machine in a mode whose ring `r` has `n` unread bytes and an empty reply ring. -/
def live (mode : Nat) (r : Fin 34) (n : Nat) : State :=
  rig { State.reset with
      power := { State.reset.power with stage := .working }
      pkt := { State.reset.pkt with tails := State.reset.pkt.tails.set r.val n } }
    [(sysMode_MODE, mode), (ringEn r.val, 1), (ringLog2 r.val, 13), (replyEn r.val, 1), (replyLog2 r.val, 12)]

/-- A payload of `n` bytes that are zero but for the little-endian numbers given by offset, width and value. -/
def bytesOf (n : Nat) (l : List (Nat × Nat × Nat)) : List Byte :=
  l.foldl (fun b e => b.take e.1 ++ leBytes e.2.1 e.2.2 ++ b.drop (e.1 + e.2.1)) (List.replicate n 0)

/-- A packet with a right trailer, of a caravan where `flags` bit 0 is set. -/
def memberOf (sp : OpSpec) (r : Fin 34) (flags : Byte) (caravan : W32) (target : Nat) (payload : List Byte) : Packet :=
  let p : Packet := { ring := r, version := 1, flags := flags, source := BitVec.ofNat 16 (ringSource r.val),
                      length := BitVec.ofNat 16 payload.length, seq := 0, caravan := caravan, target := BitVec.ofNat 32 target,
                      reserved := List.replicate 12 0, payload := payload, trailer := 0 }
  { p with trailer := BitVec.ofNat 32 (entryCrc p sp.opcode) }

/-- A packet that stands alone. -/
def packetOf (sp : OpSpec) (r : Fin 34) (target : Nat) (payload : List Byte) : Packet := memberOf sp r 0 0 target payload

/-- A tenant with no units. -/
def poor : Tenant :=
  { cls := 1, bar2 := true, contexts := [], heads := [], embers := 0, pipes := [], wbs := [], queues := [], mailboxes := [],
    locks := [], touches := [], haptics := [], streams := [], tones := [], emberBase := 0, emberBytes := 0, vectors := 32,
    shares := [0, 0, 0, 0], nextShares := [0, 0, 0, 0] }

/-- A scene of one node in function 0's DRAM, for its touch port 3 and queue 31. -/
def withScene (s : State) : State :=
  ((s.put (worldFnRange_SIZE 0) 1).modFn 0 fun x => { x with tenant := some { poor with touches := [3], queues := [31] } }).store dramBase
    (bytesOf 64 [(0, 1, 1), (4, 4, 1), (8, 8, dramBase), (16, 8, 64)])

/-- Head `n` has the timing of 1920 by 1080 at the master rate and a port that carries it. -/
def fullHd (n : Nat) (s : State) : State :=
  rig s [(headHtime_HACTIVE n, 1920), (headHtime_HTOTAL n, 2200), (headHsync_HFP n, 88), (headHsync_HSW n, 44),
    (headVtime_VACTIVE n, 1080), (headVtime_HL n, 1125), (headVsync_VFP n, 4), (headVsync_VSW n, 5), (headLatch_LATCH_LINE n, 1080),
    (ymxPortCfg_RATE n, 3), (ymxPortCfg_LANES n, 4)]

/-- `accepted`, to be evaluated. -/
def acceptedB (sp : OpSpec) (p : Packet) (s : State) (isMember : Bool) : Bool :=
  s.served p.ring.val && s.replyRoom p.ring.val
  && decide (p.length.toNat % 8 = 0 ∧ p.length.toNat ≤ 4064 ∧ entrySize p + 8 ≤ s.ringSize p.ring.val
    ∧ entrySize p ≤ s.unread p.ring.val ∧ p.trailer.toNat = entryCrc p sp.opcode)
  && decide (p.source.toNat = ringSource p.ring.val ∧ p.version = 0x01 ∧ headerFault p = none ∧ (p.flags.toNat % 2 == 1) = isMember)
  && decide (s.seqSet p.ring.val = false ∨ sp.opcode = 0x0104 ∨ p.seq.toNat = s.get (pktSeq_EXPECT p.ring.val))
  && decide ((reading p s).checks sp (entryOrigin p sp s) isMember = none)

/-- `passes`, to be evaluated. -/
def passesB (sp : OpSpec) (p : Packet) (s : State) : Bool :=
  acceptedB sp p s false && decide (sp.check (readBy p s) (entryOrigin p sp s) = none)
  && decide (sp.log = .logged → (readBy p s).logRefuses 1 = false)

/-- `lone`, to be evaluated. -/
def loneB (sp : OpSpec) (p : Packet) (s : State) : Bool :=
  acceptedB sp p s false && decide ((coverStamp p s).frame = s.now.frame)
  && decide (((readBy p s).waiting.filter fun c => c.ring == p.ring.val).length < 8 ∧ (readBy p s).waiting.length < 64)

theorem acceptedB_spec {sp : OpSpec} {p : Packet} {s : State} {m : Bool} (h : acceptedB sp p s m = true) : accepted sp p s m := by
  unfold acceptedB at h; unfold accepted
  simp only [Bool.and_eq_true, decide_eq_true_eq] at h
  tauto

theorem passesB_spec {sp : OpSpec} {p : Packet} {s : State} (h : passesB sp p s = true) : passes sp p s := by
  unfold passesB at h; unfold passes
  simp only [Bool.and_eq_true, decide_eq_true_eq] at h
  exact ⟨acceptedB_spec h.1.1, h.1.2, h.2⟩

theorem loneB_spec {sp : OpSpec} {p : Packet} {s : State} (h : loneB sp p s = true) : lone sp p s := by
  unfold loneB at h; unfold lone
  simp only [Bool.and_eq_true, decide_eq_true_eq] at h
  exact ⟨acceptedB_spec h.1.1, h.1.2, h.2⟩

/-- The sealed ring holds a packet of this opcode, target and payload, in a mode and with further state. -/
def holding (sp : OpSpec) (mode target : Nat) (payload : List Byte) (more : State → State) : Packet × State :=
  (packetOf sp 32 target payload, more (live mode 32 (40 + payload.length)))

/-- It passes every check. -/
def goes (sp : OpSpec) (mode target : Nat) (payload : List Byte) (more : State → State) : Prop :=
  let h := holding sp mode target payload more
  passes sp h.1 h.2

/-- It is carried as a caravan of one. -/
def rides (sp : OpSpec) (mode target : Nat) (payload : List Byte) (more : State → State) : Prop :=
  let h := holding sp mode target payload more
  lone sp h.1 h.2

/-- It passes every check, and the machine that has read it meets a further condition with the packet. -/
def goesTo (sp : OpSpec) (mode target : Nat) (payload : List Byte) (more : State → State) (cond : State → Origin → Bool) : Prop :=
  let h := holding sp mode target payload more
  passes sp h.1 h.2 ∧ cond (readBy h.1 h.2) (entryOrigin h.1 sp h.2) = true

theorem goes_of {sp : OpSpec} {mode target : Nat} {payload : List Byte} {more : State → State}
    (h : (fun x : Packet × State => passesB sp x.1 x.2) (holding sp mode target payload more) = true) :
    goes sp mode target payload more := passesB_spec h

theorem rides_of {sp : OpSpec} {mode target : Nat} {payload : List Byte} {more : State → State}
    (h : (fun x : Packet × State => loneB sp x.1 x.2) (holding sp mode target payload more) = true) :
    rides sp mode target payload more := loneB_spec h

theorem goesTo_of {sp : OpSpec} {mode target : Nat} {payload : List Byte} {more : State → State} {cond : State → Origin → Bool}
    (h : (fun x : Packet × State => passesB sp x.1 x.2 && cond (readBy x.1 x.2) (entryOrigin x.1 sp x.2))
      (holding sp mode target payload more) = true) : goesTo sp mode target payload more cond := by
  have h := Bool.and_eq_true_iff.1 h
  exact ⟨passesB_spec h.1, h.2⟩

/-! ### Wall time and host ports -/

/-- House sync has a reference type, its anchor and a lock state. -/
def sync (type state : Nat) : State :=
  (rig State.reset [(wallSyncCfg_TYPE, type), (wallStatus_STATE, state)]).modWall fun w => { w with anchor := true, goodRun := 15 }

theorem witness_WallLockLoop :
    (∃ (s : State) (d : Fin 4) (pos period freq freqErr phase : Int), s.canonical = true ∧ s.get wallSyncCfg_TYPE = d.val ∧ d.val ≠ 0 ∧
      s.wall.anchor = true ∧ s.get wallStatus_STATE = 2 ∧ period.natAbs ≤ 20000 ∧ pos.natAbs ≤ 1024 ∧ phase.natAbs ≤ 32 ∧
      freqErr.natAbs ≤ 100 ∧ -32768 ≤ freq ∧ freq < 32768)
    ∧ (∃ (s : State) (d : Fin 4) (pos period freq freqErr phase : Int), s.canonical = true ∧ s.get wallSyncCfg_TYPE = d.val ∧ d.val ≠ 0 ∧
      s.wall.anchor = true ∧ s.get wallStatus_STATE = 1 ∧ 15 ≤ s.wall.goodRun ∧ period.natAbs ≤ 20000 ∧ pos.natAbs ≤ 1024 ∧
      phase.natAbs ≤ 32 ∧ freqErr.natAbs ≤ 100 ∧ -32768 ≤ freq ∧ freq < 32768)
    ∧ (∃ s : State, s.get wallSyncCfg_TYPE ≠ 0)
    ∧ (∃ s : State, s.canonical = true ∧ s.get wallSyncCfg_LOSS_COUNT ≤ s.wall.missRun ∧
      (s.get wallStatus_STATE = 1 ∨ s.get wallStatus_STATE = 2))
    ∧ (∃ s : State, s.canonical = true ∧ s.get wallStatus_STATE = 3 ∧ s.wall.limitRaised = false ∧
      60 * s.get wallLockCfg_HOLD_LIMIT ≤ s.grainsToUs (s.since s.wall.holdSince) / 1000000 ∧
      s.grainsToUs (s.since s.wall.holdSince) / 1000000 < 2 ^ 32) :=
  ⟨⟨sync 3 2, 3, 1024, -20000, -32768, 100, -32, by decide +kernel⟩, ⟨sync 1 1, 1, -1024, 20000, 32767, -100, 32, by decide +kernel⟩,
    ⟨sync 1 1, by decide +kernel⟩,
    ⟨(rig (sync 2 2) [(wallSyncCfg_LOSS_COUNT, 255)]).modWall fun w => { w with missRun := 255 }, by decide +kernel⟩,
    ⟨{ rig (sync 1 3) [(wallLockCfg_HOLD_LIMIT, 1)] with now := ⟨3600, 0, 0⟩ }, by decide +kernel⟩⟩

theorem witness_WallPackets :
    goes specRasterSet 1 0 (bytesOf 16 [(0, 4, 60000), (4, 2, 1000), (6, 2, 2250)]) id
    ∧ goes specSyncSet 1 0 (bytesOf 16 [(3, 1, 1), (7, 1, 10), (8, 1, 1)]) id ∧ goes specWallQuery 1 0 [] id := by
  refine ⟨goes_of ?_, goes_of ?_, goes_of ?_⟩ <;> decide +kernel

theorem witness_WallRegisters :
    (∃ (s : State) (who : Requester), s.mayRead who = true ∧ worldOf who = .sealed)
    ∧ (∃ (s : State) (who : Requester) (v : W32), s.mayWrite who = true ∧ worldOf who = .sealed ∧ s.writeBarred who wallCtrl.addr = false ∧
      v.toNat % 2 = 0)
    ∧ (∃ (s : State) (who : Requester) (v : W32), s.mayWrite who = true ∧ worldOf who = .sealed ∧ s.writeBarred who wallCtrl.addr = false ∧
      v.toNat % 2 = 1 ∧ s.applyFault = none ∧ s.rasterDiffers s.stagedRaster = false ∧
      s.wall.staged.any (·.1 == wallSyncCfg.addr) = true ∧ s.canonical = true)
    ∧ (∃ (s : State) (who : Requester) (v : W32) (st : Nat), s.mayWrite who = true ∧ worldOf who = .sealed ∧ v.toNat % 2 = 1 ∧
      s.applyFault = some st) :=
  ⟨⟨State.reset, .core 3 .sealed, by decide +kernel⟩, ⟨State.reset, .core 0 .sealed, 2, by decide +kernel⟩,
    ⟨State.reset.modWall fun w => { w with staged := [(wallSyncCfg.addr, 1)] }, .core 0 .sealed, 1, by decide +kernel⟩,
    ⟨State.reset.modWall fun w => { w with staged := [(wallSyncCfg.addr, 24)] }, .core 0 .sealed, 3, stNoResource, by decide +kernel⟩⟩

/-- Port `p` is powered, its link up or down; `vfs` virtual functions are enabled. -/
def port (p up vfs : Nat) : State :=
  ((live 1 32 0).put (hpLink_DL_UP p) up).modHostPort p fun x => { x with vfEnable := decide (0 < vfs), numVfs := vfs }

theorem witness_PortLinks :
    (∃ (s : State) (p : Fin 2) (speed width : Fin 5), s.canonical = true ∧ s.portPowered p.val = true ∧ s.get (hpLink_DL_UP p.val) = 0 ∧
      s.get (hpLink_LOST p.val) = 0 ∧ speed.val ≠ 0 ∧ (width.val = 1 ∨ width.val = 2 ∨ width.val = 4))
    ∧ (∃ (s : State) (p : Fin 2), s.get (hpLink_DL_UP p.val) = 1)
    ∧ (∃ (s : State) (p : Fin 2), (s.hostPort p.val).linkOut = true ∧ s.get (hpLink_LOST p.val) = 0)
    ∧ (∃ (s : State) (p : Fin 2), s.get (hpCfg_HB_EN p.val) = 1 ∧ s.get (hpLink_LOST p.val) = 0)
    ∧ (∃ (s : State) (f : Fin 32), s.onLink f.val = true ∧ s.power.warm = none ∧ f.val % 16 = 0 ∧
      s.get (hpLink_LOST (portOf f.val)) = 0) :=
  ⟨⟨port 1 0 0, 1, 1, 1, by decide +kernel⟩, ⟨port 1 1 0, 1, by decide +kernel⟩,
    ⟨(port 0 0 0).modHostPort 0 fun x => { x with linkOut := true }, 0, by decide +kernel⟩,
    ⟨(port 0 1 0).put (hpCfg_HB_EN 0) 1, 0, by decide +kernel⟩, ⟨port 1 1 0, 16, by decide +kernel⟩⟩

/-- A reset of function `f` in a phase. -/
def resets (f : Nat) (ph : ResetPhase) (d : Option Origin) : State :=
  State.reset.modFn f fun x => { x with reset := some ⟨ph, 1, 0, [], d⟩ }

/-- The origin of a packet of the sealed ring. -/
def asked : Origin := entryOrigin (packetOf specNop 32 0 []) specNop State.reset

theorem witness_ResetRequests :
    (∃ (s : State) (f : Fin 32), s.onLink f.val = true ∧ f.val % 16 ≠ 0) ∧ (∃ (s : State) (f : Fin 32), s.onLink f.val = true ∧ f.val % 16 = 0)
    ∧ (∃ (s : State) (p : Fin 2), s.barUp (16 * p.val) = true ∧ (s.hostPort p.val).vfEnable = false)
    ∧ (∃ (s : State) (p : Fin 2), s.barUp (16 * p.val) = true ∧ (s.hostPort p.val).vfEnable = true)
    ∧ (∃ (s : State) (f : Nat) (r : FnReset), (s.fn f).reset = some r) ∧ (∃ (s : State) (f : Nat), (s.fn f).reset = none) :=
  ⟨⟨port 1 1 15, 31, by decide +kernel⟩, ⟨port 1 1 0, 16, by decide +kernel⟩, ⟨port 0 1 0, 0, by decide +kernel⟩,
    ⟨port 0 1 15, 0, by decide +kernel⟩, ⟨resets 31 .draining none, 31, ⟨.draining, 1, 0, [], none⟩, by decide +kernel⟩,
    ⟨State.reset, 0, by decide +kernel⟩⟩

/-- Function 0 is on the link with a tenant of one unit of DRAM. -/
def bar2 : State :=
  ((((port 0 1 0).put (worldFnRange_SIZE 0) 1).setOwner 0 1 0x20).put (fnCmdSize_EN 0) 1).modFn 0 fun x => { x with tenant := some poor }

theorem witness_DoorbellsAndBar2 :
    (∃ (s : State) (f : Fin 32) (tail : W32), s.onLink f.val = true ∧ s.power.warm = none ∧ s.resetting f.val = false ∧
      s.get (fnCmdSize_EN f.val) = 1 ∧ tail.toNat < 2 ^ 20 ∧ tail.toNat % 8 = 0 ∧ tail.toNat < s.ringSize f.val)
    ∧ (∃ (s : State) (f : Fin 32) (tail : W32), s.onLink f.val = true ∧ s.power.warm = none ∧ s.resetting f.val = false ∧
      tail.toNat < 2 ^ 20 ∧ (s.get (fnCmdSize_EN f.val) = 0 ∨ tail.toNat % 8 ≠ 0 ∨ s.ringSize f.val ≤ tail.toNat))
    ∧ (∃ (s : State) (r : Fin 34), s.replyRoom r.val = true)
    ∧ (∃ (s : State) (f : Fin 32) (off : BitVec 26) (n : Nat), s.onLink f.val = true ∧ (s.tenant f.val).any (·.bar2) = true ∧
      s.power.warm = none ∧ s.get (fnBar2Off_OFF f.val) * mib2 + off.toNat + n ≤ (s.range f.val).2 ∧ off.toNat + n ≤ 2 ^ 26 ∧
      s.mayAccess (.function f.val) ((s.range f.val).1 + (s.get (fnBar2Off_OFF f.val) * mib2 + off.toNat)) n = true ∧ 0 < n)
    ∧ (∃ (s : State) (f : Fin 32) (off : BitVec 26), s.onLink f.val = true ∧ (s.tenant f.val).any (·.bar2) = true ∧
      s.power.warm = none ∧ (s.range f.val).2 < s.get (fnBar2Off_OFF f.val) * mib2 + off.toNat + 1) :=
  ⟨⟨(bar2.put (fnCmdSize_LOG2 0) 13), 0, 8184, by decide +kernel⟩, ⟨(bar2.put (fnCmdSize_LOG2 0) 13), 0, 8192, by decide +kernel⟩,
    ⟨live 1 32 0, 32, by decide +kernel⟩, ⟨bar2, 0, 0x1FFFFF, 1, by decide +kernel⟩, ⟨bar2, 0, 0x200000, by decide +kernel⟩⟩

theorem witness_ResetCourse :
    (∃ (s : State) (f : Fin 32) (r : FnReset), (s.fn f.val).reset = some r ∧ r.phase = .draining)
    ∧ (∃ (s : State) (f : Fin 32) (r : FnReset), (s.fn f.val).reset = some r ∧ r.phase = .running ∧ r.destroy = none)
    ∧ (∃ (s : State) (f : Fin 32) (r : FnReset) (o : Origin), (s.fn f.val).reset = some r ∧ r.phase = .running ∧ r.destroy = some o)
    ∧ (∃ (s : State) (f : Fin 32) (base size : Nat) (o : Origin), (s.fn f.val).clearing = some (base, size, some o) ∧ size ≠ 0) :=
  ⟨⟨resets 31 .draining none, 31, ⟨.draining, 1, 0, [], none⟩, by decide +kernel⟩,
    ⟨resets 0 .running none, 0, ⟨.running, 1, 0, [], none⟩, by decide +kernel⟩,
    ⟨resets 0 .running (some asked), 0, ⟨.running, 1, 0, [], some asked⟩, asked, by decide +kernel⟩,
    ⟨State.reset.modFn 0 fun x => { x with clearing := some (7167, 1, some asked) }, 0, 7167, 1, asked, by decide +kernel⟩⟩

/-- Function 31 has a tenant. -/
def tenant31 (s : State) : State := s.modFn 31 fun x => { x with tenant := some poor }

theorem witness_TenantPackets :
    goes specTenantCreate 2 31 (bytesOf 32 [(24, 1, 32)]) id ∧ goes specTenantDestroy 2 31 [] tenant31
    ∧ goes specTenantShare 2 31 (bytesOf 8 [(0, 1, 3), (1, 1, 100)]) tenant31 ∧ goes specFuncReset 2 31 [] tenant31
    ∧ goes specTenantQuery 1 31 [] id ∧ goesTo specHomeSet 2 31 (bytesOf 8 []) tenant31 (fun u o => !u.returns o)
    ∧ goesTo specHomeSet 2 31 (bytesOf 8 [(0, 1, 1)]) (fun s => rig (tenant31 s) [(hpHome_MOVED 0 0, 1), (hpHome_ALT 0 0, 31)])
      (fun u o => u.returns o) := by
  refine ⟨goes_of ?_, goes_of ?_, goes_of ?_, goes_of ?_, goes_of ?_, goesTo_of ?_, goesTo_of ?_⟩ <;> decide +kernel

/-! ### System, modes and caravans -/

theorem witness_SystemPacketsAndModes_packets :
    goes specSysQuery 1 0 [] id ∧ goes specNop 1 0 (bytesOf 16 [(15, 1, 255)]) id
    ∧ (let h := holding (specSeqSync 5 true) 1 0 [] fun s => (s.put (pktSeq_EXPECT 32) 5).putBitAt pktSeqSet_SET 32 true
       passes (specSeqSync (h.2.get (pktSeq_EXPECT 32)) (h.2.seqSet 32)) h.1 h.2)
    ∧ goes specMarginSet 2 0 (bytesOf 8 [(0, 2, 1024)]) id
    ∧ goesTo specModeRequest 2 0 (bytesOf 8 []) (fun s => s.modPower fun x => { x with vstbyGood := true }) (fun _ o => o.u8 0 == 0)
    ∧ goesTo specModeRequest 4 0 (bytesOf 8 [(0, 1, 3)]) id (fun u o => o.u8 0 == 3 && u.get sysMode_MODE == 4)
    ∧ goesTo specModeRequest 1 0 (bytesOf 8 [(0, 1, 5)]) id (fun u o => o.u8 0 != 0 && o.u8 0 != 7 && u.get sysMode_MODE != 4) := by
  refine ⟨goes_of ?_, goes_of ?_, passesB_spec ?_, goes_of ?_, goesTo_of ?_, goesTo_of ?_, goesTo_of ?_⟩ <;> decide +kernel

/-- A regime switch is under way. -/
def switching (b : Bool) : State := { State.reset with world := { State.reset.world with switching := some b } }

theorem witness_SystemPacketsAndModes :
    (∃ s : State, s.world.switching = some true ∧ s.firstBadPage = none)
    ∧ (∃ (s : State) (page code : Nat) (o : Origin), s.world.switching = some true ∧ s.firstBadPage = some (page, code) ∧
      s.power.pending.bind (·.origin) = some o)
    ∧ (∃ s : State, s.world.switching = some false)
    ∧ (∃ (s : State) (who : Requester) (v : W32), s.mayWrite who = true ∧ worldOf who = .sealed ∧
      s.writeBarred who (pktIrCmdSize 0).addr = false ∧ v.toNat / 2 ^ 31 = 1 ∧ 12 ≤ v.toNat % 32 ∧ v.toNat % 32 ≤ 20 ∧
      inSealedSram (s.get (pktIrCmdBase_ADDR 0) % 2 ^ 36 * 4096) (2 ^ (v.toNat % 32)) = true)
    ∧ (∃ (s : State) (who : Requester), s.mayWrite who = true ∧ worldOf who = .opened) :=
  ⟨⟨(switching true).put worldWmark_W 7168, by decide +kernel⟩,
    ⟨((switching true).put worldWmark_W 16).modPower fun x => { x with pending := some ⟨3, some asked, false⟩ }, 512, 0, asked,
      by decide +kernel⟩,
    ⟨switching false, by decide +kernel⟩,
    ⟨rig State.reset [(pktIrCmdBase_ADDR 0, sealedBase / 4096 + 256)], .core 0 .sealed, 0x80000014, by decide +kernel⟩,
    ⟨State.reset, .core 3 .opened, by decide +kernel⟩⟩

/-- The sealed ring holds a member of caravan 1, and has it open. -/
def member (sp : OpSpec) (flags : Byte) (payload : List Byte) (cs : List Caravan) : Packet × State :=
  let s := live 2 32 (40 + payload.length)
  (memberOf sp 32 flags 1 0 payload, { s with pkt := { s.pkt with caravans := cs } })

/-- Caravan 1 of the sealed ring, with so many members. -/
def open1 (st : CarState) (n : Nat) : Caravan := { Caravan.fresh State.reset 32 1 st with count := n, last := some asked }

theorem witness_LonePacketsAndMembers :
    (specHeadShow ∈ memberSpecs ∧ specHeadShow.member = .capable ∧ rides specHeadShow 2 7 (bytesOf 8 []) id)
    ∧ (∃ (s : State) (p : Packet),
      let u := readBy p s
      let o := entryOrigin p specCaravanTime s
      accepted specCaravanTime p s true ∧ p.flags.toNat / 2 % 2 = 0 ∧ specCaravanTime.check u o = none ∧
      (∀ c ∈ u.pkt.caravans, c.ring = o.ring → c.id ≠ o.caravan) ∧
      (u.pkt.caravans.filter fun c => c.ring == o.ring && c.isOpen o.ring c.id).length < 4)
    ∧ (∃ (s : State) (p : Packet) (c : Caravan),
      let u := readBy p s
      let o := entryOrigin p specCaravanFence s
      accepted specCaravanFence p s true ∧ p.flags.toNat / 2 % 2 = 0 ∧ specCaravanFence.check u o = none ∧
      u.openCaravan o.ring o.caravan = some c ∧ c.state = .opened ∧ c.count < 64 ∧
      (∀ x ∈ u.pkt.caravans, x.ring = o.ring → x.id = o.caravan → x.isOpen o.ring o.caravan = true))
    ∧ (∃ (s : State) (p : Packet) (c : Caravan),
      let u := readBy p s
      let o := entryOrigin p specCaravanEnd s
      let v := u.setCaravans (replaceFirst u.pkt.caravans (·.isOpen o.ring o.caravan) fun _ => [])
      let frame := c.named.getD ((coverStamp p s).frame + 1)
      accepted specCaravanEnd p s true ∧ p.flags.toNat / 2 % 2 = 1 ∧
      u.openCaravan o.ring o.caravan = some c ∧ c.state = .opened ∧ c.count < 64 ∧
      (∀ x ∈ u.pkt.caravans, x.ring = o.ring → x.id = o.caravan → x.isOpen o.ring o.caravan = true) ∧
      (v.waiting.filter fun x => x.ring == c.ring).length < 8 ∧ v.waiting.length < 64 ∧
      (coverStamp p s).frame < frame ∧ frame ≤ (coverStamp p s).frame + 65536 ∧ s.now.frame < frame) :=
  ⟨⟨by simp [memberSpecs], rfl, rides_of (by decide +kernel)⟩,
    ⟨(member specCaravanTime 1 (bytesOf 16 [(8, 1, 8)]) []).2, (member specCaravanTime 1 (bytesOf 16 [(8, 1, 8)]) []).1,
      acceptedB_spec (by decide +kernel), by decide +kernel⟩,
    ⟨(member specCaravanFence 1 (bytesOf 16 []) [open1 .opened 63]).2, (member specCaravanFence 1 (bytesOf 16 []) [open1 .opened 63]).1,
      open1 .opened 63, acceptedB_spec (by decide +kernel), by decide +kernel⟩,
    ⟨(member specCaravanEnd 3 [] [open1 .opened 63]).2, (member specCaravanEnd 3 [] [open1 .opened 63]).1,
      open1 .opened 63, acceptedB_spec (by decide +kernel), by decide +kernel⟩⟩

/-- The machine after reset with caravan 1 of the sealed ring. -/
def caravan (c : Caravan) : State := { State.reset with pkt := { State.reset.pkt with caravans := [c] } }

theorem witness_CaravanCourse :
    (∃ (s : State) (ring : Fin 34) (id : W32) (c : Caravan),
      s.pkt.caravans.find? (fun c => c.ring == ring.val && c.id == id && c.state == .committed) = some c ∧
      validateFrom memberSpec c.members 0 { s.atFrame memberSpec c.frame with now := ⟨c.frame, 0, 0⟩ } = none)
    ∧ (∃ (s : State) (ring : Fin 34) (id : W32) (c : Caravan) (status detail index : Nat),
      s.pkt.caravans.find? (fun c => c.ring == ring.val && c.id == id && c.state == .committed) = some c ∧
      validateFrom memberSpec c.members 0 { s.atFrame memberSpec c.frame with now := ⟨c.frame, 0, 0⟩ } = some (status, detail, index) ∧
      status ≠ stPinTaken ∧ status ≠ stLate ∧ status ≠ stAborted)
    ∧ (∃ (s : State) (ring : Fin 34) (id : W32) (c : Caravan), c ∈ s.pkt.caravans ∧ c.ring = ring.val ∧ c.id = id ∧
      (c.state = .opened ∨ c.state = .poisoned) ∧ c.lastFrame + s.get pktCtrl_OPEN_LIMIT ≤ s.now.frame)
    ∧ (∃ (s : State) (p : Packet) (c : Caravan), passes specCaravanAbort p s ∧
      (readBy p s).pkt.caravans.find? (fun x => x.ring == 32 && x.id == 1 && (1 : W32) != 0) = some c ∧
      (entryOrigin p specCaravanAbort s).u32 0 = 1 ∧ p.ring = 32 ∧ (c.state = .opened ∨ c.state = .poisoned ∨ c.state = .stub))
    ∧ (∃ (s : State) (p : Packet) (c : Caravan), passes specCaravanAbort p s ∧
      (readBy p s).pkt.caravans.find? (fun x => x.ring == 32 && x.id == 1 && (1 : W32) != 0) = some c ∧
      (entryOrigin p specCaravanAbort s).u32 0 = 1 ∧ p.ring = 32 ∧ (c.state = .committed ∨ c.state = .ready))
    ∧ (∃ (s : State) (p : Packet) (c : Caravan), passes specCaravanQuery p s ∧
      (readBy p s).pkt.caravans.find? (fun x => x.ring == 32 && x.id == 1 && (1 : W32) != 0) = some c ∧
      (entryOrigin p specCaravanQuery s).u32 0 = 1 ∧ p.ring = 32 ∧ (c.state = .committed ∨ c.state = .ready ∨ c.state = .landed)) :=
  let named (sp : OpSpec) (c : Caravan) := holding sp 2 0 (bytesOf 8 [(0, 4, 1)]) fun s => { s with pkt := { s.pkt with caravans := [c] } }
  let bad := { open1 .committed 1 with members := [{ entryOrigin (packetOf specGuardSet 32 47 (bytesOf 8 [])) specGuardSet State.reset with
    caravan := 1 }] }
  ⟨⟨caravan (open1 .committed 1), 32, 1, open1 .committed 1, by decide +kernel⟩,
    ⟨caravan bad, 32, 1, bad, stNoResource, 5, 0, by decide +kernel⟩,
    ⟨{ caravan (open1 .poisoned 1) with now := ⟨(caravan (open1 .poisoned 1)).get pktCtrl_OPEN_LIMIT, 0, 0⟩ }, 32, 1, open1 .poisoned 1,
      by decide +kernel⟩,
    ⟨(named specCaravanAbort (open1 .stub 1)).2, (named specCaravanAbort (open1 .stub 1)).1, open1 .stub 1,
      passesB_spec (by decide +kernel), by decide +kernel⟩,
    ⟨(named specCaravanAbort (open1 .ready 1)).2, (named specCaravanAbort (open1 .ready 1)).1, open1 .ready 1,
      passesB_spec (by decide +kernel), by decide +kernel⟩,
    ⟨(named specCaravanQuery (open1 .landed 1)).2, (named specCaravanQuery (open1 .landed 1)).1, open1 .landed 1,
      passesB_spec (by decide +kernel), by decide +kernel⟩⟩

/-! ### Display links, ports, heads and the warm spare -/

/-- A machine that serves its displays, with registers set. -/
def lit (l : List (RF × Nat)) : State := rig (live 3 32 0) l

/-- Port 7 is a DSI port in command mode with TE. -/
def dsi : State :=
  lit [(ymxPortCfg_EN 7, 1), (ymxPortCfg_TYPE 7, 1), (ymxPortDsi_CMD 7, 1), (ymxPortDsi_TE_EN 7, 1), (headStatus_RUNNING 7, 1),
    (ymxPortDsi_ERR_POLL 7, 1)]

theorem witness_DisplayLinks :
    (∃ (s : State) (p : Fin 8), s.canonical = true ∧ s.displayLive = true ∧ s.get (ymxPortCfg_EN p.val) = 1 ∧
      s.get (ymxPortCfg_TYPE p.val) = 0 ∧ s.power.warm = none ∧ (s.link p.val).aux = [])
    ∧ (∃ (s : State) (p : Fin 8), s.canonical = true ∧ s.displayLive = true ∧ s.get (ymxPortCfg_EN p.val) = 0 ∧
      s.get (ymxPortCfg_TYPE p.val) = 0 ∧ (s.link p.val).aux = [])
    ∧ (∃ (s : State) (p : Fin 8), s.displayLive = true ∧ s.get (ymxPortCfg_EN p.val) = 1 ∧ s.get (ymxPortCfg_TYPE p.val) = 0 ∧
      (s.link p.val).plugged = true ∧ s.power.warm = none)
    ∧ (∃ (s : State) (p : Fin 8) (cr eq sym : Bool), s.canonical = true ∧ s.displayLive = true ∧ s.get (ymxPortCfg_EN p.val) = 1 ∧
      s.get (ymxPortCfg_TYPE p.val) = 0 ∧ (s.link p.val).plugged = true ∧ s.power.warm = none ∧
      s.get (ymxPortStatus_TRAINED p.val) = 1 ∧ (cr && eq && sym) = false ∧ s.get (ymxPortCfg_AUTO_RETRAIN p.val) = 0)
    ∧ (∃ (s : State) (p : Fin 8) (rate lanes : Nat), s.canonical = true ∧ (s.link p.val).training = some (rate, lanes) ∧
      s.get (ymxPortStatus_ATTEMPTS p.val) = 2)
    ∧ (∃ (s : State) (p : Fin 8) (o : Origin) (rest : List Origin), (s.link p.val).aux = o :: rest)
    ∧ (∃ (s : State) (p : Fin 8), s.dsiCommand p.val = true ∧ s.get (ymxPortDsi_TE_EN p.val) = 1 ∧ s.running p.val = true ∧
      s.power.warm = none ∧ s.headLine p.val ≤ s.get (ymxPortDsi_TE_WAIT p.val) ∧ (s.link p.val).teSeen = false ∧
      (s.head p.val).xfer = none ∧ s.get (headStatus_TE_LOST p.val) = 0)
    ∧ (∃ (s : State) (p : Fin 8) (report : W32), 6 ≤ p.val ∧ s.get (ymxPortCfg_TYPE p.val) = 1 ∧
      s.get (ymxPortDsi_ERR_POLL p.val) = 1 ∧ s.running p.val = true ∧ report ≠ 0) :=
  ⟨⟨lit [(ymxPortCfg_EN 5, 1)], 5, by decide +kernel⟩, ⟨lit [(ymxPortCfg_EN 5, 0)], 5, by decide +kernel⟩,
    ⟨(lit [(ymxPortCfg_EN 0, 1)]).modLink 0 fun l => { l with plugged := true }, 0, by decide +kernel⟩,
    ⟨(lit [(ymxPortCfg_EN 0, 1), (ymxPortStatus_TRAINED 0, 1), (ymxPortCfg_AUTO_RETRAIN 0, 0)]).modLink 0 fun l =>
      { l with plugged := true }, 0, true, true, false, by decide +kernel⟩,
    ⟨(lit [(ymxPortStatus_ATTEMPTS 0, 2)]).modLink 0 fun l => { l with training := some (3, 4) }, 0, 3, 4, by decide +kernel⟩,
    ⟨(lit []).modLink 0 fun l => { l with aux := [asked] }, 0, asked, [], by decide +kernel⟩, ⟨dsi, 7, by decide +kernel⟩,
    ⟨dsi, 7, 0x80000000, by decide +kernel⟩⟩

theorem witness_PortPackets :
    goes specPortConfig 2 7 (bytesOf 8 [(2, 1, 1)]) id ∧ goes specPortRetrain 3 5 [] id
    ∧ goesTo specSinkRead 1 5 (bytesOf 8 [(4, 1, 16)]) (fun s => (s.put (ymxPortCfg_EN 5) 1).modLink 5 fun l => { l with plugged := true })
      (fun u o => u.dpEnabled o.tgt && (u.link o.tgt).plugged)
    ∧ goesTo specSinkRead 1 5 (bytesOf 8 [(4, 1, 16)]) (fun s => s.put (ymxPortCfg_EN 5) 1)
      (fun u o => u.dpEnabled o.tgt && !(u.link o.tgt).plugged)
    ∧ goesTo specDsiConfig 2 7 (bytesOf 16 [(3, 1, 1), (6, 2, 80)]) (fun s => s.put (ymxPortCfg_TYPE 7) 1) (fun _ o => o.u8 1 == 0)
    ∧ goesTo specDsiConfig 2 7 (bytesOf 16 [(1, 1, 1), (3, 1, 1), (6, 2, 2500)])
      (fun s => (s.put (ymxPortCfg_TYPE 7) 1).putBitAt sysGpio_CLAIM 7 true) (fun u o => o.u8 1 == 1 && u.bit sysGpio_CLAIM o.tgt) := by
  refine ⟨goes_of ?_, goes_of ?_, goesTo_of ?_, goesTo_of ?_, goesTo_of ?_, goesTo_of ?_⟩ <;> decide +kernel

theorem witness_HeadPackets_packets :
    goes specHeadTimingSet 2 7 (bytesOf 32 [(0, 2, 1920), (2, 2, 2200), (4, 2, 88), (6, 2, 44), (8, 2, 1080), (10, 2, 1125), (12, 2, 4),
      (14, 2, 5), (17, 1, 1), (20, 2, 1124)]) (fullHd 7)
    ∧ goesTo specHeadEnable 2 7 (bytesOf 8 [(0, 1, 1)]) (fullHd 7) (fun u o => o.u8 0 == 1 && u.canonical && o.tgt == 7 &&
      u.get (headCtrl_EN 7) == 0 && u.get (headStatus_RUNNING 7) == 0)
    ∧ goesTo specHeadEnable 2 0 (bytesOf 8 []) id (fun _ o => o.u8 0 == 0) ∧ goes specHeadQuery 1 7 [] id
    ∧ rides specHeadShow 2 7 (bytesOf 8 []) id := by
  refine ⟨goes_of ?_, goesTo_of ?_, goesTo_of ?_, goes_of ?_, rides_of ?_⟩ <;> decide +kernel

theorem witness_HeadPackets :
    (∃ (s : State) (o : Origin), (s.link o.tgt).failed = false)
    ∧ (∃ (s : State) (n : Nat), (s.head n).waiters = [] ∧ s.canonical = true ∧ n < 8)
    ∧ (∃ (s : State) (who : Requester) (n : Fin 8) (v : W32), s.canonical = true ∧ s.mayWrite who = true ∧ worldOf who = .sealed ∧
      s.writeBarred who (headCtrl n.val).addr = false ∧ s.get (headCtrl_EN n.val) = 0 ∧ v.toNat % 2 = 1 ∧
      (s.put (headCtrl_K2 n.val) (v.toNat / 2)).mayEnable n.val = true)
    ∧ (∃ (s : State) (who : Requester), s.mayWrite who = true ∧ worldOf who = .sealed ∧ s.writeBarred who headWallArm.addr = false) :=
  ⟨⟨lit [], asked, by decide +kernel⟩, ⟨lit [], 7, by decide +kernel⟩,
    ⟨fullHd 7 (lit []), .core 0 .sealed, 7, 1, by decide +kernel⟩, ⟨lit [], .core 0 .sealed, by decide +kernel⟩⟩

theorem witness_WarmSpare :
    (∃ (s : State) (e : Fin 9), s.canonical = true ∧ s.displayLive = true ∧ e.val < 8 ∧ s.engine e.val = e.val ∧
      (s.get ymxSpare_STATE = 0 ∨ s.get ymxSpare_STATE = 1) ∧ s.get ymxSpare_AUTO = 1 ∧ s.spare.test = none)
    ∧ (∃ (s : State) (e : Fin 9), s.canonical = true ∧ s.displayLive = true ∧ e.val < 8 ∧ s.engine e.val = e.val ∧
      (s.get ymxSpare_STATE = 0 ∨ s.get ymxSpare_STATE = 1) ∧ s.get ymxSpare_AUTO = 0 ∧ s.spare.test = none)
    ∧ (∃ (s : State) (e : Fin 9) (o : Origin), s.spare.restore = some (e.val, .test, o))
    ∧ (∃ (s : State) (o : Origin), s.spare.test = some o)
    ∧ goes specSpareSet 2 8 (bytesOf 8 [(0, 1, 7), (1, 1, 1)]) id
    ∧ goesTo specSpareAction 3 8 (bytesOf 8 [(0, 1, 1), (1, 1, 7)]) id (fun u o => o.u8 0 == 1 && u.get ymxSpare_STATE != 5 &&
      u.spare.test.isNone)
    ∧ goesTo specSpareAction 3 8 (bytesOf 8 [(0, 1, 2), (1, 1, 7)]) (fun s => rig s [(ymxSpare_STATE, 4), (ymxSpare_SERVING, 7)])
      (fun _ o => o.u8 0 == 2)
    ∧ goesTo specSpareAction 3 8 (bytesOf 8 [(0, 1, 3)]) id (fun _ o => o.u8 0 == 3) :=
  ⟨⟨lit [(ymxSpare_STATE, 1), (ymxSpare_AUTO, 1)], 7, by decide +kernel⟩, ⟨lit [(ymxSpare_STATE, 0), (ymxSpare_AUTO, 0)], 0, by decide +kernel⟩,
    ⟨(lit []).modSpare fun x => { x with restore := some (7, .test, asked) }, 7, asked, by decide +kernel⟩,
    ⟨(lit []).modSpare fun x => { x with test := some asked }, asked, by decide +kernel⟩,
    goes_of (by decide +kernel), goesTo_of (by decide +kernel), goesTo_of (by decide +kernel), goesTo_of (by decide +kernel)⟩

/-! ### Layers, write-back and integrity -/

theorem witness_LayersAndUnderruns_packets :
    rides specLayerSet 2 47 (bytesOf 64 []) id ∧ rides specLayerAddr 2 47 (bytesOf 16 []) id ∧ rides specLayerColour 2 47 (bytesOf 40 []) id
    ∧ goesTo specLayerList 2 31 [] (fun s => s.modFn 31 fun x => { x with tenant := some poor }) (fun u o => u.tenant o.tgt == some poor)
    ∧ goes specLayerQuery 2 47 [] id := by
  refine ⟨rides_of ?_, rides_of ?_, rides_of ?_, goesTo_of ?_, goes_of ?_⟩ <;> decide +kernel

/-- Pipe 47 is scanned for head 7, which runs, with a layer of one pixel at line 1, pixel 2. -/
def scanned : State :=
  rig (fullHd 7 (lit [(headStatus_RUNNING 7, 1)])) ([(layerCtrl_EN 47, 1), (layerBind_HEAD 47, 7), (layerRect_X_W 47 2, 2),
    (layerRect_Y_H 47 2, 1), (layerRect_X_W 47 3, 1), (layerRect_Y_H 47 3, 1)].map fun e => (e.1.shift scanPipe, e.2))

/-- The same machine where that layer's first line begins. -/
def firstLine : State :=
  let s := scanned.modHead 7 fun h => { h with tm := scanned.timing 7 }
  { s with now := s.mirageAt 47 }

theorem witness_LayersAndUnderruns :
    (∃ (s : State) (pipe : Fin 48) (line pixel : W16),
      s.leadOf pipe.val scanPipe = none ∧ s.layerShown pipe.val = true ∧ (s.pipe pipe.val).offAt = none ∧
      (s.layer pipe.val scanPipe).dx ≤ pixel.toNat ∧ pixel.toNat < (s.layer pipe.val scanPipe).dx + (s.layer pipe.val scanPipe).dw ∧
      (s.layer pipe.val scanPipe).dy ≤ line.toNat ∧ line.toNat < (s.layer pipe.val scanPipe).dy + (s.layer pipe.val scanPipe).dh)
    ∧ (∃ (s : State) (pipe : Fin 48),
      s.leadOf pipe.val scanPipe = none ∧ s.layerShown pipe.val = true ∧ (s.pipe pipe.val).offAt = none ∧
      s.sending (s.layer pipe.val scanPipe).head = true ∧ s.mirageAt pipe.val = s.now)
    ∧ (scanned.layer 47 scanPipe).tie = 0
    ∧ ((scanned.put ((layerCtrl_TIE 47).shift scanPipe) 7).layer 47 scanPipe).tie ≠ 0 :=
  ⟨⟨scanned, 47, 1, 2, by decide +kernel⟩, ⟨firstLine, 47, by decide +kernel⟩, by decide +kernel, by decide +kernel⟩

theorem witness_HeadColourAndWriteBack_packets :
    rides specHeadOutputSet 2 7 (bytesOf 48 []) id ∧ rides specHeadGammaSet 2 7 (bytesOf 16 [(0, 2, 1022), (2, 2, 2)]) id
    ∧ rides specWbSet 2 67 (bytesOf 32 [(2, 1, 1)]) id ∧ goes specWbQuery 2 67 [] id := by
  refine ⟨rides_of ?_, rides_of ?_, rides_of ?_, goes_of ?_⟩ <;> decide +kernel

theorem witness_HeadColourAndWriteBack :
    (∃ (s : State) (unit : Fin 4) (start : Stamp), (s.wb unit.val).capture = some start)
    ∧ (∃ (s : State) (u : Nat), (((s.modWb u fun w => { w with capture := none }).put (layerWbStatus_BUSY u) 0).get
      ((layerWbCtrl_MODE u).shift actWb)) ≠ 1)
    ∧ (∃ (s : State) (u : Nat), (((s.modWb u fun w => { w with capture := none }).put (layerWbStatus_BUSY u) 0).get
      ((layerWbCtrl_MODE u).shift actWb)) = 1) :=
  ⟨⟨(lit []).modWb 3 fun w => { w with capture := some ⟨1, 0, 0⟩ }, 3, ⟨1, 0, 0⟩, by decide +kernel⟩, ⟨lit [], 3, by decide +kernel⟩,
    ⟨lit [((layerWbCtrl_MODE 3).shift actWb, 1)], 3, by decide +kernel⟩⟩

theorem witness_IntegrityPackets :
    rides specGuardSet 2 47 (bytesOf 8 [(4, 4, 0xFFFFFF)]) id ∧ rides specFreshTime 2 47 (bytesOf 8 []) id
    ∧ rides specRectSet 2 7 (bytesOf 16 []) id ∧ rides specRectExpect 2 7 (bytesOf 16 [(0, 1, 15), (1, 1, 1)]) id
    ∧ rides specEmberSet 2 7 (bytesOf 16 [(2, 1, 3), (3, 1, 16)]) id ∧ rides specEmberPalette 2 7 (bytesOf 16 [(4, 2, 2)]) id
    ∧ rides specEmberExpect 2 7 (bytesOf 8 []) id
    ∧ rides specIntegCfg 2 7 (bytesOf 16 [(0, 1, 7), (1, 1, 255), (7, 1, 63), (8, 2, 1023)]) id := by
  refine ⟨rides_of ?_, rides_of ?_, rides_of ?_, rides_of ?_, rides_of ?_, rides_of ?_, rides_of ?_, rides_of ?_⟩ <;> decide +kernel

/-- Function 0 has a unit of DRAM and a grant in the Ember store. -/
def embers (s : State) : State :=
  (s.put (worldFnRange_SIZE 0) 1).modFn 0 fun x => { x with tenant := some { poor with emberBytes := 4096 } }

theorem witness_EmberStoreAndIntegrityActions :
    goes specEmberWrite 2 0 (bytesOf 16 []) embers ∧ goes specEmberLoad 2 0 (bytesOf 24 [(4, 4, 64), (8, 8, dramBase)]) embers
    ∧ (∃ (s : State) (ring : Fin 34) (off len src : Nat) (o : Origin) (rest : List (Nat × Nat × Nat × Origin)),
      s.display.emberLoads = (off, len, src, o) :: rest ∧ o.ring = ring.val)
    ∧ goesTo specIntegResume 3 7 [] (fun s => s.put (integVstate_HOLD 7) 1) (fun u o => u.get (integVstate_HOLD o.tgt) != 0)
    ∧ goesTo specIntegResume 3 7 [] (fun s => s.modHead 7 fun h => { h with resuming := true })
      (fun u o => u.get (integVstate_HOLD o.tgt) == 0 && (u.head o.tgt).resuming)
    ∧ goesTo specIntegResume 3 7 [] id (fun u o => u.get (integVstate_HOLD o.tgt) == 0 && !(u.head o.tgt).resuming)
    ∧ goes specRbSelftest 3 7 [] id ∧ goes specIntegQuery 1 7 [] id ∧ goes specAgeQuery 1 0 [] id :=
  ⟨goes_of (by decide +kernel), goes_of (by decide +kernel),
    ⟨(lit []).modDisplay fun d => { d with emberLoads := [(0, 64, dramBase, asked)] }, 32, 0, 64, dramBase, asked, [], by decide +kernel⟩,
    goesTo_of (by decide +kernel), goesTo_of (by decide +kernel), goesTo_of (by decide +kernel), goes_of (by decide +kernel),
    goes_of (by decide +kernel), goes_of (by decide +kernel)⟩

/-- Head 7 runs, and its plane 1 is enabled; `l` further registers, `f` further facts. -/
def plane (l : List (RF × Nat)) (f : HeadState → HeadState) : State :=
  (rig (fullHd 7 (lit [(headStatus_RUNNING 7, 1)])) (((integEmbCtrl_EN 7 1).shift scanWin, 1) :: l)).modHead 7 fun h =>
    f { h with tm := scanned.timing 7, frame := { h.frame with judged := false } }

/-- The fields of head 7 that ask for the sink's CRCs. -/
def sinkAsks : List (RF × Nat) :=
  [((integCfg_SINK_EN 7).shift scanWin, 1), ((integCfg_SINK_EVERY 7).shift scanWin, 2), (ymxPortStatus_TRAINED 7, 1), (ymxPortCfg_EN 7, 1)]

theorem witness_ChecksAndVerdicts :
    (∃ (s : State) (head : Fin 8) (plane : Fin 2), s.c0Due head.val plane.val = true ∧ s.sending head.val = true ∧
      s.c0At head.val plane.val = s.now)
    ∧ (∃ (s : State) (n p err : Nat), s.c0Due n p = true ∧ (s.planeCrc n p ^^^ err) = s.get ((integEmbExp_EXPECT n p).shift scanWin) ∧
      s.get (integVstate_HOLD n) ≠ 1)
    ∧ (∃ (s : State) (n p err : Nat), s.c0Due n p = true ∧ (s.planeCrc n p ^^^ err) = s.get ((integEmbExp_EXPECT n p).shift scanWin) ∧
      s.get (integVstate_HOLD n) = 1 ∧ (s.head n).holdPlane = p ∧ 3 ≤ (s.head n).matchRuns.getD p 0 ∧
      s.flag ((integCfg_AUTO_RESUME n).shift scanWin) = true)
    ∧ (∃ (s : State) (n p err : Nat), s.c0Due n p = true ∧ (s.planeCrc n p ^^^ err) ≠ s.get ((integEmbExp_EXPECT n p).shift scanWin) ∧
      s.get (c0Run n p) = 0)
    ∧ (∃ (s : State) (n p err : Nat), s.c0Due n p = true ∧ (s.planeCrc n p ^^^ err) ≠ s.get ((integEmbExp_EXPECT n p).shift scanWin) ∧
      s.get (c0Run n p) = 1 ∧ s.get (integVstate_HOLD n) = 0)
    ∧ (∃ (s : State) (head : Fin 8), s.verdictOwed head.val = true ∧ s.verdictAt head.val = s.now)
    ∧ (∃ (s : State) (n : Nat) (f : FrameFacts) (seen : List RectSeen × Nat), (s.head n).last = some f ∧ f.seen = some seen ∧
      s.running n = true ∧ s.power.warm = none)
    ∧ (∃ (s : State) (port : Fin 8), s.dpEnabled port.val = true ∧ s.get (ymxPortStatus_TRAINED port.val) = 1)
    ∧ (∃ (s : State) (port : Fin 8), (s.link port.val).rbWaiters = [] ∧ s.bit integRbStatus_TESTING port.val = true)
    ∧ (∃ (s : State) (head : Fin 8), s.sinkAsked head.val = true ∧ s.power.warm = none ∧ (s.head head.val).sinkCrcs = none)
    ∧ (∃ (s : State) (head : Fin 8), s.sinkAsked head.val = true ∧ s.power.warm = none ∧ (s.head head.val).sinkCrcs = some true ∧
      (s.head head.val).sinceSample < s.get ((integCfg_SINK_EVERY head.val).shift scanWin)) :=
  let ran (s : State) (t : Stamp) : State := { s with now := t }
  let exp : RF × Nat := ((integEmbExp_EXPECT 7 1).shift scanWin, (plane [] id).planeCrc 7 1)
  ⟨⟨ran (plane [] id) ((plane [] id).c0At 7 1), 7, 1, by decide +kernel⟩, ⟨plane [exp] id, 7, 1, 0, by decide +kernel⟩,
    ⟨plane [exp, (integVstate_HOLD 7, 1), ((integCfg_AUTO_RESUME 7).shift scanWin, 1)] (fun h => { h with holdPlane := 1, matchRuns := [0, 3] }),
      7, 1, 0, by decide +kernel⟩,
    ⟨plane [exp] id, 7, 1, 1, by decide +kernel⟩, ⟨plane [exp, (c0Run 7 1, 1)] id, 7, 1, 0x80000000, by decide +kernel⟩,
    ⟨ran (plane [] id) ((plane [] id).verdictAt 7), 7, by decide +kernel⟩,
    ⟨plane [] fun h => { h with last := some { h.frame with seen := some ([], 0) } }, 7, { (plane [] id).head 7 |>.frame with
      seen := some ([], 0) }, ([], 0), by decide +kernel⟩,
    ⟨plane sinkAsks id, 7, by decide +kernel⟩, ⟨(plane [] id).putBitAt integRbStatus_TESTING 7 true, 7, by decide +kernel⟩,
    ⟨plane sinkAsks id, 7, by decide +kernel⟩, ⟨plane sinkAsks fun h => { h with sinkCrcs := some true, sinceSample := 1 }, 7, by decide +kernel⟩⟩

/-! ### Graphics -/

/-- `stands`, to be evaluated; `e` is the end of the innermost buffer. -/
def standsB (s : State) (c code : Nat) (d : DrawAt) (e : Nat) : Bool :=
  s.ctxActive c && (s.countClusters.loadEntry c).ctxActive c && decide (d.ctx = c)
  && decide (d.bytes = (s.looking c).load d.addr (8 * min d.words 5))
  && decide (((s.looking c).gctx c).stack.head? = some (d.addr, e) ∧ d.addr + 8 * d.words ≤ e)
  && decide ((s.looking c).loadNat d.addr 2 = code ∧ (s.looking c).loadNat (d.addr + 2) 2 = d.words)
  && decide (1 ≤ d.words ∧ d.words ≤ 4096) && decide (drawWords code = some 0 ∨ drawWords code = some d.words)
  && decide (firstBad (drawZero code) (if code = 0 then d.bytes.take 8 else d.bytes) = none)

theorem standsB_spec {s : State} {c code e : Nat} {d : DrawAt} (h : standsB s c code d e = true) : stands s c code d := by
  unfold standsB at h
  simp only [Bool.and_eq_true, decide_eq_true_eq] at h
  obtain ⟨⟨⟨⟨⟨⟨⟨⟨h1, h2⟩, h3⟩, h4⟩, h5, h6⟩, h7, h8⟩, h9, h10⟩, h11⟩, h12⟩ := h
  refine ⟨h1, h2, h3, h4, ?_, h7, h8, h9, h10, h11, h12⟩
  cases hs : ((s.looking c).gctx c).stack with
  | nil => rw [hs] at h5; cases h5
  | cons x r => rw [hs] at h5; injection h5 with h5; exact ⟨e, r, by rw [← h5], h6⟩

/-- Context 63 of function 0, with two units of DRAM, is in a state. -/
def context (st : Nat) (s : State) : State :=
  (rig s [(worldFnRange_SIZE 0, 2), (gfxCtxState_STATE 63, st), (gfxCtxCtrl_EN 63, 1), (gfxCtxCtrl_QLOG2 63, 12),
    (gfxStatus_RUNNING, if st = ctxRunning then 63 else 0)]).modFn 0 fun x => { x with tenant := some { poor with contexts := [63] } }

/-- The words of a draw packet of a command, its fields given as for `bytesOf`. -/
def drawBytes (code words : Nat) (l : List (Nat × Nat × Nat)) : List Byte := bytesOf (8 * words) ([(0, 2, code), (2, 2, words)] ++ l)

/-- The running context stands at a packet. -/
def drawing (code words : Nat) (l : List (Nat × Nat × Nat)) (more : GfxCtx → GfxCtx) : State :=
  ((context ctxRunning (live 3 32 0)).store (dramBase + 4096) (drawBytes code words l)).modGctx 63 fun x =>
    more { x with loaded := true, stack := [(dramBase + 4096, dramBase + 4096 + 8 * words)] }

/-- That packet. -/
def drawn (code words : Nat) (l : List (Nat × Nat × Nat)) : DrawAt :=
  ⟨63, dramBase + 4096, words, (drawBytes code words l).take (8 * min words 5)⟩

/-- The context stands at such a packet, and the machine and the packet meet a further condition. -/
def draws (code words : Nat) (l : List (Nat × Nat × Nat)) (more : GfxCtx → GfxCtx) (cond : State → DrawAt → Bool) : Prop :=
  stands (drawing code words l more) 63 code (drawn code words l)
  ∧ cond ((drawing code words l more).looking 63) (drawn code words l) = true

theorem draws_of {code words : Nat} {l : List (Nat × Nat × Nat)} {more : GfxCtx → GfxCtx} {cond : State → DrawAt → Bool}
    (h : (standsB (drawing code words l more) 63 code (drawn code words l) (dramBase + 4096 + 8 * words)
      && cond ((drawing code words l more).looking 63) (drawn code words l)) = true) : draws code words l more cond := by
  have h := Bool.and_eq_true_iff.1 h
  exact ⟨standsB_spec h.1, h.2⟩

theorem witness_Contexts_packets :
    goesTo specCtxSet 2 63 (bytesOf 32 [(2, 1, 12)]) (fun s => s.setCtx 63 ctxIdle) (fun _ o => o.u8 0 == 0)
    ∧ goesTo specCtxSet 2 63 (bytesOf 32 [(0, 1, 1), (2, 1, 20), (8, 8, dramBase), (24, 8, dramBase + mib2)]) (context ctxDisabled)
      (fun u o => o.u8 0 != 0 && u.ctxState 63 == ctxDisabled)
    ∧ goesTo specCtxSet 2 63 (bytesOf 32 [(0, 1, 1), (2, 1, 20), (8, 8, dramBase), (24, 8, dramBase + mib2)]) (context ctxIdle)
      (fun u o => o.u8 0 != 0 && u.ctxState 63 != ctxDisabled)
    ∧ goes specGfxKick 2 63 (bytesOf 8 []) id ∧ goes specCtxReset 2 63 [] id ∧ goes specCtxQuery 1 63 [] id
    ∧ goes specCompile 2 0 (bytesOf 40 [(0, 8, dramBase), (8, 4, 8), (16, 8, dramBase), (24, 4, 8), (32, 8, dramBase)]) (context ctxIdle)
    ∧ goesTo specGfxQuery 1 0 [] (context ctxIdle) (fun u o => (u.tenant o.tgt).isSome) ∧ goes specPassQuery 1 63 [] id := by
  refine ⟨goesTo_of ?_, goesTo_of ?_, goesTo_of ?_, goes_of ?_, goes_of ?_, goes_of ?_, goes_of ?_, goesTo_of ?_, goes_of ?_⟩ <;>
    decide +kernel

theorem witness_Contexts :
    (∃ (s : State) (who : Requester) (ctx : Fin 64) (value : W32), s.mayWrite who = true ∧ worldOf who = .sealed ∧ ctx.val ≠ 0 ∧
      s.queueSize ctx.val ≤ value.toNat % 2 ^ 20)
    ∧ (∃ (s : State) (who : Requester) (ctx : Fin 64) (value : W32), s.mayWrite who = true ∧ worldOf who = .sealed ∧ ctx.val ≠ 0 ∧
      value.toNat % 2 ^ 20 % 16 = 0 ∧ value.toNat % 2 ^ 20 < s.queueSize ctx.val ∧ s.writeBarred who (gfxCtxQtail ctx.val).addr = false)
    ∧ (∃ (s : State) (c : Nat), s.get (gfxCtxCtrl_EN c) = 1 ∧ s.ctxState c = ctxIdle ∧ s.mode ≠ modeBanked ∧
      s.get (gfxCtxQhead_POS c) ≠ s.get (gfxCtxQtail_POS c))
    ∧ (∃ (s : State) (j : CompileJob) (rest : List CompileJob) (f : Fin 32) (job : W16) (object : List Byte),
      s.gfx.compiles = j :: rest ∧ j.f = f.val ∧ j.number = job.toNat ∧ object.length ≤ j.capacity) :=
  ⟨⟨context ctxIdle (lit []), .core 0 .sealed, 63, 0x1000, by decide +kernel⟩,
    ⟨context ctxIdle (lit []), .core 0 .sealed, 63, 0xFF0, by decide +kernel⟩,
    ⟨(context ctxIdle (lit [])).put (gfxCtxQtail_POS 63) 16, 63, by decide +kernel⟩,
    ⟨(lit []).modGfx fun g => { g with compiles := [⟨31, 65535, dramBase, 1, dramBase⟩] }, ⟨31, 65535, dramBase, 1, dramBase⟩, [], 31, 65535,
      [0], by decide +kernel⟩⟩

/-- Contexts 1 and 63 wait or run. -/
def two (st1 st63 clusters : Nat) : State :=
  (((context st63 (lit [(gfxCtxState_STATE 1, st1), (gfxCtxCtrl_EN 1, 1)])).modFn 0 fun x =>
    { x with tenant := some { poor with contexts := [1, 63] } }).modGfx fun g => { g with clusters := clusters })

/-- A composition that holds all clusters. -/
def full (s : State) : State :=
  (s.modJob 7 fun j => { j with phase := .ready, full := true }).modGfx fun g => { g with current := some 7 }

theorem witness_SchedulerAndFences :
    (∃ s : State, s.runningCtx ≠ 0)
    ∧ (∃ s : State, s.countClusters.changing = false ∧ s.countClusters.runningCtx ≠ 0 ∧ s.countClusters.gfx.preempting = none ∧
      s.countClusters.guestClusters = 0)
    ∧ (∃ s : State, s.countClusters.changing = false ∧ s.countClusters.runningCtx ≠ 0 ∧ s.countClusters.gfx.preempting = none ∧
      s.countClusters.guestClusters ≠ 0 ∧ s.countClusters.chooseCtx ((List.range 64).filter fun c =>
        c == s.countClusters.runningCtx || s.countClusters.waitingCtxs.contains c) = some s.countClusters.runningCtx)
    ∧ (∃ (s : State) (c : Nat), s.countClusters.changing = false ∧ s.countClusters.runningCtx ≠ 0 ∧ s.countClusters.gfx.preempting = none ∧
      s.countClusters.guestClusters ≠ 0 ∧ c ≠ s.countClusters.runningCtx ∧ s.countClusters.chooseCtx ((List.range 64).filter fun c =>
        c == s.countClusters.runningCtx || s.countClusters.waitingCtxs.contains c) = some c)
    ∧ (∃ (s : State) (c : Nat), s.countClusters.changing = false ∧ s.countClusters.runningCtx = 0 ∧ s.countClusters.guestClusters ≠ 0 ∧
      s.countClusters.mode ≠ modeBanked ∧ s.countClusters.power.warm = none ∧
      s.countClusters.chooseCtx s.countClusters.waitingCtxs = some c)
    ∧ (∃ s : State, s.gfx.preempting = some true) ∧ (∃ s : State, s.gfx.preempting = some false ∧ s.guestClusters ≠ 0)
    ∧ (∃ (s : State) (ctx : Fin 64), ctx.val ≠ 0 ∧ s.runningCtx = ctx.val ∧ s.ctxState ctx.val = ctxRunning)
    ∧ (∃ (s : State) (ctx : Fin 64) (value : Nat) (event : Bool) (rest : List (Nat × Bool)),
      (s.gctx ctx.val).signals = (value, event) :: rest ∧ s.fence ctx.val < value ∧ ctx.val ≠ 0)
    ∧ (∃ (s : State) (ctx : Fin 64) (value : Nat) (event : Bool) (rest : List (Nat × Bool)),
      (s.gctx ctx.val).signals = (value, event) :: rest ∧ value ≤ s.fence ctx.val)
    ∧ (∃ (s : State) (ctx : Fin 64) (w v : Nat), (s.gctx ctx.val).waiting = some (w, v) ∧ s.ctxState ctx.val = ctxWaiting ∧ v ≤ s.fence w)
    ∧ (∃ (s : State) (ctx : Fin 64) (w v : Nat), (s.gctx ctx.val).waiting = some (w, v) ∧ s.ctxState ctx.val = ctxWaiting ∧ s.fence w < v)
    ∧ (∃ (s : State) (ctx : Fin 64), ctx.val ≠ 0 ∧ s.ctxActive ctx.val = true ∧ s.bufferDone ctx.val = true ∧
      (s.gctx ctx.val).pass = none) :=
  ⟨⟨two 0 ctxRunning 12, by decide +kernel⟩, ⟨full (two 0 ctxRunning 12), by decide +kernel⟩, ⟨two 0 ctxRunning 12, by decide +kernel⟩,
    ⟨(two ctxReady ctxRunning 12).put (gfxCtxCtrl_PRIO 1) 2, 1, by decide +kernel⟩, ⟨two ctxReady ctxPreempted 12, 1, by decide +kernel⟩,
    ⟨(two 0 ctxRunning 12).modGfx fun g => { g with preempting := some true }, by decide +kernel⟩,
    ⟨(two 0 ctxRunning 12).modGfx fun g => { g with preempting := some false }, by decide +kernel⟩,
    ⟨two 0 ctxRunning 12, 63, by decide +kernel⟩,
    ⟨(two 0 ctxRunning 12).modGctx 63 fun x => { x with signals := [(1, true)] }, 63, 1, true, [], by decide +kernel⟩,
    ⟨(two 0 ctxRunning 12).modGctx 63 fun x => { x with signals := [(0, false)] }, 63, 0, false, [], by decide +kernel⟩,
    ⟨(two 0 ctxWaiting 12).modGctx 63 fun x => { x with waiting := some (1, 0) }, 63, 1, 0, by decide +kernel⟩,
    ⟨(two 0 ctxWaiting 12).modGctx 63 fun x => { x with waiting := some (1, 1) }, 63, 1, 1, by decide +kernel⟩,
    ⟨(two 0 ctxRunning 12).modGctx 63 fun x => { x with loaded := true, stack := [(dramBase, dramBase)] }, 63, by decide +kernel⟩⟩

/-- The composition job of head 7 in a phase. -/
def job (p : JobPhase) (l : List (RF × Nat)) : State := (lit l).modJob 7 fun j => { j with phase := p }

theorem witness_Composition :
    rides specDeadlineSet 2 7 (bytesOf 8 [(0, 2, 1081), (2, 2, 1124)]) (fullHd 7) ∧ rides specCompSet 2 7 (bytesOf 48 []) id
    ∧ rides specCompTime 2 7 (bytesOf 8 []) id
    ∧ (∃ (s : State) (head : Fin 8), (s.job head.val).phase = .awaiting ∧ (s.compGet (gfxCompCtrl_FENCE_CTX head.val) = 0 ∨
      s.compGet (gfxCompFence_VALUE head.val) ≤ s.fence (s.compGet (gfxCompCtrl_FENCE_CTX head.val))))
    ∧ (∃ (s : State) (head : Fin 8), s.gfx.current = some head.val ∧ s.bufferDone 0 = true ∧ (s.gctx 0).pass = none)
    ∧ (∃ (s : State) (n f : Nat), s.headOwner n = some f ∧
      (((s.put (layerAddr_ADDR (s.compGet (gfxCompCtrl_PIPE n)) 0) (s.surface n (s.job n).target / 64)).wr
        (layerCtime (s.compGet (gfxCompCtrl_PIPE n))) (s.job n).ctime).putBitAt headWallArm_ARM n true).headOwner n = some f)
    ∧ (∃ (s : State) (n : Nat), (s.job n).phase = .ready)
    ∧ (∃ (s : State) (n : Nat), (s.job n).phase = .awaiting ∧ s.compFence n = false)
    ∧ (∃ (s : State) (n : Nat), (s.job n).phase = .awaiting ∧ s.compFence n = true)
    ∧ (∃ (s : State) (n : Nat), (s.job n).phase = .swapped ∨ (s.job n).phase = .none) :=
  ⟨rides_of (by decide +kernel), rides_of (by decide +kernel), rides_of (by decide +kernel), ⟨job .awaiting [], 7, by decide +kernel⟩,
    ⟨((job .ready []).modGfx fun g => { g with current := some 7 }).modGctx 0 fun x => { x with loaded := true, stack := [(dramBase, dramBase)] },
      7, by decide +kernel⟩,
    ⟨(job .ready []).modFn 31 fun x => { x with tenant := some { poor with heads := [7] } }, 7, 31, by decide +kernel⟩,
    ⟨job .ready [], 7, by decide +kernel⟩,
    ⟨job .awaiting [((gfxCompCtrl_FENCE_CTX 7).shift actComp, 63), ((gfxCompFence_VALUE 7).shift actComp, 1)], 7, by decide +kernel⟩,
    ⟨job .awaiting [], 7, by decide +kernel⟩, ⟨job .swapped [], 7, by decide +kernel⟩⟩

/-- An address in the tenant's DRAM, its last byte, and the byte behind it. -/
def inDram : Nat := dramBase + 0x10000
def lastDram : Nat := dramBase + 2 * mib2 - 1
def pastDram : Nat := dramBase + 2 * mib2

theorem witness_FlowPackets :
    draws 0x0000 4 [(8, 8, 0xFF)] id (fun _ _ => true) ∧ draws 0x0050 1 [(4, 1, 7)] id (fun _ _ => true)
    ∧ draws 0x0001 3 [(8, 8, lastDram - 7), (16, 4, 8)] id (fun u d => d.u32 16 % 8 == 0 && u.gfxMay 63 (d.u64 8) (d.u32 16))
    ∧ draws 0x0001 3 [(8, 8, inDram), (16, 4, 4)] id (fun _ d => d.u32 16 % 8 != 0)
    ∧ draws 0x0001 3 [(8, 8, lastDram - 6), (16, 4, 8)] id (fun u d => d.u32 16 % 8 == 0 && !u.gfxMay 63 (d.u64 8) (d.u32 16))
    ∧ draws 0x0002 3 [(8, 8, inDram), (16, 4, 8)] (fun x => { x with stack := x.stack ++ List.replicate 3 (0, 0) })
      (fun u d => d.u32 16 % 8 == 0 && u.gfxMay 63 (d.u64 8) (d.u32 16) && decide ((u.gctx 63).stack.length ≤ 4))
    ∧ draws 0x0002 3 [(8, 8, inDram), (16, 4, 8)] (fun x => { x with stack := x.stack ++ List.replicate 4 (0, 0) })
      (fun u d => d.u32 16 % 8 == 0 && u.gfxMay 63 (d.u64 8) (d.u32 16) && decide (4 < (u.gctx 63).stack.length))
    ∧ draws 0x0010 2 [(8, 8, lastDram)] id (fun u d => u.gfxMay 63 (d.u64 8) 1)
    ∧ draws 0x0011 2 [(4, 1, 7), (8, 8, lastDram)] id (fun u d => u.gfxMay 63 (d.u64 8) 1)
    ∧ draws 0x0011 2 [(4, 1, 7), (8, 8, pastDram)] id (fun u d => !u.gfxMay 63 (d.u64 8) 1)
    ∧ draws 0x0012 2 [(8, 8, dramBase)] id (fun u d => u.gfxMay 63 (d.u64 8) 1)
    ∧ draws 0x0013 2 [(8, 8, dramBase)] id (fun u d => u.gfxMay 63 (d.u64 8) 1)
    ∧ draws 0x0060 2 [(4, 1, 1), (8, 8, 1)] id (fun _ _ => true)
    ∧ draws 0x0061 2 [(4, 1, 64)] id (fun _ d => decide (63 < d.u8 4))
    ∧ draws 0x0061 2 [(4, 1, 63)] id (fun u d => d.u8 4 == 63 && u.ctxOwner 63 == u.ctxOwner d.ctx && decide (d.u64 8 ≤ (u.past d).fence 63))
    ∧ draws 0x0061 2 [(4, 1, 63), (8, 8, 1)] id (fun u d => d.u8 4 == 63 && u.ctxOwner 63 == u.ctxOwner d.ctx &&
      decide ((u.past d).fence 63 < d.u64 8)) := by
  refine ⟨draws_of ?_, draws_of ?_, draws_of ?_, draws_of ?_, draws_of ?_, draws_of ?_, draws_of ?_, draws_of ?_, draws_of ?_,
    draws_of ?_, draws_of ?_, draws_of ?_, draws_of ?_, draws_of ?_, draws_of ?_, draws_of ?_⟩ <;> decide +kernel

/-- A pass, and a pass descriptor without attachments. -/
def aPass : PassRun :=
  { desc := inDram, bytes := bytesOf 192 [], tiled := true, step := 7, usable := [], flushes := 0, prims := 0, culled := 0, frags := 0,
    bin := 0, begun := ⟨0, 0, 0⟩, used := 0 }

/-- What a draw did. -/
def work (e : Bool) : Work := ⟨[(BitVec.ofNat 64 lastDram, [1])], 1, 0, 1, 1, 1, e⟩

theorem witness_MemoryAndShaderPackets :
    draws 0x0070 2 [(8, 8, inDram + 4)] id (fun _ d => d.u64 8 % 8 != 0)
    ∧ draws 0x0070 2 [(8, 8, lastDram - 7)] id (fun u d => d.u64 8 % 8 == 0 && u.gfxMay 63 (d.u64 8) 8)
    ∧ draws 0x0080 4 [(8, 8, inDram), (16, 8, lastDram), (24, 4, 1)] id
      (fun u d => u.gfxMay 63 (d.u64 8) (d.u32 24) && u.gfxMay 63 (d.u64 16) (d.u32 24))
    ∧ draws 0x0081 3 [(4, 4, 1), (8, 8, lastDram - 3), (16, 4, 4)] id
      (fun u d => d.u64 8 % 4 == 0 && d.u32 16 % 4 == 0 && u.gfxMay 63 (d.u64 8) (d.u32 16))
    ∧ draws 0x0030 3 [] (fun x => { x with pass := some aPass }) (fun u _ => (u.gctx 63).pass.isSome &&
      (work false).writes.all fun x => u.gfxMay 63 x.1.toNat x.2.length)
    ∧ draws 0x0030 3 [] id (fun u _ => (u.gctx 63).pass.isNone)
    ∧ draws 0x0030 3 [] (fun x => { x with pass := some aPass }) (fun u _ => (u.gctx 63).pass != none && (work true).exception)
    ∧ draws 0x0031 4 [] id (fun _ _ => true)
    ∧ draws 0x0032 3 [(8, 8, lastDram - 19), (4, 1, 1), (16, 4, 1)] id (fun u d => d.u64 8 % 4 == 0 && u.gfxMay 63 (d.u64 8) 20)
    ∧ draws 0x0040 3 [(8, 4, 65535), (12, 4, 1), (16, 4, 1)] id (fun _ d => d.u32 8 == 65535 && d.u32 12 == 1 && d.u32 16 == 1)
    ∧ draws 0x0040 3 [(8, 4, 65536), (12, 4, 1), (16, 4, 1)] id (fun _ d => d.u32 8 == 65536)
    ∧ draws 0x0041 2 [(8, 8, lastDram - 11)] id (fun u d => d.u64 8 % 4 == 0 && u.gfxMay 63 (d.u64 8) 12)
    ∧ draws 0x0021 1 [] (fun x => { x with pass := some aPass }) (fun u _ => (u.gctx 63).pass == some aPass)
    ∧ draws 0x0021 1 [] id (fun u _ => (u.gctx 63).pass == none)
    ∧ attachments aPass.bytes = [] ∧ leAt aPass.bytes 3 1 / 4 % 2 = 0 := by
  refine ⟨draws_of ?_, draws_of ?_, draws_of ?_, draws_of ?_, draws_of ?_, draws_of ?_, draws_of ?_, draws_of ?_, draws_of ?_,
    draws_of ?_, draws_of ?_, draws_of ?_, draws_of ?_, draws_of ?_, ?_, ?_⟩ <;> decide +kernel

/-- A pass of 8192 by 8192 pixels with bin memory, one sample and no attachment. -/
def passBytes : List Byte := bytesOf 192 [(0, 1, 1), (2, 1, 1), (4, 2, 8192), (6, 2, 8192), (8, 8, inDram), (16, 4, 65536)]

/-- The context stands at BEGIN_PASS of that pass. -/
def begins : State := (drawing 0x0020 2 [(8, 8, inDram)] id).store inDram passBytes

/-- The context stands at a ray batch of one ray, in the scene of `withScene`. -/
def raying : State :=
  (drawing 0x0090 5 [(8, 8, dramBase), (16, 8, lastDram - 31), (24, 4, 1), (32, 8, lastDram - 31)] id).store dramBase
    (bytesOf 64 [(0, 1, 1), (4, 4, 1), (8, 8, dramBase), (16, 8, 64)])

theorem witness_PassesAndRays :
    (∃ (s : State) (ctx : Fin 64) (d : DrawAt), stands s ctx.val 0x0020 d ∧
      ((s.looking ctx.val).gctx d.ctx).pass = none ∧ d.u64 8 % 64 = 0 ∧ (s.looking ctx.val).gfxMay d.ctx (d.u64 8) 192 = true ∧
      descriptorBad ((s.looking ctx.val).load (d.u64 8) 192) (d.u8 4) = false ∧
      (s.looking ctx.val).descriptorOutside d.ctx ((s.looking ctx.val).load (d.u64 8) 192) = false ∧
      (s.looking ctx.val).selectStep ((s.looking ctx.val).load (d.u64 8) 192) (d.u8 4)
        (markedIn ((s.looking ctx.val).gctx d.ctx).history (d.u64 8)) = 7)
    ∧ (∃ (s : State) (ctx : Fin 64) (d : DrawAt) (sc : Scene), stands s ctx.val 0x0090 d ∧
      d.u8 4 % 4 ≠ 3 ∧ d.u32 24 ≠ 0 ∧ d.u32 24 ≤ 1048576 ∧ d.u64 8 % 64 = 0 ∧ d.u64 16 % 32 = 0 ∧ d.u64 32 % 32 = 0 ∧
      (s.looking ctx.val).gfxMay d.ctx (d.u64 8) 64 = true ∧ (s.looking ctx.val).gfxMay d.ctx (d.u64 16) (32 * d.u32 24) = true ∧
      (s.looking ctx.val).gfxMay d.ctx (d.u64 32) (32 * d.u32 24) = true ∧ (s.looking ctx.val).sceneAt (d.u64 8) = some sc ∧
      (s.looking ctx.val).gfxMay d.ctx sc.base sc.size = true) :=
  ⟨⟨begins, 63, drawn 0x0020 2 [(8, 8, inDram)], standsB_spec (e := dramBase + 4112) (by decide +kernel), by decide +kernel⟩,
    ⟨raying, 63, drawn 0x0090 5 [(8, 8, dramBase), (16, 8, lastDram - 31), (24, 4, 1), (32, 8, lastDram - 31)], ⟨dramBase, 64, 0, 1⟩,
      standsB_spec (e := dramBase + 4136) (by decide +kernel), by decide +kernel⟩⟩

/-- A pass descriptor's byte 2 (samples) and bin size, and the step that follows. -/
theorem witness_selectStep :
    (∃ b : List Byte, leAt b 2 1 = 4) ∧ (∃ b : List Byte, leAt b 2 1 ≠ 4 ∧ leAt b 16 4 = 0)
    ∧ (∃ b : List Byte, leAt b 2 1 ≠ 4 ∧ leAt b 16 4 ≠ 0 ∧ tileCols b * tileRows b < State.reset.get gfxTileCfg_TILED_MIN)
    ∧ (∃ b : List Byte, leAt b 2 1 ≠ 4 ∧ leAt b 16 4 ≠ 0 ∧ State.reset.get gfxTileCfg_TILED_MIN ≤ tileCols b * tileRows b) :=
  ⟨⟨bytesOf 192 [(2, 1, 4)], by decide +kernel⟩, ⟨bytesOf 192 [(2, 1, 1)], by decide +kernel⟩,
    ⟨bytesOf 192 [(16, 4, 65536)], by decide +kernel⟩, ⟨passBytes, by decide +kernel⟩⟩

/-! ### Picks, touch and haptics -/

/-- A pick of port 3, contact 15. -/
def aPick : Pick :=
  { port := 3, contact := 15, zoned := false, f := 0, at_ := ⟨0, 0, 0⟩, px := 0, py := 0, scene := dramBase, xf := List.replicate 20 0,
    nodes := 256, tris := 512, queue := 31 }

theorem witness_Picks :
    rides specPickSet 2 3 (bytesOf 104 [(1, 1, 31), (12, 2, 256), (14, 2, 512), (96, 8, dramBase)]) withScene
    ∧ rides specPickScene 2 3 (bytesOf 8 [(0, 8, dramBase)]) withScene ∧ rides specPickClasses 2 3 (bytesOf 16 [(0, 1, 252), (2, 2, 4)]) id
    ∧ goes specPickQuery 1 3 [] id
    ∧ (∃ (s : State) (p : Pick) (rest : List Pick) (port : Fin 4) (contact : Fin 16), s.gfx.picks = p :: rest ∧ p.port = port.val ∧
      p.contact = contact.val)
    ∧ (∃ (s : State) (port px py f : Nat), s.touchOwner port = some f ∧ s.get (gfxPickCtrl_EN port) = 1 ∧ (s.fn f).reset = none ∧
      s.get (gfxPickMin_X port) ≤ px ∧ px ≤ s.get (gfxPickMax_X port) ∧ s.get (gfxPickMin_Y port) ≤ py ∧ py ≤ s.get (gfxPickMax_Y port) ∧
      s.get (gfxPickStatus_IN_FLIGHT port) < 16) :=
  ⟨rides_of (by decide +kernel), rides_of (by decide +kernel), rides_of (by decide +kernel), goes_of (by decide +kernel),
    ⟨(lit []).modGfx fun g => { g with picks := [aPick] }, aPick, [], 3, 15, by decide +kernel⟩,
    ⟨withScene (lit [(gfxPickCtrl_EN 3, 1), (gfxPickMin_X 3, 7), (gfxPickMax_X 3, 7), (gfxPickMax_Y 3, 0), (gfxPickStatus_IN_FLIGHT 3, 15)]),
      3, 7, 0, 0, by decide +kernel⟩⟩

/-- The payload of a TOUCH_SET. -/
def touchSet : List Byte :=
  bytesOf 48 ([(8, 1, 14), (9, 1, 1), (12, 2, 1), (14, 2, 1), (16, 2, 4095), (22, 1, 1), (23, 1, 15)]
    ++ (List.range 9).map fun i => (24 + 2 * i, 2, 0xFFFF))

theorem witness_TouchPackets :
    rides specTouchSet 2 3 touchSet id ∧ rides specZoneSet 2 3 (bytesOf 24 [(0, 1, 63), (1, 1, 1)]) id
    ∧ goes specTouchSelftest 2 3 [] id
    ∧ goesTo specBaselineStore 2 3 [] (fun s => s.put (touchCtrl_EN 3) 1) (fun u o => (u.tport o.tgt).store == none)
    ∧ goesTo specBaselineReset 2 3 [] id (fun u o => u.get (touchCtrl_EN o.tgt) == 0)
    ∧ goesTo specBaselineReset 2 3 [] (fun s => s.put (touchCtrl_EN 3) 1) (fun u o => u.get (touchCtrl_EN o.tgt) != 0)
    ∧ goesTo specTouchQuery 1 3 (bytesOf 8 []) id (fun _ o => o.u8 0 == 0)
    ∧ goesTo specTouchQuery 1 3 (bytesOf 8 [(0, 1, 1)]) id (fun _ o => o.u8 0 == 1)
    ∧ goesTo specTouchQuery 1 3 (bytesOf 8 [(0, 1, 2)]) id (fun _ o => o.u8 0 == 2)
    ∧ goesTo specTouchQuery 1 3 (bytesOf 8 [(0, 1, 3)]) id (fun _ o => o.u8 0 == 3) := by
  refine ⟨rides_of ?_, rides_of ?_, goes_of ?_, goesTo_of ?_, goesTo_of ?_, goesTo_of ?_, goesTo_of ?_, goesTo_of ?_, goesTo_of ?_,
    goesTo_of ?_⟩ <;> decide +kernel

/-- Touch port 3 scans, in a state, with further registers. -/
def touching (state : Nat) (l : List (RF × Nat)) : State :=
  lit ([(touchCtrl_EN 3, 1), (touchStatus_STATE 3, state), (touchWin_EN 3 7, 1), (touchListen_EN 3, 1)] ++ l)

/-- A contact, and a port with nothing on it. -/
def aContact : Contact :=
  { id := 15, cx := 0, cy := 0, x := 0, y := 0, strength := 1, misses := 0, drive := 0, sense := 0, fresh := false, long := false,
    zoned := false }
def noTouch : TouchPort := State.reset.tport 3

/-- The port listens, and after a listening window the noise of the four sets. -/
def listens (s : State) (port : Fin 4) : Prop :=
  s.scans port.val = true ∧ s.get (touchListen_EN port.val) = 1 ∧ s.get (touchStatus_STATE port.val) = 2
def heard (s : State) (port : Fin 4) (n0 n1 n2 n3 : W16) : State :=
  (((s.put (touchNoise_N_LO port.val 0) n0.toNat).put (touchNoise_N_HI port.val 0) n1.toNat).put (touchNoise_N_LO port.val 1) n2.toNat).put
    (touchNoise_N_HI port.val 1) n3.toNat
def hopping : State := touching 2 [(touchHop_HOP_THRESH 3, 5), (touchCtrl_HOP_EN 3, 1), (touchHop_HOP_FRAMES 3, 1)]

theorem witness_TouchScanning :
    (∃ (s : State) (port : Fin 4) (slot : Fin 8), s.scans port.val = true ∧ s.get (touchWin_EN port.val slot.val) = 1 ∧
      s.upcoming (s.addGrains ⟨s.now.frame, s.get (touchWin_LINE port.val slot.val), 0⟩ s.windowGrains) = s.now)
    ∧ (∃ (s : State) (p slot : Nat), s.scans p = true ∧ s.get (touchWin_EN p slot) = 1 ∧ (s.tport p).store = none ∧
      s.get (touchStatus_STATE p) = 2)
    ∧ (∃ (s : State) (p slot : Nat), s.scans p = true ∧ s.get (touchWin_EN p slot) = 1 ∧ (s.tport p).store = none ∧
      s.get (touchStatus_STATE p) ≠ 2)
    ∧ (∃ (s : State) (port : Fin 4) (contact : Fin 16) (c : Contact), s.scans port.val = true ∧ c ∈ (s.tport port.val).contacts ∧
      c.id = contact.val)
    ∧ (∃ (s : State) (port : Fin 4) (n0 n1 n2 n3 : W16), listens s port ∧
      let t := heard s port n0 n1 n2 n3
      t.noise port.val (t.get (touchStatus_COMB_CUR port.val)) ≤ t.get (touchHop_HOP_THRESH port.val))
    ∧ (∃ (s : State) (port : Fin 4) (n0 n1 n2 n3 : W16), listens s port ∧
      let t := heard s port n0 n1 n2 n3
      t.get (touchHop_HOP_THRESH port.val) < t.noise port.val (t.get (touchStatus_COMB_CUR port.val)) ∧
      t.get (touchCtrl_HOP_EN port.val) = 0)
    ∧ (∃ (s : State) (port : Fin 4) (n0 n1 n2 n3 : W16), listens s port ∧
      let t := heard s port n0 n1 n2 n3
      t.get (touchHop_HOP_THRESH port.val) < t.noise port.val (t.get (touchStatus_COMB_CUR port.val)) ∧
      t.get (touchCtrl_HOP_EN port.val) ≠ 0 ∧ t.get (touchHop_HOP_FRAMES port.val) ≤ (t.tport port.val).noisyRun + 1 ∧
      (t.tport port.val).hop = none ∧ t.betterSet port.val = some 3)
    ∧ (∃ (s : State) (port : Fin 4) (n0 n1 n2 n3 : W16), listens s port ∧
      let t := heard s port n0 n1 n2 n3
      t.get (touchHop_HOP_THRESH port.val) < t.noise port.val (t.get (touchStatus_COMB_CUR port.val)) ∧
      t.get (touchCtrl_HOP_EN port.val) ≠ 0 ∧ t.get (touchHop_HOP_FRAMES port.val) ≤ (t.tport port.val).noisyRun + 1 ∧
      (t.tport port.val).hop = none ∧ t.betterSet port.val = none ∧ t.get (touchStatus_NOISY port.val) = 0)
    ∧ (∃ (s : State) (port : Fin 4), s.scans port.val = true ∧ s.get (touchStatus_STATE port.val) = 1)
    ∧ (∃ (s : State) (port : Fin 4) (b : BaselineStore), (s.tport port.val).store = some b ∧ 64 ≤ b.windows ∧
      s.get (touchStatus_STATE port.val) = 3 ∧ s.canonical = true) :=
  let ended (s : State) : State := { s with now := s.addGrains ⟨s.now.frame, s.get (touchWin_LINE 3 7), 0⟩ s.windowGrains }
  ⟨⟨ended (touching 2 [(touchWin_LINE 3 7, 2000)]), 3, 7, by decide +kernel⟩, ⟨touching 2 [], 3, 7, by decide +kernel⟩,
    ⟨touching 1 [], 3, 7, by decide +kernel⟩,
    ⟨(touching 2 []).modPort 3 fun t => { t with contacts := [aContact] }, 3, 15, aContact, by decide +kernel⟩,
    ⟨touching 2 [(touchHop_HOP_THRESH 3, 5)], 3, 5, 0, 0, 0, by unfold listens; decide +kernel⟩,
    ⟨touching 2 [(touchHop_HOP_THRESH 3, 5), (touchCtrl_HOP_EN 3, 0)], 3, 6, 0, 0, 0, by unfold listens; decide +kernel⟩,
    ⟨hopping, 3, 6, 2, 2, 1, by unfold listens; decide +kernel⟩, ⟨hopping, 3, 6, 3, 3, 3, by unfold listens; decide +kernel⟩,
    ⟨touching 1 [], 3, by decide +kernel⟩,
    ⟨(touching 3 []).modPort 3 fun t => { t with store := some ⟨64, [], [], 0, [asked]⟩ }, 3, ⟨64, [], [], 0, [asked]⟩, by decide +kernel⟩⟩

theorem witness_trackNode :
    (∃ (t : TouchPort) (i : Nat), t.out i = true) ∧ (∃ (t : TouchPort) (i : Nat), t.out i = false ∧ frozen t.contacts i = true)
    ∧ (∃ (t : TouchPort) (frames i : Nat), t.out i = false ∧ frozen t.contacts i = false ∧ frames ≤ (sget t.negative i).toNat)
    ∧ (∃ (t : TouchPort) (frames i : Nat), t.out i = false ∧ frozen t.contacts i = false ∧ (sget t.negative i).toNat < frames ∧
      sget t.recovering i ≠ 0)
    ∧ (∃ (t : TouchPort) (frames i neg hold : Nat) (delta : Int), t.out i = false ∧ frozen t.contacts i = false ∧
      (sget t.negative i).toNat < frames ∧ sget t.recovering i = 0 ∧ -(neg : Int) < delta ∧ 2 * delta < hold)
    ∧ (∃ (t : TouchPort) (frames i neg hold : Nat) (delta : Int), t.out i = false ∧ frozen t.contacts i = false ∧
      (sget t.negative i).toNat < frames ∧ sget t.recovering i = 0 ∧ (delta ≤ -(neg : Int) ∨ (hold : Int) ≤ 2 * delta)) :=
  ⟨⟨{ noTouch with exDrive := 1 }, 0, by decide +kernel⟩, ⟨{ noTouch with contacts := [aContact] }, 0, by decide +kernel⟩,
    ⟨{ noTouch with negative := [(7167, 3)] }, 3, 7167, by decide +kernel⟩,
    ⟨{ noTouch with recovering := [(7167, 1)] }, 1, 7167, by decide +kernel⟩, ⟨noTouch, 1, 0, 10, 10, -9, by decide +kernel⟩,
    ⟨noTouch, 1, 0, 10, 10, 5, by decide +kernel⟩⟩

theorem witness_HapticPackets :
    rides specHapChannelSet 2 7 (bytesOf 16 [(2, 2, 500), (4, 2, 12000), (6, 1, 8), (7, 1, 50)]) id
    ∧ rides specHapEffectSet 2 7 (bytesOf 72 [(0, 1, 63), (8, 1, 1)]) id
    ∧ goes specHapWaveWrite 2 7 (bytesOf 16 [(0, 2, 4092), (2, 2, 4)]) id ∧ goes specHapPlay 3 7 (bytesOf 8 []) id
    ∧ goes specHapStop 3 7 [] id ∧ goes specHapClear 2 7 [] id ∧ goes specHapQuery 1 7 [] id
    ∧ (∃ (s : State) (n old : Nat), n < 6 ∧ s.get (hapCfg_TYPE n) = old) ∧ (∃ (s : State) (n old : Nat), n < 6 ∧ s.get (hapCfg_TYPE n) = 0 ∧ old ≠ 0)
    ∧ (∃ (s : State) (n old : Nat), n < 6 ∧ s.get (hapCfg_TYPE n) ≠ 0 ∧ old = 0) :=
  ⟨rides_of (by decide +kernel), rides_of (by decide +kernel), goes_of (by decide +kernel), goes_of (by decide +kernel),
    goes_of (by decide +kernel), goes_of (by decide +kernel), goes_of (by decide +kernel), ⟨lit [(hapCfg_TYPE 5, 1)], 5, 1, by decide +kernel⟩,
    ⟨lit [], 5, 2, by decide +kernel⟩, ⟨lit [(hapCfg_TYPE 5, 1)], 5, 0, by decide +kernel⟩⟩

/-- Channel 5 with a play of an effect of a kind, in a state. -/
def playing (kind st : Nat) : State :=
  (lit [(hapStatus_STATE 5, st)]).modChan 5 fun c => { c with play := some { restPlay 63 (bytesOf 64 [(0, 1, 1), (1, 1, kind), (4, 2, 1)]) false with
    half := 8, stalled := 8, clamped := 16 } }

/-- That play. -/
def aPlay (kind : Nat) : HapPlay := ((playing kind 0).chan 5).play.getD (restPlay 0 [] false)

theorem witness_HapticPlays :
    (∃ (s : State) (ch : Fin 8) (p : HapPlay), s.get (hapStatus_STATE ch.val) = hapDrive ∧ (s.chan ch.val).play = some p)
    ∧ (∃ p : HapPlay, fxKind p.record = 1 ∧ 8 ≤ p.half ∧ fxA p.record ≠ 0) ∧ (∃ p : HapPlay, fxKind p.record ≠ 1 ∨ p.half < 8)
    ∧ (∃ (s : State) (ch : Fin 8), s.get (hapStatus_STATE ch.val) = hapBrake)
    ∧ (∃ (s : State) (ch : Fin 8) (p : HapPlay), s.get (hapStatus_STATE ch.val) = hapGap ∧ (s.chan ch.val).play = some p)
    ∧ (∃ (s : State) (n : Nat) (p : HapPlay), (s.chan n).play = some p ∧ p.left = 0 ∧ (s.chan n).pending = none)
    ∧ (∃ (s : State) (n e : Nat) (p : HapPlay) (r : List Byte), (s.chan n).play = some p ∧ p.left = 0 ∧ (s.chan n).pending = some (e, r))
    ∧ (∃ (s : State) (ch : Fin 8) (p : HapPlay), (s.chan ch.val).play = some p ∧ s.get (hapStatus_STATE ch.val) = hapDrive ∧
      fxKind p.record = 1)
    ∧ (∀ code ∈ [1, 2, 3, 4, 5], ∃ (s : State) (ch : Fin 8), s.hapFaultHolds ch.val code = true)
    ∧ (∃ (s : State) (ch : Fin 8) (microamps : W32), (s.chan ch.val).checking = true ∧ microamps ≠ 0 ∧
      openRound 10000000 microamps.toNat ≤ 65535)
    ∧ (∃ (s : State) (n : Nat), s.bridges = true ∧ s.chanUp n = true ∧ s.get (hapStatus_STATE n) = hapIdle ∧ fxKind (s.effect n 63) = 1 ∧
      s.get (hapCfg_TYPE n) ≠ 2)
    ∧ (∃ (s : State) (n : Nat), s.bridges = true ∧ s.chanUp n = true ∧ s.get (hapStatus_STATE n) = hapDrive ∧ fxKind (s.effect n 63) = 1 ∧
      s.get (hapCfg_TYPE n) ≠ 2 ∧ (s.chan n).pending = none)
    ∧ (∃ (s : State) (n : Nat), s.bridges = true ∧ s.chanUp n = true ∧ s.get (hapStatus_STATE n) = hapFaulted) :=
  let loud := (playing 1 hapDrive).modChan 5 fun c => { c with level := -1000 }
  ⟨⟨playing 1 hapDrive, 5, aPlay 1, by decide +kernel⟩, ⟨aPlay 1, by decide +kernel⟩, ⟨aPlay 2, by decide +kernel⟩,
    ⟨playing 1 hapBrake, 5, by decide +kernel⟩, ⟨playing 1 hapGap, 5, aPlay 1, by decide +kernel⟩,
    ⟨playing 2 hapBrake, 5, aPlay 2, by decide +kernel⟩,
    ⟨(playing 2 hapBrake).modChan 5 fun c => { c with pending := some (0, []) }, 5, 0, aPlay 2, [], by decide +kernel⟩,
    ⟨playing 1 hapDrive, 5, aPlay 1, by decide +kernel⟩,
    by intro code h; exact ⟨loud, 5, (show (([1, 2, 3, 4, 5] : List Nat).all fun c => loud.hapFaultHolds 5 c) = true by decide +kernel) |>
      (fun a => List.all_eq_true.1 a code h)⟩,
    ⟨(lit []).modChan 7 fun c => { c with checking := true }, 7, 200, by decide +kernel⟩,
    ⟨rig (lit [(hapStatus_STATE 5, hapIdle)]) [(⟨hapFx 5 63 0, 8, 8⟩, 1)], 5, by decide +kernel⟩,
    ⟨rig (lit [(hapStatus_STATE 5, hapDrive)]) [(⟨hapFx 5 63 0, 8, 8⟩, 1)], 5, by decide +kernel⟩,
    ⟨lit [(hapStatus_STATE 7, hapFaulted)], 7, by decide +kernel⟩⟩

/-! ### Audio, mailboxes, queues and locks -/

theorem witness_AudioPackets :
    goes specAudAssign 2 40 (bytesOf 8 []) id ∧ rides specRouteSet 2 79 (bytesOf 16 [(0, 1, 2), (8, 1, 49)]) id
    ∧ rides specBusSet 2 79 (bytesOf 16 [(10, 2, 10)]) id ∧ rides specEqSet 2 79 (bytesOf 24 []) id
    ∧ rides specSinkSet 2 109 (bytesOf 8 []) id
    ∧ rides specStreamSet 2 31 (bytesOf 32 [(6, 1, 12), (8, 8, dramBase)]) (fun s =>
      (s.put (worldFnRange_SIZE 0) 1).modFn 0 fun x => { x with tenant := some { poor with streams := [31] } })
    ∧ goes specStreamKick 2 31 (bytesOf 8 []) id ∧ rides specToneSet 2 39 (bytesOf 16 [(4, 2, 20), (6, 2, 12000)]) id
    ∧ goes specTdmSet 2 0 (bytesOf 8 []) id ∧ goesTo specAudQuery 1 0 [] id (fun _ o => o.tgt == 0) := by
  refine ⟨goes_of ?_, rides_of ?_, rides_of ?_, rides_of ?_, rides_of ?_, rides_of ?_, goes_of ?_, rides_of ?_, goes_of ?_, goesTo_of ?_⟩ <;>
    decide +kernel

/-- A TONE_PLAY that starts, and one that stops. -/
def tonePlay (op : Nat) : Packet × State := holding specTonePlay 2 39 (bytesOf 16 [(0, 1, op)]) id

theorem witness_AudioPackets_targets :
    (lone specTonePlay (tonePlay 1).1 (tonePlay 1).2 ∧ (entryOrigin (tonePlay 1).1 specTonePlay (tonePlay 1).2).u8 0 = 1)
    ∧ (lone specTonePlay (tonePlay 0).1 (tonePlay 0).2 ∧ (entryOrigin (tonePlay 0).1 specTonePlay (tonePlay 0).2).u8 0 = 0)
    ∧ (∀ t ∈ [31, 39, 49, 79, 109], goes specAudQuery 1 t [] id)
    ∧ (∃ (s : State) (k : Nat), k < 4 ∧ s.get (audSinkCtrl_EN k) = 0) ∧ (∃ (s : State) (k : Nat), k < 4 ∧ s.get (audSinkCtrl_EN k) ≠ 0) :=
  ⟨⟨loneB_spec (by decide +kernel), by decide +kernel⟩, ⟨loneB_spec (by decide +kernel), by decide +kernel⟩,
    by intro t h; exact goes_of (List.all_eq_true.1 (show ([31, 39, 49, 79, 109].all fun t =>
      (fun x : Packet × State => passesB specAudQuery x.1 x.2) (holding specAudQuery 1 t [] id)) = true by decide +kernel) t h),
    ⟨lit [(audSinkCtrl_EN 3, 0)], 3, by decide +kernel⟩, ⟨lit [(audSinkCtrl_EN 3, 1)], 3, by decide +kernel⟩⟩

/-- A tone that sounds, with a cadence and a number of repeats left. -/
def sounding (l : List (RF × Nat)) (f : AudTone → AudTone) : State := (lit ((audToneCfg_RUN 7, 1) :: l)).modTone 7 f

theorem witness_AudioEngine :
    (∃ s : State, s.sampleGrains (max (s.aud.sample + 1) s.audNow) ≤ s.grains s.now ∧ s.blockUp 35 28 = true ∧ s.mixes = true)
    ∧ (∃ (s : State) (n : Nat) (limited : BitVec 8),
      (((List.range 8).foldl (fun t c => t.hapSample c (limited.getLsbD c)) s).modAud fun a => { a with sample := n }).mixes = false)
    ∧ (∃ (s : State) (k : Nat), (s.stepSink k (s.stepNow (s.bus (s.sink k).bus).out (s.sink k).last (s.sink k).wait)).sinkDrives k = false)
    ∧ (∃ (s : State) (k : Nat), let t := s.stepSink k (s.stepNow (s.bus (s.sink k).bus).out (s.sink k).last (s.sink k).wait)
      t.sinkDrives k = true ∧ (t.sink k).phase < 2)
    ∧ (∃ (s : State) (i : Fin 32), s.get (audStrCtrl_EN i.val) ≠ 0 ∧ s.get (audStrCtrl_PERIOD i.val) ≠ 0)
    ∧ (∃ (s : State) (n i : Nat), s.get (audToneCfg_RUN n) ≠ 0 ∧ s.partFrom n ((s.tone n).part + 1) = some i)
    ∧ (∃ (s : State) (n : Nat), s.get (audToneCfg_RUN n) ≠ 0 ∧ s.partFrom n ((s.tone n).part + 1) = none ∧ (s.tone n).repeats = some 0)
    ∧ (∃ (s : State) (n i k : Nat), s.get (audToneCfg_RUN n) ≠ 0 ∧ s.partFrom n ((s.tone n).part + 1) = none ∧ s.partFrom n 0 = some i ∧
      (s.tone n).repeats = some (k + 1))
    ∧ (∃ (s : State) (index : Fin 800), s.xpGain (index.val / 16) (index.val % 16) ≠ s.get (audXp_GAIN (index.val / 16) (index.val % 16)))
    ∧ (∃ (s : State) (i : Nat), (s.bus i).gain ≠ s.get (audBusCtrl_GAIN i)) ∧ (∃ (s : State) (i : Nat), (s.bus i).phase = 3)
    ∧ (∃ (s : State) (i : Nat), (s.sink i).phase = 3) ∧ (∃ (s : State) (i : Nat), (s.tone i).stopping ≠ none)
    ∧ (∃ (s : State) (speaker : Fin 2) (code : Fin 4), code.val ≠ 0 ∧ s.sinkDrives (4 + speaker.val) = true) :=
  ⟨⟨{ lit [(wallAudRatio_AUD_NUM, 2), (wallAudRatio_AUD_DEN, 45), (worldCpcPwr_ON, 2 ^ 35), (worldCpcClk_ON, 2 ^ 35)] with now := ⟨10, 0, 0⟩ },
      by decide +kernel⟩,
    ⟨live 1 32 0, 1, 0, by decide +kernel⟩, ⟨lit [(audSinkCtrl_EN 3, 0)], 3, by decide +kernel⟩,
    ⟨lit [(audSinkCtrl_EN 3, 1)], 3, by decide +kernel⟩, ⟨lit [(audStrCtrl_EN 31, 1), (audStrCtrl_PERIOD 31, 1)], 31, by decide +kernel⟩,
    ⟨sounding [(audToneTime_T1 7, 1), (audToneTime_T2 7, 0), (audToneOff_TOFF 7, 1)] id, 7, 2, by decide +kernel⟩,
    ⟨sounding [] fun x => { x with part := 2, repeats := some 0 }, 7, by decide +kernel⟩,
    ⟨sounding [(audToneTime_T1 7, 0), (audToneTime_T2 7, 65535)] fun x => { x with part := 2, repeats := some 1 }, 7, 1, 0, by decide +kernel⟩,
    ⟨lit [(audXp_GAIN 49 15, 7)], 799, by decide +kernel⟩, ⟨lit [(audBusCtrl_GAIN 15, 7)], 15, by decide +kernel⟩,
    ⟨(lit []).modBus 15 fun u => { u with phase := 3 }, 15, by decide +kernel⟩,
    ⟨(lit []).modSink 13 fun u => { u with phase := 3 }, 13, by decide +kernel⟩, ⟨sounding [] fun x => { x with stopping := some 0 }, 7, by decide +kernel⟩,
    ⟨lit [(audSinkCtrl_EN 5, 1)], 1, 3, by decide +kernel⟩⟩

/-- A mailbox with messages. -/
def boxed (m : Nat) (l : List (List Byte)) (r : List (RF × Nat)) : State :=
  (lit r).modMbq fun b => { b with boxes := b.boxes.set m l }

theorem witness_Mailboxes :
    (∃ (s : State) (k : Fin 4) (w : World) (value : W32),
      s.postResult (.core k w) (value.toNat % 64) (value.toNat / 256 % 64) (value.toNat / 64 % 4 == 0) = 1)
    ∧ (∃ (s : State) (k : Fin 4) (w : World) (value : W32),
      s.postResult (.core k w) (value.toNat % 64) (value.toNat / 256 % 64) (value.toNat / 64 % 4 == 0) ≠ 1)
    ∧ (∃ (s : State) (m : Nat) (who : Requester), s.admits m who = false) ∧ (∃ (s : State) (m len : Nat) (who : Requester), s.admits m who = true ∧ 48 < len)
    ∧ (∃ (s : State) (m len : Nat) (who : Requester), s.admits m who = true ∧ len ≤ 48 ∧ 8 ≤ (s.box m).length)
    ∧ (∃ (s : State) (m len : Nat) (who : Requester), s.admits m who = true ∧ len ≤ 48 ∧ (s.box m).length < 8)
    ∧ (∃ (s : State) (f : Fin 32) (window : Fin 8) (m : Nat), s.onLink f.val = true ∧ s.power.warm = none ∧ s.resetting f.val = false ∧
      s.windowBox f.val window.val = some m)
    ∧ (∃ (s : State) (m : Nat) (l : List (List Byte)), 32 ≤ s.get (mbqMbCfg_RX m) ∧
      (((s.modMbq fun b => { b with boxes := b.boxes.set m l }).put (mbqMbFlag_COUNT m) l.length).putBit (mbqMbFlag_FULL m)
        (l.length == 8)).get (mbqMbCfg_RX m) = s.get (mbqMbCfg_RX m))
    ∧ (∃ (s : State) (unit : Fin 64) (value : W32) (first : List Byte) (rest : List (List Byte)), s.box unit.val = first :: rest ∧
      value.toNat % 2 = 1 ∧ s.get (mbqMbCfg_RX unit.val) = 62)
    ∧ (∃ (s : State) (unit : Fin 64) (value : W32) (first : List Byte) (rest : List (List Byte)), s.box unit.val = first :: rest ∧
      value.toNat % 2 = 1 ∧ s.get (mbqMbCfg_RX unit.val) ≠ 62)
    ∧ (∃ (s : State) (unit : Fin 64), s.box unit.val = []) ∧ (∃ (s : State) (unit : Fin 64) (value : W32), s.box unit.val ≠ [] ∧ value.toNat % 2 = 0)
    ∧ goes specMbAllow 2 63 (bytesOf 8 [(4, 1, 3)]) id ∧ goes specMbQuery 1 63 [] id :=
  ⟨⟨lit [(mbqMbAllow_OPEN 63, 1)], 3, .opened, 0x303F, by decide +kernel⟩, ⟨lit [(mbqMbAllow_OPEN 63, 0)], 3, .opened, 0x303F, by decide +kernel⟩,
    ⟨lit [(mbqMbAllow_FUNC 63, 0)], 63, .host 31, by decide +kernel⟩, ⟨lit [(mbqMbAllow_FUNC 63, 2 ^ 31)], 63, 49, .host 31, by decide +kernel⟩,
    ⟨boxed 63 (List.replicate 8 []) [(mbqMbAllow_SEALED 63, 1)], 63, 48, .core 0 .sealed, by decide +kernel⟩,
    ⟨boxed 63 (List.replicate 7 []) [(mbqMbAllow_SEALED 63, 1)], 63, 48, .core 0 .sealed, by decide +kernel⟩,
    ⟨rig (port 1 1 15) ([56, 57, 58, 59, 60, 61, 62, 63].map fun m => (mbqMbCfg_RX m, 31)), 31, 7, 63, by decide +kernel⟩,
    ⟨lit [(mbqMbCfg_RX 63, 32)], 63, [[]], by decide +kernel⟩, ⟨boxed 63 [[]] [(mbqMbCfg_RX 63, 62)], 63, 1, [], [], by decide +kernel⟩,
    ⟨boxed 63 [[], [0]] [(mbqMbCfg_RX 63, 63)], 63, 0xFFFFFFFF, [], [[0]], by decide +kernel⟩, ⟨lit [], 0, by decide +kernel⟩,
    ⟨boxed 63 [[]] [], 63, 2, by decide +kernel⟩, goes_of (by decide +kernel), goes_of (by decide +kernel)⟩

/-- A report queue with packets and lost items. -/
def queued (l : List (List W64)) (broken : Nat) (r : List (RF × Nat)) : State := (lit r).setQueue 31 ⟨l, broken, broken⟩

theorem witness_QueuesAndLocks :
    (∃ s : State, (s.queue 31).broken ≠ 0) ∧ (∃ s : State, (s.queue 31).broken = 0 ∧ (s.queue 31).packets = [])
    ∧ (∃ (s : State) (i : W64) (p : List W64) (rest : List (List W64)), (s.queue 31).broken = 0 ∧ (s.queue 31).packets = (i :: p) :: rest)
    ∧ (∃ (s : State) (item : W64) (key : Nat), 2 ^ 63 ≤ item.toNat ∧ s.staging key ≠ [])
    ∧ (∃ item : W64, 2 ^ 63 ≤ item.toNat ∧ (0x70 ≤ itemKind item ∧ itemKind item ≤ 0x7E)) ∧ (∃ item : W64, item.toNat < 2 ^ 63)
    ∧ (∃ (s : State) (items : List W64), (s.queue 31).fill + items.length ≤ 4096 ∧ items ≠ [])
    ∧ (∃ (s : State) (q : Fin 32), s.get (mbqQCfg_HOST q.val) = 1 ∧ s.get (mbqQCfg_OWNER q.val) < 32 ∧ (s.queue q.val).readable ≠ [])
    ∧ (∃ (s : State) (l : Fin 64), s.get (mbqLockPeek_HELD l.val) ≠ 0) ∧ (∃ (s : State) (l : Fin 64), s.get (mbqLockPeek_HELD l.val) = 0)
    ∧ (∃ (s : State) (l : Fin 64) (k : Fin 4) (w : World), s.get (mbqLockPeek_HELD l.val) = 1 ∧
      s.get (mbqLockPeek_HOLDER l.val) = agentOf (.core k w))
    ∧ (∃ (s : State) (l : Fin 64) (k : Fin 4) (w : World), s.get (mbqLockPeek_HOLDER l.val) ≠ agentOf (.core k w))
    ∧ goes specQSet 2 31 (bytesOf 24 [(1, 1, 6), (2, 1, 1)]) id ∧ goes specQQuery 1 31 [] id ∧ goes specLockTake 2 63 [] id
    ∧ goesTo specLockGive 2 63 [] id (fun u o => u.get (mbqLockPeek_HELD o.tgt) == 0)
    ∧ goesTo specLockGive 2 63 [] (fun s => rig s [(mbqLockPeek_HELD 63, 1), (mbqLockPeek_HOLDER 63, asked.mbqAgent)]) (fun u o =>
      u.get (mbqLockPeek_HELD o.tgt) == 1 && u.get (mbqLockPeek_HOLDER o.tgt) == o.mbqAgent) :=
  ⟨⟨queued [] 1 [], by decide +kernel⟩, ⟨queued [] 0 [], by decide +kernel⟩, ⟨queued [[5]] 0 [], 5, [], [], by decide +kernel⟩,
    ⟨(lit []).setStaging 31 [0], 0xFFFFFFFFFFFFFFFF, 31, by decide +kernel⟩, ⟨0xF000000000000000, by decide +kernel⟩,
    ⟨0x7FFFFFFFFFFFFFFF, by decide +kernel⟩, ⟨queued [[1, 2]] 0 [], [3], by decide +kernel⟩,
    ⟨queued [] 1 [(mbqQCfg_HOST 31, 1), (mbqQCfg_OWNER 31, 31)], 31, by decide +kernel⟩, ⟨lit [(mbqLockPeek_HELD 63, 1)], 63, by decide +kernel⟩,
    ⟨lit [], 63, by decide +kernel⟩,
    ⟨lit [(mbqLockPeek_HELD 63, 1), (mbqLockPeek_HOLDER 63, agentOf (.core 3 .opened))], 63, 3, .opened, by decide +kernel⟩,
    ⟨lit [], 63, 0, .sealed, by decide +kernel⟩, goes_of (by decide +kernel), goes_of (by decide +kernel), goes_of (by decide +kernel),
    goesTo_of (by decide +kernel), goesTo_of (by decide +kernel)⟩

/-! ### The memory controller -/

/-- A set point change in a phase. -/
def changing (ph : ChangePhase) (o : Option Origin) (l : List (RF × Nat)) : State :=
  (lit l).modDramc fun d => { d with change := some ⟨ph, ⟨0, 0, 0⟩, o⟩ }

/-- Channel 7 forces refreshes. -/
def forcing7 (l : List (RF × Nat)) : State := (lit l).setForcing 7 true

theorem witness_RefreshAndErrors :
    (∃ (s : State) (c : Fin 8), s.forcing c.val = false ∧ (s.put (dramcChStatus_OWED c.val) (min 128 (s.get (dramcChStatus_OWED c.val) + 1))).get
      dramcRefCfg_FORCE_AT ≤ (s.put (dramcChStatus_OWED c.val) (min 128 (s.get (dramcChStatus_OWED c.val) + 1))).get (dramcChStatus_OWED c.val))
    ∧ (∃ (s : State) (c : Fin 8), s.forcing c.val = true)
    ∧ (∃ s : State, s.bit dramcRefPlan_MASK s.now.grain = false)
    ∧ (∃ (s : State) (waiting : Byte), s.bit dramcRefPlan_MASK s.now.grain = true ∧ s.dramc.change = none ∧ waiting.toNat = 0)
    ∧ (∃ (s : State) (waiting : Byte), s.bit dramcRefPlan_MASK s.now.grain = true ∧ s.dramc.change = none ∧
      (∀ c < 8, s.forcing c = false ∧ s.get (dramcChStatus_OWED c) ≠ 128) ∧ waiting.toNat = 0xFF)
    ∧ (∃ (s : State) (c : Nat), let t := s.put (dramcChStatus_OWED c) (s.get (dramcChStatus_OWED c) - s.get dramcRefCfg_PER_SLOT)
      t.forcing c = false)
    ∧ (∃ (s : State) (c : Nat), let t := s.put (dramcChStatus_OWED c) (s.get (dramcChStatus_OWED c) - s.get dramcRefCfg_PER_SLOT)
      t.forcing c = true ∧ 2 * t.get (dramcChStatus_OWED c) < t.get dramcRefCfg_FORCE_AT)
    ∧ (∃ (s : State) (c : Fin 8) (temp : Byte), (s.put (dramcChStatus_TEMP c.val) temp.toNat).get (dramcChStatus_DERATE c.val) = 0 ∧ 85 < temp.toInt)
    ∧ (∃ (s : State) (c : Fin 8) (temp : Byte), (s.put (dramcChStatus_TEMP c.val) temp.toNat).get (dramcChStatus_DERATE c.val) = 1 ∧ temp.toInt ≤ 80)
    ∧ (∃ temp : Byte, 80 < temp.toInt ∧ temp.toInt ≤ 85)
    ∧ (∃ (s : State) (line : BitVec 42), dramBase ≤ line.toNat * 64 ∧ line.toNat * 64 < dramBase + s.usable ∧ s.get dramcStatus_INIT_DONE = 1 ∧
      s.get dramcScrub_SCRUB_H ≠ 0)
    ∧ (∃ r : Fin 8, r ≠ 7) :=
  ⟨⟨lit [(dramcChStatus_OWED 7, 127), (dramcRefCfg_FORCE_AT, 128)], 7, by decide +kernel⟩, ⟨forcing7 [], 7, by decide +kernel⟩,
    ⟨lit [(dramcRefPlan_MASK, 0xFFFFFFFE)], by decide +kernel⟩, ⟨lit [(dramcRefPlan_MASK, 1)], 0, by decide +kernel⟩,
    ⟨lit [(dramcRefPlan_MASK, 1)], 0xFF, by decide +kernel⟩, ⟨lit [], 7, by decide +kernel⟩,
    ⟨forcing7 [(dramcRefCfg_FORCE_AT, 112), (dramcChStatus_OWED 7, 56), (dramcRefCfg_PER_SLOT, 1)], 7, by decide +kernel⟩,
    ⟨lit [], 7, 86, by decide +kernel⟩, ⟨lit [(dramcChStatus_DERATE 7, 1)], 7, 0x80, by decide +kernel⟩, ⟨81, by decide +kernel⟩,
    ⟨lit [(dramcStatus_INIT_DONE, 1), (dramcScrub_SCRUB_H, 1)], BitVec.ofNat 42 (dramBase / 64), by decide +kernel⟩, ⟨6, by decide +kernel⟩⟩

theorem witness_SetPointChanges :
    goes specMemFreqSet 1 0 (bytesOf 8 [(0, 1, 3), (2, 2, 2249)]) (fun s => s.put dramcStatus_USABLE 15)
    ∧ (∃ s : State, s.dramc.training = []) ∧ (∃ s : State, s.dramc.training ≠ [])
    ∧ (∃ (s : State) (k : Fin 4) (value : W32), value.toNat < 2 ^ 31 ∧ s.writeBarred (.core k .sealed) dramcFchg.addr = false)
    ∧ (∃ (s : State) (k : Fin 4) (value : W32), 2 ^ 31 ≤ value.toNat ∧ s.mode ∈ modesFreq ∧
      s.changeFault (value.toNat / 2 ^ 16 % 4) (value.toNat % 2 ^ 14) = none ∧ s.writeBarred (.core k .sealed) dramcFchg.addr = false)
    ∧ (∃ (s : State) (value : W32), 2 ^ 31 ≤ value.toNat ∧ s.changeFault (value.toNat / 2 ^ 16 % 4) (value.toNat % 2 ^ 14) ≠ none)
    ∧ (∃ (s : State) (c : SetPointChange), s.dramc.training = [] ∧ s.dramc.change = some c ∧ c.phase = .waiting)
    ∧ (∃ (s : State) (c : SetPointChange), s.dramc.change = some c ∧ c.phase = .armed ∧ ∀ k < 8, s.get (dramcChStatus_OWED k) ≤ 16)
    ∧ (∃ (s : State) (c : SetPointChange), s.dramc.change = some c ∧ c.phase = .armed ∧ ∃ k < 8, 16 < s.get (dramcChStatus_OWED k))
    ∧ (∃ (s : State) (c : SetPointChange), s.dramc.change = some c ∧ c.phase = .stopped ∧ c.origin = none)
    ∧ (∃ (s : State) (c : SetPointChange) (o : Origin), s.dramc.change = some c ∧ c.phase = .stopped ∧ c.origin = some o)
    ∧ (∃ s : State, ∀ c, s.dramc.change = some c → c.phase ≠ .stopped) :=
  ⟨goes_of (by decide +kernel), ⟨lit [], by decide +kernel⟩, ⟨(lit []).modDramc fun d => { d with training := [(0, none)] }, by decide +kernel⟩,
    ⟨lit [], 3, 0x7FFFFFFF, by decide +kernel⟩, ⟨rig (live 2 32 0) [(dramcStatus_USABLE, 15), (dramcCfg_FCHG_EN, 1)], 3, 0x800308C9, by decide +kernel⟩,
    ⟨lit [], 0xFFFFFFFF, by decide +kernel⟩, ⟨changing .waiting none [], ⟨.waiting, ⟨0, 0, 0⟩, none⟩, by decide +kernel⟩,
    ⟨changing .armed none [(dramcChStatus_OWED 7, 16)], ⟨.armed, ⟨0, 0, 0⟩, none⟩, by decide +kernel⟩,
    ⟨changing .armed none [(dramcChStatus_OWED 7, 17)], ⟨.armed, ⟨0, 0, 0⟩, none⟩, by decide +kernel⟩,
    ⟨changing .stopped none [], ⟨.stopped, ⟨0, 0, 0⟩, none⟩, by decide +kernel⟩,
    ⟨changing .stopped (some asked) [], ⟨.stopped, ⟨0, 0, 0⟩, some asked⟩, asked, by decide +kernel⟩,
    ⟨changing .armed none [], by intro c h; injection h with h; subst h; decide⟩⟩

/-- Set points wait to be trained. -/
def untrained (l : List (Nat × Option Origin)) : State := (lit []).modDramc fun d => { d with training := l }

/-- A training without results. -/
def lanesOf (s : State) (sp : Nat) : State := s.each (List.range 16) fun s i => s.trainLane (i / 2) (i % 2) sp (16, 31) (16, 32)

/-- What is left after the last set point was trained. -/
def lastTrained (s : State) (sp : Nat) : State :=
  let t := lanesOf ((s.modDramc fun d => { d with training := [] }).put dramcStatus_TRAINING 0) sp
  (t.putBitAt dramcStatus_USABLE sp ((List.range 8).all fun c => t.channelPassed c sp)).raise 392 sp

theorem witness_TrainingAndMemorySettings :
    (∃ s : State, s.dramc.training = [])
    ∧ (∃ (s : State) (sp : Nat) (x : Nat × Option Origin) (rest : List (Nat × Option Origin)), s.dramc.training = (sp, none) :: x :: rest ∧
      x.2 = none ∧ s.dramc.change = none)
    ∧ (∃ (s : State) (sp : Nat), s.dramc.training = [(sp, none)] ∧ s.dramc.change = none ∧
      ((lastTrained s sp).put dramcStatus_SETPOINT (lastTrained s sp).bestSetPoint).loseChannels.dramc.change = none)
    ∧ (∃ (s : State) (sp : Nat) (o : Origin), s.dramc.training = [(sp, some o)] ∧
      ((lastTrained s sp).loseChannels.settle o (done 0 0)).dramc.change = none)
    ∧ (∃ rd : Byte × Byte, 16 ≤ rd.2.toNat + 1 - rd.1.toNat) ∧ (∃ rd : Byte × Byte, rd.2.toNat + 1 - rd.1.toNat < 16)
    ∧ (∃ s : State, s.get dramcStatus_INIT_DONE = 0 ∧ s.dramc.training = [] ∧ s.get dramcStatus_CH_LOST = 0 ∧ s.mode = modeKindling)
    ∧ goes specMemRetrain 1 0 (bytesOf 8 []) id ∧ goes specMemRefPlan 1 0 (bytesOf 8 [(0, 4, 0xFFFFFFFF), (4, 1, 1), (5, 1, 112)]) id
    ∧ goes specMemCfg 1 0 (bytesOf 16 [(0, 1, 8), (1, 1, 10), (2, 1, 20), (3, 1, 1)]) id
    ∧ goesTo specMemQuery 1 7 [] id (fun _ o => o.tgt < 8) ∧ goesTo specMemQuery 1 8 [] id (fun _ o => o.tgt == 8)
    ∧ (∃ (p : Packet) (s : State), passes specMemQuery p s ∧ (entryOrigin p specMemQuery s).tgt = 0xFF ∧ (entryOrigin p specMemQuery s).ring < 32) :=
  ⟨⟨lit [], by decide +kernel⟩, ⟨untrained [(3, none), (2, none)], 3, (2, none), [], by decide +kernel⟩,
    ⟨untrained [(0, none)], 0, by decide +kernel⟩, ⟨untrained [(3, some asked)], 3, asked, by decide +kernel⟩, ⟨(16, 31), by decide +kernel⟩,
    ⟨(16, 30), by decide +kernel⟩, ⟨live 1 32 0, by decide +kernel⟩, goes_of (by decide +kernel), goes_of (by decide +kernel),
    goes_of (by decide +kernel), goesTo_of (by decide +kernel), goesTo_of (by decide +kernel),
    ⟨packetOf specMemQuery 31 0xFF [], ((live 2 31 40).modFn 31 fun x => { x with tenant := some poor }), passesB_spec (by decide +kernel),
      by decide +kernel⟩⟩

/-! ### Clocks, debug, check units and software reset -/

theorem witness_ClockAndPowerRequests :
    (∃ (s : State) (k : Fin 4) (w : World), s.writeBarred (.core k w) worldCpcReq.addr = false)
    ∧ (∃ d, cpcDomain d = false) ∧ (∃ d, cpcDomain d = true ∧ worldOf (.core 3 .opened) = .opened ∧ coreDomain d = true)
    ∧ (∃ (s : State) (d : Nat), cpcDomain d = true ∧ worldOf (.core 3 .opened) = .opened ∧ coreDomain d = false ∧ s.bit worldClaim_CLAIM d = true)
    ∧ (∃ (s : State) (d action : Nat), cpcDomain d = true ∧ worldOf (.core 3 .sealed) = .sealed ∧ action % 2 = 0 ∧ s.domainBusy d = true)
    ∧ (∃ (s : State) (d action : Nat), cpcDomain d = true ∧ coreDomain d = false ∧ s.bit worldClaim_CLAIM d = false ∧ action % 2 = 0 ∧
      s.domainBusy d = true)
    ∧ (∃ (s : State) (d action : Nat), cpcDomain d = true ∧ coreDomain d = false ∧ s.bit worldClaim_CLAIM d = false ∧ action % 2 = 0 ∧
      s.domainBusy d = false)
    ∧ (∃ (s : State) (d : Nat), s.bit worldCpcPwr_ON d = false ∧ d ∉ s.world.cpcSlots)
    ∧ (∃ (s : State) (d : Fin 64) (rest : List Nat), s.world.cpcSlots = d.val :: rest ∧ swrstOf d.val = none)
    ∧ (∃ (s : State) (d : Fin 64) (rest : List Nat) (bit : Nat), s.world.cpcSlots = d.val :: rest ∧ swrstOf d.val = some bit ∧
      ((({ s with world := { s.world with cpcSlots := rest } } : State).putBitAt worldCpcPwr_ON d.val true).raise 12 d.val).blockBit sysSwrst bit = true)
    ∧ (∃ (s : State) (d : Fin 64) (rest : List Nat) (bit : Nat), s.world.cpcSlots = d.val :: rest ∧ swrstOf d.val = some bit ∧
      ((({ s with world := { s.world with cpcSlots := rest } } : State).putBitAt worldCpcPwr_ON d.val true).raise 12 d.val).blockBit sysSwrst bit = false)
    ∧ goes specClaimSet 1 0 (bytesOf 16 [(0, 8, 2 ^ 48)]) id ∧ goes specWmarkSet 2 0 (bytesOf 8 [(0, 2, 16)]) id :=
  let slot (d : Nat) (s : State) : State := { s with world := { s.world with cpcSlots := [d] } }
  ⟨⟨lit [], 3, .sealed, by decide +kernel⟩, ⟨49, by decide⟩, ⟨44, by decide⟩, ⟨lit [(worldClaim_CLAIM, 2 ^ 48)], 48, by decide +kernel⟩,
    ⟨lit [], 47, 2, by decide +kernel⟩, ⟨lit [(worldClaim_CLAIM, 0), (audTdm_EN, 1)], 48, 0, by decide +kernel⟩, ⟨lit [(worldClaim_CLAIM, 0)], 48, 2, by decide +kernel⟩,
    ⟨lit [(worldCpcPwr_ON, 0)], 48, by decide +kernel⟩, ⟨slot 44 (lit []), 44, [], by decide +kernel⟩,
    ⟨slot 48 ((lit []).putBlockBit sysSwrst 29 true), 48, [], 29, by decide +kernel⟩,
    ⟨slot 48 ((lit []).putBlockBit sysSwrst 29 false), 48, [], 29, by decide +kernel⟩, goes_of (by decide +kernel), goes_of (by decide +kernel)⟩

theorem witness_DebugAndFuses :
    goes specDebugSet 1 0 (bytesOf 8 [(0, 1, 3)]) id
    ∧ (∃ s : State, s.get debugEn_EFFECTIVE = s.debugEffective) ∧ (∃ s : State, s.get debugEn_EFFECTIVE ≠ s.debugEffective)
    ∧ (∃ (s : State) (w : World) (invasive : Bool), s.get sysStrap_TAPSEL ≠ 0 ∧
      s.get debugEn_EFFECTIVE / 2 ^ ((if w = .sealed then 2 else 0) + (if invasive then 1 else 0)) % 2 = 1)
    ∧ (∃ (s : State) (w : World) (invasive : Bool), s.get sysStrap_TAPSEL = 0 ∨
      s.get debugEn_EFFECTIVE / 2 ^ ((if w = .sealed then 2 else 0) + (if invasive then 1 else 0)) % 2 = 0)
    ∧ goes specFuseBlow 6 0 (bytesOf 8 []) id
    ∧ (∃ (s : State) (select steps : Nat) (o : Origin) (rest : List (Nat × Nat × Origin)), s.world.fuseBlow = (select, steps, o) :: rest ∧
      select < 4)
    ∧ goes specWorldQuery 1 0 [] id :=
  ⟨goes_of (by decide +kernel), ⟨lit [], by decide +kernel⟩, ⟨lit [(debugEn_OPEN_NI, 1)], by decide +kernel⟩,
    ⟨lit [(sysStrap_TAPSEL, 1), (debugEn_EFFECTIVE, 8)], .sealed, true, by decide +kernel⟩, ⟨lit [], .sealed, true, by decide +kernel⟩, goes_of (by decide +kernel),
    ⟨{ lit [] with world := { (lit []).world with fuseBlow := [(3, 64, asked)] } }, 3, 64, asked, [], by decide +kernel⟩, goes_of (by decide +kernel)⟩

/-- A job of the sealed ring, whose one descriptor lies in DRAM. -/
def cuJob (owner desc index : Nat) (stop : Option Nat) : CuJob :=
  { number := 65535, owner := owner, gen := 0, alg := 5, fold := false, cont := false, foldWord := 0, desc := desc, count := 1, index := index,
    run := 0, bytes := 0, record := dramBase, ue := false, stop := stop, arrived := 0 }

/-- Check unit 7 works on a job. -/
def checking (j : CuJob) : State :=
  ((lit []).store dramBase (leBytes 8 (dramBase + 64) ++ leBytes 4 1)).modCu fun c => { c with units := c.units.set 7 (some j) }

/-- Whether two results of `cuDescriptor` are the same. -/
def describes : Except (Nat × Bool) (Nat × Nat) → Except (Nat × Bool) (Nat × Nat) → Bool
  | .ok x, .ok y => x == y
  | .error x, .error y => x == y
  | _, _ => false

theorem witness_CheckUnits :
    goes specCuJob 2 31 (bytesOf 48 [(4, 4, 4096)]) id ∧ goes specCuQuery 1 0 [] id
    ∧ (∃ (s : State) (u : Fin 8) (j : CuJob), s.cuNext = some j ∧ s.cuFree u.val = true)
    ∧ (∃ s : State, s.cuNext = none) ∧ (∃ (s : State) (u : Fin 8), s.cuFree u.val = false)
    ∧ (∃ (s : State) (u : Fin 8) (j : CuJob) (src len : Nat), s.cuUnit u.val = some j ∧ s.cu.units.length = 8 ∧ j.stop = none ∧
      j.index < j.count ∧ describes (s.cuDescriptor j) (.ok (src, len)) = true ∧ 32 ≤ j.owner)
    ∧ (∃ (s : State) (u : Fin 8) (j : CuJob) (a : Nat) (outside : Bool), s.cuUnit u.val = some j ∧ j.stop = none ∧ j.index < j.count ∧
      describes (s.cuDescriptor j) (.error (a, outside)) = true)
    ∧ (∃ (s : State) (u : Fin 8) (j : CuJob), s.cuUnit u.val = some j ∧ j.stop = none ∧ j.count ≤ j.index ∧ j.ue = false)
    ∧ (∃ (s : State) (u : Fin 8) (j : CuJob) (d : Nat), s.cuUnit u.val = some j ∧ j.stop = some d ∧ j.ue = false)
    ∧ (∃ (s : State) (j : CuJob), (j.owner = 32 ∨ j.owner = 33) ∧ s.cuMay j j.record 32 = true)
    ∧ (∃ (s : State) (k : Fin 4) (u : Fin 8), s.cuUnit u.val = none ∧ s.writeBarred (.core k .sealed) (cuCtrl u.val).addr = false)
    ∧ (∃ value : W32, value.toNat % 2 = 1 ∧ (value.toNat &&& 0x11E) / 256 = 1 ∧ (value.toNat &&& 0x11E) / 8 % 4 ≠ 3)
    ∧ (∃ value : W32, value.toNat % 2 = 1 ∧ (value.toNat &&& 0x11E) / 256 = 1 ∧ (value.toNat &&& 0x11E) / 8 % 4 = 3)
    ∧ (∃ value : W32, value.toNat % 2 = 0) :=
  ⟨goes_of (by decide +kernel), goes_of (by decide +kernel),
    ⟨(lit [(worldCpcPwr_ON, 2 ^ 43), (worldCpcClk_ON, 2 ^ 43)]).modCu fun c => { c with queue := [cuJob 31 0 0 none] }, 7, cuJob 31 0 0 none,
      by decide +kernel⟩,
    ⟨lit [], by decide +kernel⟩, ⟨checking (cuJob 32 dramBase 0 none), 7, by decide +kernel⟩,
    ⟨checking (cuJob 32 dramBase 0 none), 7, cuJob 32 dramBase 0 none, dramBase + 64, 1, by decide +kernel⟩,
    ⟨checking (cuJob 32 (dramBase + 8) 0 none), 7, cuJob 32 (dramBase + 8) 0 none, dramBase + 8, false, by decide +kernel⟩,
    ⟨checking (cuJob 32 dramBase 1 none), 7, cuJob 32 dramBase 1 none, by decide +kernel⟩,
    ⟨checking (cuJob 32 dramBase 0 (some 1)), 7, cuJob 32 dramBase 0 (some 1), 1, by decide +kernel⟩,
    ⟨lit [], cuJob 32 dramBase 0 none, by decide +kernel⟩, ⟨lit [], 3, 7, by decide +kernel⟩, ⟨0xFFFFFF17, by decide⟩, ⟨0xFFFFFFFF, by decide⟩,
    ⟨0xFFFFFFFE, by decide⟩⟩

theorem witness_SoftwareReset :
    (∃ (s : State) (k : Fin 4) (value : W64),
      (∀ b ∈ swrstBits (value.toNat % 2 ^ 40 &&& (swrstMask ^^^ (s.rd sysSwrst).toNat)), ∀ d, domainOf b = some d → s.domainBusy d = false) ∧
      s.writeBarred (.core k .sealed) sysSwrst.addr = false)
    ∧ (∃ (s : State) (value : W64), ∃ b ∈ swrstBits (value.toNat % 2 ^ 40 &&& (swrstMask ^^^ (s.rd sysSwrst).toNat)), ∃ d, domainOf b = some d ∧
      s.domainBusy d = true)
    ∧ (∃ (s : State) (bit : Fin 40), s.blockBit sysSwrstPend bit.val = true ∧
      ∀ d, domainOf bit.val = some d → s.bit worldCpcPwr_ON d = true ∧ s.bit worldCpcClk_ON d = true)
    ∧ (∃ (s : State) (bit : Fin 40) (d : Nat), s.blockBit sysSwrstPend bit.val = true ∧ domainOf bit.val = some d ∧ s.bit worldCpcPwr_ON d = false)
    ∧ (∃ (s : State) (bit : Fin 40), s.blockBit sysSwrstPend bit.val = true ∧ s.power.stuck / 2 ^ bit.val % 2 = 0)
    ∧ (∃ (s : State) (bit : Fin 40), s.blockBit sysSwrstPend bit.val = true ∧ s.power.stuck / 2 ^ bit.val % 2 = 1) :=
  let pend (bit : Nat) (l : List (RF × Nat)) : State := (lit l).putBlockBit sysSwrstPend bit true
  ⟨⟨lit [], 3, 2 ^ 29, by
      intro b hb d hd
      have hb : b = 29 := by
        rw [show swrstBits ((2 ^ 29 : W64).toNat % 2 ^ 40 &&& (swrstMask ^^^ ((lit []).rd sysSwrst).toNat)) = [29] by decide +kernel] at hb
        simpa using hb
      subst hb
      rw [show domainOf 29 = some 48 by decide +kernel] at hd
      injection hd with hd
      subst hd
      decide +kernel, by decide +kernel⟩,
    ⟨lit [(audTdm_EN, 1)], 2 ^ 29, 29, by decide +kernel, 48, by decide +kernel⟩,
    ⟨pend 39 [(worldCpcPwr_ON, 2 ^ 43), (worldCpcClk_ON, 2 ^ 43)], 39, by decide +kernel, by
      intro d hd
      rw [show domainOf (39 : Fin 40).val = some 43 by decide +kernel] at hd
      injection hd with hd
      subst hd
      decide +kernel⟩,
    ⟨pend 39 [(worldCpcPwr_ON, 0)], 39, 43, by decide +kernel⟩, ⟨pend 39 [], 39, by decide +kernel⟩,
    ⟨{ pend 39 [] with power := { (pend 39 []).power with stuck := 2 ^ 39 } }, 39, by decide +kernel⟩⟩

/-! ### The peat log, event delivery and supervision -/

/-- A record with or without a reply that waits for it. -/
def aRecord (d : Option DueReply) : PeatRec :=
  { time := 0, origin := 0xE000, kind := 1, gen := 0, status := 0, aux := 0, caravan := 0, target := 0, data := [], order := 0, reserve := false,
    reply := d }
def dueReply : DueReply := ⟨asked, done 0 0, 0⟩

/-- The log holds a number of records. -/
def logged (n : Nat) (wrapped : Bool) (l : List (RF × Nat)) : State :=
  (lit ((peatNext_VALUE, n) :: l)).modPeat fun p => { p with raisedWrap := wrapped }

theorem witness_PeatLog_packets :
    goesTo specLogPolicy 1 0 (bytesOf 8 [(0, 1, 1)]) id (fun u _ => u.get peatCtrl_WRAP == 0)
    ∧ goesTo specLogPolicy 1 0 (bytesOf 8 []) (fun s => s.put peatCtrl_WRAP 1) (fun u _ => u.get peatCtrl_WRAP != 0)
    ∧ goesTo specLogRelease 1 0 (bytesOf 8 [(0, 4, 65536)]) (fun s => s.put peatNext_VALUE 65536) (fun _ o => o.u32 0 != 0)
    ∧ goesTo specLogMark 1 0 (bytesOf 32 []) id (fun u _ => u.logRefuses 1 == false)
    ∧ goesTo specLogMark 1 0 (bytesOf 32 []) (fun s => rig s [(peatNext_VALUE, 1048512)]) (fun u _ => u.logRefuses 1)
    ∧ goes specLogExport 1 0 (bytesOf 24 [(4, 4, 1)]) (fun s => s.put peatNext_VALUE 1) ∧ goes specLogQuery 1 0 [] id := by
  refine ⟨goesTo_of ?_, goesTo_of ?_, goesTo_of ?_, goesTo_of ?_, goesTo_of ?_, goes_of ?_, goes_of ?_⟩ <;> decide +kernel

theorem witness_PeatLog :
    (∃ (s : State) (r : PeatRec) (rest : List PeatRec), s.peat.queue = r :: rest ∧ r.reply = none)
    ∧ (∃ (s : State) (r : PeatRec) (rest : List PeatRec) (d : DueReply), s.peat.queue = r :: rest ∧ r.reply = some d)
    ∧ (∃ s : State, s.peat.queue = []) ∧ (∃ s : State, s.canonical = true)
    ∧ (∃ s : State, s.get peatNext_VALUE - s.get peatOldest_VALUE < logSlots)
    ∧ (∃ s : State, logSlots ≤ s.get peatNext_VALUE - s.get peatOldest_VALUE ∧ s.peat.raisedWrap = true)
    ∧ (∃ s : State, logSlots ≤ s.get peatNext_VALUE - s.get peatOldest_VALUE ∧ s.peat.raisedWrap = false)
    ∧ (∃ s : State, (s.now.line = 0 ∧ s.now.grain = 0 ∧ s.now.frame % s.get peatCtrl_SUM_FRAMES = 0) ∧ (∃ b ∈ s.peat.counts, b ≠ 0) ∧
      s.logRefuses 1 = false)
    ∧ (∃ s : State, ¬ (s.now.line = 0 ∧ s.now.grain = 0 ∧ s.now.frame % s.get peatCtrl_SUM_FRAMES = 0))
    ∧ (∃ s : State, ∀ b ∈ s.peat.counts, b = 0)
    ∧ (∃ (s : State) (ring : Fin 34) (first count dest : Nat) (o : Origin),
      (s.peat.exports.find? fun e => e.2.2.2.ring == ring.val) = some (first, count, dest, o) ∧ s.recordsHeld first count = true ∧
      s.ringGen o.ring = o.gen ∧ 0 < count) :=
  ⟨⟨(lit []).modPeat fun p => { p with queue := [aRecord none] }, aRecord none, [], by decide +kernel⟩,
    ⟨(lit []).modPeat fun p => { p with queue := [aRecord (some dueReply)] }, aRecord (some dueReply), [], dueReply, by decide +kernel⟩,
    ⟨lit [], by decide +kernel⟩, ⟨lit [], by decide +kernel⟩, ⟨logged (logSlots - 1) false [], by decide +kernel⟩,
    ⟨logged logSlots true [], by decide +kernel⟩, ⟨logged logSlots false [], by decide +kernel⟩,
    ⟨(lit [(peatCtrl_SUM_FRAMES, 1)]).modPeat fun p => { p with violations := 1 }, by decide +kernel⟩,
    ⟨{ lit [(peatCtrl_SUM_FRAMES, 2)] with now := ⟨1, 0, 0⟩ }, by decide +kernel⟩, ⟨lit [], by decide +kernel⟩,
    ⟨(logged 1 false []).modPeat fun p => { p with exports := [(0, 1, dramBase, asked)] }, 32, 0, 1, dramBase, asked, by decide +kernel⟩⟩

/-- Function 31 has records to be delivered. -/
def delivering (l : List (RF × Nat)) (r : List EventRec) : State :=
  { lit l with evt := { (lit l).evt with outbound := (lit l).evt.outbound.set 31 r } }

theorem witness_EventDelivery :
    (∃ (s : State) (f : Fin 32), s.evt.outbound.getD f.val [] = [])
    ∧ (∃ (s : State) (f : Fin 32), s.evt.outbound.getD f.val [] ≠ [] ∧ s.get (evtFnRcfg_EN f.val) = 0)
    ∧ (∃ (s : State) (f : Fin 32), s.evt.outbound.getD f.val [] ≠ [] ∧ s.get (evtFnRcfg_EN f.val) = 1)
    ∧ goes specEvtRoute 1 31 (bytesOf 88 ((List.range 16).map fun i => (64 + i, 1, 4 + i))) id
    ∧ goesTo specEvtRingSet 1 31 (bytesOf 16 [(1, 1, 6)]) id (fun _ o => o.u8 0 != 1)
    ∧ goesTo specEvtRingSet 1 31 (bytesOf 16 [(0, 1, 1), (1, 1, 6), (8, 8, 4096)]) (fun s => s.modFn 31 fun x => { x with tenant := some poor })
      (fun _ o => o.u8 0 == 1)
    ∧ goes specEvtQuery 1 31 (bytesOf 8 [(0, 2, 511)]) id ∧ goes specSupvQuery 1 7 [] id
    ∧ (∃ (s : State) (k : Fin 4), s.writeBarred (.core k .sealed) (evtIrSize 0).addr = false) :=
  ⟨⟨lit [], 31, by decide +kernel⟩, ⟨delivering [(evtFnRcfg_EN 31, 0)] [⟨0, 511, 1, 0⟩], 31, by decide +kernel⟩,
    ⟨delivering [(evtFnRcfg_EN 31, 1)] [⟨0, 511, 1, 0⟩], 31, by decide +kernel⟩, goes_of (by decide +kernel), goesTo_of (by decide +kernel),
    goesTo_of (by decide +kernel), goes_of (by decide +kernel), goes_of (by decide +kernel), ⟨lit [], 3, by decide +kernel⟩⟩

theorem witness_Supervision :
    goes specSupvPolicySet 2 0 (bytesOf 8 [(0, 1, 31), (2, 2, 511), (4, 1, 5), (5, 1, 31), (6, 1, 255), (7, 1, 1)]) id
    ∧ (∃ value : W32, value.toNat % 256 = 0xC3) ∧ (∃ value : W32, value.toNat % 256 ≠ 0xC3) ∧ (∃ s : State, s.supv.halted = false)
    ∧ (∃ s : State, s.supervised = true) ∧ (∃ s : State, s.supervised = false)
    ∧ (∃ s : State, s.supervised = true ∧ s.get supvStatus_HEALTH_A = 1 ∧ s.allVerified = false)
    ∧ (∃ s : State, s.supervised = true ∧ s.get supvStatus_HEALTH_A = 1 ∧ s.supv.stopA = false ∧ s.allVerified = true)
    ∧ (∃ s : State, s.supervised = true ∧ s.get supvStatus_HEALTH_A = 0 ∧ s.allVerified = true ∧ s.get supvCtrl_RESUME ≤ s.supv.cleanFrames)
    ∧ (∃ s : State, s.supervised = true ∧ s.get supvStatus_HEALTH_A = 0 ∧ s.supv.cleanFrames < s.get supvCtrl_RESUME) :=
  let seen (a resume : Nat) : State := lit [(integVerified_SUPERVISED, 128), (integVerified_VERIFIED, 128), (supvStatus_HEALTH_A, a),
    (supvCtrl_RESUME, resume)]
  ⟨goes_of (by decide +kernel), ⟨0xC3, by decide⟩, ⟨0xC300, by decide⟩, ⟨lit [], by decide +kernel⟩, ⟨lit [], by decide +kernel⟩,
    ⟨(lit []).modSupv fun v => { v with halted := true }, by decide +kernel⟩, ⟨lit [(supvStatus_HEALTH_A, 1), (integVerified_SUPERVISED, 1)],
      by decide +kernel⟩,
    ⟨(seen 1 0).modSupv fun v => { v with stopA := false }, by decide +kernel⟩, ⟨seen 0 0, by decide +kernel⟩,
    ⟨seen 0 1, by decide +kernel⟩⟩

/-! ### Power and resets -/

/-- The module stands at a stage of its power sequence. -/
def staged (st : PowerStage) (l : List (RF × Nat)) : State := (rig (live 1 32 0) l).modPower fun p => { p with stage := st }

theorem witness_SuppliesAndStarts :
    (∃ s : State, s.powered = true ∧ s.get sysPower_LOW = 0) ∧ (∃ s : State, s.powered = true ∧ s.get sysPower_LOW = 1)
    ∧ (∃ s : State, s.powered = true) ∧ (∃ s : State, s.powered = false) ∧ (∃ s : State, s.powered = true ∧ s.power.vstbyGood = true)
    ∧ (∃ s : State, s.powered = true ∧ s.power.vstbyGood = false) ∧ (∃ s : State, s.power.stage = .tripped)
    ∧ (∃ (s : State) (die plate : Byte), s.powered = true ∧
      let t := (s.put sysTherm_DIE die.toNat).put sysTherm_PLATE plate.toNat
      t.get sysTherm_WARN = 0 ∧ (t.get sysTherm_WARN_C : Int) ≤ die.toInt)
    ∧ (∃ (s : State) (die plate : Byte), s.powered = true ∧
      let t := (s.put sysTherm_DIE die.toNat).put sysTherm_PLATE plate.toNat
      t.get sysTherm_WARN = 1 ∧ die.toInt ≤ (t.get sysTherm_WARN_C : Int) - 5)
    ∧ (∃ (s : State) (die plate : Byte), s.powered = true ∧
      let t := (s.put sysTherm_DIE die.toNat).put sysTherm_PLATE plate.toNat
      (t.get sysTherm_WARN_C : Int) - 5 < die.toInt ∧ die.toInt < (t.get sysTherm_WARN_C : Int))
    ∧ (∀ n ∈ [0, 1, 6, 15], ∃ (s : State) (cycled : Bool), s.power.stage = .slot n cycled)
    ∧ (∃ (s : State) (cycled : Bool), s.power.stage = .slot 16 cycled ∧ s.power.railFaultSlot = none)
    ∧ (∃ (s : State) (n : Nat), s.power.stage = .slot n true) ∧ (∃ s : State, s.power.stage = .retry) :=
  ⟨⟨lit [(sysPower_LOW, 0)], by decide +kernel⟩, ⟨lit [(sysPower_LOW, 1)], by decide +kernel⟩, ⟨lit [], by decide +kernel⟩,
    ⟨staged .dormant [], by decide +kernel⟩, ⟨(lit []).modPower fun p => { p with vstbyGood := true }, by decide +kernel⟩,
    ⟨(lit []).modPower fun p => { p with vstbyGood := false }, by decide +kernel⟩, ⟨staged .tripped [], by decide +kernel⟩,
    ⟨lit [(sysTherm_WARN_C, 90)], 90, 0, by decide +kernel⟩, ⟨lit [(sysTherm_WARN_C, 90), (sysTherm_WARN, 1)], 85, 0, by decide +kernel⟩,
    ⟨lit [(sysTherm_WARN_C, 90)], 86, 0, by decide +kernel⟩, fun n _ => ⟨staged (.slot n true) [], true, rfl⟩,
    ⟨(staged (.slot 16 false) []).modPower fun p => { p with railFaultSlot := none }, false, by decide +kernel⟩,
    ⟨staged (.slot 15 true) [], 15, by decide +kernel⟩, ⟨staged .retry [], by decide +kernel⟩⟩

theorem witness_BootAndWake :
    (∀ rec ∈ [true, false], ∃ s : State, s.power.stage = .boot ∧ s.power.pending = none ∧ s.power.bootRom = false ∧ s.power.recN = rec)
    ∧ (∃ s : State, s.power.stage = .working ∧ s.mode = modeKindling ∧ s.get dramcStatus_INIT_DONE = 1 ∧ s.power.pending = none)
    ∧ (∃ s : State, s.power.stage = .entering)
    ∧ (∃ s : State, s.power.stage = .dormant ∧ s.get sysWakeCfg_ON_WAKE_N = 1 ∧ s.get sysWakeCfg_ON_PERST = 1 ∧ s.get sysWakeCfg_ON_VMAIN = 1)
    ∧ (∃ s : State, s.power.stage = .dormant ∧ s.get sysWakeCfg_ON_WAKE_N = 0 ∧ s.get sysWakeCfg_ON_PERST = 0 ∧ s.get sysResetCause_CODE ≠ 8)
    ∧ (∃ s : State, s.power.wake = none ∧ s.power.vmainGood = true) ∧ (∃ s : State, s.power.wake = none ∧ s.power.vmainGood = false)
    ∧ (∃ s : State, s.power.stage = .lockout) :=
  let booting (b : Bool) : State := (staged .boot []).modPower fun p => { p with recN := b, pending := none, bootRom := false }
  ⟨fun b _ => ⟨booting b, by cases b <;> decide +kernel⟩, ⟨staged .working [(dramcStatus_INIT_DONE, 1)], by decide +kernel⟩,
    ⟨staged .entering [], by decide +kernel⟩,
    ⟨staged .dormant [(sysWakeCfg_ON_WAKE_N, 1), (sysWakeCfg_ON_PERST, 1), (sysWakeCfg_ON_VMAIN, 1)], by decide +kernel⟩,
    ⟨staged .dormant [(sysWakeCfg_ON_WAKE_N, 0), (sysWakeCfg_ON_PERST, 0), (sysResetCause_CODE, 2)], by decide +kernel⟩,
    ⟨(staged .dormant []).modPower fun p => { p with vmainGood := true, wake := none }, by decide +kernel⟩,
    ⟨(staged .dormant []).modPower fun p => { p with vmainGood := false, wake := none }, by decide +kernel⟩,
    ⟨staged .lockout [], by decide +kernel⟩⟩

/-- A warm reset under way. -/
def warming (ready : Bool) : State := (lit []).modPower fun p => { p with warm := some ⟨0x11, ready, false⟩ }

theorem witness_ModuleResets :
    (∃ s : State, s.power.stage ≠ .lockout ∧ s.powered = true) ∧ (∃ s : State, s.power.stage = .boot) ∧
    (∃ s : State, s.power.stage = .slot 0 true)
    ∧ (∃ s : State, s.power.stage = .working ∧ s.mode = modeKindling)
    ∧ (∃ s : State, s.power.stage = .working ∧ s.mode = modeRecovery ∧ s.power.bootRom = true)
    ∧ (∃ s : State, s.power.stage = .working ∧ s.mode ≠ modeKindling ∧ s.mode ≠ modeRecovery ∧ s.power.warm ≠ none)
    ∧ (∃ s : State, s.power.stage = .working ∧ s.mode ≠ modeKindling ∧ s.mode ≠ modeRecovery ∧ s.power.warm = none)
    ∧ (∃ (s : State) (w : WarmReset), s.power.warm = some w ∧ w.ready = false ∧ ∀ x ∈ s.fns, x.reset = none)
    ∧ (∃ s : State, s.supervised = true ∧ s.elapsedUs s.supv.kickAt (s.get supvCtrl_WD_MS * 1000) = true)
    ∧ (∃ s : State, s.supv.halted = true ∧ s.powered = true)
    ∧ (∃ value : W32, value.toNat % 256 = 0x5A) ∧ (∃ value : W32, value.toNat % 256 ≠ 0x5A)
    ∧ (∃ s : State, s.get sysCcWdog_EN = 1 ∧ s.power.warm = none ∧ s.elapsedUs s.power.ccKick (s.get sysCcWdog_TIMEOUT_MS * 1000) = true)
    ∧ (∃ (s : State) (k : Fin 4), s.writeBarred (.core k .sealed) sysResetCmd.addr = false)
    ∧ goesTo specModuleReset 1 0 (bytesOf 8 [(0, 1, 1)]) id (fun _ o => o.u8 0 == 1)
    ∧ goesTo specModuleReset 1 0 (bytesOf 8 [(0, 1, 2)]) id (fun _ o => o.u8 0 == 2) :=
  ⟨⟨lit [], by decide +kernel⟩, ⟨staged .boot [], by decide +kernel⟩, ⟨staged (.slot 0 true) [], by decide +kernel⟩,
    ⟨live 1 32 0, by decide +kernel⟩, ⟨(live 7 32 0).modPower fun p => { p with bootRom := true }, by decide +kernel⟩,
    ⟨warming true, by decide +kernel⟩, ⟨lit [], by decide +kernel⟩, ⟨warming false, ⟨0x11, false, false⟩, by decide +kernel⟩,
    ⟨{ lit [(supvCtrl_WD_MS, 1)] with now := ⟨1, 0, 0⟩ }, by decide +kernel⟩,
    ⟨(lit []).modSupv fun v => { v with halted := true }, by decide +kernel⟩, ⟨0x5A, by decide⟩, ⟨0x5A00, by decide⟩,
    ⟨{ lit [(sysCcWdog_EN, 1), (sysCcWdog_TIMEOUT_MS, 1)] with now := ⟨1, 0, 0⟩ }, by decide +kernel⟩, ⟨lit [], 3, by decide +kernel⟩,
    goesTo_of (by decide +kernel), goesTo_of (by decide +kernel)⟩

/-- A recovery image waits to be loaded. -/
def aLoad : RecoveryJob := ⟨3, 1, dramBase, asked⟩

theorem witness_PowerPackets :
    goes specRecoveryLoad 7 0 (bytesOf 24 [(0, 1, 1)]) id
    ∧ (∃ (s : State) (ring : Fin 34) (l : RecoveryJob), (s.power.loads.find? fun l => l.origin.ring == ring.val) = some l)
    ∧ goes specWakeSet 1 0 (bytesOf 8 [(0, 1, 7)]) id ∧ goes specPowerQuery 1 0 [] id
    ∧ goesTo specGpioSet 2 0 (bytesOf 8 [(0, 1, 7)]) id (fun u o => !u.teHolds (o.u8 0) && o.u8 1 == 0)
    ∧ goesTo specGpioSet 2 0 (bytesOf 8 [(0, 1, 7), (1, 1, 3)]) id (fun u o => !u.teHolds (o.u8 0) && o.u8 1 != 0)
    ∧ goesTo specGpioSet 2 0 (bytesOf 8 [(0, 1, 6), (1, 1, 1)]) (fun s => s.modLink 6 fun l => { l with teHeld := true })
      (fun u o => u.teHolds (o.u8 0)) :=
  ⟨goes_of (by decide +kernel), ⟨(lit []).modPower fun p => { p with loads := [aLoad] }, 32, aLoad, by decide +kernel⟩, goes_of (by decide +kernel),
    goes_of (by decide +kernel), goesTo_of (by decide +kernel), goesTo_of (by decide +kernel), goesTo_of (by decide +kernel)⟩

/-! ### The register bus, entries, time and whole-machine rules -/

/-- An access of a control core to an address. -/
def coreAccess (w : World) (addr : Nat) (width : Width) : Access := ⟨.core 3 w, BitVec.ofNat 48 addr, width⟩
def hostAccess (addr : Nat) (width : Width) : Access := ⟨.host 31, BitVec.ofNat 48 addr, width⟩

/-- Whether every part of a write passes its block. -/
def partsPass (s : State) (addr n v : Nat) : Bool :=
  match partsOf addr n with
  | some (p :: ps) => (p :: ps).all fun q => s.verdict q.hit (partAfter q (s.written q.hit.info.reg) v) == .pass
  | _ => false

theorem witness_RegisterAccesses :
    (∃ (s : State) (k : Fin 4) (w : World) (x n : Nat), s.inMemory x = true ∧ s.inMemory (x + n - 1) = true ∧
      s.mayAccess (actorOf (.core k w)) x n = true ∧ 1 < n)
    ∧ (∃ (s : State) (k : Fin 4) (w : World) (x n : Nat), s.inMemory x = true ∧ s.inMemory (x + n - 1) = true ∧
      s.mayAccess (actorOf (.core k w)) x n = false)
    ∧ (∃ (s : State) (x n : Nat), s.inMemory x = true ∧ s.inMemory (x + n - 1) = false)
    ∧ (∃ (s : State) (x : Nat), s.inMemory x = false ∧ inWindows x = false)
    ∧ (∃ (s : State) (a : Access), inWindows a.addr.toNat = true ∧ (readRow a s).isNone = true ∧ a.who = .core 3 .opened ∧
      s.openReads a.addr.toNat = false)
    ∧ (∃ (s : State) (a : Access) (b : Nat), inWindows a.addr.toNat = true ∧ (readRow a s).isNone = true ∧ a.who = .core 3 .sealed ∧
      bankAddr a.who a.addr.toNat = some b ∧ (s.readAt b (widthBytes a.width)).isNone = true)
    ∧ (∃ (s : State) (a : Access) (b : Nat), inWindows a.addr.toNat = true ∧ (readRow a s).isNone = true ∧ a.who = .core 3 .opened ∧
      s.openReads a.addr.toNat = true ∧ bankAddr a.who a.addr.toNat = some b ∧ (s.readAt b (widthBytes a.width)).isSome = true)
    ∧ (∃ (s : State) (a : Access) (value : W64), inWindows a.addr.toNat = true ∧ (writeRow a value s).isNone = true ∧
      a.who = .core 3 .opened ∧ s.openUses a.addr.toNat = false)
    ∧ (∃ (s : State) (a : Access) (value : W64) (b : Nat), inWindows a.addr.toNat = true ∧ (writeRow a value s).isNone = true ∧
      a.who = .core 3 .sealed ∧ bankAddr a.who a.addr.toNat = some b ∧ (partsOf b (widthBytes a.width)).isNone = true)
    ∧ (∃ (s : State) (a : Access) (value : W64) (b : Nat), inWindows a.addr.toNat = true ∧ (writeRow a value s).isNone = true ∧
      a.who = .core 3 .sealed ∧ bankAddr a.who a.addr.toNat = some b ∧ partsOf b (widthBytes a.width) = some [])
    ∧ (∃ (s : State) (a : Access) (value : W64) (b : Nat), inWindows a.addr.toNat = true ∧ (writeRow a value s).isNone = true ∧
      a.who = .core 3 .sealed ∧ bankAddr a.who a.addr.toNat = some b ∧ partsPass s b (widthBytes a.width) value.toNat = true ∧
      dataPath a.addr.toNat = false ∧ s.writeBarred a.who a.addr.toNat = false)
    ∧ (∃ (s : State) (f : Fin 32) (addr : BitVec 48) (b : Nat), s.onLink f.val = true ∧ s.power.warm = none ∧ addr.toNat < 0x10000 ∧
      s.hostAddr f.val addr.toNat = some b ∧ (readRow ⟨.host f, addr, .w32⟩ s).isNone = true ∧ (s.readAt b 4).isSome = true)
    ∧ (∃ (s : State) (f : Fin 32) (addr : BitVec 48) (b : Nat), s.onLink f.val = true ∧ s.power.warm = none ∧ addr.toNat < 0x10000 ∧
      s.hostAddr f.val addr.toNat = some b ∧ (writeRow ⟨.host f, addr, .w16⟩ 0 s).isNone = true ∧ (partsOf b 2).isNone = true) :=
  ⟨⟨lit [], 3, .sealed, dramBase, 8, by decide +kernel⟩, ⟨lit [], 3, .opened, dramBase, 8, by decide +kernel⟩,
    ⟨lit [], dramBase + 14 * 0x40000000 - 1, 2, by decide +kernel⟩, ⟨lit [], 0x48100000, by decide +kernel⟩,
    ⟨lit [], coreAccess .opened (audXp 49 15).addr .w32, by decide +kernel⟩,
    ⟨lit [], coreAccess .sealed ((audXp 49 15).addr + 1) .w16, (audXp 49 15).addr + 1, by decide +kernel⟩,
    ⟨lit [], coreAccess .opened sysId.addr .w32, sysId.addr, by decide +kernel⟩,
    ⟨lit [], coreAccess .opened (audXp 49 15).addr .w32, 7, by decide +kernel⟩,
    ⟨lit [], coreAccess .sealed ((audXp 49 15).addr + 1) .w16, 7, (audXp 49 15).addr + 1, by decide +kernel⟩,
    ⟨lit [], coreAccess .sealed 0x480FFFFC .w32, 7, 0x480FFFFC, by decide +kernel⟩,
    ⟨lit [], coreAccess .sealed (audXp 49 15).addr .w32, 0xFFFFFFFF, (audXp 49 15).addr, by decide +kernel⟩,
    ⟨port 1 1 15, 31, 0x10, fnBank + 0x10000 * 31 + 0x10, by decide +kernel⟩,
    ⟨port 1 1 15, 31, 0x11, fnBank + 0x10000 * 31 + 0x11, by decide +kernel⟩⟩

theorem witness_RegisterFields :
    (∃ (f : FieldInfo) (low bits : Nat), 0 < f.f.width ∧ 0 < bits ∧ (f.f.lsb + f.f.width ≤ low ∨ low + bits ≤ f.f.lsb))
    ∧ (∀ acc ∈ [Acc.rw, Acc.w1c, Acc.w1s, Acc.ro], ∃ (f : FieldInfo) (low bits : Nat), 0 < f.f.width ∧ 0 < bits ∧ low ≤ f.f.lsb ∧
      f.f.lsb + f.f.width ≤ low + bits ∧ f.acc = acc)
    ∧ (∃ p : Part, p.hit.active = false ∧ p.hit.info.reg.addr ≠ sysGpio.addr ∧ ∀ f ∈ p.hit.info.fields, f.acc ≠ .rc)
    ∧ (∃ (p : Part) (f : FieldInfo), p.hit.active = false ∧ p.hit.info.reg.addr ≠ sysGpio.addr ∧ p.hit.info.fields = [f] ∧ f.acc = .rc ∧
      p.low < f.f.lsb + f.f.width ∧ f.f.lsb < p.low + p.bits)
    ∧ (∃ h : Hit, h.active = true)
    ∧ (∃ h : Hit, h.active = false ∧ stagedAddr h.info.reg.addr = true ∧ wallStaged h.info.reg.addr = false ∧ h.info.reg.addr ≠ pktCtrl.addr) :=
  let fi (acc : Acc) : FieldInfo := ⟨audXp_GAIN 49 15, acc, .hold, .any⟩
  let hit (r : Reg) (fs : List FieldInfo) (active : Bool) : Hit := ⟨⟨.aud, r, 32, fs⟩, 0, active⟩
  ⟨⟨fi .rw, 16, 16, by decide⟩, fun acc _ => ⟨fi acc, 0, 32, by cases acc <;> decide, by decide, by cases acc <;> decide, by cases acc <;> decide, rfl⟩,
    ⟨⟨hit (audXp 49 15) [fi .rw] false, 0, 32, 0⟩, by decide +kernel⟩, ⟨⟨hit (audXp 49 15) [fi .rc] false, 0, 32, 0⟩, fi .rc, by decide +kernel⟩,
    ⟨hit (audXp 49 15) [] true, rfl⟩, ⟨hit (hapCfg 7) [] false, by decide +kernel⟩⟩

/-- A NOP changed, in a ring that holds `n` bytes of it. -/
def spoilt (f : Packet → Packet) (n : Nat) : Packet × State := (f (packetOf specNop 31 0 (bytesOf 16 [])), (live 2 31 n).put (ringEn 31) 1)

/-- The condition on a spoilt entry. -/
def entry (f : Packet → Packet) (n : Nat) (cond : Packet → State → Bool) : Prop :=
  let h := spoilt f n
  cond h.1 h.2 = true

/-- The entry is whole and its trailer right. -/
def whole (p : Packet) (s : State) : Bool :=
  s.served 31 && decide (32 ≤ s.unread 31) && s.replyRoom 31
  && decide (p.length.toNat % 8 = 0 ∧ p.length.toNat ≤ 4064 ∧ entrySize p + 8 ≤ s.ringSize 31 ∧ entrySize p ≤ s.unread 31)

/-- A trailer made right again. -/
def sealed (p : Packet) : Packet := { p with trailer := BitVec.ofNat 32 (entryCrc p specNop.opcode) }

theorem witness_EntriesRefused :
    entry id 31 (fun _ s => decide (s.unread 31 < 32)) ∧ entry id 56 (fun p s => whole p s && decide (p.trailer.toNat = entryCrc p specNop.opcode))
    ∧ (∃ s : State, s.served 31 = true ∧ 32 ≤ s.unread 31 ∧ s.replyRoom 31 = false)
    ∧ entry (fun p => { p with length := 4 }) 56 (fun p s => s.served 31 && s.replyRoom 31 && decide (p.length.toNat % 8 ≠ 0))
    ∧ entry id 48 (fun p s => s.served 31 && s.replyRoom 31 && decide (32 ≤ s.unread 31 ∧ s.unread 31 < entrySize p))
    ∧ entry (fun p => { p with trailer := p.trailer ^^^ 1 }) 56 (fun p s => whole p s && decide (p.trailer.toNat ≠ entryCrc p specNop.opcode))
    ∧ entry (fun p => sealed { p with source := 0 }) 56 (fun p s => whole p s && decide (p.trailer.toNat = entryCrc p specNop.opcode ∧
      p.source.toNat ≠ ringSource 31))
    ∧ entry (fun p => sealed { p with version := 2 }) 56 (fun p s => whole p s && decide (p.trailer.toNat = entryCrc p specNop.opcode ∧
      p.source.toNat = ringSource 31 ∧ p.version ≠ 1))
    ∧ entry (fun p => sealed { p with flags := 0x80 }) 56 (fun p s => whole p s && decide (p.trailer.toNat = entryCrc p specNop.opcode ∧
      p.source.toNat = ringSource 31 ∧ p.version = 1) && (headerFault p).isSome)
    ∧ (∃ (s : State), s.seqSet 31 = true ∧ (spoilt id 56).1.seq.toNat ≠ s.get (pktSeq_EXPECT 31))
    ∧ (∃ s : State, s.seqSet 31 = false)
    ∧ entry (fun p => sealed { p with length := 8, payload := bytesOf 8 [] }) 48 (fun p s =>
      (((reading p s).checks specNop (entryOrigin p specNop s) false).any fun e => e.1 == stBadLength))
    ∧ entry (fun p => sealed { p with target := 1 }) 56 (fun p s =>
      (((reading p s).checks specNop (entryOrigin p specNop s) false).any fun e => e.1 != stBadLength))
    ∧ (∃ (s : State) (p : Packet) (sp : OpSpec), accepted sp p s false ∧ sp.member = .immediate ∧
      (sp.check (readBy p s) (entryOrigin p sp s)).isSome = true)
    ∧ (∃ (s : State) (p : Packet) (sp : OpSpec), accepted sp p s false ∧ sp.member = .immediate ∧
      sp.check (readBy p s) (entryOrigin p sp s) = none ∧ sp.log = .logged ∧ (readBy p s).logRefuses 1 = true) := by
  refine ⟨?_, ?_, ⟨rig (live 2 31 56) [(replyLog2 31, 12), (replyTail 31, 4064)], ?_⟩, ?_, ?_, ?_, ?_, ?_, ?_,
    ⟨(rig (live 2 31 56) [(pktSeq_EXPECT 31, 1), (pktSeqSet_SET, 2 ^ 31)]), ?_⟩, ⟨live 2 31 56, ?_⟩, ?_, ?_,
    ⟨(holding specTenantDestroy 2 31 [] id).2, (holding specTenantDestroy 2 31 [] id).1, specTenantDestroy,
      acceptedB_spec ?_, ?_⟩,
    ⟨(holding specClaimSet 1 0 (bytesOf 16 []) fun s => s.put peatNext_VALUE 1048512).2,
      (holding specClaimSet 1 0 (bytesOf 16 []) fun s => s.put peatNext_VALUE 1048512).1, specClaimSet, acceptedB_spec ?_, ?_⟩⟩
  all_goals first | decide +kernel | (unfold entry; decide +kernel)

/-- A state later in wall time. -/
def at_ (t : Stamp) (s : State) : State := { s with now := t }

/-- Head 7 runs, armed and composed, at a stamp. -/
def armed (armed en : Nat) (t : State → Stamp) : State :=
  let s := rig scanned [(headStatus_ARMED 7, armed), ((gfxCompCtrl_EN 7).shift actComp, en), (gfxDl_WARN 7, 1081), (gfxDl_DEAD 7, 1124)]
  at_ (t s) s

theorem witness_Positions :
    (∃ (s : State) (w : WarmReset), s.power.warm = some w ∧ w.ready = true) ∧ (∃ s : State, s.power.warm = none)
    ∧ (∃ (s : State) (n : Fin 8) (t : Stamp) (k : Nat),
      (s.running n.val = false ∨ s.now ≠ s.lineStamp n.val (s.head n.val).frame 0) ∧ s.nextStart n.val = some (t, k))
    ∧ (∃ (s : State) (n : Fin 8), s.awaitsTe n.val = true) ∧ (∃ (s : State) (n : Fin 8), s.awaitsTe n.val = false)
    ∧ (∃ (s : State) (m : Fin 48), s.guarded m.val = true ∧ s.sending (s.layer m.val scanPipe).head = true)
    ∧ (∃ (s : State) (t : Stamp), s.grains t ≤ s.grains s.now) ∧ (∃ (s : State) (t : Stamp), s.grains t = s.grains s.now + 1)
    ∧ (∃ (s : State) (t : Stamp) (k : Nat), s.grains t = s.grains s.now + k + 1 ∧ 0 < k)
    ∧ (∃ s : State, s.clocked = false) ∧ (∃ s : State, s.clocked = true ∧ s.grainEnd.clocked = true ∧ s.grainEnd.nextStamp.line = 0 ∧
      s.grainEnd.nextStamp.grain = 0)
    ∧ (∃ s : State, s.clocked = true ∧ s.grainEnd.clocked = true ∧ s.grainEnd.nextStamp.grain ≠ 0)
    ∧ (∃ s : State, s.now.grain < 31) ∧ (∃ s : State, 31 ≤ s.now.grain ∧ s.now.line + 1 < s.lines)
    ∧ (∃ s : State, 31 ≤ s.now.grain ∧ s.lines ≤ s.now.line + 1)
    ∧ (∃ s : State, s.get (headStatus_ARMED 7) = 1 ∧ s.now = s.latchAt 7)
    ∧ (∃ s : State, s.get (headStatus_ARMED 7) = 0 ∧ s.compGet (gfxCompCtrl_EN 7) ≠ 0 ∧ s.now = s.latchAt 7) ∧ (∃ s : State, s.now ≠ s.latchAt 7)
    ∧ (∃ s : State, s.compGet (gfxCompCtrl_EN 7) ≠ 0 ∧ s.now = s.warnAt 7 ∧ (s.compWarn 7).now ≠ (s.compWarn 7).deadAt 7)
    ∧ (∃ s : State, s.compGet (gfxCompCtrl_EN 7) ≠ 0 ∧ s.now ≠ s.warnAt 7 ∧ s.now = s.deadAt 7)
    ∧ (∃ (s : State) (t : Stamp) (k : Nat), s.nextStart 7 = some (t, k) ∧ t.le s.now = true)
    ∧ (∃ (s : State) (t : Stamp) (k : Nat), s.nextStart 7 = some (t, k) ∧ t.le s.now = false)
    ∧ (∃ s : State, s.awaitsTe 7 = true ∧ (s.teAt 7).le s.now = true)
    ∧ (∃ s : State, s.guarded 47 = true ∧ s.sending (s.layer 47 scanPipe).head = true ∧ (s.mirageAt 47).le s.now = true) :=
  let next (s : State) : Stamp := ((s.nextStart 7).map (·.1)).getD ⟨0, 0, 0⟩
  let num (s : State) : Nat := ((s.nextStart 7).map (·.2)).getD 9
  let starts : State := firstLine
  let began : State := at_ (next firstLine) firstLine
  let shown : State := firstLine.put ((layerGuard_CLASS 47).shift scanPipe) 1
  ⟨⟨warming true, ⟨0x11, true, false⟩, by decide +kernel⟩, ⟨lit [], by decide +kernel⟩, ⟨starts, 7, next starts, num starts, by decide +kernel⟩,
    ⟨dsi, 7, by decide +kernel⟩, ⟨lit [], 7, by decide +kernel⟩, ⟨shown, 47, by decide +kernel⟩, ⟨lit [], ⟨0, 0, 0⟩, by decide +kernel⟩,
    ⟨at_ ⟨0, 2249, 31⟩ (lit []), ⟨1, 0, 0⟩, by decide +kernel⟩, ⟨lit [], ⟨0, 1, 0⟩, 31, by decide +kernel⟩,
    ⟨staged .dormant [], by decide +kernel⟩, ⟨at_ ⟨0, 2249, 31⟩ (lit []), by decide +kernel⟩, ⟨lit [], by decide +kernel⟩,
    ⟨at_ ⟨0, 2249, 30⟩ (lit []), by decide +kernel⟩, ⟨at_ ⟨0, 2248, 31⟩ (lit []), by decide +kernel⟩,
    ⟨at_ ⟨0, 2249, 31⟩ (lit []), by decide +kernel⟩, ⟨armed 1 0 fun s => s.latchAt 7, by decide +kernel⟩,
    ⟨armed 0 1 fun s => s.latchAt 7, by decide +kernel⟩, ⟨lit [], by decide +kernel⟩, ⟨armed 0 1 fun s => s.warnAt 7, by decide +kernel⟩,
    ⟨armed 0 1 fun s => s.deadAt 7, by decide +kernel⟩, ⟨began, next began, num began, by decide +kernel⟩,
    ⟨starts, next starts, num starts, by decide +kernel⟩, ⟨at_ (dsi.teAt 7) dsi, by decide +kernel⟩, ⟨shown, by decide +kernel⟩⟩

/-- A command that answers a next state. -/
def answers (o : Host.Outcome State Fault Refusal) : Bool :=
  match o with
  | .next _ => true
  | _ => false

theorem answers_spec {o : Host.Outcome State Fault Refusal} (h : answers o = true) : ∃ t, o = .next t := by
  cases o with
  | next t => exact ⟨t, rfl⟩
  | fault f => cases h
  | refused r => cases h

theorem witness_WholeMachine :
    (∃ (s : State) (c : Instr) (rest : List Instr), s.pending = c :: rest) ∧ (∃ s : State, s.pending = [])
    ∧ (∃ s t : State, s.canonical = true ∧ step s = .next t) ∧ (∃ r : Reg, ∀ q ∈ [sysResetCause, sysWakeCfg, debugFuse, peatNext, peatOldest,
      peatLastCrc, peatBoot, touchFactory, peatCtrl, peatStatus], q.addr ≠ r.addr)
    ∧ (∃ (s : State) (f : RF), s.canonical = true ∧ f.fits) ∧ (∃ (f : RF) (r : Reg), r.addr ≠ f.reg.addr)
    ∧ (∃ (s : State) (e : Nat), s.canonical = true ∧ e < 512 ∧ ∀ x ∈ s.evt.grain, x.event ≠ e)
    ∧ (∃ (s : State) (e : Nat) (before : List EventNow) (x : EventNow) (after : List EventNow), s.canonical = true ∧ e < 512 ∧
      s.evt.grain = before ++ x :: after ∧ (∀ y ∈ before, y.event ≠ e) ∧ x.event = e)
    ∧ (∃ s : State, s.power.warm = none) ∧ (∃ (s : State) (x : EventNow), s.power.warm ≠ none ∧ ofWarmReset x.event = false) :=
  ⟨⟨{ lit [] with pending := [.masterFrameStart] }, .masterFrameStart, [], rfl⟩, ⟨State.reset, by decide +kernel⟩,
    ⟨State.reset, (answers_spec (o := step State.reset) (by decide +kernel)).elim fun t h => ⟨t, by decide +kernel, h⟩⟩,
    ⟨sysMode, by decide +kernel⟩, ⟨lit [], audXp_GAIN 49 15, by decide +kernel, by unfold RF.fits; decide⟩, ⟨sysMode_MODE, wallStatus, by decide⟩,
    ⟨lit [], 511, by decide +kernel⟩, ⟨(lit []).occur 511 7, 511, [], ⟨511, 1, 7, false, false⟩, [], by decide +kernel⟩,
    ⟨lit [], by decide +kernel⟩, ⟨warming true, ⟨511, 1, 7, false, false⟩, by decide +kernel⟩⟩

/-- A packet that asks for its vector. -/
def asks (ring : Nat) : Origin := { asked with ring := ring, msix := true, logged := true }

theorem witness_RepliesAndRecords :
    (∃ (o : Origin) (a : Answer), o.logged = true ∧ a.status = stDone) ∧ (∃ (o : Origin) (a : Answer), o.logged = true ∧ a.status ≠ stDone)
    ∧ (∃ o : Origin, o.logged = false) ∧ (∃ (s : State) (o : Origin), s.epoch o.ring ≠ o.epoch)
    ∧ (∃ (s : State) (o : Origin), s.epoch o.ring = o.epoch ∧ 32 ≤ o.ring)
    ∧ (∃ (s : State) (o : Origin), s.epoch o.ring = o.epoch ∧ o.ring < 32 ∧ o.msix = true) ∧ (∃ s : State, s.logRefuses 1 = false)
    ∧ (∃ (s : State) (o : Origin), s.logRefuses 1 = true ∧ o.reserve = true ∧ s.logUsed < logSlots) :=
  ⟨⟨asks 31, done 0 0, by decide +kernel⟩, ⟨asks 31, refusal stConflict 0, by decide +kernel⟩, ⟨{ asked with logged := false }, rfl⟩,
    ⟨lit [], { asked with epoch := 1 }, by decide +kernel⟩, ⟨lit [], asks 33, by decide +kernel⟩, ⟨lit [], asks 31, by decide +kernel⟩,
    ⟨lit [], by decide +kernel⟩, ⟨lit [(peatNext_VALUE, 1048575)], { asked with reserve := true }, by decide +kernel⟩⟩

theorem witness_OpenWorldIsHeld :
    (∃ (s t : State) (value : W64), let a := coreAccess .opened (audXp 49 15).addr .w32
      s.canonical = true ∧ inWindows a.addr.toNat = true ∧ (writeRow a value s).isNone = true ∧ s.openUses a.addr.toNat = false ∧
      exec (.registerWrite a value) s = .next t)
    ∧ (∃ (s t : State), let a := coreAccess .opened (audXp 49 15).addr .w32
      s.canonical = true ∧ inWindows a.addr.toNat = true ∧ (readRow a s).isNone = true ∧ s.openReads a.addr.toNat = false ∧
      exec (.registerRead a) s = .next t)
    ∧ (∃ (s t u : State) (value : W64), let a := coreAccess .opened (dramBase + 8) .w64
      s.canonical = true ∧ s.inMemory a.addr.toNat = true ∧ s.mayAccess (.core 3) a.addr.toNat 8 = false ∧
      exec (.registerWrite a value) s = .next t ∧ exec (.registerRead a) s = .next u) := by
  refine ⟨?_, ?_, ?_⟩
  · obtain ⟨t, h⟩ := answers_spec (o := exec (.registerWrite (coreAccess .opened (audXp 49 15).addr .w32) 7) (lit [])) (by decide +kernel)
    exact ⟨lit [], t, 7, by decide +kernel, by decide +kernel, by decide +kernel, by decide +kernel, h⟩
  · obtain ⟨t, h⟩ := answers_spec (o := exec (.registerRead (coreAccess .opened (audXp 49 15).addr .w32)) (lit [])) (by decide +kernel)
    exact ⟨lit [], t, by decide +kernel, by decide +kernel, by decide +kernel, by decide +kernel, h⟩
  · obtain ⟨t, h⟩ := answers_spec (o := exec (.registerWrite (coreAccess .opened (dramBase + 8) .w64) 7) (lit [])) (by decide +kernel)
    obtain ⟨u, h'⟩ := answers_spec (o := exec (.registerRead (coreAccess .opened (dramBase + 8) .w64)) (lit [])) (by decide +kernel)
    exact ⟨lit [], t, u, 7, by decide +kernel, by decide +kernel, by decide +kernel, h, h'⟩

/-! ### The spec's worked examples

Each expected number stands in the worked example of the section that its comment names. -/

/-- 01_wall_time.md, the stamp 0x0000_0F42_4004_6511 and its grains from frame 0. -/
theorem test_stamp : stampOf 0x00000F4240046511 = ⟨1000000, 1125, 17⟩ ∧ (lit []).grains ⟨1000000, 1125, 17⟩ = 72000036017 := by
  decide +kernel

/-- 01_wall_time.md, head line 1,000 of the second of two head frames of 1,500 lines. -/
theorem test_lineGrain : (lit []).lineGrain { (lit []).timing 6 with hl := 1500, k := 2, o := 0 } 1 1000 = 60000 := by decide +kernel

/-- The string of the check values. -/
def nine : List Byte := [0x31, 0x32, 0x33, 0x34, 0x35, 0x36, 0x37, 0x38, 0x39]

/-- 16_check_units.md, R420: the check values of two algorithms, and the check string in two parts. -/
theorem test_crc : crcOf crc32c nine = 0xE3069283 ∧ crcOf crc16 nine = 0x29B1 ∧ crcOf crc64 nine = 0x6C40DF5F0B497347
    ∧ crcRun crc32c (crcRun crc32c crc32c.init (nine.take 4)) (nine.drop 4) ^^^ crc32c.xorOut = 0xE3069283 := by
  decide +kernel

/-- 05_layers.md, the NV12 pixel (600, 400, 700) in BT.709 at PA 512 over (200, 200, 200). -/
theorem test_blend : blend ((preset 2).apply ⟨600, 400, 700, 1023⟩) ⟨200, 200, 200, 1023⟩ 512 false = ⟨583, 375, 295, 1023⟩
    ∧ (preset 2).apply ⟨600, 400, 700, 1023⟩ = ⟨964, 549, 389, 1023⟩ := by
  decide +kernel

/-- 06_freshness_integrity.md, the words of that pixel and of the background at 10 bits, and on an 8-bit port with dither. -/
theorem test_pixelWord : pixelWord 10 false 100 200 ⟨583, 375, 295, 1023⟩ = 0x2475DD27 ∧ pixelWord 10 false 101 200 ⟨200, 200, 200, 1023⟩ = 0x0C8320C8
    ∧ pixelWord 8 true 100 200 ⟨583, 375, 295, 1023⟩ = 0x2445D124 ∧ pixelWord 8 true 101 200 ⟨200, 200, 200, 1023⟩ = 0x0C8320C8 := by
  decide +kernel

/-- Head 3 of 05_layers.md and 14_memory.md, with an NV12 camera layer of 3840 by 2160 on pipe 20. -/
def camera (dw dh : Nat) : State :=
  rig (fullHd 3 (lit [])) [(headHtime_HACTIVE 3, 3840), (headHtime_HTOTAL 3, 4000), (headVtime_VACTIVE 3, 2160), (headVtime_HL 3, 2250),
    (layerCtrl_FORMAT 20, 7), (layerBind_HEAD 20, 3), (layerRect_X_W 20 1, 3840), (layerRect_Y_H 20 1, 2160), (layerRect_X_W 20 3, dw),
    (layerRect_Y_H 20 3, dh)]

/-- 05_layers.md: at 1920 by 1080 the layer needs a pair, at 1280 by 720 a four, and LINEBUF says so. -/
theorem test_lineBuffer : (camera 1920 1080).gangNeeded ((camera 1920 1080).layer 20 0) = 2
    ∧ (camera 1280 720).gangNeeded ((camera 1280 720).layer 20 0) = 4
    ∧ (camera 1920 1080).bufferTwice ((camera 1920 1080).layer 20 0) = 2 * 57600 ∧ (camera 1280 720).bufferTwice ((camera 1280 720).layer 20 0) = 2 * 80640 := by
  decide +kernel

/-- 14_memory.md: where an address lies, and its ECC entry. -/
theorem test_channel : (lit [(dramcCfg_GRAIN_LOG2, 11)]).channelOf 0x1023456780 = 4 ∧ (lit [(dramcCfg_GRAIN_LOG2, 11)]).channelOffset 0x1023456780 = 0x468AF80
    ∧ (lit [(dramcCfg_GRAIN_LOG2, 11)]).checkOffset 0x1023456780 = 0x708D15F0 := by
  decide +kernel

/-- The heads of 14_memory.md: each scans an XRGB2101010 layer of 3840 by 2160. -/
def eightHeads : State :=
  (List.range 8).foldl (fun s n => rig (fullHd n s) [(headHtime_HACTIVE n, 3840), (headHtime_HTOTAL n, 4000), (headVtime_VACTIVE n, 2160),
    (headVtime_HL n, 2250), (layerCtrl_EN n, 1), (layerCtrl_FORMAT n, 2), (layerBind_HEAD n, n), (layerRect_X_W n 1, 3840), (layerRect_Y_H n 1, 2160),
    (layerRect_X_W n 3, 3840), (layerRect_Y_H n 3, 2160)]) (lit [(dramcCfg_GRAIN_LOG2, 11), (dramcCfg_RT_CAP, 700)])

/-- 14_memory.md: eight heads ask for 8 × 276.48 MB/s per channel, which F0 and F2 admit and F3 does not. -/
theorem test_demand : eightHeads.scanDemand = 8 * 276480000 * (32 * 1000) ∧ eightHeads.rtFits eightHeads.scanDemand 0 (eightHeads.get dramcCfg_RT_CAP) = true
    ∧ eightHeads.rtFits eightHeads.scanDemand 2 (eightHeads.get dramcCfg_RT_CAP) = true
    ∧ eightHeads.rtFits eightHeads.scanDemand 3 (eightHeads.get dramcCfg_RT_CAP) = false := by
  decide +kernel

/-- 07_gpu_contexts.md: counts of 1,800 and 2,000 head lines with O = 90 lie at master lines 1,890 and 2,090. -/
theorem test_warnAt : ((rig (camera 1920 1080) [(headOffset_O 3, 90), (gfxDl_WARN 3, 1800)]).warnAt 3) = ⟨0, 1890, 0⟩
    ∧ ((rig (camera 1920 1080) [(headOffset_O 3, 90), (gfxDl_DEAD 3, 2000)]).deadAt 3) = ⟨0, 2090, 0⟩ := by
  decide +kernel

/-- 09_ray_picking.md, the ray of the example: it hits the triangle at t = 10 with u = 0.25 and v = 0.203125. -/
def aRay : Ray :=
  { org := ⟨0, 0, fpInt 0x41200000⟩, dir := ⟨fpInt 0x3F000000, fpInt 0x3E900000, fpInt 0xBF800000⟩, tmin := 0, tmax := 0x42C80000,
    cullBack := false, cullFront := false, pick := true, odd := false }

theorem test_triangle : (triangleHit aRay (bytesOf 48 [(0, 4, 0x40800000), (4, 4, 0x40000000), (12, 4, 0x41000000), (16, 4, 0x40000000),
      (24, 4, 0x40800000), (28, 4, 0x40C00000), (45, 1, 7)]) 0).any (fun (h : RayHit) => decide (h.t = 10 * h.den ∧ 4 * h.u = h.den ∧ 64 * h.v = 13 * h.den ∧
      h.cls = 7)) = true := by
  decide +kernel

/-- 09_ray_picking.md, the child box of the example, from (4, 2, −1) to (8, 6, 1), which the ray enters. -/
theorem test_childBox :
    let box := childBox (bytesOf 64 [(8, 4, 0xBF800000), (12, 1, 254), (13, 1, 254), (14, 1, 254), (32, 1, 16), (33, 1, 8), (35, 1, 32), (36, 1, 24),
      (37, 1, 8)]) 0
    box = (⟨fpInt 0x40800000, fpInt 0x40000000, fpInt 0xBF800000⟩, ⟨fpInt 0x41000000, fpInt 0x40C00000, fpInt 0x3F800000⟩)
    ∧ aRay.meets box.1 box.2 = true := by
  decide +kernel

/-- 10_touch.md, the deltas around the peak at drive line 20, sense line 50. -/
def finger : Array Int :=
  ([(19, 49, 40), (19, 50, 180), (19, 51, 60), (20, 49, 120), (20, 50, 900), (20, 51, 300), (21, 49, 20), (21, 50, 150), (21, 51, 50)] :
    List (Nat × Nat × Int)).foldl (fun a e => a.setIfInBounds (senses * e.1 + e.2.1) e.2.2) (Array.replicate (22 * senses) 0)

/-- 10_touch.md: the centroid of that peak, its position and its contact item. -/
theorem test_centroid : let q := (lit [(touchScale_X_MAX 0, 2559), (touchScale_Y_MAX 0, 1439)]).peakAt 0 finger (20 * senses + 50)
    q.drive = 20 ∧ q.sense = 50 ∧ q.delta = 900 ∧ q.cx = 12832 ∧ q.cy = 5112 ∧ q.x = 1156 ∧ q.y = 456 := by
  decide +kernel

/-- 11_haptics.md: the urgent cut with Vb = 800 mV gives r8 = 102 and an overdrive of 7,008 mV. -/
theorem test_urgentCut :
    let s := (lit [(hapTrack_K 3, 128)]).modChan 3 fun c => { c with vb := 800 }
    s.cutR8 3 4000 = 102 ∧ 4000 + ((9000 - 4000) * (256 - s.cutR8 3 4000) + 128) / 256 = 7008
    ∧ (((s.urgentCut 3 10 (bytesOf 64 [(1, 1, 1), (2, 1, 7), (3, 1, 2), (4, 2, 4000), (6, 2, 9000), (8, 2, 12), (12, 2, 6000)])).chan 3).play.map (·.od))
      = some 7008 := by
  decide +kernel

/-- 12_audio.md: sample 16,000,000 is the first of master frame 20,000. -/
theorem test_audNow : (at_ ⟨20000, 0, 0⟩ (lit [])).audNow = 16000000 := by decide +kernel

/-! ### Terms that stand for no event -/

/-- A packet as a NOP carries it. -/
def plain : Packet := packetOf specNop 32 0 (bytesOf 16 [])

theorem test_wellFormed : (Instr.nop plain).wellFormed = true ∧ (Instr.masterFrameStart).wellFormed = true
    ∧ (Instr.registerRead (coreAccess .sealed (2 ^ 48 - 1) .w64)).wellFormed = true := by
  decide +kernel

theorem test_illFormed_packets : (Instr.nop { plain with reserved := [] }).wellFormed = false
    ∧ (Instr.undefinedOpcode 0 { plain with payload := bytesOf 8 [] }).wellFormed = false := by
  decide +kernel

theorem test_illFormed_accesses : (Instr.registerRead (hostAccess 0x10000 .w32)).wellFormed = false
    ∧ (Instr.registerWrite (hostAccess 0 .w32) 0x100000000).wellFormed = false
    ∧ (Instr.registerWrite (coreAccess .sealed 0 .w8) 0x100).wellFormed = false
    ∧ (Instr.registerWrite (coreAccess .sealed 0 .w16) 0x10000).wellFormed = false := by
  decide +kernel

theorem test_illFormed_bar2 : (Instr.bar2Access 0 0 [] 0 true 0).wellFormed = false
    ∧ (Instr.bar2Access 0 0 (List.replicate 4097 0) 0 true 0).wellFormed = false ∧ (Instr.bar2Access 0 0 [0] 1 false 0).wellFormed = false
    ∧ (Instr.bar2Access 0 0 [] 0 false 0).wellFormed = false := by
  decide +kernel

theorem test_illFormed_results : (Instr.headVerdict 0 [] (List.replicate 16 0) (List.replicate 16 0) false).wellFormed = false
    ∧ (Instr.headVerdict 0 (List.replicate 16 0) [] (List.replicate 16 0) false).wellFormed = false
    ∧ (Instr.headVerdict 0 (List.replicate 16 0) (List.replicate 16 0) [] false).wellFormed = false
    ∧ (Instr.touchWindowEnd 0 0 [0] 0 []).wellFormed = false ∧ (Instr.touchSelftestComplete 0 [0] 0 [] (List.replicate 112 (0, 0))).wellFormed = false
    ∧ (Instr.touchSelftestComplete 0 (List.replicate 7168 0) 0 [] []).wellFormed = false := by
  decide +kernel

theorem test_illFormed_measures : (Instr.audioSample 0 0 [0] 0).wellFormed = false
    ∧ (Instr.hotWindowEnd [] (List.replicate 8 0) 0 (List.replicate 32 (0, 0))).wellFormed = false
    ∧ (Instr.hotWindowEnd (List.replicate 8 0) [] 0 (List.replicate 32 (0, 0))).wellFormed = false
    ∧ (Instr.hotWindowEnd (List.replicate 8 0) (List.replicate 8 0) 0 []).wellFormed = false
    ∧ (Instr.trainingSetPointDone []).wellFormed = false ∧ (Instr.endPass 0 [⟨0, 0, 0, [0]⟩]).wellFormed = false := by
  decide +kernel

end Sys2Proof.Tests
end

/-! Proofs of the obligations of 00_scope.md: completion and the canonical form of every step, the values after reset, reads after
writes, and the accesses of the register bus. -/
namespace Sys2Proof.Machine

/-! ### Every command completes

A meaning is written as a next state, but for the two accesses of the register bus, which may go to the meaning of another row. -/

/-- A meaning that a bus access may go to, if there is one, is a next state. -/
def RowCompletes (x : Option (Host.Outcome State Fault Refusal)) : Prop := ∀ o, x = some o → ∃ t, o = .next t

theorem rowCompletes_none : RowCompletes none := fun _ h => nomatch h

theorem rowCompletes_next (t : State) : RowCompletes (some (.next t)) := fun _ h => ⟨t, (Option.some.inj h).symm⟩

theorem rowCompletes_ite {c : Prop} [Decidable c] {x y : Option (Host.Outcome State Fault Refusal)} (hx : RowCompletes x)
    (hy : RowCompletes y) : RowCompletes (if c then x else y) := by split <;> assumption

theorem readRow_completes (a : Access) (s : State) : RowCompletes (readRow a s) := by
  unfold readRow
  split
  · exact rowCompletes_ite (rowCompletes_next _) rowCompletes_none
  · refine rowCompletes_ite rowCompletes_none ?_
    repeat refine rowCompletes_ite (rowCompletes_next _) ?_
    exact rowCompletes_none

theorem hostWriteRow_completes (f : Fin 32) (x v : Nat) (s : State) : RowCompletes (hostWriteRow f x v s) := by
  unfold hostWriteRow
  repeat refine rowCompletes_ite (rowCompletes_next _) ?_
  refine rowCompletes_ite ?mailboxes rowCompletes_none
  repeat refine rowCompletes_ite (rowCompletes_next _) ?_
  exact rowCompletes_none

theorem coreWriteRow_completes (who : Requester) (x v : Nat) (s : State) : RowCompletes (coreWriteRow who x v s) := by
  unfold coreWriteRow
  repeat refine rowCompletes_ite (rowCompletes_next _) ?_
  refine rowCompletes_ite ?cpc ?_
  case cpc => dsimp only; split <;> exact rowCompletes_next _
  repeat refine rowCompletes_ite (rowCompletes_next _) ?_
  exact rowCompletes_none

theorem writeRow_completes (a : Access) (value : W64) (s : State) : RowCompletes (writeRow a value s) := by
  unfold writeRow
  split
  · exact hostWriteRow_completes _ _ _ _
  · exact rowCompletes_none
  · iterate 5 refine rowCompletes_ite (rowCompletes_next _) ?_
    exact coreWriteRow_completes _ _ _ _
  · iterate 2 refine rowCompletes_ite (rowCompletes_next _) ?_
    exact rowCompletes_none
  · exact rowCompletes_none

theorem execRegisterRead_completes (a : Access) (s : State) : ∃ t, execRegisterRead a s = .next t := by
  unfold execRegisterRead
  split
  case h_1 o ho => exact readRow_completes a s o ho
  case h_2 => exact ⟨_, rfl⟩

theorem execRegisterWrite_completes (a : Access) (value : W64) (s : State) : ∃ t, execRegisterWrite a value s = .next t := by
  unfold execRegisterWrite
  split
  case h_1 o ho => exact writeRow_completes a value s o ho
  case h_2 => exact ⟨_, rfl⟩

theorem exec_completes (i : Instr) (s : State) : ∃ t, exec i s = .next t := by
  cases i
  case registerRead a => exact execRegisterRead_completes a s
  case registerWrite a value => exact execRegisterWrite_completes a value s
  all_goals exact ⟨_, rfl⟩

/-! ### Every command keeps the canonical form -/

/-- A command keeps the canonical form: each by the lemma of its own meaning. -/
theorem exec_canonical (s : State) (h : s.canonical = true) : ∀ i, Canonically (exec i s)
  | .masterFrameStart => execMasterFrameStart_canonical s h
  | .houseSyncReference detected pos16 period freq freqErr phase16 => execHouseSyncReference_canonical detected pos16 period freq freqErr phase16 s h
  | .syncLost => execSyncLost_canonical s h
  | .holdoverLimit => execHoldoverLimit_canonical s h
  | .rasterSet p => execRasterSet_canonical p s h
  | .syncSet p => execSyncSet_canonical p s h
  | .wallQuery p => execWallQuery_canonical p s h
  | .wallApplyWrite who value => execWallApplyWrite_canonical who value s h
  | .wallNowRead who => execWallNowRead_canonical who s h
  | .audNowRead who => execAudNowRead_canonical who s h
  | .registerWrite a value => execRegisterWrite_canonical a value s h
  | .linkUp port speed width => execLinkUp_canonical port speed width s h
  | .linkDown port => execLinkDown_canonical port s h
  | .hotReset port => execHotReset_canonical port s h
  | .functionLevelReset f => execFunctionLevelReset_canonical f s h
  | .vfEnableChange port enable numVfs => execVfEnableChange_canonical port enable numVfs s h
  | .fnHeartbeatWrite f value => execFnHeartbeatWrite_canonical f value s h
  | .portLinkLossTimeout port => execPortLinkLossTimeout_canonical port s h
  | .heartbeatTimeout port => execHeartbeatTimeout_canonical port s h
  | .fnDoorbellWrite f tail => execFnDoorbellWrite_canonical f tail s h
  | .ringReadResume ring => execRingReadResume_canonical ring s h
  | .bar2Access f offset data len write ecc => execBar2Access_canonical f offset data len write ecc s h
  | .tagTimeout f => execTagTimeout_canonical f s h
  | .resetSpacingEnd f => execResetSpacingEnd_canonical f s h
  | .drainEnd f => execDrainEnd_canonical f s h
  | .funcResetComplete f => execFuncResetComplete_canonical f s h
  | .tenantCreate p => execTenantCreate_canonical p s h
  | .tenantDestroy p => execTenantDestroy_canonical p s h
  | .dramClearComplete f => execDramClearComplete_canonical f s h
  | .tenantShare p => execTenantShare_canonical p s h
  | .funcReset p => execFuncReset_canonical p s h
  | .tenantQuery p => execTenantQuery_canonical p s h
  | .homeSet p => execHomeSet_canonical p s h
  | .sysQuery p => execSysQuery_canonical p s h
  | .modeRequest p => execModeRequest_canonical p s h
  | .nop p => execNop_canonical p s h
  | .seqSync p => execSeqSync_canonical p s h
  | .marginSet p => execMarginSet_canonical p s h
  | .caravanTime p => execCaravanTime_canonical p s h
  | .caravanFence p => execCaravanFence_canonical p s h
  | .caravanAbort p => execCaravanAbort_canonical p s h
  | .caravanQuery p => execCaravanQuery_canonical p s h
  | .caravanEnd p => execCaravanEnd_canonical p s h
  | .caravanValidationDone ring id => execCaravanValidationDone_canonical ring id s h
  | .caravanExpired ring id => execCaravanExpired_canonical ring id s h
  | .internalRingEnableWrite who world reply value => execInternalRingEnableWrite_canonical who world reply value s h
  | .hpdPlug port maxRate lanes sinkCount => execHpdPlug_canonical port maxRate lanes sinkCount s h
  | .hpdUnplug port => execHpdUnplug_canonical port s h
  | .hpdIrq port cr eq sym => execHpdIrq_canonical port cr eq sym s h
  | .linkTrainAttemptEnd port cr eq sym => execLinkTrainAttemptEnd_canonical port cr eq sym s h
  | .auxReadComplete port result data => execAuxReadComplete_canonical port result data s h
  | .teEdge port => execTeEdge_canonical port s h
  | .teTimeout port => execTeTimeout_canonical port s h
  | .dsiErrPoll port report => execDsiErrPoll_canonical port report s h
  | .headLatch head => execHeadLatch_canonical head s h
  | .headFrameStart head => execHeadFrameStart_canonical head s h
  | .headEnWrite who head value => execHeadEnWrite_canonical who head value s h
  | .headWallArmWrite who value => execHeadWallArmWrite_canonical who value s h
  | .engineDatapathFault engine => execEngineDatapathFault_canonical engine s h
  | .engineTimingWatchdog engine => execEngineTimingWatchdog_canonical engine s h
  | .engineBistComplete engine pass => execEngineBistComplete_canonical engine pass s h
  | .spareTestComplete pass => execSpareTestComplete_canonical pass s h
  | .headTimingSet p => execHeadTimingSet_canonical p s h
  | .headEnable p => execHeadEnable_canonical p s h
  | .headDisable p => execHeadDisable_canonical p s h
  | .portConfig p => execPortConfig_canonical p s h
  | .portRetrain p => execPortRetrain_canonical p s h
  | .sinkRead p => execSinkRead_canonical p s h
  | .dsiConfig p => execDsiConfig_canonical p s h
  | .headShow p => execHeadShow_canonical p s h
  | .headQuery p => execHeadQuery_canonical p s h
  | .spareSet p => execSpareSet_canonical p s h
  | .spareTakeover p => execSpareTakeover_canonical p s h
  | .spareRestore p => execSpareRestore_canonical p s h
  | .spareTest p => execSpareTest_canonical p s h
  | .layerUnderrun pipe line pixel => execLayerUnderrun_canonical pipe line pixel s h
  | .layerFirstLine pipe ready => execLayerFirstLine_canonical pipe ready s h
  | .wbCaptureComplete unit => execWbCaptureComplete_canonical unit s h
  | .wbOverflow unit lines => execWbOverflow_canonical unit lines s h
  | .layerList p => execLayerList_canonical p s h
  | .layerSet p => execLayerSet_canonical p s h
  | .layerAddr p => execLayerAddr_canonical p s h
  | .layerColour p => execLayerColour_canonical p s h
  | .layerQuery p => execLayerQuery_canonical p s h
  | .wbSet p => execWbSet_canonical p s h
  | .wbQuery p => execWbQuery_canonical p s h
  | .headOutputSet p => execHeadOutputSet_canonical p s h
  | .headGammaSet p => execHeadGammaSet_canonical p s h
  | .mirageEvaluation pipe => execMirageEvaluation_canonical pipe s h
  | .c0CheckComplete head plane err => execC0CheckComplete_canonical head plane err s h
  | .headVerdict head pin tap spare lost => execHeadVerdict_canonical head pin tap spare lost s h
  | .rbSelftestDue port => execRbSelftestDue_canonical port s h
  | .rbSelftestComplete port pass => execRbSelftestComplete_canonical port pass s h
  | .sinkCrcSample head supported ok crc => execSinkCrcSample_canonical head supported ok crc s h
  | .guardSet p => execGuardSet_canonical p s h
  | .freshTime p => execFreshTime_canonical p s h
  | .rectSet p => execRectSet_canonical p s h
  | .rectExpect p => execRectExpect_canonical p s h
  | .emberSet p => execEmberSet_canonical p s h
  | .emberPalette p => execEmberPalette_canonical p s h
  | .emberExpect p => execEmberExpect_canonical p s h
  | .emberWrite p => execEmberWrite_canonical p s h
  | .emberLoad p => execEmberLoad_canonical p s h
  | .emberLoadComplete ring => execEmberLoadComplete_canonical ring s h
  | .integCfg p => execIntegCfg_canonical p s h
  | .integResume p => execIntegResume_canonical p s h
  | .rbSelftest p => execRbSelftest_canonical p s h
  | .integQuery p => execIntegQuery_canonical p s h
  | .ageQuery p => execAgeQuery_canonical p s h
  | .ctxSet p => execCtxSet_canonical p s h
  | .gfxKick p => execGfxKick_canonical p s h
  | .qtailWrite who ctx value => execQtailWrite_canonical who ctx value s h
  | .ctxReset p => execCtxReset_canonical p s h
  | .ctxQuery p => execCtxQuery_canonical p s h
  | .compile p => execCompile_canonical p s h
  | .compileComplete f job detail size object => execCompileComplete_canonical f job detail size object s h
  | .deadlineSet p => execDeadlineSet_canonical p s h
  | .compSet p => execCompSet_canonical p s h
  | .compTime p => execCompTime_canonical p s h
  | .gfxQuery p => execGfxQuery_canonical p s h
  | .passQuery p => execPassQuery_canonical p s h
  | .schedSliceExpiry => execSchedSliceExpiry_canonical s h
  | .ctxHang ctx => execCtxHang_canonical ctx s h
  | .preemptionComplete tenths saved => execPreemptionComplete_canonical tenths saved s h
  | .commandBufferComplete ctx => execCommandBufferComplete_canonical ctx s h
  | .fenceCounterUpdate ctx => execFenceCounterUpdate_canonical ctx s h
  | .fenceWaitSatisfied ctx => execFenceWaitSatisfied_canonical ctx s h
  | .compJobReady head => execCompJobReady_canonical head s h
  | .compWarn head => execCompWarn_canonical head s h
  | .compJobComplete head => execCompJobComplete_canonical head s h
  | .compDeadline head => execCompDeadline_canonical head s h
  | .drawPacketNop ctx => execDrawPacketNop_canonical ctx s h
  | .jump ctx => execJump_canonical ctx s h
  | .callList ctx => execCallList_canonical ctx s h
  | .setPipeline ctx good => execSetPipeline_canonical ctx good s h
  | .setDescriptors ctx => execSetDescriptors_canonical ctx s h
  | .setBuffers ctx => execSetBuffers_canonical ctx s h
  | .setDynamic ctx => execSetDynamic_canonical ctx s h
  | .beginPass ctx => execBeginPass_canonical ctx s h
  | .endPass ctx tiles => execEndPass_canonical ctx tiles s h
  | .draw ctx work => execDraw_canonical ctx work s h
  | .drawIndexed ctx work => execDrawIndexed_canonical ctx work s h
  | .drawIndirect ctx work => execDrawIndirect_canonical ctx work s h
  | .dispatch ctx work => execDispatch_canonical ctx work s h
  | .dispatchIndirect ctx work => execDispatchIndirect_canonical ctx work s h
  | .barrier ctx => execBarrier_canonical ctx s h
  | .fenceSignal ctx => execFenceSignal_canonical ctx s h
  | .fenceWait ctx => execFenceWait_canonical ctx s h
  | .timestamp ctx => execTimestamp_canonical ctx s h
  | .copy ctx => execCopy_canonical ctx s h
  | .fill ctx => execFill_canonical ctx s h
  | .rayBatch ctx => execRayBatch_canonical ctx s h
  | .pickComplete port contact ended => execPickComplete_canonical port contact ended s h
  | .pickSet p => execPickSet_canonical p s h
  | .pickScene p => execPickScene_canonical p s h
  | .pickClasses p => execPickClasses_canonical p s h
  | .pickQuery p => execPickQuery_canonical p s h
  | .touchWindowEnd port slot raw clipped monitor => execTouchWindowEnd_canonical port slot raw clipped monitor s h
  | .listenWindowEnd port n0 n1 n2 n3 => execListenWindowEnd_canonical port n0 n1 n2 n3 s h
  | .longTouch port contact => execLongTouch_canonical port contact s h
  | .touchSelftestComplete port raw clipped monitor bias => execTouchSelftestComplete_canonical port raw clipped monitor bias s h
  | .baselineStoreComplete port => execBaselineStoreComplete_canonical port s h
  | .touchSet p => execTouchSet_canonical p s h
  | .zoneSet p => execZoneSet_canonical p s h
  | .touchSelftest p => execTouchSelftest_canonical p s h
  | .baselineStore p => execBaselineStore_canonical p s h
  | .baselineReset p => execBaselineReset_canonical p s h
  | .touchQuery p => execTouchQuery_canonical p s h
  | .hapDriveEnd channel => execHapDriveEnd_canonical channel s h
  | .brakeEnd channel => execBrakeEnd_canonical channel s h
  | .repeatGapEnd channel => execRepeatGapEnd_canonical channel s h
  | .backEmfWindow channel vb forward tm current => execBackEmfWindow_canonical channel vb forward tm current s h
  | .actuatorFaultDetect channel code => execActuatorFaultDetect_canonical channel code s h
  | .resistanceCheckComplete channel microamps tenths => execResistanceCheckComplete_canonical channel microamps tenths s h
  | .hapChannelSet p => execHapChannelSet_canonical p s h
  | .hapEffectSet p => execHapEffectSet_canonical p s h
  | .hapWaveWrite p => execHapWaveWrite_canonical p s h
  | .hapPlay p => execHapPlay_canonical p s h
  | .hapStop p => execHapStop_canonical p s h
  | .hapClear p => execHapClear_canonical p s h
  | .hapQuery p => execHapQuery_canonical p s h
  | .audioSample line0 line1 tdm limited => execAudioSample_canonical line0 line1 tdm limited s h
  | .zcTimeoutExpiry kind index => execZcTimeoutExpiry_canonical kind index s h
  | .tonePartEnd t => execTonePartEnd_canonical t s h
  | .streamPositionReport stream => execStreamPositionReport_canonical stream s h
  | .speakerFaultDetect speaker code => execSpeakerFaultDetect_canonical speaker code s h
  | .audAssign p => execAudAssign_canonical p s h
  | .routeSet p => execRouteSet_canonical p s h
  | .busSet p => execBusSet_canonical p s h
  | .eqSet p => execEqSet_canonical p s h
  | .sinkSet p => execSinkSet_canonical p s h
  | .streamSet p => execStreamSet_canonical p s h
  | .streamKick p => execStreamKick_canonical p s h
  | .toneSet p => execToneSet_canonical p s h
  | .tonePlayStart p => execTonePlayStart_canonical p s h
  | .tonePlayStop p => execTonePlayStop_canonical p s h
  | .tdmSet p => execTdmSet_canonical p s h
  | .audQuery p => execAudQuery_canonical p s h
  | .mailboxPost who window value => execMailboxPost_canonical who window value s h
  | .mailboxPop who unit value => execMailboxPop_canonical who unit value s h
  | .queueRead who q width => execQueueRead_canonical who q width s h
  | .queueItemWrite who q item => execQueueItemWrite_canonical who q item s h
  | .queueHostDelivery q => execQueueHostDelivery_canonical q s h
  | .lockRead who unit => execLockRead_canonical who unit s h
  | .lockReleaseWrite who unit => execLockReleaseWrite_canonical who unit s h
  | .mbAllow p => execMbAllow_canonical p s h
  | .mbQuery p => execMbQuery_canonical p s h
  | .qSet p => execQSet_canonical p s h
  | .qQuery p => execQQuery_canonical p s h
  | .lockTake p => execLockTake_canonical p s h
  | .lockGive p => execLockGive_canonical p s h
  | .refreshSlot waiting => execRefreshSlot_canonical waiting s h
  | .mr4TempRead channel temp => execMr4TempRead_canonical channel temp s h
  | .freqChangeLine => execFreqChangeLine_canonical s h
  | .freqChangeComplete => execFreqChangeComplete_canonical s h
  | .fchgGoWrite who value => execFchgGoWrite_canonical who value s h
  | .patrolScrub region line kind => execPatrolScrub_canonical region line kind s h
  | .rtLate channel => execRtLate_canonical channel s h
  | .hotWindowEnd accesses last busy traffic => execHotWindowEnd_canonical accesses last busy traffic s h
  | .trainingSetPointDone runs => execTrainingSetPointDone_canonical runs s h
  | .dramInitClearDone => execDramInitClearDone_canonical s h
  | .memFreqSet p => execMemFreqSet_canonical p s h
  | .memRetrain p => execMemRetrain_canonical p s h
  | .memRefPlan p => execMemRefPlan_canonical p s h
  | .memCfg p => execMemCfg_canonical p s h
  | .memQuery p => execMemQuery_canonical p s h
  | .regimeSwitchEnd => execRegimeSwitchEnd_canonical s h
  | .cpcClockStop who domain => execCpcClockStop_canonical who domain s h
  | .cpcClockRun who domain => execCpcClockRun_canonical who domain s h
  | .cpcPowerOff who domain => execCpcPowerOff_canonical who domain s h
  | .cpcPowerOn who domain => execCpcPowerOn_canonical who domain s h
  | .domainPowerSlot domain => execDomainPowerSlot_canonical domain s h
  | .debugSessionAttach session world invasive => execDebugSessionAttach_canonical session world invasive s h
  | .wmarkSet p => execWmarkSet_canonical p s h
  | .claimSet p => execClaimSet_canonical p s h
  | .debugSet p => execDebugSet_canonical p s h
  | .fuseBlow p => execFuseBlow_canonical p s h
  | .fuseBlowComplete => execFuseBlowComplete_canonical s h
  | .worldQuery p => execWorldQuery_canonical p s h
  | .cuJob p => execCuJob_canonical p s h
  | .cuQuery p => execCuQuery_canonical p s h
  | .cuDispatch unit => execCuDispatch_canonical unit s h
  | .cuDirectGo who unit value => execCuDirectGo_canonical who unit value s h
  | .cuJobComplete unit => execCuJobComplete_canonical unit s h
  | .peatRecordCommit => execPeatRecordCommit_canonical s h
  | .summaryRecord => execSummaryRecord_canonical s h
  | .peatWrapWrite who value => execPeatWrapWrite_canonical who value s h
  | .logQuery p => execLogQuery_canonical p s h
  | .logExport p => execLogExport_canonical p s h
  | .logExportComplete ring => execLogExportComplete_canonical ring s h
  | .logPolicy p => execLogPolicy_canonical p s h
  | .logRelease p => execLogRelease_canonical p s h
  | .logMark p => execLogMark_canonical p s h
  | .evtRingEnableWrite who world value => execEvtRingEnableWrite_canonical who world value s h
  | .eventHostDelivery f => execEventHostDelivery_canonical f s h
  | .evtRoute p => execEvtRoute_canonical p s h
  | .evtRingSet p => execEvtRingSet_canonical p s h
  | .evtQuery p => execEvtQuery_canonical p s h
  | .supvPolicySet p => execSupvPolicySet_canonical p s h
  | .supvQuery p => execSupvQuery_canonical p s h
  | .supvKickWrite who value => execSupvKickWrite_canonical who value s h
  | .supvWdExpired => execSupvWdExpired_canonical s h
  | .lockstepMismatch => execLockstepMismatch_canonical s h
  | .lockstepResetDelay => execLockstepResetDelay_canonical s h
  | .rasterStall => execRasterStall_canonical s h
  | .oscCompare ppm => execOscCompare_canonical ppm s h
  | .healthAHalfPeriod => execHealthAHalfPeriod_canonical s h
  | .healthBFrame => execHealthBFrame_canonical s h
  | .policyAlarmExpiry => execPolicyAlarmExpiry_canonical s h
  | .powerSlotEnd recLow tapSel => execPowerSlotEnd_canonical recLow tapSel s h
  | .railFaultTimeout => execRailFaultTimeout_canonical s h
  | .railFaultRetry => execRailFaultRetry_canonical s h
  | .bootRomChain a1 a2 b1 b2 hash0 version => execBootRomChain_canonical a1 a2 b1 b2 hash0 version s h
  | .vmainLowDetect mv10 => execVmainLowDetect_canonical mv10 s h
  | .vmainRecovery mv10 => execVmainRecovery_canonical mv10 s h
  | .brownOut vmainLost => execBrownOut_canonical vmainLost s h
  | .vstbyLossDetect => execVstbyLossDetect_canonical s h
  | .vstbyGoodDetect => execVstbyGoodDetect_canonical s h
  | .thermalTrip => execThermalTrip_canonical s h
  | .thermalRestart => execThermalRestart_canonical s h
  | .dieTempSample die plate => execDieTempSample_canonical die plate s h
  | .resetNAssert => execResetNAssert_canonical s h
  | .warmNAssert => execWarmNAssert_canonical s h
  | .warmResetReady k3 => execWarmResetReady_canonical k3 s h
  | .warmResetComplete => execWarmResetComplete_canonical s h
  | .wakeNAssert => execWakeNAssert_canonical s h
  | .perstRisingEdge port => execPerstRisingEdge_canonical port s h
  | .vmainWake => execVmainWake_canonical s h
  | .dormantPowerDown => execDormantPowerDown_canonical s h
  | .sysCcKickWrite who value => execSysCcKickWrite_canonical who value s h
  | .ccWatchdogExpiry => execCcWatchdogExpiry_canonical s h
  | .resetCmdWarm who key => execResetCmdWarm_canonical who key s h
  | .resetCmdCold who key => execResetCmdCold_canonical who key s h
  | .swrstWrite who value => execSwrstWrite_canonical who value s h
  | .swrstRelease bit => execSwrstRelease_canonical bit s h
  | .swrstStuck bit => execSwrstStuck_canonical bit s h
  | .moduleResetWarm p => execModuleResetWarm_canonical p s h
  | .moduleResetCold p => execModuleResetCold_canonical p s h
  | .recoveryLoad p => execRecoveryLoad_canonical p s h
  | .recoveryLoadComplete ring kind cause readBack image => execRecoveryLoadComplete_canonical ring kind cause readBack image s h
  | .wakeSet p => execWakeSet_canonical p s h
  | .gpioSet p => execGpioSet_canonical p s h
  | .gpioRelease p => execGpioRelease_canonical p s h
  | .powerQuery p => execPowerQuery_canonical p s h
  | .registerRead a => execRegisterRead_canonical a s h
  | .refreshDue channel => execRefreshDue_canonical channel s h
  | .expectedReferenceMissing => execExpectedReferenceMissing_canonical s h
  | .cuDescriptorComplete unit ue => execCuDescriptorComplete_canonical unit ue s h
  | .undefinedOpcode opcode p => execUndefinedOpcode_canonical opcode p s h
  | .powerOn => execPowerOn_canonical s h
  | .firmwareImageCheck k4 k3 => execFirmwareImageCheck_canonical k4 k3 s h

theorem pending_canonical (s : State) (q : List Instr) : { s with pending := q }.canonical = s.canonical :=
  canonical_congr rfl rfl rfl rfl rfl

theorem step_completes (s : State) : ∃ t, step s = .next t := by
  unfold step
  split
  · exact ⟨_, rfl⟩
  · exact exec_completes _ _

theorem step_canonical (s : State) (h : s.canonical = true) : Canonically (step s) := by
  unfold step
  split
  · exact canonically_next (State.tick_canonical s h)
  · exact exec_canonical _ ((pending_canonical s _).trans h) _

/-- Settles O55: a command by the table of meanings, an empty queue by the tick. -/
theorem stepsCompleteAndKeepCanonicalForm : Obligations.StepsCompleteAndKeepCanonicalForm :=
  ⟨step_completes, fun s t hs ht => step_canonical s hs t ht⟩

/-- Settles O54: after reset every store is empty. -/
theorem resetIsCanonical : Obligations.ResetIsCanonical :=
  canonical_intro swf_nil swf_nil swf_nil swf_nil swf_nil

/-! ### Reads after writes -/

theorem byte_congr {s t : State} (h : t.mem = s.mem) (a : Nat) : t.byte a = s.byte a := congrArg (sget · a) h

theorem rd_congr {s t : State} (h : t.regs = s.regs) (r : Reg) : t.rd r = s.rd r := by
  unfold State.rd; rw [h]

/-- A run of bytes leaves the cells below it and above it. -/
theorem sget_storeBytes_apart {m : List Host.Cell} (h : swf m = true) {a b : Nat} {l : List Byte}
    (hb : b < a ∨ a + l.length ≤ b) : sget (storeBytes m a l) b = sget m b := by
  induction l generalizing m a with
  | nil => rfl
  | cons v l ih =>
    rw [List.length_cons] at hb
    rw [storeBytes, ih (swf_sset h _ _) (by omega), sget_sset_ne h (by omega)]

theorem sget_storeBytes {m : List Host.Cell} (h : swf m = true) (a : Nat) (l : List Byte) (i : Nat) (hi : i < l.length) :
    sget (storeBytes m a l) (a + i) = l[i] := by
  induction l generalizing m a i with
  | nil => exact absurd hi (Nat.not_lt_zero i)
  | cons v l ih =>
    cases i with
    | zero => rw [storeBytes, sget_storeBytes_apart (swf_sset h _ _) (by omega), Nat.add_zero, sget_sset_same h]; rfl
    | succ i =>
      rw [storeBytes, ← Nat.add_assoc, Nat.add_right_comm]
      exact ih (swf_sset h _ _) _ _ (Nat.lt_of_succ_lt_succ hi)

theorem byte_store {s : State} (h : s.canonical = true) (a : Nat) (l : List Byte) (i : Nat) (hi : i < l.length) :
    (s.store a l).byte (a + i) = l[i] := sget_storeBytes (canonical_mem h) a l i hi

theorem byte_store_apart {s : State} (h : s.canonical = true) {a b : Nat} {l : List Byte} (hb : b < a ∨ a + l.length ≤ b) :
    (s.store a l).byte b = s.byte b := sget_storeBytes_apart (canonical_mem h) hb

theorem load_store {s : State} (h : s.canonical = true) (a : Nat) (l : List Byte) : (s.store a l).load a l.length = l :=
  List.ext_getElem (by simp [State.load]) fun i _ hi => by simp [State.load, byte_store h a l i hi]

theorem byte_zeroMem {s : State} (h : s.canonical = true) (lo hi a : Nat) :
    (s.zeroMem lo hi).byte a = if lo ≤ a ∧ a < hi then 0 else s.byte a := sget_sclear (canonical_mem h) lo hi a

/-- Settles O57: fields by the laws of registers, bytes by the laws of a stored run. -/
theorem registersAndMemory : Obligations.RegistersAndMemory := by
  refine ⟨fun s f v hs hf => ?_, fun s a l hs => ?_, fun s lo hi a hs => ?_⟩
  · have hr := canonical_regs hs
    exact ⟨get_put hr hf v, State.keeps.put hr hf v, fun r hq => rd_put_ne hr hq v, byte_congr rfl⟩
  · exact ⟨byte_store hs a l, fun b hb => byte_store_apart hs hb, load_store hs a l, rd_congr rfl⟩
  · rw [byte_zeroMem hs]
    exact ⟨fun h1 h2 => if_pos ⟨h1, h2⟩, fun h => if_neg (by omega)⟩

/-! ### What a reset leaves -/

theorem rd_reset (r : Reg) : State.reset.rd r = BitVec.ofNat 64 r.cold := BitVec.zero_xor

/-- A field of a register that reads its Cold value. -/
theorem get_of_cold {s : State} {f : RF} (h : s.rd f.reg = BitVec.ofNat 64 f.reg.cold) :
    s.get f = f.reg.cold % 2 ^ 64 / 2 ^ f.lsb % 2 ^ f.width := by
  unfold State.get; rw [h, BitVec.toNat_ofNat]

theorem get_reset (f : RF) : State.reset.get f = f.reg.cold % 2 ^ 64 / 2 ^ f.lsb % 2 ^ f.width := get_of_cold (rd_reset _)

theorem swf_each_keep {s : State} (h : swf s.regs = true) (old : State) (l : List Reg) :
    swf (s.each l fun b r => b.keep old r).regs = true := each_swf (fun _ _ hb => swf_wr hb _ _) h

/-- A register at the address of none that is kept reads as without them. -/
theorem rd_each_keep_apart {s : State} (h : swf s.regs = true) (old : State) {l : List Reg} {r : Reg}
    (hr : ∀ q ∈ l, q.addr ≠ r.addr) : (s.each l fun b r => b.keep old r).rd r = s.rd r := by
  induction l generalizing s with
  | nil => rfl
  | cons q l ih =>
    obtain ⟨hq, hl⟩ := List.forall_mem_cons.mp hr
    exact (ih (swf_wr h q _) hl).trans (rd_wr_ne h hq.symm _)

/-- A kept register reads as it did before, where no two kept registers share an address. -/
theorem rd_each_keep_mem {s : State} (h : swf s.regs = true) (old : State) {l : List Reg} (hl : l.Pairwise (·.addr ≠ ·.addr))
    {r : Reg} (hr : r ∈ l) : (s.each l fun b r => b.keep old r).rd r = old.rd r := by
  induction l generalizing s with
  | nil => exact absurd hr List.not_mem_nil
  | cons q l ih =>
    obtain ⟨hq, hl⟩ := List.pairwise_cons.mp hl
    rcases List.mem_cons.mp hr with rfl | hr
    · exact (rd_each_keep_apart (swf_wr h r _) old fun q hm => (hq q hm).symm).trans (rd_wr h r _)
    · exact ih (swf_wr h q _) hl hr

/-- The registers that a wipe keeps whole (R411, R449, R491, R505). -/
def keptRegs : List Reg := [sysResetCause, sysWakeCfg, debugFuse, peatNext, peatOldest, peatLastCrc, peatBoot, touchFactory]

theorem keptRegs_apart : keptRegs.Pairwise (·.addr ≠ ·.addr) := by decide

/-- A state takes back the registers and the fields of the log that a wipe keeps. -/
def State.takeBack (s old : State) : State :=
  (((s.each keptRegs fun b r => b.keep old r).put peatCtrl_WRAP (old.get peatCtrl_WRAP)).put peatStatus_FULL
    (old.get peatStatus_FULL)).put peatStatus_RESERVE_OUT (old.get peatStatus_RESERVE_OUT)

/-- The registers of a wiped state: all Cold, then those that are kept taken back. -/
theorem wipe_regs (s : State) (stage : PowerStage) :
    ∃ base : State, base.regs = [] ∧ (s.wipe stage).regs = (base.takeBack s).regs := by
  unfold State.wipe State.takeBack keptRegs
  dsimp only
  split
  · simp only [State.emit_regs]
    refine ⟨_, ?_, rfl⟩ -- the equation names the base, so it comes first
    rfl
  · refine ⟨_, ?_, rfl⟩
    rfl

@[simp] theorem State.wipe_mem (s : State) (stage : PowerStage) : (s.wipe stage).mem = [] := by
  unfold State.wipe; dsimp only; split <;> rfl

@[simp] theorem State.wipe_now (s : State) (stage : PowerStage) : (s.wipe stage).now = ⟨0, 0, 0⟩ := by
  unfold State.wipe; dsimp only; split <;> rfl

/-- The log's control and status keep some of their fields, and every register at another address is taken back whole or Cold. -/
theorem rd_takeBack {base : State} (hb : swf base.regs = true) (old : State) {r : Reg} (h1 : r.addr ≠ peatCtrl.addr)
    (h2 : r.addr ≠ peatStatus.addr) : (base.takeBack old).rd r = (base.each keptRegs fun b r => b.keep old r).rd r := by
  have hk := swf_each_keep hb old keptRegs
  unfold State.takeBack
  rw [rd_put_ne (swf_put (swf_put hk _ _) _ _) h2, rd_put_ne (swf_put hk _ _) h2, rd_put_ne hk h1]

theorem rd_wipe_cold (s : State) (stage : PowerStage) {r : Reg} (h1 : r.addr ≠ peatCtrl.addr) (h2 : r.addr ≠ peatStatus.addr)
    (hr : ∀ q ∈ keptRegs, q.addr ≠ r.addr) : (s.wipe stage).rd r = BitVec.ofNat 64 r.cold := by
  obtain ⟨base, hb, hw⟩ := wipe_regs s stage
  have hs : swf base.regs = true := hb ▸ swf_nil
  rw [rd_congr hw, rd_takeBack hs s h1 h2, rd_each_keep_apart hs s hr, ← rd_reset]
  exact rd_congr hb r

theorem rd_wipe_kept (s : State) (stage : PowerStage) {r : Reg} (hr : r ∈ keptRegs) : (s.wipe stage).rd r = s.rd r := by
  obtain ⟨base, hb, hw⟩ := wipe_regs s stage
  have hs : swf base.regs = true := hb ▸ swf_nil
  have apart : ∀ q ∈ keptRegs, q.addr ≠ peatCtrl.addr ∧ q.addr ≠ peatStatus.addr := by decide
  obtain ⟨h1, h2⟩ := apart r hr
  rw [rd_congr hw, rd_takeBack hs s h1 h2, rd_each_keep_mem hs s keptRegs_apart hr]

@[simp] theorem State.coldReset_mem (s : State) (code : Nat) (cycled : Bool) : (s.coldReset code cycled).mem = [] :=
  s.wipe_mem _

@[simp] theorem State.coldReset_now (s : State) (code : Nat) (cycled : Bool) : (s.coldReset code cycled).now = ⟨0, 0, 0⟩ :=
  s.wipe_now _

/-- The stage at which the start stands after a cold reset. -/
def coldStage (cycled : Bool) : PowerStage := .slot (if cycled then 0 else 1) cycled

theorem coldReset_eq (s : State) (code : Nat) (cycled : Bool) : s.coldReset code cycled =
    (((s.wipe (coldStage cycled)).put sysResetCause_CODE code).put sysResetCause_WAKE 0).put sysResetCause_MERGED 0 := rfl

section
variable {s : State} (h : s.canonical = true) (code : Nat) (cycled : Bool)
include h

theorem rd_coldReset {r : Reg} (hr : r.addr ≠ sysResetCause.addr) :
    (s.coldReset code cycled).rd r = (s.wipe (coldStage cycled)).rd r := by
  have hw := canonical_regs (s.wipe_canonical (coldStage cycled) h)
  rw [coldReset_eq, rd_put_ne (swf_put (swf_put hw _ _) _ _) hr, rd_put_ne (swf_put hw _ _) hr, rd_put_ne hw hr]

theorem get_coldReset_code : (s.coldReset code cycled).get sysResetCause_CODE = code % 256 := by
  have hw := canonical_regs (s.wipe_canonical (coldStage cycled) h)
  rw [coldReset_eq, get_put_c (swf_put (swf_put hw _ _) _ _) (by decide) (by decide),
    get_put_c (swf_put hw _ _) (by decide) (by decide), get_put hw (by decide)]
  rfl

/-- The registers that a cold reset does not leave Cold: those kept, and the log's control and status. -/
theorem rd_coldReset_cold {r : Reg} (hr : ∀ q ∈ keptRegs ++ [peatCtrl, peatStatus], q.addr ≠ r.addr) :
    (s.coldReset code cycled).rd r = BitVec.ofNat 64 r.cold := by
  rw [rd_coldReset h code cycled (hr sysResetCause (by decide)).symm]
  exact rd_wipe_cold s _ (hr peatCtrl (by decide)).symm (hr peatStatus (by decide)).symm fun q hq =>
    hr q (List.mem_append_left _ hq)

theorem coldReset_mode : (s.coldReset code cycled).mode = modeKindling :=
  get_of_cold (rd_coldReset_cold h code cycled (by decide))

theorem rd_coldReset_kept {r : Reg} (hr : r ∈ keptRegs) (hc : r.addr ≠ sysResetCause.addr) :
    (s.coldReset code cycled).rd r = s.rd r :=
  (rd_coldReset h code cycled hc).trans (rd_wipe_kept s _ hr)

end

/-- Settles O56: reset has empty stores, and a cold reset takes back only what it keeps. -/
theorem resetValues : Obligations.ResetValues := by
  refine ⟨rd_reset, fun _ => rfl, rfl, get_reset _, rfl, rfl, get_reset _, get_reset _, get_reset _, get_reset _, get_reset _,
    get_reset _, get_reset _, fun s code cycled hs => ?_⟩
  have kept : ∀ r ∈ [debugFuse, peatNext, peatOldest, peatLastCrc, peatBoot, sysWakeCfg],
      r ∈ keptRegs ∧ r.addr ≠ sysResetCause.addr := by decide
  refine ⟨fun r hr => rd_coldReset_cold hs code cycled hr, get_coldReset_code hs code cycled, s.coldReset_now code cycled,
    coldReset_mode hs code cycled, fun a => byte_congr (s := State.reset) (s.coldReset_mem code cycled) a, fun r hr => ?_⟩
  obtain ⟨hk, hc⟩ := kept r hr
  exact rd_coldReset_kept hs code cycled hk hc

/-! ### Accesses that have no row of their own

Every register with a row of its own lies in a register window, which no memory region meets. -/

theorem not_inMemory_of_inWindows {a : Nat} (h : inWindows a = true) (s : State) : s.inMemory a = false := by
  simp only [inWindows, decide_eq_true_eq] at h
  unfold State.inMemory
  rw [decide_eq_false_iff_not]
  simp only [emberBase, sealedBase, localBase, dramBase]
  omega

theorem not_inWindows_of_inMemory {s : State} {a : Nat} (h : s.inMemory a = true) : inWindows a = false :=
  Bool.eq_false_iff.mpr fun hw => by simp [not_inMemory_of_inWindows hw s] at h

theorem inWindows_eq_false {a : Nat} : inWindows a = false ↔ a < 0x40000000 ∨ 0x48100000 ≤ a := by
  simp only [inWindows, decide_eq_false_iff_not]; omega

theorem ne_of_outside {a r : Nat} (h : inWindows a = false) (hr : inWindows r = true) : a ≠ r :=
  fun e => Bool.false_ne_true (h.symm.trans (e ▸ hr))

theorem readRow_outside (k : Fin 4) (w : World) {addr : BitVec 48} (width : Width) (s : State) (h : inWindows addr.toNat = false) :
    readRow ⟨.core k w, addr, width⟩ s = none := by
  have hx := inWindows_eq_false.mp h
  unfold readRow
  dsimp only
  refine (if_neg Bool.false_ne_true).trans ?_
  iterate 2 refine (if_neg fun hc => ne_of_outside h rfl hc.1).trans ?_
  iterate 2 refine (if_neg (by omega)).trans ?_
  rfl

theorem coreWriteRow_outside (who : Requester) {x : Nat} (v : Nat) (s : State) (h : inWindows x = false) :
    coreWriteRow who x v s = none := by
  have hx := inWindows_eq_false.mp h
  unfold coreWriteRow
  iterate 8 refine (if_neg (ne_of_outside h rfl)).trans ?_
  iterate 2 refine (if_neg (by omega)).trans ?_
  iterate 3 refine (if_neg (ne_of_outside h rfl)).trans ?_
  iterate 2 refine (if_neg (by omega)).trans ?_
  refine (if_neg (ne_of_outside h rfl)).trans ?_
  refine (if_neg (by omega)).trans ?_
  iterate 2 refine (if_neg (ne_of_outside h rfl)).trans ?_
  iterate 2 refine (if_neg fun hc => ne_of_outside h rfl hc.1).trans ?_
  rfl

theorem writeRow_outside (k : Fin 4) (w : World) {addr : BitVec 48} (width : Width) (value : W64) (s : State)
    (h : inWindows addr.toNat = false) : writeRow ⟨.core k w, addr, width⟩ value s = none := by
  have hx := inWindows_eq_false.mp h
  unfold writeRow
  cases width <;> dsimp only
  case w32 =>
    iterate 4 refine (if_neg (ne_of_outside h rfl)).trans ?_
    refine (if_neg (by omega)).trans ?_
    exact coreWriteRow_outside _ _ _ h
  case w64 =>
    refine (if_neg (ne_of_outside h rfl)).trans ?_
    refine (if_neg (by omega)).trans ?_
    rfl

theorem exec_registerRead_core {k : Fin 4} {w : World} {addr : BitVec 48} {width : Width} {s : State}
    (h : readRow ⟨.core k w, addr, width⟩ s = none) : exec (.registerRead ⟨.core k w, addr, width⟩) s =
      .next (s.busRead (.core k w) addr.toNat (widthBytes width)) := by
  change execRegisterRead _ _ = _
  unfold execRegisterRead
  rw [h]

theorem exec_registerWrite_core {k : Fin 4} {w : World} {addr : BitVec 48} {width : Width} {value : W64} {s : State}
    (h : writeRow ⟨.core k w, addr, width⟩ value s = none) : exec (.registerWrite ⟨.core k w, addr, width⟩ value) s =
      .next (s.busWrite (.core k w) addr.toNat (widthBytes width) (value.toNat % 2 ^ (8 * widthBytes width))) := by
  change execRegisterWrite _ _ _ = _
  unfold execRegisterWrite
  rw [h]

theorem exec_registerRead_host {f : Fin 32} {addr : BitVec 48} {width : Width} {s : State}
    (h : readRow ⟨.host f, addr, width⟩ s = none) : exec (.registerRead ⟨.host f, addr, width⟩) s =
      .next (s.hostRead f.val addr.toNat (widthBytes width)) := by
  change execRegisterRead _ _ = _
  unfold execRegisterRead
  rw [h]

theorem exec_registerWrite_host {f : Fin 32} {addr : BitVec 48} {width : Width} {value : W64} {s : State}
    (h : writeRow ⟨.host f, addr, width⟩ value s = none) : exec (.registerWrite ⟨.host f, addr, width⟩ value) s =
      .next (s.hostWrite f.val addr.toNat (widthBytes width) (value.toNat % 2 ^ (8 * widthBytes width))) := by
  change execRegisterWrite _ _ _ = _
  unfold execRegisterWrite
  rw [h]

/-! ### A control core on the bus

Which branch of `busRead` and `busWrite` an access takes. -/

section
variable {s : State} {k : Fin 4} {w : World} {a n v : Nat}

theorem busRead_memory (h : s.inMemory a = true) : s.busRead (.core k w) a n =
    s.accessMemory (.core k w) a n false fun s => s.emit (.readValue (agentOf (.core k w)) a (BitVec.ofNat 64 (s.loadNat a n))) := by
  simp [State.busRead, State.mayRead, h]

theorem busWrite_memory (h : s.inMemory a = true) : s.busWrite (.core k w) a n v =
    s.accessMemory (.core k w) a n true fun s => s.store a (leBytes n v) := by
  simp [State.busWrite, State.mayWrite, State.mayRead, h]

theorem busRead_nowhere (hm : s.inMemory a = false) (hw : inWindows a = false) :
    s.busRead (.core k w) a n = s.emit (.busError (agentOf (.core k w)) a) := by
  simp [State.busRead, State.mayRead, hm, hw]

theorem busWrite_nowhere (hm : s.inMemory a = false) (hw : inWindows a = false) :
    s.busWrite (.core k w) a n v = s.emit (.busError (agentOf (.core k w)) a) := by
  simp [State.busWrite, State.mayWrite, State.mayRead, hm, hw]

theorem accessMemory_leaves {who : Requester} {write : Bool} {effect : State → State} (h : s.inMemory (a + n - 1) = false) :
    s.accessMemory who a n write effect = s.emit (.busError (agentOf who) a) := by
  simp [State.accessMemory, h]

theorem accessMemory_barred {who : Requester} {write : Bool} {effect : State → State} (h : s.inMemory (a + n - 1) = true)
    (hr : s.mayAccess (actorOf who) a n = false) :
    s.accessMemory who a n write effect = (s.emit (.busError (agentOf who) a)).violation (agentOf who) a write := by
  simp [State.accessMemory, h, hr]

theorem accessMemory_reaches {who : Requester} {write : Bool} {effect : State → State} (h : s.inMemory (a + n - 1) = true)
    (hr : s.mayAccess (actorOf who) a n = true) : s.accessMemory who a n write effect = effect s := by
  simp [State.accessMemory, h, hr]

theorem busRead_forbidden (h : inWindows a = true) (ho : s.openReads a = false) :
    s.busRead (.core k .opened) a n = s.refuseRead (.core k .opened) a := by
  simp [State.busRead, State.mayRead, worldOf, h, not_inMemory_of_inWindows h, ho]

theorem busWrite_forbidden (h : inWindows a = true) (ho : s.openUses a = false) :
    s.busWrite (.core k .opened) a n v = s.refuseWrite (.core k .opened) a v (((s.readAt a n).map (·.2)).getD 0) stWorld := by
  simp [State.busWrite, State.mayWrite, State.mayRead, worldOf, h, not_inMemory_of_inWindows h, ho]

/-- The sealed world is never held back, the open world not where its rule lets it. -/
theorem not_heldBack {b : Bool} (h : w = .sealed ∨ b = true) : (decide (worldOf (.core k w) = .opened) && !b) = false := by
  rcases h with rfl | rfl <;> simp [worldOf]

section
variable {b : Nat} (h : inWindows a = true) (hb : bankAddr (.core k w) a = some b)
include h hb

theorem busRead_refused (ho : w = .sealed ∨ s.openReads a = true) (hr : s.readAt b n = none) :
    s.busRead (.core k w) a n = s.emit (.busError (agentOf (.core k w)) a) := by
  simp [State.busRead, State.mayRead, h, not_inMemory_of_inWindows h, not_heldBack ho, hb, hr]

theorem busRead_shown (ho : w = .sealed ∨ s.openReads a = true) {t : State} (hr : s.readAt b n = some (t, v)) :
    s.busRead (.core k w) a n = t.emit (.readValue (agentOf (.core k w)) a (BitVec.ofNat 64 v)) := by
  simp [State.busRead, State.mayRead, h, not_inMemory_of_inWindows h, not_heldBack ho, hb, hr]

theorem busWrite_refused (ho : w = .sealed ∨ s.openUses a = true) (hp : partsOf b n = none) :
    s.busWrite (.core k w) a n v = s.emit (.busError (agentOf (.core k w)) a) := by
  simp [State.busWrite, State.mayWrite, State.mayRead, h, not_inMemory_of_inWindows h, not_heldBack ho, hb, hp]

theorem busWrite_unlisted (ho : w = .sealed ∨ s.openUses a = true) (hp : partsOf b n = some []) :
    s.busWrite (.core k w) a n v = s := by
  simp [State.busWrite, State.mayWrite, State.mayRead, h, not_inMemory_of_inWindows h, not_heldBack ho, hb, hp]

theorem busWrite_parts (ho : w = .sealed ∨ s.openUses a = true) {p : Part} {ps : List Part} (hp : partsOf b n = some (p :: ps)) :
    s.busWrite (.core k w) a n v = s.writeParts (.core k w) a v (p :: ps) := by
  simp [State.busWrite, State.mayWrite, State.mayRead, h, not_inMemory_of_inWindows h, not_heldBack ho, hb, hp]

end

end

/-! ### Memory on the bus -/

section
variable {s : State} {k : Fin 4} {w : World} {addr : BitVec 48} {width : Width} (hm : s.inMemory addr.toNat = true)
include hm

theorem exec_registerRead_memory : exec (.registerRead ⟨.core k w, addr, width⟩) s =
    .next (s.accessMemory (.core k w) addr.toNat (widthBytes width) false fun s =>
      s.emit (.readValue (agentOf (.core k w)) addr.toNat (BitVec.ofNat 64 (s.loadNat addr.toNat (widthBytes width))))) := by
  rw [exec_registerRead_core (readRow_outside k w width s (not_inWindows_of_inMemory hm)), busRead_memory hm]

theorem exec_registerWrite_memory (value : W64) : exec (.registerWrite ⟨.core k w, addr, width⟩ value) s =
    .next (s.accessMemory (.core k w) addr.toNat (widthBytes width) true fun s =>
      s.store addr.toNat (leBytes (widthBytes width) (value.toNat % 2 ^ (8 * widthBytes width)))) := by
  rw [exec_registerWrite_core (writeRow_outside k w width value s (not_inWindows_of_inMemory hm)), busWrite_memory hm]

end

/-! ### The parts of a write -/

/-- The parts take their values, one after another. -/
def State.storeParts (s : State) (ps : List Part) (v : Nat) : State :=
  ps.foldl (fun t q => t.storeReg q.hit (partAfter q (t.written q.hit.info.reg) v)) s

/-- What the parts read as, each at its place in the data. -/
def State.shownParts (s : State) (ps : List Part) : Nat :=
  (ps.map fun q => s.regShown q.hit / 2 ^ q.low % 2 ^ q.bits * 2 ^ q.at_).sum

/-- The rule of each block lets its part of a write pass. -/
def State.partsPass (s : State) (ps : List Part) (v : Nat) : Prop :=
  ∀ q ∈ ps, s.verdict q.hit (partAfter q (s.written q.hit.info.reg) v) = .pass

section
variable {s : State} {who : Requester} {a v : Nat} {ps : List Part}

/-- No rule refuses the parts, so only a full log can. -/
theorem writeParts_pass (h : s.partsPass ps v) : s.writeParts who a v ps =
    if !dataPath a && s.writeBarred who a then s.emit (.busError (agentOf who) a)
    else (s.storeParts ps v).when (!dataPath a) fun t => t.noteWrite who a v (s.shownParts ps) := by
  have hn : ((ps.map fun q => s.verdict q.hit (partAfter q (s.written q.hit.info.reg) v)).find? fun x => x != .pass) = none := by
    simp only [List.find?_eq_none, List.forall_mem_map]
    exact fun q hq => by rw [h q hq]; decide
  unfold State.writeParts
  dsimp only
  rw [hn]
  rfl

theorem writeParts_dataPath (h : s.partsPass ps v) (hd : dataPath a = true) : s.writeParts who a v ps = s.storeParts ps v := by
  simp [writeParts_pass h, hd, State.when]

theorem writeParts_noted (h : s.partsPass ps v) (hd : dataPath a = false) (hb : s.writeBarred who a = false) :
    s.writeParts who a v ps = (s.storeParts ps v).noteWrite who a v (s.shownParts ps) := by
  simp [writeParts_pass h, hd, hb, State.when]

theorem writeParts_barred (h : s.partsPass ps v) (hd : dataPath a = false) (hb : s.writeBarred who a = true) :
    s.writeParts who a v ps = s.emit (.busError (agentOf who) a) := by
  simp [writeParts_pass h, hd, hb]

end

/-! ### A host on BAR 0 -/

section
variable {s : State} {f off n b : Nat} (hl : s.onLink f = true) (hw : s.power.warm = none) (ho : off < 0x10000)
  (hb : s.hostAddr f off = some b)
include hl hw ho hb

theorem hostRead_aborted (hr : s.readAt b n = none) : s.hostRead f off n = s.emit (.completerAbort f) := by
  simp [State.hostRead, State.barRead, hl, hw, hb, Nat.not_le.mpr ho, hr]

theorem hostRead_shown {t : State} {v : Nat} (hr : s.readAt b n = some (t, v)) :
    s.hostRead f off n = t.emit (.readValue f (fnBank + 0x10000 * f + off) (BitVec.ofNat 64 v)) := by
  simp [State.hostRead, State.barRead, hl, hw, hb, Nat.not_le.mpr ho, hr]

theorem hostWrite_aborted (v : Nat) (hp : partsOf b n = none) : s.hostWrite f off n v = s.emit (.completerAbort f) := by
  simp [State.hostWrite, State.barWrite, hl, hw, hb, Nat.not_le.mpr ho, hp]

theorem hostWrite_parts (v : Nat) {ps : List Part} (hp : partsOf b n = some ps) : s.hostWrite f off n v = s.storeParts ps v := by
  simp [State.hostWrite, State.barWrite, hl, hw, hb, Nat.not_le.mpr ho, hp, State.storeParts]

end

/-- Settles O49: a core's access by where its address falls, a host's by the register behind its offset. -/
theorem registerAccesses : Obligations.RegisterAccesses := by
  refine ⟨fun s k w addr width => ⟨fun hm he hr => ?reach, fun hm he hr => ?barred, fun hm he => ?leaves, fun hm hw => ?nowhere,
    fun hx hrow hw ho => ?forbiddenRead, fun b hx hrow ho hb => ?windowRead, fun value hx hrow => ?windowWrite⟩,
    fun s f addr width b hl hw ho hb => ⟨fun hrow t v hv => ?hostRead, fun hrow hv => ?hostAbort, fun value hrow => ?hostWrite⟩⟩
  case reach =>
    exact ⟨(exec_registerRead_memory hm).trans (congrArg _ (accessMemory_reaches he hr)),
      fun value => (exec_registerWrite_memory hm value).trans (congrArg _ (accessMemory_reaches he hr))⟩
  case barred =>
    exact ⟨(exec_registerRead_memory hm).trans (congrArg _ (accessMemory_barred he hr)),
      fun value => (exec_registerWrite_memory hm value).trans (congrArg _ (accessMemory_barred he hr))⟩
  case leaves =>
    exact ⟨(exec_registerRead_memory hm).trans (congrArg _ (accessMemory_leaves he)),
      fun value => (exec_registerWrite_memory hm value).trans (congrArg _ (accessMemory_leaves he))⟩
  case nowhere =>
    refine ⟨?_, fun value => ?_⟩
    · rw [exec_registerRead_core (readRow_outside k w width s hw), busRead_nowhere hm hw]
    · rw [exec_registerWrite_core (writeRow_outside k w width value s hw), busWrite_nowhere hm hw]
  case forbiddenRead =>
    subst hw
    exact (exec_registerRead_core hrow).trans (congrArg _ (busRead_forbidden hx ho))
  case windowRead =>
    rw [exec_registerRead_core hrow]
    exact ⟨fun hr => congrArg _ (busRead_refused hx hb ho hr), fun t v hr => congrArg _ (busRead_shown hx hb ho hr)⟩
  case windowWrite =>
    rw [exec_registerWrite_core hrow]
    refine ⟨fun hw ho => ?_, fun b ho hb => ⟨fun hp => congrArg _ (busWrite_refused hx hb ho hp),
      fun hp => congrArg _ (busWrite_unlisted hx hb ho hp), fun p ps hp hpass => ?_⟩⟩
    · subst hw
      exact congrArg _ (busWrite_forbidden hx ho)
    · rw [busWrite_parts hx hb ho hp]
      exact ⟨fun hd => congrArg _ (writeParts_dataPath hpass hd), fun hd hf => congrArg _ (writeParts_noted hpass hd hf),
        fun hd hf => congrArg _ (writeParts_barred hpass hd hf)⟩
  case hostRead => exact (exec_registerRead_host hrow).trans (congrArg _ (hostRead_shown hl hw ho hb hv))
  case hostAbort => exact (exec_registerRead_host hrow).trans (congrArg _ (hostRead_aborted hl hw ho hb hv))
  case hostWrite =>
    rw [exec_registerWrite_host hrow]
    exact ⟨fun hp => congrArg _ (hostWrite_aborted hl hw ho hb _ hp), fun ps hp => congrArg _ (hostWrite_parts hl hw ho hb _ hp)⟩

end Sys2Proof.Machine

/-! Proofs of the obligations of 01_wall_time.md: the lock loop, the wall-time opcodes and the registers of the WALL block. -/
namespace Sys2Proof.Machine

/-! ### The WALL block beside its registers -/

theorem put_modWall (s : State) (f : WallState → WallState) (g : RF) (v : Nat) : (s.modWall f).put g v = (s.put g v).modWall f := rfl

theorem modWall_modWall (s : State) (f g : WallState → WallState) : (s.modWall f).modWall g = s.modWall fun w => g (f w) := rfl

/-! ### A reference that meets the lock criterion (R18, R19) -/

theorem ofSigned_lt (bits : Nat) (i : Int) : ofSigned bits i < 2 ^ bits := by
  have hp : (0 : Int) < (2 ^ bits : Nat) := by positivity
  have h1 := Int.emod_nonneg i hp.ne'
  have h2 := Int.emod_lt_of_pos i hp
  unfold ofSigned
  omega

theorem putSigned_of_fits (s : State) (f : RF) {i : Int} (h : -(2 ^ (f.width - 1) : Nat) ≤ i ∧ i < (2 ^ (f.width - 1) : Nat)) :
    s.putSigned f i = s.put f (ofSigned f.width i) := if_pos h

/-- The registers once a reference point of the configured type and within range is read: what was measured is shown. -/
def State.measured (s : State) (freq phase : Int) : State :=
  (((s.put wallStatus_MISMATCH 0).put wallPhase_PHASE_ERR (ofSigned 16 phase)).put wallPhase_FREQ_OFF (ofSigned 16 freq)).put
    wallStatus_RANGE 0

/-- One more reference point of the run that R19 asks for; there is no phase error left to slew. -/
def countGood (freq : Int) (w : WallState) : WallState :=
  { w with missRun := 0, goodRun := w.goodRun + 1, freqs := (freq :: w.freqs).take 64, slew := 0 }

section
variable {s : State} {freq freqErr phase : Int}

theorem measured_STATE (h : swf s.regs = true) : (s.measured freq phase).get wallStatus_STATE = s.get wallStatus_STATE := by
  unfold State.measured
  exact (get_put_c (swf_put (by simp [h]) _ _) rfl rfl _).trans <| (get_put_c (by simp [h]) rfl rfl _).trans <|
    (get_put_c (by simp [h]) rfl rfl _).trans (get_put_c h rfl rfl _)

theorem measured_PHASE_ERR (h : swf s.regs = true) : (s.measured freq phase).get wallPhase_PHASE_ERR = ofSigned 16 phase := by
  unfold State.measured
  exact (get_put_c (swf_put (by simp [h]) _ _) rfl rfl _).trans <| (get_put_c (by simp [h]) rfl rfl _).trans <|
    (get_put (by simp [h]) (by decide) _).trans (Nat.mod_eq_of_lt (ofSigned_lt 16 phase))

/-- A reference point of the configured type and within range is a valid one (R18). -/
theorem exec_houseSyncReference_valid {d : Fin 4} {pos period : Int} (hd : s.get wallSyncCfg_TYPE = d.val) (hz : d.val ≠ 0)
    (ha : s.wall.anchor = true) (hper : period.natAbs ≤ 20000) (hpos : pos.natAbs ≤ 1024) (hph : phase.natAbs ≤ 32)
    (hlo : -32768 ≤ freq) (hhi : freq < 32768) : exec (.houseSyncReference d pos period freq freqErr phase) s =
      .next ((s.measured freq phase).validReference freq freqErr phase) := by
  change execHouseSyncReference _ _ _ _ _ _ _ = _
  unfold execHouseSyncReference State.referencePoint
  rw [if_neg (hd ▸ hz), if_neg fun hne => hne hd.symm,
    putSigned_of_fits _ wallPhase_PHASE_ERR (by simp only [wallPhase_PHASE_ERR]; omega),
    putSigned_of_fits _ wallPhase_FREQ_OFF (by simp only [wallPhase_FREQ_OFF]; omega)]
  simp only [State.put_wall, ha, Bool.not_true, Bool.false_eq_true, if_false, Nat.not_lt.mpr hper, Nat.not_lt.mpr hpos]
  rfl

/-- Outside FREE and HOLDOVER a valid reference changes no state of the lock loop by itself (R18). -/
theorem acquire_running (h0 : s.get wallStatus_STATE ≠ 0) (h3 : s.get wallStatus_STATE ≠ 3) : s.acquire phase = s :=
  if_neg (not_or.mpr ⟨h0, h3⟩)

/-- In ACQUIRE or LOCKED, a valid reference that meets the lock criterion is counted; the last of its run locks (R19). -/
theorem validReference_good (h0 : s.get wallStatus_STATE ≠ 0) (h3 : s.get wallStatus_STATE ≠ 3) (hph : phase.natAbs ≤ 32)
    (hfe : freqErr.natAbs ≤ 100) : s.validReference freq freqErr phase =
      if s.get wallStatus_STATE = 1 ∧ 15 ≤ s.wall.goodRun then
        ((s.modWall (countGood freq)).put wallStatus_STATE 2).raise 16 (s.get wallPhase_PHASE_ERR)
      else s.modWall (countGood freq) := by
  unfold State.validReference
  rw [acquire_running h0 h3]
  simp only [hph, hfe, decide_true, Bool.and_self, if_true, State.modWall_get, State.modWall_wall, Bool.and_eq_true,
    decide_eq_true_eq, Nat.reduceLeDiff]
  rfl

end

/-! ### Loss of the reference and holdover (R20, R21) -/

/-- Enough expected references were missed in ACQUIRE or LOCKED. -/
theorem syncLost_running {s : State} (h : swf s.regs = true) (hm : s.get wallSyncCfg_LOSS_COUNT ≤ s.wall.missRun)
    (hs : s.get wallStatus_STATE = 1 ∨ s.get wallStatus_STATE = 2) : s.syncLost =
      ((((s.put wallStatus_STATE 3).put wallStatus_HOLDOVER 1).put wallHoldTime_HOLD_SEC 0).modWall fun w =>
        { w with anchor := false, missRun := 0, holdSince := s.now, limitRaised := false, slew := 0 }).raise 17
        (s.get wallSyncCfg_LOSS_COUNT) := by
  have hcount : (((s.put wallStatus_STATE 3).put wallStatus_HOLDOVER 1).put wallHoldTime_HOLD_SEC 0).get wallSyncCfg_LOSS_COUNT =
      s.get wallSyncCfg_LOSS_COUNT :=
    (get_put_c (by simp [h]) rfl rfl _).trans <| (get_put_c (by simp [h]) rfl rfl _).trans (get_put_c h rfl rfl _)
  unfold State.syncLost
  dsimp only
  rw [if_neg (Nat.not_lt.mpr hm), State.modWall_get, if_pos hs, put_modWall, put_modWall, put_modWall, State.modWall_get,
    State.modWall_get, hcount, modWall_modWall]
  simp only [State.modWall_now, State.put_now]

theorem holdTime_holdover {s : State} (h : s.get wallStatus_STATE = 3) :
    s.holdTime = s.put wallHoldTime_HOLD_SEC (s.grainsToUs (s.since s.wall.holdSince) / 1000000) := if_pos h

/-- HOLDOVER_LIMIT at the limit, the first time in a holdover. -/
theorem exec_holdoverLimit_reached {s : State} (h : swf s.regs = true) (hs : s.get wallStatus_STATE = 3)
    (hr : s.wall.limitRaised = false)
    (hl : 60 * s.get wallLockCfg_HOLD_LIMIT ≤ s.grainsToUs (s.since s.wall.holdSince) / 1000000)
    (hlt : s.grainsToUs (s.since s.wall.holdSince) / 1000000 < 2 ^ 32) : exec .holdoverLimit s = .next
      (((s.put wallHoldTime_HOLD_SEC (s.grainsToUs (s.since s.wall.holdSince) / 1000000)).modWall fun w =>
        { w with limitRaised := true }).raise 21 (s.get wallLockCfg_HOLD_LIMIT)) := by
  change execHoldoverLimit s = _
  unfold execHoldoverLimit
  rw [holdTime_holdover hs]
  generalize s.grainsToUs (s.since s.wall.holdSince) / 1000000 = sec at hl hlt ⊢
  have hstate : (s.put wallHoldTime_HOLD_SEC sec).get wallStatus_STATE = 3 := (get_put_c h rfl rfl _).trans hs
  have hlimit : (s.put wallHoldTime_HOLD_SEC sec).get wallLockCfg_HOLD_LIMIT = s.get wallLockCfg_HOLD_LIMIT := get_put_c h rfl rfl _
  have hsec : (s.put wallHoldTime_HOLD_SEC sec).get wallHoldTime_HOLD_SEC = sec :=
    (get_put h (by decide) _).trans (Nat.mod_eq_of_lt hlt)
  simp only [hstate, hlimit, hsec, State.put_wall, hr, hl, decide_true, Bool.not_false, Bool.and_self, if_true]

/-- Settles O1: valid references by the run they are counted in, then the two ends of a holdover. -/
theorem wallLockLoop : Obligations.WallLockLoop := by
  refine ⟨fun s d pos period freq freqErr phase hc hd hz ha hs hper hpos hph hfe hlo hhi => ?locked,
    fun s d pos period freq freqErr phase hc hd hz ha hs hrun hper hpos hph hfe hlo hhi => ?locks, fun s h => ?missing,
    fun s hc hm hs => congrArg _ (syncLost_running (canonical_regs hc) hm hs),
    fun s hc hs hr hl hlt => exec_holdoverLimit_reached (canonical_regs hc) hs hr hl hlt⟩
  case locked =>
    have hs' : (s.measured freq phase).get wallStatus_STATE = 2 := (measured_STATE (canonical_regs hc)).trans hs
    rw [exec_houseSyncReference_valid hd hz ha hper hpos hph hlo hhi,
      validReference_good (by omega) (by omega) hph hfe, if_neg (by omega)]
    rfl
  case locks =>
    have hs' : (s.measured freq phase).get wallStatus_STATE = 1 := (measured_STATE (canonical_regs hc)).trans hs
    rw [exec_houseSyncReference_valid hd hz ha hper hpos hph hlo hhi,
      validReference_good (by omega) (by omega) hph hfe, if_pos ⟨hs', hrun⟩, measured_PHASE_ERR (canonical_regs hc)]
    rfl
  case missing => exact congrArg _ (if_neg h)

/-! ### The wall-time opcodes (R33 to R35) -/

/-- Settles O2: each packet passes its checks, so its effect decides; RASTER_SET is answered later, the others at once. -/
theorem wallPackets : Obligations.WallPackets := by
  refine ⟨fun s p h => ?rasterSet, fun s p h => ?syncSet, fun s p h => ?wallQuery⟩
  case rasterSet => exact packet_later h rfl nofun rfl
  case syncSet => exact packet_answer h rfl nofun rfl
  case wallQuery => exact packet_answer h rfl nofun rfl

/-! ### The registers of the WALL block (R31, R32) -/

section
variable {s : State} {who : Requester} (hw : worldOf who = .sealed)
include hw

theorem exec_wallNowRead_sealed (hr : s.mayRead who = true) : exec (.wallNowRead who) s =
    .next ((s.modWall fun w => { w with nowUpper := BitVec.ofNat 32 (s.now.word.toNat / 2 ^ 32) }).emit
      (.readValue (agentOf who) wallNow.addr (BitVec.ofNat 64 (s.now.word.toNat % 2 ^ 32)))) := by
  change execWallNowRead who s = _
  simp [execWallNowRead, hr, hw]

theorem exec_audNowRead_sealed (hr : s.mayRead who = true) : exec (.audNowRead who) s =
    .next ((s.modWall fun w => { w with audUpper := BitVec.ofNat 32 (s.audNow / 2 ^ 32) }).emit
      (.readValue (agentOf who) audNow.addr (BitVec.ofNat 64 (s.audNow % 2 ^ 32)))) := by
  change execAudNowRead who s = _
  simp [execAudNowRead, hr, hw]

/-- A sealed write that the log has room for takes effect and is recorded. -/
theorem sealedWrite_sealed (hm : s.mayWrite who = true) {r : Reg} (hb : s.writeBarred who r.addr = false) (v : Nat)
    (effect : State → State) : s.sealedWrite who r v effect = (effect s).noteWrite who r.addr v (s.rd r).toNat := by
  simp [State.sealedWrite, hm, hw, hb]

end

section
variable {s : State} {who : Requester} {v : W32}

/-- Without APPLY the write sets RELOCK_MODE alone (R31). -/
theorem exec_wallApplyWrite_relock (hv : v.toNat % 2 = 0) : exec (.wallApplyWrite who v) s =
    .next (s.sealedWrite who wallCtrl v.toNat fun t => t.put wallCtrl_RELOCK_MODE (v.toNat / 2)) :=
  congrArg Host.Outcome.next (if_pos (.inl hv))

/-- With APPLY a sealed write whose staged values fail a check is refused and discards them (R31). -/
theorem exec_wallApplyWrite_refused (hw : worldOf who = .sealed) (hm : s.mayWrite who = true) (hv : v.toNat % 2 = 1) {st : Nat}
    (hf : s.applyFault = some st) : exec (.wallApplyWrite who v) s =
      .next ((s.refuseWrite who wallCtrl.addr v.toNat (s.rd wallCtrl).toNat st).modWall fun w => { w with staged := [] }) := by
  change execWallApplyWrite who v s = _
  simp [execWallApplyWrite, hw, hm, hv, hf]

/-- With APPLY one whose staged values pass the checks brings them into use (R31). -/
theorem exec_wallApplyWrite_passed (hw : worldOf who = .sealed) (hm : s.mayWrite who = true) (hv : v.toNat % 2 = 1)
    (hf : s.applyFault = none) : exec (.wallApplyWrite who v) s =
      .next (s.sealedWrite who wallCtrl v.toNat fun t => (t.put wallCtrl_RELOCK_MODE (v.toNat / 2)).applyStagedWall) := by
  change execWallApplyWrite who v s = _
  simp [execWallApplyWrite, hw, hm, hv, hf]

end

/-- The fields that make up the raster in use lie apart from WALL_CTRL, so its write leaves the comparison as it was. -/
theorem rasterDiffers_put_RELOCK_MODE {s : State} (h : swf s.regs = true) (v : Nat) :
    (s.put wallCtrl_RELOCK_MODE v).rasterDiffers (s.put wallCtrl_RELOCK_MODE v).stagedRaster = s.rasterDiffers s.stagedRaster := by
  have hrd {r : Reg} (hr : Nat.beq r.addr wallCtrl.addr = false) : (s.put wallCtrl_RELOCK_MODE v).rd r = s.rd r :=
    rd_put_ne h (Nat.ne_of_beq_eq_false hr) v
  have hget {f : RF} (hf : Nat.beq f.reg.addr wallCtrl.addr = false) : (s.put wallCtrl_RELOCK_MODE v).get f = s.get f :=
    get_put_ne h (Nat.ne_of_beq_eq_false hf) v
  have hst {r : Reg} (hr : Nat.beq r.addr wallCtrl.addr = false) : (s.put wallCtrl_RELOCK_MODE v).stagedWall r = s.stagedWall r := by
    unfold State.stagedWall; rw [hrd hr]; rfl
  unfold State.rasterDiffers State.stagedRaster State.rateNum State.rateDen State.lines
  rw [hst rfl, hst rfl, hst rfl, hst rfl, hget rfl, hget rfl, hget rfl, hget rfl, hget rfl]

/-- Staged values that leave the raster as it is and hold a house sync configuration: it takes effect at the next master frame
start. -/
theorem applyStagedWall_sync {s : State} (hr : s.rasterDiffers s.stagedRaster = false)
    (hs : s.wall.staged.any (·.1 == wallSyncCfg.addr) = true) : s.applyStagedWall = (s.modWall fun w =>
      { w with sync := some (w.staged.filter fun e => e.1 == wallSyncCfg.addr), staged := [] }).put wallStatus_PENDING 1 := by
  have hne : (s.wall.staged.filter fun e => e.1 == wallSyncCfg.addr).isEmpty = false := by
    simpa [List.isEmpty_eq_false_iff] using hs
  unfold State.applyStagedWall
  dsimp only
  rw [hr, hne]
  rfl

/-- Settles O3: reads that latch, then a write of WALL_CTRL without APPLY, with one that passes and with one that is refused. -/
theorem wallRegisters : Obligations.WallRegisters := by
  refine ⟨fun s who hr hw => exec_wallNowRead_sealed hw hr, fun s who hr hw => exec_audNowRead_sealed hw hr,
    fun s who v hm hw hb hv => ?relock, fun s who v hm hw hb hv hf hd hs hc => ?applied,
    fun s who v st hm hw hv hf => exec_wallApplyWrite_refused hw hm hv hf⟩
  case relock => rw [exec_wallApplyWrite_relock hv, sealedWrite_sealed hw hm hb]
  case applied =>
    have hd' := (rasterDiffers_put_RELOCK_MODE (canonical_regs hc) (v.toNat / 2)).trans hd
    rw [exec_wallApplyWrite_passed hw hm hv hf, sealedWrite_sealed hw hm hb, applyStagedWall_sync hd' hs]

end Sys2Proof.Machine

/-! Proofs of the obligations of 02_guest_ports.md: links and losses of the guest ports, function resets and the tenant opcodes. -/
namespace Sys2Proof.Machine

/-! ### Flags and guards of the ports -/

theorem flag_of_get_one {s : State} {f : RF} (h : s.get f = 1) : s.flag f = true := by simp [State.flag, h]

theorem flag_of_get_zero {s : State} {f : RF} (h : s.get f = 0) : s.flag f = false := by simp [State.flag, h]

/-- A port whose LOST bit is clear has nothing to regain (R69). -/
theorem regainPort_held {s : State} {p : Nat} (h : s.get (hpLink_LOST p) = 0) : s.regainPort p = s := by
  simp [State.regainPort, State.portLost, flag_of_get_zero h]

/-- A write through BAR 0 reaches a function on the link outside a warm reset (R64). -/
theorem barWrite_reaches {s : State} {f : Nat} (hl : s.onLink f = true) (hw : s.power.warm = none) (effect : State → State) :
    s.barWrite f effect = effect s := by
  simp [State.barWrite, hl, hw]

/-! ### A link that trains (R37) -/

theorem hpLink_LOST_offEvents (p : Nat) : (hpLink_LOST p).offEvents = true := by
  have hne : (hpLink p).addr ≠ 0x47000018 := by simp only [hpLink]; omega
  simp only [RF.offEvents, hpLink_LOST, Bool.and_eq_true, Bool.or_eq_true, Nat.ble_eq, Bool.not_eq_true']
  exact ⟨.inr (by simp only [hpLink]; omega), Bool.eq_false_iff.mpr fun he => hne (Nat.eq_of_beq_eq_true he)⟩

/-- The link of a port shows its rate and width, and that it is up. -/
def State.showLink (s : State) (p speed width : Nat) : State :=
  ((s.put (hpLink_SPEED p) speed).put (hpLink_WIDTH p) width).put (hpLink_DL_UP p) 1

/-- A port whose link has trained, event 128 raised. -/
def State.trained (s : State) (p speed width : Nat) : State :=
  ((s.showLink p speed width).modHostPort p fun x => { x with linkOut := false }).raise 128 (p * 256 + speed * 16 + width)

section
variable {s : State} {p : Nat} (h : swf s.regs = true) (speed width : Nat)
include h

theorem swf_showLink : swf (s.showLink p speed width).regs = true := swf_put (swf_put (swf_put h _ _) _ _) _ _

theorem showLink_LOST : (s.showLink p speed width).get (hpLink_LOST p) = s.get (hpLink_LOST p) := by
  have h1 := swf_put h (hpLink_SPEED p) speed
  have h2 := swf_put h1 (hpLink_WIDTH p) width
  calc (s.showLink p speed width).get (hpLink_LOST p)
      = ((s.put (hpLink_SPEED p) speed).put (hpLink_WIDTH p) width).get (hpLink_LOST p) := get_put_r h2 rfl rfl _
    _ = (s.put (hpLink_SPEED p) speed).get (hpLink_LOST p) := get_put_r h1 rfl rfl _
    _ = s.get (hpLink_LOST p) := get_put_r h rfl rfl _

theorem swf_trained : swf (s.trained p speed width).regs = true := by
  unfold State.trained
  exact swf_raise (by rw [State.modHostPort_regs]; exact swf_showLink h speed width) _ _

theorem trained_LOST : (s.trained p speed width).get (hpLink_LOST p) = s.get (hpLink_LOST p) := by
  unfold State.trained
  rw [get_raise (by rw [State.modHostPort_regs]; exact swf_showLink h speed width) (hpLink_LOST_offEvents p) (by decide),
    State.modHostPort_get, showLink_LOST h]

end

/-- A link trains only where its port is powered and the link is down, at a rate and a width that exist (R37). -/
theorem exec_linkUp_trains {s : State} {p : Fin 2} {speed width : Fin 5} (hp : s.portPowered p.val = true)
    (hd : s.get (hpLink_DL_UP p.val) = 0) (hs : speed.val ≠ 0) (hw : width.val = 1 ∨ width.val = 2 ∨ width.val = 4) :
    exec (.linkUp p speed width) s = .next (((s.trained p.val speed.val width.val).when (speed.val != 4 || width.val != 4)
      fun t => t.raise 130 (p.val * 256 + speed.val * 16 + width.val)).regainPort p.val) := by
  have hlanes : [1, 2, 4].contains width.val = true := by simpa using hw
  refine congrArg _ (if_neg ?_)
  rw [hp, flag_of_get_zero hd, hlanes, decide_eq_false hs]
  exact Bool.false_ne_true

/-- A link below Gen 4 by four lanes raises 130 as well; a port that is not lost has nothing to regain. -/
theorem regainPort_trained {s : State} {p : Nat} (h : swf s.regs = true) (hl : s.get (hpLink_LOST p) = 0) (speed width : Nat) :
    ((s.trained p speed width).when (speed != 4 || width != 4) fun t =>
      t.raise 130 (p * 256 + speed * 16 + width)).regainPort p =
      if speed = 4 ∧ width = 4 then s.trained p speed width
      else (s.trained p speed width).raise 130 (p * 256 + speed * 16 + width) := by
  have hheld := (trained_LOST h speed width).trans hl
  by_cases hfull : speed = 4 ∧ width = 4
  · have hb : (speed != 4 || width != 4) = false := by simp [hfull]
    rw [if_pos hfull, State.when, hb, if_neg Bool.false_ne_true]
    exact regainPort_held hheld
  · have hb : (speed != 4 || width != 4) = true := by
      by_contra hb
      exact hfull (by simpa using hb)
    rw [if_neg hfull, State.when, hb, if_pos rfl]
    exact regainPort_held ((get_raise (swf_trained h speed width) (hpLink_LOST_offEvents p) (by decide) _).trans hheld)

/-! ### A link that goes down, and the loss of a port (R55, R66, R67, R71) -/

theorem dropLink_up {s : State} {p : Nat} (h : s.get (hpLink_DL_UP p) = 1) : s.dropLink p =
    (((((s.put (hpLink_SPEED p) 0).put (hpLink_WIDTH p) 0).put (hpLink_DL_UP p) 0).modHostPort p fun x =>
      { x with linkOut := true }).raise 129 p).resetPort p 3 := if_pos (flag_of_get_one h)

theorem exec_hotReset_up {s : State} {p : Fin 2} (h : s.get (hpLink_DL_UP p.val) = 1) :
    exec (.hotReset p) s = .next (s.resetPort p.val 3) := by
  change Host.Outcome.next (if s.flag (hpLink_DL_UP p.val) then s.resetPort p.val 3 else s) = _
  rw [if_pos (flag_of_get_one h)]

theorem losePort_held {s : State} {p : Nat} (h : s.get (hpLink_LOST p) = 0) (cause : Nat) : s.losePort p cause =
    (((s.put (hpLink_LOST p) 1).modHostPort p fun x => { x with heartbeatOut := true }).each (portFns (1 - p)) fun s f =>
      s.putStatus (fnStatus_PORT_LOST f) f 1).raise 131 (p * 256 + cause) :=
  if_neg (by simp [State.portLost, flag_of_get_zero h])

/-- A heartbeat of a physical function restarts the timer of its port, which it regains only if it was lost (R66, R69). -/
theorem exec_fnHeartbeatWrite_held {s : State} {f : Fin 32} (v : W32) (hl : s.onLink f.val = true) (hw : s.power.warm = none)
    (hf : f.val % 16 = 0) (h : s.get (hpLink_LOST (portOf f.val)) = 0) : exec (.fnHeartbeatWrite f v) s =
      .next (s.modHostPort (portOf f.val) fun x => { x with heartbeatOut := false }) := by
  change execFnHeartbeatWrite f v s = _
  unfold execFnHeartbeatWrite
  rw [barWrite_reaches hl hw, if_pos hf]
  exact congrArg _ (regainPort_held h)

/-- Settles O4: each change of a link by the guard of its event; a port that is not lost has none to regain. -/
theorem portLinks : Obligations.PortLinks := by
  refine ⟨fun s p speed width hc hp hd hl hs hw => ?trains,
    fun s p h => congrArg Host.Outcome.next (dropLink_up h), fun s p h => exec_hotReset_up h,
    fun s p ho hl => ?lossTimeout, fun s p he hl => ?heartbeatTimeout,
    fun s f v hl hw hf h => exec_fnHeartbeatWrite_held v hl hw hf h⟩
  case trains =>
    exact (exec_linkUp_trains hp hd hs hw).trans (congrArg _ (regainPort_trained (canonical_regs hc) hl _ _))
  case lossTimeout => exact congrArg _ ((if_pos ho).trans (losePort_held hl 1))
  case heartbeatTimeout => exact congrArg _ ((if_pos (flag_of_get_one he)).trans (losePort_held hl 2))

/-! ### Requests for a function reset (R55, R57, R58) -/

section
variable {s : State}

theorem exec_functionLevelReset_virtual {f : Fin 32} (hl : s.onLink f.val = true) (hf : f.val % 16 ≠ 0) :
    exec (.functionLevelReset f) s = .next (s.requestReset f.val 1 [] none) := by
  change execFunctionLevelReset f s = _
  simp [execFunctionLevelReset, hl, hf]

theorem exec_functionLevelReset_physical {f : Fin 32} (hl : s.onLink f.val = true) (hf : f.val % 16 = 0) :
    exec (.functionLevelReset f) s = .next (s.resetPort (portOf f.val) 1) := by
  change execFunctionLevelReset f s = _
  simp [execFunctionLevelReset, hl, hf]

/-- The virtual functions that leave the link when VF Enable or NumVFs of port state `x` change (R39). -/
def leavingVfs (x : PortState) (enable : Bool) (numVfs : Nat) : List Nat :=
  (List.range 16).filter fun i => decide (0 < i) && x.vfEnable && decide (i ≤ x.numVfs) && !(enable && decide (i ≤ numVfs))

theorem leavingVfs_enabling {x : PortState} (h : x.vfEnable = false) (numVfs : Nat) : leavingVfs x true numVfs = [] := by
  simp [leavingVfs, h]

theorem leavingVfs_disabling {x : PortState} (h : x.vfEnable = true) (numVfs : Nat) :
    leavingVfs x false numVfs = (List.range 16).filter fun i => decide (0 < i ∧ i ≤ x.numVfs) := by
  simp [leavingVfs, h]

theorem exec_vfEnableChange_up {p : Fin 2} (h : s.barUp (16 * p.val) = true) (enable : Bool) (numVfs : Fin 16) :
    exec (.vfEnableChange p enable numVfs) s = .next
      ((s.modHostPort p.val fun x => { x with vfEnable := enable, numVfs := numVfs.val }).each
        (leavingVfs (s.hostPort p.val) enable numVfs.val) fun s i => s.requestReset (16 * p.val + i) 2 [] none) := by
  change execVfEnableChange p enable numVfs s = _
  simp only [execVfEnableChange, h]
  rfl

theorem requestReset_merged {f : Nat} {r : FnReset} (h : (s.fn f).reset = some r) (source : Nat) (l : List Origin)
    (d : Option Origin) : s.requestReset f source l d = s.modFn f fun x => { x with reset := some { r with
      merged := r.merged + 1, replies := r.replies ++ l, destroy := r.destroy <|> d } } := by
  unfold State.requestReset; rw [h]

theorem requestReset_first {f : Nat} (h : (s.fn f).reset = none) (source : Nat) (l : List Origin) (d : Option Origin) :
    s.requestReset f source l d = if (s.fn f).spacing then s.modFn f fun x => { x with reset := some ⟨.waiting, source, 0, l, d⟩ }
      else (s.modFn f fun x => { x with reset := some ⟨.waiting, source, 0, l, d⟩ }).decideReset f := by
  unfold State.requestReset; rw [h]

end

/-- Settles O5: a function-level reset by the kind of function, a change of VF Enable by the functions that leave the link, a
request by whether it meets a reset. -/
theorem resetRequests : Obligations.ResetRequests := by
  refine ⟨fun s f hl hf => exec_functionLevelReset_virtual hl hf, fun s f hl hf => exec_functionLevelReset_physical hl hf,
    fun s p n hb hv => ?enabling, fun s p n hb hv => ?disabling, fun s f source l d r h => requestReset_merged h source l d,
    fun s f source l d h => requestReset_first h source l d, fun s f => rfl⟩
  case enabling => rw [exec_vfEnableChange_up hb, leavingVfs_enabling hv]; rfl
  case disabling => rw [exec_vfEnableChange_up hb, leavingVfs_disabling hv]

/-! ### The course of a function reset (R50, R56 to R60) -/

section
variable {s : State} {f : Fin 32}

theorem exec_drainEnd_draining {r : FnReset} (h : (s.fn f.val).reset = some r) (hp : r.phase = .draining) :
    exec (.drainEnd f) s = .next (s.squash f.val) := by
  change execDrainEnd f s = _
  simp [execDrainEnd, h, hp]

/-- The last steps of a reset `r` of function `f`, before a TENANT_DESTROY that asked for it (R59). -/
def State.endReset (s : State) (f : Nat) (r : FnReset) : State :=
  (((((s.ringsWarm f).modFn f fun x => { x with reset := none, spacing := true }).putStatus (fnStatus_RST f) f 0).raise 134
    (f * 256 + min r.merged 255)).each r.replies fun s o => s.settle o (done 0 0))

theorem exec_funcResetComplete_running {r : FnReset} (h : (s.fn f.val).reset = some r) (hp : r.phase = .running) :
    exec (.funcResetComplete f) s = .next
      (r.destroy.elim (s.endReset f.val r) fun o => (s.endReset f.val r).giveBack f.val (some o)) := by
  change execFuncResetComplete f s = _
  unfold execFuncResetComplete
  simp only [h, hp]
  cases r.destroy <;> rfl

theorem clearDone_asked {base size : Nat} {o : Origin} {f : Nat} (h : (s.fn f).clearing = some (base, size, some o))
    (hs : size ≠ 0) : s.clearDone f =
      (((((s.zeroMem (dramBase + base * mib2) (dramBase + (base + size) * mib2)).setOwner base size 1).cold
        (worldFnRange f)).modFn f fun x => { x with clearing := none }).settle o (done 0 0)) := by
  have hs' : (size != 0) = true := by simpa using hs
  unfold State.clearDone
  simp only [h, hs', State.when, if_true]

end

/-- Settles O7: each end of a phase by the reset, or the clear, that it finds under way. -/
theorem resetCourse : Obligations.ResetCourse := by
  refine ⟨fun s f r h hp => exec_drainEnd_draining h hp, fun s f r h hp hd => ?kept, fun s f r o h hp hd => ?destroyed,
    fun s f base size o h hs => congrArg _ (clearDone_asked h hs), fun s f => rfl⟩
  case kept => rw [exec_funcResetComplete_running h hp, hd]; rfl
  case destroyed => rw [exec_funcResetComplete_running h hp, hd]; rfl

/-! ### The tenant opcodes (R46 to R51, R62, R65) -/

/-- A packet of an opcode that is not logged and whose effect gives no reply: it leaves neither reply nor record. -/
theorem packet_silent {sp : OpSpec} {p : Packet} {s u : State} (h : passes sp p s) (hm : sp.member = .immediate)
    (hl : sp.log = .none) (hr : sp.run (readBy p s) (entryOrigin p sp s) = (u, .silent)) : packetStep sp p s = .next u := by
  have hlog : (entryOrigin p sp s).logged = false := by simp [entryOrigin, hl]
  unfold packetStep
  rw [packet_passes h hm (by simp [hl]), hr]
  simp [hlog]

theorem when_bne_zero (s : State) (n : Nat) (g : State → State) : s.when (n != 0) g = if n = 0 then s else g s := by
  by_cases h : n = 0 <;> simp [State.when, h]

theorem when_beq (s : State) (n k : Nat) (g : State → State) : s.when (n == k) g = if n = k then g s else s := by
  by_cases h : n = k <;> simp [State.when, h]

/-- A FUNC_RESET is answered at the end of the reset, but for that of the function's own, which drops its replies (R62). -/
theorem exec_funcReset_passes {p : Packet} {s : State} (h : passes specFuncReset p s) :
    exec (.funcReset p) s = .next (if (entryOrigin p specFuncReset s).ring = (entryOrigin p specFuncReset s).tgt then
      (readBy p s).requestReset (entryOrigin p specFuncReset s).tgt 4 [] none
      else ((readBy p s).requestReset (entryOrigin p specFuncReset s).tgt 4 [entryOrigin p specFuncReset s] none).defer
        (entryOrigin p specFuncReset s)) := by
  change packetStep specFuncReset p s = _
  by_cases hown : (entryOrigin p specFuncReset s).ring = (entryOrigin p specFuncReset s).tgt
  · rw [if_pos hown]
    exact packet_silent h rfl rfl (if_pos hown)
  · rw [if_neg hown]
    exact packet_later h rfl nofun (if_neg hown)

theorem homeRun_returns {s : State} {o : Origin} (h : s.returns o = true) :
    homeRun s o = (s.modFn o.tgt fun x => { x with returning := true }, .answer (done 0 0)) := by
  simp only [homeRun, h, if_true]

theorem homeRun_names {s : State} {o : Origin} (h : s.returns o = false) : homeRun s o =
    (let u := ((s.clearHome (s.homeRow o.tgt)).putStatus (fnStatus_ACTING o.tgt) o.tgt 0).modFn o.tgt fun x =>
      { x with returning := false }
     if o.u8 0 = 1 then (u.put (hpHome_ALT (portOf o.tgt) (o.tgt % 16)) (o.u16 2)).put
        (hpHome_DUAL (portOf o.tgt) (o.tgt % 16)) 1 else u, .answer (done 0 0)) := by
  simp only [homeRun, h, Bool.false_eq_true, if_false, when_beq]

/-- Settles O8: each packet passes its checks, so its effect decides; a reset is answered later, the others at once. -/
theorem tenantPackets : Obligations.TenantPackets := by
  refine ⟨fun s p h => ?create, fun s p h => ?destroy, fun s p h => ?share, fun s p h => exec_funcReset_passes h,
    fun s p h => ?query, fun s p h => ?names, fun s p h => ?returns⟩
  case create =>
    refine (packet_answer h rfl nofun rfl).trans ?_
    rw [when_bne_zero]
  case destroy => exact packet_later h rfl nofun rfl
  case share => exact packet_answer h rfl nofun rfl
  case query => exact packet_answer h rfl nofun rfl
  case names =>
    intro o f hr
    exact packet_answer h rfl nofun (homeRun_names hr)
  case returns =>
    intro o hr
    exact packet_answer h rfl nofun (homeRun_returns hr)

end Sys2Proof.Machine

/-! Proofs of the obligations of 03_orbel_packets.md: system packets and modes, caravans, the check order, replies and records. -/
namespace Sys2Proof.Machine

/-! ### Replies and packet records (R75, R83, R434, R438, R439) -/

section
variable {s : State} {o : Origin} {a : Answer} {time : W64}

/-- A packet that is logged and has taken effect is recorded first, and its reply waits for the record (R438). -/
theorem concludeAt_logged (hl : o.logged = true) (ha : a.status = stDone) :
    s.concludeAt o a time = s.recordPacket o a.status (some ⟨o, a, time⟩) := if_pos (by simp [hl, ha])

theorem concludeAt_unlogged (h : o.logged = false ∨ a.status ≠ stDone) : s.concludeAt o a time = s.answer o a time :=
  if_neg (by rcases h with h | h <;> simp [h])

/-- A packet read before its ring was reset gets no reply (R59, R107). -/
theorem answer_old_epoch (h : s.epoch o.ring ≠ o.epoch) : s.answer o a time = s := if_pos (by simpa using h)

theorem answer_in_epoch (h : s.epoch o.ring = o.epoch) : s.answer o a time =
    (s.writeReply o.ring o.seq a time).when (decide (o.ring < 32) && o.msix) fun t => t.signalFixed o.ring 0 :=
  if_neg (by simpa using h)

/-- A record that the log takes ends the scope of its ring (R439). -/
theorem recordPacket_taken {status : Nat} {reply : Option DueReply}
    (h : (!s.logRefuses 1 || (o.reserve && decide (s.logUsed < logSlots))) = true) :
    s.recordPacket o status reply = State.endScope
      { s with peat := { s.peat with queue := queueRecord s.peat.queue (s.packetRecord o status reply) } } o.ring := by
  have hlog : s.log (s.packetRecord o status reply) =
      ({ s with peat := { s.peat with queue := queueRecord s.peat.queue (s.packetRecord o status reply) } }, none) := if_pos h
  unfold State.recordPacket
  rw [hlog]

end

/-- Settles O59: each operation by the guard that decides it. -/
theorem repliesAndRecords : Obligations.RepliesAndRecords := by
  refine ⟨fun s o a time => ⟨concludeAt_logged, concludeAt_unlogged, rfl, rfl, rfl⟩,
    fun s o a time => ⟨answer_old_epoch, fun he hm => ?silent, fun he hr hm => ?signals⟩,
    fun s r seq a time => ⟨fun hr => if_pos hr, fun hr => if_neg (Nat.not_lt.mpr hr)⟩,
    fun s o status reply => ⟨fun h => ?room, fun h hr hu => ?reserve⟩, fun s o => ⟨fun h => ?unlogged, fun h => ?logged⟩⟩
  case silent =>
    rw [answer_in_epoch he]
    exact if_neg (by rcases hm with hm | hm <;> simp [hm])
  case signals =>
    rw [answer_in_epoch he]
    exact if_pos (by simp [hr, hm])
  case room => exact recordPacket_taken (by simp [h])
  case reserve => exact recordPacket_taken (by simp [hr, hu])
  case unlogged => exact if_neg (by simp [h])
  case logged => exact if_pos h

/-! ### System packets, modes and the internal rings (R77, R81, R82, R89, R107, R401, R402, R476, R477) -/

section
variable {s : State} {o : Origin}

theorem modeRun_dormant (h : o.u8 0 = 0) : modeRun s o = (s.enterDormant, .answer (done 0 0)) := if_pos h

/-- A request for Service in Degraded clears FORCED (R479). -/
theorem modeRun_leavesDegraded (h : o.u8 0 = 3) (hm : s.get sysMode_MODE = 4) : modeRun s o =
    ((s.put sysMode_FORCED 0).modPower fun p => { p with pending := some ⟨3, some o, false⟩ }, .later) := by
  unfold modeRun
  dsimp only
  rw [if_neg (by omega), if_pos ⟨hm, h⟩, h]

theorem modeRun_begins (h0 : o.u8 0 ≠ 0) (h7 : o.u8 0 ≠ 7) (hm : s.get sysMode_MODE ≠ 4) :
    modeRun s o = (s.beginMode (o.u8 0) (some o), .later) := by
  have h7' : ¬ (o.u8 0 == modeRecovery) = true := by simpa [modeRecovery] using h7
  unfold modeRun
  dsimp only
  rw [if_neg h0, if_neg fun hd => hm hd.1, State.when, if_neg h7']

/-- The check of R401 finds no page that breaks the rule: the watermark regime is in force with W. -/
theorem exec_regimeSwitchEnd_watermark (hs : s.world.switching = some true) (hb : s.firstBadPage = none) :
    exec .regimeSwitchEnd s = .next
      (((({ s with world := { s.world with wInForce := s.get worldWmark_W } } : State).switchDone).put worldStatus_REGIME 1).raise
        424 1) := by
  change execRegimeSwitchEnd s = _
  simp only [execRegimeSwitchEnd, hs, hb]

/-- The check of R401 finds such a page: the request that asked for the switch is refused. -/
theorem exec_regimeSwitchEnd_refused {page code : Nat} (hs : s.world.switching = some true)
    (hb : s.firstBadPage = some (page, code)) (ho : s.power.pending.bind (·.origin) = some o) :
    exec .regimeSwitchEnd s = .next ((s.switchDone.modPower fun p => { p with pending := none }).settle o
      ⟨stMode, 0x4500, BitVec.ofNat 64 page, BitVec.ofNat 64 code⟩) := by
  change execRegimeSwitchEnd s = _
  simp only [execRegimeSwitchEnd, hs, hb, ho]

/-- The table write of R402 ends. -/
theorem exec_regimeSwitchEnd_table (hs : s.world.switching = some false) :
    exec .regimeSwitchEnd s = .next (((s.writeOwnerTable.switchDone).put worldStatus_REGIME 0).raise 424 0) := by
  change execRegimeSwitchEnd s = _
  simp only [execRegimeSwitchEnd, hs]

theorem ringClamp_inside {n : Nat} (hlo : 12 ≤ n) (hhi : n ≤ 20) : ringClamp n = n := by unfold ringClamp; omega

/-- The sealed command ring is enabled where its range lies in sealed SRAM (R77). -/
theorem setRingSize_enables {v : Nat} (hen : v / 2 ^ 31 = 1) (hlo : 12 ≤ v % 32) (hhi : v % 32 ≤ 20)
    (hp : inSealedSram (s.get (pktIrCmdBase_ADDR 0) % 2 ^ 36 * 4096) (2 ^ (v % 32)) = true) :
    s.setRingSize 0 false v = (s.put (pktIrCmdSize_LOG2 0) (v % 32)).put (pktIrCmdSize_EN 0) 1 := by
  have hplaced : s.ringPlaced 0 (s.get (pktIrCmdBase_ADDR 0) % 2 ^ 36 * 4096) (v % 32) = true := hp
  unfold State.setRingSize
  simp only [Bool.false_eq_true, if_false, ringClamp_inside hlo hhi, hplaced, hen]
  rfl

variable {who : Requester} (hm : s.mayWrite who = true)
include hm

theorem exec_internalRingEnableWrite_sealed (hw : worldOf who = .sealed) (reply : Bool) (v : W32)
    (hb : s.writeBarred who (if reply then pktIrRplSize 0 else pktIrCmdSize 0).addr = false) :
    exec (.internalRingEnableWrite who .sealed reply v) s = .next ((s.setRingSize 0 reply v.toNat).noteWrite who
      (if reply then pktIrRplSize 0 else pktIrCmdSize 0).addr v.toNat
      (s.rd (if reply then pktIrRplSize 0 else pktIrCmdSize 0)).toNat) := by
  change execInternalRingEnableWrite who .sealed reply v s = _
  simp only [execInternalRingEnableWrite, if_true, hm, hw, hb, Bool.not_true, Bool.false_eq_true, if_false, reduceCtorEq, decide_false,
    Bool.false_and]

/-- The open world does not write the group of the sealed ring (R107). -/
theorem exec_internalRingEnableWrite_opened (hw : worldOf who = .opened) (reply : Bool) (v : W32) :
    exec (.internalRingEnableWrite who .sealed reply v) s = .next (s.refuseWrite who
      (if reply then pktIrRplSize 0 else pktIrCmdSize 0).addr v.toNat
      (s.rd (if reply then pktIrRplSize 0 else pktIrCmdSize 0)).toNat stWorld) := by
  change execInternalRingEnableWrite who .sealed reply v s = _
  simp only [execInternalRingEnableWrite, if_true, hm, hw, Bool.not_true, Bool.false_eq_true, if_false, decide_true, beq_self_eq_true,
    Bool.and_self]

end

/-- Settles O9: each packet passes its checks, so its effect decides, that of MODE_REQUEST by the mode asked for; a switch ends by
what its check finds; the write of a ring's size by its world. -/
theorem systemPacketsAndModes : Obligations.SystemPacketsAndModes := by
  refine ⟨fun s p h => ?query, fun s p h => ?nop, fun s p h => ?seqSync, fun s p h => ?marginSet, fun s p h h0 => ?dormant,
    fun s p h h3 hm => ?leavesDegraded, fun s p h h0 h7 hm => ?begins, fun s hs hb => exec_regimeSwitchEnd_watermark hs hb,
    fun s page code o hs hb ho => exec_regimeSwitchEnd_refused hs hb ho, fun s hs => exec_regimeSwitchEnd_table hs,
    fun s who v hm hw hb hen hlo hhi hp => ?enables, fun s who reply v hm hw => exec_internalRingEnableWrite_opened hm hw reply v⟩
  case query =>
    rw [Nat.add_comm, Nat.mul_comm]
    exact packet_answer h rfl nofun rfl
  case nop => exact packet_answer h rfl nofun rfl
  case seqSync => exact packet_answer h rfl nofun rfl
  case marginSet => exact packet_answer h rfl nofun rfl
  case dormant => exact packet_answer h rfl nofun (modeRun_dormant h0)
  case leavesDegraded => exact packet_later h rfl nofun (modeRun_leavesDegraded h3 hm)
  case begins => exact packet_later h rfl nofun (modeRun_begins h0 h7 hm)
  case enables =>
    rw [exec_internalRingEnableWrite_sealed hm hw false v hb, setRingSize_enables hen hlo hhi hp]
    rfl

/-! ### Packets outside caravans, and caravan members (R92 to R97, R103, R106) -/

section
variable {s : State} {sp : OpSpec} {p : Packet} {o : Origin} {c : Caravan}

/-- PKT_STATUS counts the caravans that wait for their arm instant. -/
theorem get_setCaravans_COMMITTED (h : swf s.regs = true) (l : List Caravan) : (s.setCaravans l).get pktStatus_COMMITTED =
    (l.filter fun c => c.state == .committed || c.state == .ready).length % 2 ^ pktStatus_COMMITTED.width :=
  get_put (swf_put h _ _) (by decide) _

/-- A caravan that has missed no frame and finds room is committed (R94, R97). -/
theorem commitCaravan_in_time {stamp : Stamp} {frame : Nat} (hf : c.named.getD (stamp.frame + 1) = frame)
    (h8 : (s.waiting.filter fun x => x.ring == c.ring).length < 8) (h64 : s.waiting.length < 64)
    (hlo : stamp.frame < frame) (hhi : frame ≤ stamp.frame + 65536) (hnow : s.now.frame < frame) :
    s.commitCaravan c o stamp = s.setCaravans (s.pkt.caravans ++
      [{ c with state := .committed, commit := stamp, last := some o, frame := frame, slides := 0 }]) := by
  have hmissed : s.now.frame + 1 - frame = 0 := by omega
  unfold State.waiting at h8 h64
  simp only [State.commitCaravan, hf, hmissed]
  rw [if_neg (by omega), if_neg (by omega), if_neg (by omega), if_neg (by omega)]
  rfl

/-- An accepted caravan member is carried by its caravan. -/
theorem packetStep_carried {b : Bool} (h : accepted sp p s b) (hm : sp.member = .only) : packetStep sp p s =
    .next (State.carryMember ((reading p s).expect p.ring.val (p.seq.toNat + 1)) sp p (entryOrigin p sp s)) := by
  unfold packetStep
  rw [packet_accepted h, hm, if_neg (by decide)]

theorem accepted_member (h : accepted sp p s true) : p.flags.toNat % 2 = 1 := by
  obtain ⟨-, -, -, -, -, -, -, -, -, -, hflag, -⟩ := h
  simpa using hflag

/-- A caravan with one more member (R92, R103, R106). -/
def Caravan.joined (c : Caravan) (o : Origin) (frame : Nat) : Caravan :=
  ({ c with members := c.members ++ [o], count := c.count + 1, lastFrame := frame } : Caravan).heed o

/-- The first member of a new ID opens its caravan (R92). -/
theorem carryMember_opens (hm : sp.member = .only) (hflag : p.flags.toNat % 2 = 1) (hlast : p.flags.toNat / 2 % 2 = 0)
    (hc : sp.check (s.consume p) o = none) (hnew : ∀ c ∈ (s.consume p).pkt.caravans, c.ring = o.ring → c.id ≠ o.caravan)
    (h4 : ((s.consume p).pkt.caravans.filter fun c => c.ring == o.ring && c.isOpen o.ring c.id).length < 4) :
    State.carryMember s sp p o = ((s.consume p).setCaravans ((s.consume p).pkt.caravans ++
      [({ Caravan.fresh (s.consume p) o.ring o.caravan .opened with members := [o], count := 1 } : Caravan).heed o])).answer o
        (refusal stAccepted 0) s.now.word := by
  have hother : ((s.consume p).pkt.caravans.any fun c => c.ring == o.ring && c.id == o.caravan && !c.isOpen o.ring o.caravan) = false := by
    simp only [List.any_eq_false, Bool.and_eq_true, beq_iff_eq, not_and, and_imp]
    exact fun c hc hr hi => absurd hi (hnew c hc hr)
  have hopen : (s.consume p).openCaravan o.ring o.caravan = none := by
    simp only [State.openCaravan, List.find?_eq_none, Bool.and_eq_true, beq_iff_eq, not_and, and_imp]
    exact fun c hc hr hi => absurd hi (hnew c hc hr)
  unfold State.carryMember
  simp only [hflag, hlast, hother, hopen, hm, hc, Nat.not_le.mpr h4, if_true, if_false, Bool.not_true, Bool.false_eq_true,
    beq_self_eq_true]
  rfl

/-- A further member joins its open caravan, which the last one commits (R92, R94). -/
theorem carryMember_joins (hm : sp.member = .only) (hflag : p.flags.toNat % 2 = 1) (hc : sp.check (s.consume p) o = none)
    (hopen : (s.consume p).openCaravan o.ring o.caravan = some c) (hst : c.state = .opened) (h64 : c.count < 64)
    (hall : ∀ x ∈ (s.consume p).pkt.caravans, x.ring = o.ring → x.id = o.caravan → x.isOpen o.ring o.caravan = true) :
    let left (f : Caravan → List Caravan) :=
      (s.consume p).setCaravans (replaceFirst (s.consume p).pkt.caravans (·.isOpen o.ring o.caravan) f)
    State.carryMember s sp p o = if p.flags.toNat / 2 % 2 = 1 then
        (left fun _ => []).commitCaravan (c.joined o s.now.frame) o (s.coveredAt p)
      else (left fun _ => [c.joined o s.now.frame]).answer o (refusal stAccepted 0) s.now.word := by
  have hother : ((s.consume p).pkt.caravans.any fun c => c.ring == o.ring && c.id == o.caravan && !c.isOpen o.ring o.caravan) = false := by
    simp only [List.any_eq_false, Bool.and_eq_true, beq_iff_eq, Bool.not_eq_true', not_and, Bool.not_eq_false, and_imp]
    exact hall
  have hstub : (c.state == .stub) = false := by rw [hst]; rfl
  have hpoisoned : (c.state == .poisoned) = false := by rw [hst]; rfl
  unfold State.carryMember
  simp only [hflag, hother, hopen, hm, hc, hstub, hpoisoned, Nat.not_le.mpr h64, if_true, if_false, Bool.not_true,
    Bool.false_eq_true, beq_self_eq_true, beq_iff_eq]
  rfl

end

/-- Settles O10: a packet alone by what carries it; a member by whether its caravan is open and whether it is the last. -/
theorem lonePacketsAndMembers : Obligations.LonePacketsAndMembers := by
  refine ⟨fun s p sp hsp hm h => ⟨Host.Outcome.next.inj (packet_lone h hm), rfl, rfl, rfl, fun hc => ?committed⟩,
    fun s p => ?opens, fun s p c => ?joins, fun s p c => ?commits⟩
  case committed =>
    have hcar : (readBy p s).pkt.caravans = s.pkt.caravans := rfl
    have hlone : ((loneCaravan sp p s).state == .committed) = true := rfl
    unfold carried
    rw [get_setCaravans_COMMITTED (swf_readBy (canonical_regs hc) p), hcar]
    simp [List.filter_append, hlone]
  case opens =>
    intro u o h hlast hc hnew h4
    exact (packetStep_carried h rfl).trans (congrArg _ (carryMember_opens rfl (accepted_member h) hlast hc hnew h4))
  case joins =>
    intro u o h hlast hc hopen hst h64 hall
    refine (packetStep_carried h rfl).trans (congrArg _ ?_)
    exact (carryMember_joins rfl (accepted_member h) hc hopen hst h64 hall).trans (if_neg (by omega))
  case commits =>
    intro u o v frame h hlast hopen hst h64 hall h8 h64' hlo hhi hnow
    refine (packetStep_carried h rfl).trans (congrArg _ ?_)
    refine (carryMember_joins rfl (accepted_member h) rfl hopen hst h64 hall).trans ((if_pos hlast).trans ?_)
    exact commitCaravan_in_time rfl h8 h64' hlo hhi hnow

/-! ### The course of caravans (R96, R98, R101, R106) -/

section
variable {s : State} {o : Origin} {c : Caravan}

/-- A refusal that is neither LATE nor ABORTED raises no event. -/
theorem refuseCaravan_plain {a : Answer} (hl : a.status ≠ stLate) (ha : a.status ≠ stAborted) :
    s.refuseCaravan c a = c.last.elim (s.bump pktRefusedCnt_COUNT) fun o =>
      (s.bump pktRefusedCnt_COUNT).answer o a s.now.word := by
  unfold State.refuseCaravan
  dsimp only
  rw [if_neg hl, if_neg ha]
  cases c.last <;> rfl

section
variable {specOf : SpecTable} {ring : Nat} {id : W32}
  (hfind : (s.pkt.caravans.find? fun c => c.ring == ring && c.id == id && c.state == .committed) = some c)
include hfind

theorem validated_ready
    (hv : validateFrom specOf c.members 0 { s.atFrame specOf c.frame with now := ⟨c.frame, 0, 0⟩ } = none) :
    s.validated specOf ring id = s.setCaravans (replaceFirst s.pkt.caravans
      (fun c => c.ring == ring && c.id == id && c.state == .committed) fun c => [{ c with state := .ready }]) := by
  simp only [State.validated, hfind, hv]

theorem validated_refused {f : Nat × Nat × Nat}
    (hv : validateFrom specOf c.members 0 { s.atFrame specOf c.frame with now := ⟨c.frame, 0, 0⟩ } = some f)
    (hp : f.1 ≠ stPinTaken) : s.validated specOf ring id = (s.setCaravans (replaceFirst s.pkt.caravans
      (fun c => c.ring == ring && c.id == id && c.state == .committed) fun _ => [])).refuseCaravan c
        (failAnswer f c.count c.id) := by
  simp only [State.validated, hfind, hv, hp, if_false]

end

/-- An open caravan that got no member for OPEN_LIMIT frames leaves a stub (R96). -/
theorem expireCaravan_due {ring : Nat} {id : W32} (hmem : c ∈ s.pkt.caravans) (hr : c.ring = ring) (hid : c.id = id)
    (hst : c.state = .opened ∨ c.state = .poisoned) (hdue : c.lastFrame + s.get pktCtrl_OPEN_LIMIT ≤ s.now.frame) :
    s.expireCaravan ring id = (s.setCaravans (replaceFirst s.pkt.caravans (fun c =>
        c.ring == ring && c.id == id && (c.state == .opened || c.state == .poisoned)
          && decide (c.lastFrame + s.get pktCtrl_OPEN_LIMIT ≤ s.now.frame))
      fun c => [{ c with state := .stub, members := [] }])).raise 147 ring := by
  have hfound : (s.pkt.caravans.find? fun c => c.ring == ring && c.id == id && (c.state == .opened || c.state == .poisoned)
      && decide (c.lastFrame + s.get pktCtrl_OPEN_LIMIT ≤ s.now.frame)).isSome = true :=
    List.find?_isSome.mpr ⟨c, hmem, by simpa [hr, hid, hdue] using hst⟩
  obtain ⟨d, hd⟩ := Option.isSome_iff_exists.mp hfound
  simp only [State.expireCaravan, hd]

variable (hfind : (s.pkt.caravans.find? fun c =>
  c.ring == o.ring && c.id == BitVec.ofNat 32 (o.u32 0) && BitVec.ofNat 32 (o.u32 0) != 0) = some c)
include hfind

theorem abortRun_open (hst : c.state = .opened ∨ c.state = .poisoned ∨ c.state = .stub) : abortRun s o =
    (s.setCaravans (s.pkt.caravans.filter fun x => !(x.ring == o.ring && x.id == BitVec.ofNat 32 (o.u32 0))),
      .answer (done 0 0)) := by
  unfold abortRun
  rcases hst with hst | hst | hst <;> simp only [hfind, hst]

/-- A committed caravan that is withdrawn answers its last member with ABORTED (R106). -/
theorem abortRun_committed (hst : c.state = .committed ∨ c.state = .ready) : abortRun s o =
    ((s.setCaravans (s.pkt.caravans.filter fun x => !(x.ring == o.ring && x.id == BitVec.ofNat 32 (o.u32 0)))).refuseCaravan c
      (refusal stAborted 1), .answer (done 0 0)) := by
  unfold abortRun
  rcases hst with hst | hst <;> simp only [hfind, hst]

/-- A caravan that is committed, ready or landed shows the frame it targets (R106). -/
theorem carQueryRun_framed (hst : c.state = .committed ∨ c.state = .ready ∨ c.state = .landed) : carQueryRun s o =
    (s, .answer (done (carCode c.state + 256 * (c.slides % 16) + 0x10000 * (c.count % 256)) (c.frame % 2 ^ 40))) := by
  have hopen : (c.state == .opened || c.state == .poisoned || c.state == .stub) = false := by
    rcases hst with hst | hst | hst <;> rw [hst] <;> rfl
  unfold carQueryRun
  simp only [hfind, hopen, Bool.false_eq_true, if_false]

end

/-- Settles O11: validation by what it finds, an abort and a query by the state of the caravan they name. -/
theorem caravanCourse : Obligations.CaravanCourse := by
  refine ⟨fun s ring id c hfind hv => congrArg _ (validated_ready hfind hv),
    fun s ring id c status detail index hfind hv hp hl ha => ?refused,
    fun s ring id c hmem hr hid hst hdue => congrArg _ (expireCaravan_due hmem hr hid hst hdue),
    fun s p c h => ?withdrawn, fun s p c h => ?aborted, fun s p c h => ?query⟩
  case refused =>
    refine congrArg Host.Outcome.next (((validated_refused hfind hv hp).trans (refuseCaravan_plain hl ha)).trans ?_)
    cases c.last <;> rfl
  case withdrawn =>
    intro u o id hfind hst
    exact packet_answer h rfl nofun (abortRun_open hfind hst)
  case aborted =>
    intro u o id hfind hst
    exact packet_answer h rfl nofun (abortRun_committed hfind hst)
  case query =>
    intro u o id hfind hst
    refine (packet_answer h rfl nofun (carQueryRun_framed hfind hst)).trans ?_
    rcases hst with hst | hst | hst <;> rw [hst] <;> rfl

/-! ### Entries that the check order refuses (R73, R74, R76, R79 to R82)

The check order in four parts, each from where the one before it lets an entry pass: checks 1 and 2 of its frame, 3 to 5 of its
header, 6 of its number, and from 7 on those of its opcode. -/

/-- Checks 7 to 12 of an entry, and what follows them. -/
def State.opcodeChecks (t : State) (sp : Option OpSpec) (p : Packet) (o : Origin) : State :=
  let r := p.ring.val
  let isMember := p.flags.toNat % 2 == 1
  let last := p.flags.toNat / 2 % 2 == 1
  let read := (t.consume p).expect r (p.seq.toNat + 1)
  match sp with
  | none => if isMember then read.failMember o last stBadOpcode 0 else read.answer o (refusal stBadOpcode 0) t.now.word
  | some c =>
    match t.checks c o isMember with
    | some (st, d) =>
      let u := read.when (st == stBadLength) fun u => u.raise 140 (r * 256 + 9)
      if isMember then u.failMember o last st d else u.answer o (refusal st d) u.now.word
    | none =>
      if c.member == MemberKind.immediate then ((t.expect r (p.seq.toNat + 1)).consume p).interpret c o
      else State.carryMember (t.expect r (p.seq.toNat + 1)) c p o

/-- Check 6 of an entry, the sequence number, and what follows it. -/
def State.sequenceCheck (t : State) (sp : Option OpSpec) (p : Packet) (o : Origin) (syncs : Bool) : State :=
  let r := p.ring.val
  let expected := t.get (pktSeq_EXPECT r)
  if t.seqSet r && !syncs && decide (p.seq.toNat ≠ expected) then
    let u := (t.raise 141 r).consume p
    let u := u.when (p.flags.toNat % 2 == 1) fun u => u.poison r p.caravan stSeqGap (expected % 0x10000)
    u.answer o (refusal stSeqGap (expected % 0x10000)) u.now.word
  else t.opcodeChecks sp p o

/-- Checks 3 to 5 of an entry, those of its header, and what follows them. -/
def State.headerChecks (t : State) (sp : Option OpSpec) (p : Packet) (o : Origin) (syncs : Bool) : State :=
  let r := p.ring.val
  if p.source.toNat ≠ ringSource r then
    ((t.when (r < 32) fun t => t.bump (hpSpoofCnt_COUNT (r / 16))).raise 135 r).headerRefusal p o stSpoof r
  else if p.version ≠ 0x01 then t.headerRefusal p o stBadOpcode 0xFFFE
  else match headerFault p with
    | some d => (t.raise 140 (r * 256 + 5)).headerRefusal p o stBadLength d
    | none => t.sequenceCheck sp p o syncs

/-- Checks 1 and 2 of an entry, those of its frame, and what follows them. -/
def State.frameChecks (t : State) (sp : Option OpSpec) (opcode : Nat) (p : Packet) (o : Origin) (syncs : Bool) : State :=
  let r := p.ring.val
  if p.length.toNat % 8 ≠ 0 ∨ p.length.toNat > 4064 ∨ entrySize p + 8 > t.ringSize r then t.framingFault p stBadLength 0xFFFF 1
  else if t.unread r < entrySize p then t
  else if p.trailer.toNat ≠ entryCrc p opcode then t.framingFault p stBadCheck (min (t.unread r / 8) 0xFFFF) 2
  else t.headerChecks sp p o syncs

theorem readEntry_stages (s : State) (sp : Option OpSpec) (opcode : Nat) (p : Packet) (syncs : Bool) :
    s.readEntry State.carryMember sp opcode p syncs =
      if !s.served p.ring.val || decide (s.unread p.ring.val < 32) then s
      else if !s.replyRoom p.ring.val then s.stopRing p.ring.val
      else (reading p s).frameChecks sp opcode p
        (entryOrigin p (sp.getD { opcode := opcode, lens := len 0, modes := [], issuer := .any }) s) syncs := by
  rfl

section
variable {t : State} {sp : Option OpSpec} {p : Packet} {o : Origin}

@[simp] theorem State.consume_now (p : Packet) : (t.consume p).now = t.now := rfl

theorem opcodeChecks_undefined (h : p.flags.toNat % 2 = 0) : t.opcodeChecks none p o =
    ((t.consume p).expect p.ring.val (p.seq.toNat + 1)).answer o (refusal stBadOpcode 0) t.now.word :=
  if_neg (by simp [h])

/-- The first of checks 8 to 12 that fails decides the reply; a wrong length raises 140 (R79). -/
theorem opcodeChecks_refused {c : OpSpec} {st d : Nat} (h : p.flags.toNat % 2 = 0) (hc : t.checks c o false = some (st, d)) :
    t.opcodeChecks (some c) p o = (((t.consume p).expect p.ring.val (p.seq.toNat + 1)).when (st == stBadLength) fun u =>
      u.raise 140 (p.ring.val * 256 + 9)).answer o (refusal st d) t.now.word := by
  have hmember : (p.flags.toNat % 2 == 1) = false := by simp [h]
  have hnow (u : State) : (u.when (st == stBadLength) fun u => u.raise 140 (p.ring.val * 256 + 9)).now = u.now := by
    unfold State.when; split <;> simp
  simp only [State.opcodeChecks, hmember, hc, Bool.false_eq_true, if_false, hnow]
  rfl

theorem sequenceCheck_gap {syncs : Bool} (h : p.flags.toNat % 2 = 0) (hs : t.seqSet p.ring.val = true) (hn : syncs = false)
    (hq : p.seq.toNat ≠ t.get (pktSeq_EXPECT p.ring.val)) : t.sequenceCheck sp p o syncs =
      ((t.raise 141 p.ring.val).consume p).answer o (refusal stSeqGap (t.get (pktSeq_EXPECT p.ring.val) % 0x10000)) t.now.word := by
  unfold State.sequenceCheck
  simp [hs, hn, hq, h, State.when]

theorem sequenceCheck_met {syncs : Bool}
    (hq : t.seqSet p.ring.val = false ∨ syncs = true ∨ p.seq.toNat = t.get (pktSeq_EXPECT p.ring.val)) :
    t.sequenceCheck sp p o syncs = t.opcodeChecks sp p o :=
  if_neg (by rcases hq with h | h | h <;> simp [h])

section
variable {syncs : Bool} (hs : p.source.toNat = ringSource p.ring.val)

theorem headerChecks_spoof (hs : p.source.toNat ≠ ringSource p.ring.val) : t.headerChecks sp p o syncs =
    ((if p.ring.val < 32 then t.bump (hpSpoofCnt_COUNT (p.ring.val / 16)) else t).raise 135 p.ring.val).headerRefusal p o stSpoof
      p.ring.val := by
  refine (if_pos hs).trans ?_
  by_cases hr : p.ring.val < 32 <;> simp [State.when, hr]

include hs

theorem headerChecks_version (hv : p.version ≠ 0x01) : t.headerChecks sp p o syncs = t.headerRefusal p o stBadOpcode 0xFFFE :=
  (if_neg (not_not.mpr hs)).trans (if_pos hv)

theorem headerChecks_fault (hv : p.version = 0x01) {d : Nat} (hd : headerFault p = some d) : t.headerChecks sp p o syncs =
    (t.raise 140 (p.ring.val * 256 + 5)).headerRefusal p o stBadLength d := by
  unfold State.headerChecks
  simp only [hs, hv, hd, ne_eq, not_true_eq_false, if_false]

theorem headerChecks_met (hv : p.version = 0x01) (hd : headerFault p = none) :
    t.headerChecks sp p o syncs = t.sequenceCheck sp p o syncs := by
  unfold State.headerChecks
  simp only [hs, hv, hd, ne_eq, not_true_eq_false, if_false]

end

section
variable {s : State} {opcode : Nat} {syncs : Bool}

theorem readEntry_waits (h : s.served p.ring.val = false ∨ s.unread p.ring.val < 32) :
    s.readEntry State.carryMember sp opcode p syncs = s := by
  rw [readEntry_stages]
  exact if_pos (by rcases h with h | h <;> simp [h])

theorem readEntry_stops (h : s.served p.ring.val = true) (hu : 32 ≤ s.unread p.ring.val) (hr : s.replyRoom p.ring.val = false) :
    s.readEntry State.carryMember sp opcode p syncs = s.stopRing p.ring.val := by
  rw [readEntry_stages, if_neg (by simpa [h] using hu)]
  exact if_pos (by simp [hr])

theorem readEntry_reads (h : s.served p.ring.val = true) (hu : 32 ≤ s.unread p.ring.val) (hr : s.replyRoom p.ring.val = true) :
    s.readEntry State.carryMember sp opcode p syncs = (reading p s).frameChecks sp opcode p
      (entryOrigin p (sp.getD { opcode := opcode, lens := len 0, modes := [], issuer := .any }) s) syncs := by
  rw [readEntry_stages, if_neg (by simpa [h] using hu)]
  exact if_neg (by simp [hr])

/-- An entry that stands whole, is read and has its trailer comes to the checks of its header. -/
theorem readEntry_framed (h : s.served p.ring.val = true) (hu : 32 ≤ s.unread p.ring.val) (hr : s.replyRoom p.ring.val = true)
    (hb : ¬ (p.length.toNat % 8 ≠ 0 ∨ 4064 < p.length.toNat ∨ s.ringSize p.ring.val < entrySize p + 8))
    (hw : entrySize p ≤ s.unread p.ring.val) (ht : p.trailer.toNat = entryCrc p opcode) :
    s.readEntry State.carryMember sp opcode p syncs = (reading p s).headerChecks sp p
      (entryOrigin p (sp.getD { opcode := opcode, lens := len 0, modes := [], issuer := .any }) s) syncs :=
  (readEntry_reads h hu hr).trans <| (if_neg hb).trans <| (if_neg (Nat.not_lt.mpr hw)).trans (if_neg (not_not.mpr ht))

end
end

/-- What is unread is discarded, and the reply takes nothing from the entry (R80). -/
def State.discardUnread (t : State) (r : Nat) (status detail : Nat) : State :=
  let t := t.put (ringHead r) (t.ringTail r)
  let t : State := { t with pkt := { t.pkt with bells := modAt t.pkt.bells r fun _ => [] } }
  t.writeReply r (BitVec.ofNat 32 (if t.seqSet r then t.get (pktSeq_EXPECT r) else 0)) (refusal status detail) t.now.word

theorem framingFault_eq (s : State) (p : Packet) (status detail step : Nat) : s.framingFault p status detail step =
    (if step = 2 then (s.bump pktFramingCnt_COUNT).raise 139 p.ring.val
      else (s.bump pktFramingCnt_COUNT).raise 140 (p.ring.val * 256 + step)).discardUnread p.ring.val status detail := rfl

/-! ### Packets that their own checks or the log refuse (R79 steps 13 and 14) -/

section
variable {sp : OpSpec} {p : Packet} {s : State} {o : Origin}

theorem packetStep_interpreted {b : Bool} (h : accepted sp p s b) (hm : sp.member = .immediate) :
    packetStep sp p s = .next ((readBy p s).interpret sp (entryOrigin p sp s)) := by
  unfold packetStep
  rw [packet_accepted h, hm, if_pos (by decide)]

theorem interpret_refused {st d : Nat} (hc : sp.check s o = some (st, d)) :
    s.interpret sp o = s.answer o (refusal st d) s.now.word := by
  simp only [State.interpret, hc]

theorem interpret_logFull (hc : sp.check s o = none) (hl : sp.log = .logged) (hf : s.logRefuses 1 = true) :
    s.interpret sp o = (s.bump peatRefused_COUNT).answer o (refusal stLogFull 0) s.now.word := by
  simp only [State.interpret, hc, hl, hf, beq_self_eq_true, Bool.and_self, if_true]

end

/-- Settles O51: the check order by its parts, each from what the ones before it let pass. -/
theorem entriesRefused : Obligations.EntriesRefused := by
  refine ⟨fun s p opcode sp => ⟨rfl, rfl⟩, fun s p sp opcode syncs => ⟨readEntry_waits, readEntry_stops, fun hs hu hr => ?reads⟩,
    fun s p status detail o => ⟨?length, ?trailer, rfl⟩, fun s p sp h hm => ⟨fun st d hc => ?refused, fun hc hl hf => ?logFull⟩⟩
  case reads =>
    refine ⟨fun hb => (readEntry_reads hs hu hr).trans (if_pos hb),
      fun hb hw => (readEntry_reads hs hu hr).trans ((if_neg hb).trans (if_pos hw)),
      fun hb hw ht => (readEntry_reads hs hu hr).trans ((if_neg hb).trans ((if_neg (Nat.not_lt.mpr hw)).trans (if_pos ht))),
      fun hb hw ht => ?_⟩
    rw [readEntry_framed hs hu hr hb hw ht]
    refine ⟨headerChecks_spoof, headerChecks_version, fun d hsrc hv => headerChecks_fault hsrc hv, fun hsrc hv hd => ?_⟩
    rw [headerChecks_met hsrc hv hd]
    refine ⟨fun hset hsync hq hf => sequenceCheck_gap hf hset hsync hq, fun hq hf => ?_⟩
    rw [sequenceCheck_met (t := reading p s) hq]
    refine ⟨fun hsp => ?undefined, fun c st d hsp hc => ?_⟩
    case undefined =>
      rw [hsp]
      exact opcodeChecks_undefined hf
    rw [hsp] at hc ⊢
    rw [opcodeChecks_refused hf hc, when_beq]
    exact ⟨fun hst => by rw [if_neg hst]; rfl, fun hst => by rw [if_pos hst]; rfl⟩
  case length => exact (framingFault_eq _ _ _ _ _).trans (by rw [if_neg (by decide)]; rfl)
  case trailer => exact (framingFault_eq _ _ _ _ _).trans (by rw [if_pos rfl]; rfl)
  case refused => exact (packetStep_interpreted h hm).trans (congrArg _ (interpret_refused hc))
  case logFull => exact (packetStep_interpreted h hm).trans (congrArg _ (interpret_logFull hc hl hf))

end Sys2Proof.Machine

/-! Proofs of the obligations of 04_heads_and_raster.md: DisplayPort links and DSI ports, port and head opcodes, the warm spare. -/
namespace Sys2Proof.Machine

/-! ### Registers and parts that the display shares -/

/-- A field reads alike in two states whose register reads alike. -/
theorem get_of_rd {s t : State} {f : RF} (h : t.rd f.reg = s.rd f.reg) : t.get f = s.get f := by
  unfold State.get; rw [h]

/-- Fields of the display and of its links lie between the EVT block and the PEAT block. -/
theorem RF.offEvents_of_between {f : RF} (hlo : 0x40201800 ≤ f.reg.addr) (hhi : f.reg.addr < 0x47000000) : f.offEvents = true := by
  have hne : Nat.beq f.reg.addr 0x47000018 = false := Bool.eq_false_iff.mpr fun he => by
    have := Nat.eq_of_beq_eq_true he
    omega
  simp only [RF.offEvents, hne, Nat.ble_eq_true_of_le hlo, Bool.or_true, Bool.not_false, Bool.and_true]

@[simp] theorem State.raise_spare (s : State) (e d : Nat) : (s.raise e d).spare = s.spare := by
  unfold State.spare; rw [State.raise_display]

/-- A change of a port that spares its SINK_READ packets leaves them waiting. -/
theorem aux_modLink (s : State) (p : Nat) {f : LinkState → LinkState} (hf : ∀ l, (f l).aux = l.aux) :
    ((s.modLink p f).link p).aux = (s.link p).aux := by
  unfold State.link State.modLink
  rw [State.modDisplay_display, List.getD_eq_getElem?_getD, List.getD_eq_getElem?_getD, modAt_get]
  cases s.display.links[p]? with
  | none => rfl
  | some l => exact hf l

/-! ### Ports that are enabled as DisplayPort (R116, R117) -/

section
variable {s : State} {p : Nat}

theorem dpEnabled_of_get (he : s.get (ymxPortCfg_EN p) = 1) (ht : s.get (ymxPortCfg_TYPE p) = 0) : s.dpEnabled p = true := by
  simp [State.dpEnabled, flag_of_get_one he, flag_of_get_zero ht]

theorem not_dpEnabled_of_get (he : s.get (ymxPortCfg_EN p) = 0) : s.dpEnabled p = false := by
  simp [State.dpEnabled, flag_of_get_zero he]

theorem portEvent_now (hw : s.power.warm = none) (e d : Nat) : s.portEvent e d = s.raise e d :=
  if_neg (by simp [hw])

theorem ymxPortCfg_ne_status (p : Nat) : (ymxPortCfg p).addr ≠ (ymxPortStatus p).addr := by
  simp only [ymxPortCfg, ymxPortStatus]; omega

end

/-- From `s` to `t` the settings of port `p` are kept. -/
structure PortKept (s t : State) (p : Nat) : Prop where
  swf_regs : swf t.regs = true
  rd_cfg : t.rd (ymxPortCfg p) = s.rd (ymxPortCfg p)

namespace PortKept

variable {s t : State} {p : Nat}

theorem refl (h : swf s.regs = true) (p : Nat) : PortKept s s p := ⟨h, rfl⟩

theorem put_status (k : PortKept s t p) (l w v : Nat) : PortKept s (t.put ⟨ymxPortStatus p, l, w⟩ v) p :=
  ⟨swf_put k.swf_regs _ v, (rd_put_ne k.swf_regs (ymxPortCfg_ne_status p) v).trans k.rd_cfg⟩

theorem modLink (k : PortKept s t p) (f : LinkState → LinkState) : PortKept s (t.modLink p f) p := ⟨k.swf_regs, k.rd_cfg⟩

theorem untrain (k : PortKept s t p) : PortKept s (t.untrain p) p := by
  unfold State.untrain
  refine modLink ?_ _
  iterate 7 refine put_status ?_ _ _ _
  exact k

theorem raise (k : PortKept s t p) (hp : p < 8) {e : Nat} (he : e < 512) (d : Nat) : PortKept s (t.raise e d) p := by
  have hcfg : RF.offEvents ⟨ymxPortCfg p, 0, 64⟩ = true :=
    RF.offEvents_of_between (by simp only [ymxPortCfg]; omega) (by simp only [ymxPortCfg]; omega)
  exact ⟨swf_raise k.swf_regs e d, (rd_raise k.swf_regs hcfg he d).trans k.rd_cfg⟩

theorem get_eq (k : PortKept s t p) {f : RF} (hf : f.reg = ymxPortCfg p) : t.get f = s.get f := get_of_rd (hf ▸ k.rd_cfg)

theorem dpEnabled_eq (k : PortKept s t p) : t.dpEnabled p = s.dpEnabled p := by
  simp only [State.dpEnabled, State.flag, k.get_eq (f := ymxPortCfg_EN p) rfl, k.get_eq (f := ymxPortCfg_TYPE p) rfl]

end PortKept

/-! ### HPD and AUX (R117, R119) -/

theorem answerAux_idle {s : State} {p : Nat} (h : (s.link p).aux = []) (detail : Nat) :
    s.answerAux p detail = s.modLink p fun l => { l with aux := [] } := by
  unfold State.answerAux; rw [h]; rfl

/-- A port whose sink has gone, with no SINK_READ waiting: HPD is low and the lanes idle. -/
def State.unplugged (s : State) (p : Nat) : State :=
  (((s.put (ymxPortStatus_HPD p) 0).put (ymxPortStatus_SINK_COUNT p) 0).untrain p).modLink p fun l =>
    { l with plugged := false, aux := [] }

section
variable {s : State} {p : Fin 8} (hlive : s.displayLive = true) (ht : s.get (ymxPortCfg_TYPE p.val) = 0)
include hlive ht

theorem exec_hpdPlug_enabled (h : swf s.regs = true) (he : s.get (ymxPortCfg_EN p.val) = 1) (hw : s.power.warm = none)
    (rate : Fin 4) (lanes : Fin 5) (sinks : Fin 16) : exec (.hpdPlug p rate lanes sinks) s = .next
      (((((s.put (ymxPortStatus_HPD p.val) 1).put (ymxPortStatus_SINK_COUNT p.val) sinks.val).modLink p.val fun l =>
        { l with plugged := true, sinkRate := rate.val, sinkLanes := lanes.val }).raise 23 (p.val * 256 + 1)).startTraining p.val) := by
  have hdp : ((s.put (ymxPortStatus_HPD p.val) 1).put (ymxPortStatus_SINK_COUNT p.val) sinks.val).dpEnabled p.val = true :=
    (((PortKept.refl h p.val).put_status _ _ _).put_status _ _ _).dpEnabled_eq.trans (dpEnabled_of_get he ht)
  change execHpdPlug p rate lanes sinks s = _
  simp only [execHpdPlug, hlive, flag_of_get_zero ht, hdp, portEvent_now, State.modLink_power, State.put_power, hw, Bool.not_true,
    Bool.or_self, Bool.false_eq_true, if_false]

/-- With no SINK_READ waiting an unplug answers nothing; an enabled port raises 23. -/
theorem exec_hpdUnplug_noWaiters (h : swf s.regs = true) (ha : (s.link p.val).aux = []) : exec (.hpdUnplug p) s = .next
    (if s.dpEnabled p.val then (s.unplugged p.val).portEvent 23 (p.val * 256) else s.unplugged p.val) := by
  obtain ⟨u, hu⟩ : ∃ u, u = ((s.put (ymxPortStatus_HPD p.val) 0).put (ymxPortStatus_SINK_COUNT p.val) 0).untrain p.val := ⟨_, rfl⟩
  have haux : ((u.modLink p.val fun l => { l with plugged := false }).link p.val).aux = [] := by
    refine Eq.trans (aux_modLink u p.val fun _ => rfl) ?_
    rw [hu]
    exact Eq.trans (aux_modLink _ p.val fun _ => rfl) ha
  have hun : u.modLink p.val (fun l => { l with plugged := false, aux := [] }) = s.unplugged p.val := by rw [hu]; rfl
  have hdp : (s.unplugged p.val).dpEnabled p.val = s.dpEnabled p.val :=
    ((((PortKept.refl h p.val).put_status _ _ _).put_status _ _ _).untrain.modLink _).dpEnabled_eq
  change execHpdUnplug p s = _
  simp only [execHpdUnplug, hlive, flag_of_get_zero ht, ← hu, answerAux_idle haux, State.modLink_modLink, hun, hdp, Bool.not_true,
    Bool.or_self, Bool.false_eq_true, if_false]

/-- An IRQ of an enabled port whose sink is there raises 24; lanes that are all well change nothing else. -/
theorem exec_hpdIrq_lanesWell (he : s.get (ymxPortCfg_EN p.val) = 1) (hp : (s.link p.val).plugged = true) (hw : s.power.warm = none) :
    exec (.hpdIrq p true true true) s = .next (s.raise 24 p.val) := by
  change execHpdIrq p true true true s = _
  simp only [execHpdIrq, hlive, dpEnabled_of_get he ht, hp, portEvent_now hw, Bool.not_true, Bool.or_self, Bool.and_self, Bool.or_true,
    Bool.false_eq_true, if_false, if_true]

/-- Lost lane status untrains a trained port, which without AUTO_RETRAIN stays untrained. -/
theorem exec_hpdIrq_lanesLost (h : swf s.regs = true) (he : s.get (ymxPortCfg_EN p.val) = 1) (hp : (s.link p.val).plugged = true)
    (hw : s.power.warm = none) (htr : s.get (ymxPortStatus_TRAINED p.val) = 1) {cr eq sym : Bool} (hl : (cr && eq && sym) = false)
    (har : s.get (ymxPortCfg_AUTO_RETRAIN p.val) = 0) : exec (.hpdIrq p cr eq sym) s = .next
      ((((((s.raise 24 p.val).raise 27 p.val).untrain p.val).putBit (ymxPortStatus_CR_DONE p.val) cr).putBit
        (ymxPortStatus_EQ_DONE p.val) eq).putBit (ymxPortStatus_SYM_LOCK p.val) sym) := by
  have htrained : (s.raise 24 p.val).flag (ymxPortStatus_TRAINED p.val) = true := flag_of_get_one <|
    (get_raise h (RF.offEvents_of_between (by simp [ymxPortStatus_TRAINED, ymxPortStatus]; omega)
      (by simp only [ymxPortStatus_TRAINED, ymxPortStatus]; omega)) (by decide) _).trans htr
  have hkept : PortKept s ((((((s.raise 24 p.val).raise 27 p.val).untrain p.val).putBit (ymxPortStatus_CR_DONE p.val) cr).putBit
      (ymxPortStatus_EQ_DONE p.val) eq).putBit (ymxPortStatus_SYM_LOCK p.val) sym) p.val :=
    (((((((PortKept.refl h p.val).raise p.isLt (by decide) _).raise p.isLt (by decide) _).untrain).put_status _ _ _).put_status
      _ _ _).put_status _ _ _)
  have hauto := flag_of_get_zero ((hkept.get_eq (f := ymxPortCfg_AUTO_RETRAIN p.val) rfl).trans har)
  change execHpdIrq p cr eq sym s = _
  simp only [execHpdIrq, hlive, dpEnabled_of_get he ht, hp, portEvent_now hw, htrained, hl, hauto, State.raise_power, hw,
    Option.isSome_none, Bool.not_true, Bool.or_self, Bool.false_eq_true, if_false]

end

/-! ### The end of a training attempt (R116) -/

section
variable {s : State} {p : Fin 8} {rate lanes : Nat}

/-- The port with one attempt more, and the lane status that it read. -/
def State.attempted (s : State) (p : Nat) (cr eq sym : Bool) : State :=
  (((s.put (ymxPortStatus_ATTEMPTS p) (s.get (ymxPortStatus_ATTEMPTS p) + 1)).putBit (ymxPortStatus_CR_DONE p) cr).putBit
    (ymxPortStatus_EQ_DONE p) eq).putBit (ymxPortStatus_SYM_LOCK p) sym

theorem attempted_ATTEMPTS (h : swf s.regs = true) (p : Nat) (cr eq sym : Bool) :
    (s.attempted p cr eq sym).get (ymxPortStatus_ATTEMPTS p) = (s.get (ymxPortStatus_ATTEMPTS p) + 1) % 4 := by
  have h1 := swf_put h (ymxPortStatus_ATTEMPTS p) (s.get (ymxPortStatus_ATTEMPTS p) + 1)
  have h2 := swf_put h1 (ymxPortStatus_CR_DONE p) (if cr then 1 else 0)
  have h3 := swf_put h2 (ymxPortStatus_EQ_DONE p) (if eq then 1 else 0)
  unfold State.attempted State.putBit
  refine (get_put_r h3 rfl rfl _).trans <| (get_put_r h2 rfl rfl _).trans <| (get_put_r h1 rfl rfl _).trans (get_put h ?_ _)
  simp only [ymxPortStatus_ATTEMPTS]; omega

/-- The port once an attempt has succeeded at a rate and a number of lanes. -/
def State.linkTrained (s : State) (p rate lanes : Nat) : State :=
  ((((s.put (ymxPortStatus_TRAINED p) 1).put (ymxPortStatus_RATE p) rate).put (ymxPortStatus_LANES p) lanes).modLink p fun l =>
    { l with training := none, rbDue := true }).raise 25 (p * 256 + rate * 16 + lanes)

/-- The port once the third attempt at a rate has failed: training goes on at the next lower rate that qualifies, or gives up. -/
def State.rateFailed (s : State) (p rate lanes : Nat) : State :=
  (s.lowerRate p rate lanes).elim ((s.modLink p fun l => { l with training := none, failed := true }).raise 26 (p * 256 + rate))
    fun r => (s.put (ymxPortStatus_ATTEMPTS p) 0).modLink p fun l => { l with training := some (r, lanes) }

theorem exec_linkTrainAttemptEnd_training (htr : (s.link p.val).training = some (rate, lanes)) (cr eq sym : Bool) :
    exec (.linkTrainAttemptEnd p cr eq sym) s = .next
      (if cr && eq && sym then (s.attempted p.val cr eq sym).linkTrained p.val rate lanes
       else if (s.attempted p.val cr eq sym).get (ymxPortStatus_ATTEMPTS p.val) < 3 then s.attempted p.val cr eq sym
       else (s.attempted p.val cr eq sym).rateFailed p.val rate lanes) := by
  change execLinkTrainAttemptEnd p cr eq sym s = _
  unfold execLinkTrainAttemptEnd State.rateFailed State.attempted
  rw [htr]
  dsimp only
  cases State.lowerRate _ p.val rate lanes <;> rfl

/-- A port whose third attempt at a rate has failed. -/
theorem exec_linkTrainAttemptEnd_third (htr : (s.link p.val).training = some (rate, lanes)) (h : swf s.regs = true)
    (ha : s.get (ymxPortStatus_ATTEMPTS p.val) = 2) : exec (.linkTrainAttemptEnd p false false false) s =
      .next ((s.attempted p.val false false false).rateFailed p.val rate lanes) := by
  have h3 : ¬ (s.attempted p.val false false false).get (ymxPortStatus_ATTEMPTS p.val) < 3 := by
    rw [attempted_ATTEMPTS h, ha]; decide
  exact (exec_linkTrainAttemptEnd_training htr _ _ _).trans (congrArg _ ((if_neg (by decide)).trans (if_neg h3)))

end

/-! ### DSI (R122 to R125) -/

/-- A TE edge within the wait window, the first of a frame that has no transfer yet, starts it. -/
theorem exec_teEdge_starts {s : State} {p : Fin 8} (hc : s.dsiCommand p.val = true) (he : s.get (ymxPortDsi_TE_EN p.val) = 1)
    (hr : s.running p.val = true) (hw : s.power.warm = none) (hline : s.headLine p.val ≤ s.get (ymxPortDsi_TE_WAIT p.val))
    (hseen : (s.link p.val).teSeen = false) (hx : (s.head p.val).xfer = none) (hlost : s.get (headStatus_TE_LOST p.val) = 0) :
    exec (.teEdge p) s = .next ((s.modLink p.val fun l => { l with teSeen := true, teMisses := 0, teHits := l.teHits + 1 }).modHead
      p.val fun h => { h with xfer := some (s.headLine p.val) }) := by
  change execTeEdge p s = _
  simp only [execTeEdge, hc, flag_of_get_one he, hr, hw, hseen, hx, Nat.not_lt.mpr hline, State.modLink_head, State.modHead_flag,
    State.modLink_flag, flag_of_get_zero hlost, Option.isSome_none, Option.isNone_none, decide_false, Bool.not_true, Bool.or_self,
    Bool.false_and, Bool.false_eq_true, if_false, if_true]

theorem exec_dsiErrPoll_reported {s : State} {p : Fin 8} {report : W32} (hp : 6 ≤ p.val) (ht : s.get (ymxPortCfg_TYPE p.val) = 1)
    (he : s.get (ymxPortDsi_ERR_POLL p.val) = 1) (hr : s.running p.val = true) (hn : report ≠ 0) :
    exec (.dsiErrPoll p report) s = .next (s.raise 31 report.toNat) := by
  refine congrArg Host.Outcome.next (if_pos ?_)
  rw [decide_eq_true hp, flag_of_get_one ht, flag_of_get_one he, hr, bne_iff_ne.mpr hn]
  rfl

/-- The oldest SINK_READ of a port gets its result (R119). -/
theorem exec_auxReadComplete_data {s : State} {p : Fin 8} {o : Origin} {rest : List Origin} (h : (s.link p.val).aux = o :: rest)
    (data : List Byte) : exec (.auxReadComplete p 0 data) s = .next ((s.modLink p.val fun l => { l with aux := rest }).settle o
      ⟨stDone, 0, BitVec.ofNat 64 (leAt (data.take (o.u8 4)) 0 8), BitVec.ofNat 64 (leAt (data.take (o.u8 4)) 8 8)⟩) := by
  change execAuxReadComplete p 0 data s = _
  simp only [execAuxReadComplete, h]
  rfl

/-- Settles O12: HPD by whether its port is enabled and what lane status it shows, a training attempt by its result, DSI by the
guards of its events. -/
theorem displayLinks : Obligations.DisplayLinks := by
  refine ⟨fun s p rate lanes sinks hc hlive he ht hw => exec_hpdPlug_enabled hlive ht (canonical_regs hc) he hw rate lanes sinks,
    fun s p hc hlive he ht ha => ?unplugDisabled, fun s p hc hlive he ht ha hw => ?unplugEnabled,
    fun s p hlive he ht hp hw => exec_hpdIrq_lanesWell hlive ht he hp hw,
    fun s p cr eq sym hc hlive he ht hp hw htr hl har => exec_hpdIrq_lanesLost hlive ht (canonical_regs hc) he hp hw htr hl har,
    fun s p rate lanes htr => exec_linkTrainAttemptEnd_training htr true true true, fun s p rate lanes hc htr ha => ?thirdFailure,
    fun s p data o rest h => exec_auxReadComplete_data h data,
    fun s p hc he hr hw hline hseen hx hlost => exec_teEdge_starts hc he hr hw hline hseen hx hlost,
    fun s p report hp ht he hr hn => exec_dsiErrPoll_reported hp ht he hr hn⟩
  case unplugDisabled =>
    rw [exec_hpdUnplug_noWaiters hlive ht (canonical_regs hc) ha, not_dpEnabled_of_get he]
    rfl
  case unplugEnabled =>
    have hwarm : (s.unplugged p.val).power.warm = none := hw
    rw [exec_hpdUnplug_noWaiters hlive ht (canonical_regs hc) ha, dpEnabled_of_get he ht, if_pos rfl, portEvent_now hwarm]
    rfl
  case thirdFailure =>
    have ht : s.attempted p.val false false false = (((s.put (ymxPortStatus_ATTEMPTS p.val) 3).put (ymxPortStatus_CR_DONE p.val) 0).put
        (ymxPortStatus_EQ_DONE p.val) 0).put (ymxPortStatus_SYM_LOCK p.val) 0 := by
      unfold State.attempted; rw [ha]; rfl
    rw [exec_linkTrainAttemptEnd_third htr (canonical_regs hc) ha, ht]
    unfold State.rateFailed
    dsimp only
    cases State.lowerRate _ p.val rate lanes <;> rfl

/-! ### The port opcodes (R116, R119, R122, R139, R140) -/

section
variable {s : State} {o : Origin}

theorem sinkRead_waits (he : s.dpEnabled o.tgt = true) (hp : (s.link o.tgt).plugged = true) :
    specSinkRead.run s o = (s.modLink o.tgt fun l => { l with aux := l.aux ++ [o] }, .later) :=
  if_pos (by rw [he, hp]; rfl)

theorem sinkRead_noSink (h : s.dpEnabled o.tgt = false ∨ (s.link o.tgt).plugged = false) :
    specSinkRead.run s o = (s, .answer ⟨stDone, 3, 0, 0⟩) :=
  if_neg (by rcases h with h | h <;> simp [h])

/-- The DSI settings that a DSI_CONFIG carries (R122). -/
def State.setDsi (s : State) (o : Origin) : State :=
  ((((((s.put (ymxPortDsi_CMD o.tgt) (o.u8 0)).put (ymxPortDsi_TE_EN o.tgt) (o.u8 1)).put (ymxPortDsi_TE_EDGE o.tgt) (o.u8 2)).put
    (ymxPortDsi_TE_FAIL_LIMIT o.tgt) (o.u8 3)).put (ymxPortDsi_TE_WAIT o.tgt) (o.u16 4)).put (ymxPortDsirate_LANE_MBPS o.tgt)
      (o.u16 6)).put (ymxPortDsi_ERR_POLL o.tgt) (o.u8 8)

theorem dsiConfig_contactFree (h : o.u8 1 = 0 ∨ s.bit sysGpio_CLAIM o.tgt = false) : specDsiConfig.run s o =
    (if o.u8 1 = 1 then (s.setDsi o).modLink o.tgt fun l => { l with teHeld := true } else s.setDsi o, .answer (done 0 0)) := by
  refine Eq.trans (if_neg ?_) (congrArg (·, Effect.answer (done 0 0)) (when_beq _ _ _ _))
  rcases h with h | h <;> simp [h]

/-- A TE contact that GPIO claims is not held (R124). -/
theorem dsiConfig_contactClaimed (h1 : o.u8 1 = 1) (hc : s.bit sysGpio_CLAIM o.tgt = true) :
    specDsiConfig.run s o = (s, .refuseLogged (refusal stPinTaken 0)) := if_pos (by simp [h1, hc])

/-- A packet whose effect refuses it is recorded and answered with the refusal. -/
theorem packet_refuseLogged {sp : OpSpec} {p : Packet} {u : State} {a : Answer} (h : passes sp p s) (hm : sp.member = .immediate)
    (hf : ∀ g, sp.log ≠ .flip g) (hr : sp.run (readBy p s) (entryOrigin p sp s) = (u, .refuseLogged a)) :
    packetStep sp p s = .next (u.recordAndAnswer (entryOrigin p sp s) a a.status true) := by
  unfold packetStep; rw [packet_passes h hm hf, hr]

end

/-- Settles O13: each packet passes its checks, so its effect decides, that of SINK_READ by the sink, that of DSI_CONFIG by the TE
contact. -/
theorem portPackets : Obligations.PortPackets := by
  refine ⟨fun s p h => ?config, fun s p h => ?retrain, fun s p h => ?sinkRead, fun s p h => ?noSink, fun s p h => ?dsiConfig,
    fun s p h => ?pinTaken⟩
  case config => exact packet_answer h rfl nofun rfl
  case retrain => exact packet_answer h rfl nofun rfl
  case sinkRead =>
    intro o u he hp
    exact packet_later h rfl nofun (sinkRead_waits he hp)
  case noSink =>
    intro o u hn
    exact packet_answer h rfl nofun (sinkRead_noSink hn)
  case dsiConfig =>
    intro o n hc t
    exact packet_answer h rfl nofun (dsiConfig_contactFree hc)
  case pinTaken =>
    intro o h1 hc
    exact packet_refuseLogged h rfl nofun (dsiConfig_contactClaimed h1 hc)

/-! ### The head opcodes (R112, R138 to R140) -/

section
variable {s : State} {o : Origin}

/-- HEAD_n_STATUS lies outside the blocks that reading an entry writes. -/
theorem headStatus_RUNNING_offPackets {n : Nat} (hn : n < 8) : (headStatus_RUNNING n).offPackets = true := by
  simp only [RF.offPackets, headStatus_RUNNING, headStatus, Bool.and_eq_true, Bool.or_eq_true, Nat.ble_eq]
  omega

theorem running_put_EN (h : swf s.regs = true) (n v : Nat) : (s.put (headCtrl_EN n) v).running n = s.running n := by
  have hget := get_put_ne (s := s) h (f := headCtrl_EN n) (g := headStatus_RUNNING n)
    (by simp only [headStatus_RUNNING, headStatus, headCtrl_EN, headCtrl]; omega) v
  simp only [State.running, State.flag, hget]

/-- A training that has not failed is not tried again when the timing changes (R116). -/
theorem setTiming_notFailed (hf : (s.link o.tgt).failed = false) : s.setTiming o =
    ((((((((((s.wr (headHtime o.tgt) (BitVec.ofNat 64 (o.u32 0))).put (headHsync_HFP o.tgt) (o.u16 4)).put (headHsync_HSW o.tgt)
      (o.u16 6)).put (headHsync_HPOL o.tgt) (o.u8 16)).wr (headVtime o.tgt) (BitVec.ofNat 64 (o.u32 8))).put (headVsync_VFP o.tgt)
      (o.u16 12)).put (headVsync_VSW o.tgt) (o.u16 14)).put (headVsync_VPOL o.tgt) (o.u8 16 / 2)).put (headOffset_O o.tgt)
      (o.u16 18)).put (headLatch_LATCH_LINE o.tgt) (o.u16 20)).put (headCtrl_K2 o.tgt) (o.u8 17 - 1) := by
  refine if_neg ?_
  simp only [State.put_link, State.wr_link, hf, Bool.false_and, Bool.false_eq_true, not_false_eq_true]

/-- The enable of a disabled head that does not run waits for its first head frame. -/
theorem headEnableRun_enables (h : swf s.regs = true) (h1 : o.u8 0 = 1) (he : s.get (headCtrl_EN o.tgt) = 0)
    (hr : s.get (headStatus_RUNNING o.tgt) = 0) : headEnableRun s o =
      ((s.put (headCtrl_EN o.tgt) 1).modHead o.tgt fun h => { h with armSeen := none, waiters := h.waiters ++ [o] }, .later) := by
  have hrun : (s.enableHead o.tgt).running o.tgt = false := (running_put_EN h _ 1).trans (flag_of_get_zero hr)
  have h0 : o.u8 0 ≠ 0 := by omega
  simp only [headEnableRun, h0, flag_of_get_zero he, hrun, Bool.false_and, Bool.false_eq_true, if_false]
  rw [State.enableHead, State.modHead_modHead]

theorem headEnableRun_disables (h0 : o.u8 0 = 0) : headEnableRun s o = (s.disableHead o.tgt, .answer (done 0 0)) := if_pos h0

/-- With no enable waiting for the first head frame, a disable answers nothing. -/
theorem disableHead_noWaiters (h : swf s.regs = true) {n : Nat} (hw : (s.head n).waiters = []) : s.disableHead n =
    (s.put (headCtrl_EN n) 0).modHead n fun h => { h with armSeen := none, waiters := [], ending := s.running n } := by
  unfold State.disableHead
  dsimp only
  rw [State.put_head, hw, running_put_EN h]
  rfl

end

/-! ### The registers that enable and arm heads (R127, R138) -/

section
variable {s : State} {who : Requester} {v : W32} (hm : s.mayWrite who = true) (hw : worldOf who = .sealed)
include hm hw

theorem exec_headEnWrite_enables {n : Fin 8} (hb : s.writeBarred who (headCtrl n.val).addr = false)
    (he : s.get (headCtrl_EN n.val) = 0) (hv : v.toNat % 2 = 1) (hmay : (s.put (headCtrl_K2 n.val) (v.toNat / 2)).mayEnable n.val = true) :
    exec (.headEnWrite who n v) s = .next (((s.put (headCtrl_K2 n.val) (v.toNat / 2)).enableHead n.val).noteWrite who
      (headCtrl n.val).addr v.toNat (s.rd (headCtrl n.val)).toNat) := by
  change execHeadEnWrite who n v s = _
  simp only [execHeadEnWrite, flag_of_get_zero he, Bool.and_false, Bool.false_and, Bool.false_eq_true, if_false,
    sealedWrite_sealed hw hm hb, hv, Bool.not_false, decide_true, Bool.and_self, hmay, if_true]

theorem exec_headWallArmWrite_sealed (hb : s.writeBarred who headWallArm.addr = false) : exec (.headWallArmWrite who v) s =
    .next ((s.put headWallArm_ARM (s.get headWallArm_ARM ||| (v.toNat % 256))).noteWrite who headWallArm.addr v.toNat
      (s.rd headWallArm).toNat) := congrArg _ (sealedWrite_sealed hw hm hb _ _)

end

/-- Settles O14: each packet passes its checks, so its effect decides, that of HEAD_ENABLE by its byte 0; a HEAD_SHOW lands as the
member of its caravan; the register writes by what they may enable. -/
theorem headPackets : Obligations.HeadPackets := by
  refine ⟨fun s p h => ?timingSet, fun s o hf => setTiming_notFailed hf, fun s p h => ?enable, fun s p h => ?disable,
    fun s n hw hc _ => disableHead_noWaiters (canonical_regs hc) hw, fun s p h => ?query, fun s p h => ?show_,
    fun s who n v hc hm hw hb he hv hmay => exec_headEnWrite_enables hm hw hb he hv hmay,
    fun s who v hm hw hb => exec_headWallArmWrite_sealed hm hw hb⟩
  case timingSet => exact packet_answer h rfl nofun rfl
  case enable =>
    intro o u h1 he hc hr hn
    have hrun : u.get (headStatus_RUNNING o.tgt) = 0 := (get_readBy (canonical_regs hc) (headStatus_RUNNING_offPackets hn) p).trans hr
    exact packet_later h rfl nofun (headEnableRun_enables (swf_readBy (canonical_regs hc) p) h1 he hrun)
  case disable =>
    intro o h0
    exact packet_answer h rfl nofun (headEnableRun_disables h0)
  case query => exact packet_answer h rfl nofun rfl
  case show_ => exact ⟨packet_lone h rfl, fun t => memberSpec_mem memberSpec_HeadShow p s t⟩

/-! ### Faults of an engine that serves its port (R132) -/

section
variable {s : State} {e : Nat}

theorem spareBusy_of_idle (hst : s.get ymxSpare_STATE = 0 ∨ s.get ymxSpare_STATE = 1) : s.spareBusy = false := by
  simp only [State.spareBusy, decide_eq_false_iff_not]; omega

variable (h : swf s.regs = true)
include h

/-- Raising an event leaves the register of the spare as it was. -/
theorem get_raise_spare {l w event : Nat} (he : event < 512) (d : Nat) :
    (s.raise event d).get ⟨ymxSpare, l, w⟩ = s.get ⟨ymxSpare, l, w⟩ := get_raise h rfl he d

theorem engine_raise {event : Nat} (he : event < 512) (d : Nat) (p : Nat) : (s.raise event d).engine p = s.engine p := by
  unfold State.engine; rw [rd_raise h (by decide) he]

/-- With an idle spare a fault of an engine that serves its port begins a takeover where AUTO is set (R132). -/
theorem engineFault_serving (hlt : e < 8) (hs : s.engine e = e) (hst : s.get ymxSpare_STATE = 0 ∨ s.get ymxSpare_STATE = 1)
    (ht : s.spare.test = none) {cause : Nat} (hc : cause ≠ 4) : s.engineFault e cause none =
      if s.get ymxSpare_AUTO = 0 then (s.raise 32 (e * 256 + cause)).noEngine e
      else (s.raise 32 (e * 256 + cause)).beginTakeover e none := by
  obtain ⟨u, hu⟩ : ∃ u, u = s.raise 32 (e * 256 + cause) := ⟨_, rfl⟩
  have hget {l w : Nat} : u.get ⟨ymxSpare, l, w⟩ = s.get ⟨ymxSpare, l, w⟩ := hu ▸ get_raise_spare h (by decide) _
  have hserves : u.engine e = e := hu ▸ (engine_raise h (by decide) _ e).trans hs
  have hstate : u.get ymxSpare_STATE = 0 ∨ u.get ymxSpare_STATE = 1 := hst.imp hget.trans hget.trans
  have htest : u.spare.test = none := by rw [hu, State.raise_spare, ht]
  have hauto : (!u.flag ymxSpare_AUTO) = true ↔ s.get ymxSpare_AUTO = 0 := by
    rw [State.flag, show u.get ymxSpare_AUTO = s.get ymxSpare_AUTO from hget]; simp
  have h5 : u.get ymxSpare_STATE ≠ 5 := by omega
  unfold State.engineFault
  simp only [Nat.not_le.mpr hlt, ← hu, hserves, h5, htest, spareBusy_of_idle hstate, hc, hauto, ne_eq, not_true_eq_false,
    not_false_eq_true, and_false, true_and, Option.isSome_none, Bool.false_eq_true, or_self, if_false]

/-- A takeover is of a mirrored head where the spare mirrored the head that it takes over (R133). -/
theorem beginTakeover_eq (e : Nat) (o : Option Origin) (d : Nat) : (s.raise 32 d).beginTakeover e o =
    ((((((s.raise 32 d).raise 33 (e * 256 + e)).put ymxSpare_STATE 2).put ymxSpare_SERVING e).modSpare fun x =>
      { x with nominated := s.get ymxSpare_STATE == 1 && s.get ymxSpare_NOMINATE == e, loaded := false, primed := false,
               origin := o }).ashFromNext e) := by
  have hstate : (s.raise 32 d).get ymxSpare_STATE = s.get ymxSpare_STATE := get_raise_spare h (by decide) d
  have hnom : (s.raise 32 d).get ymxSpare_NOMINATE = s.get ymxSpare_NOMINATE := get_raise_spare h (by decide) d
  unfold State.beginTakeover State.setSpare
  dsimp only
  rw [hstate, hnom]

end

/-! ### The idle engine 8, its test and a restore (R134 to R136) -/

section
variable {s : State}

/-- A fault of engine 8 that serves no port and is not tested makes the spare faulty, and that alone. -/
theorem spareFault_idle (hst : s.get ymxSpare_STATE = 0 ∨ s.get ymxSpare_STATE = 1) (ht : s.spare.test = none) (cause : Nat) :
    s.spareFault cause = (s.raise 32 (8 * 256 + cause)).setSpare 5 0 := by
  have h5 : s.get ymxSpare_STATE ≠ 5 := by omega
  have htest : ((s.raise 32 (8 * 256 + cause)).setSpare 5 0).spare.test = none := by
    unfold State.setSpare; rw [State.put_spare, State.put_spare, State.raise_spare, ht]
  unfold State.spareFault
  simp only [h5, spareBusy_of_idle hst, State.when, Bool.false_eq_true, if_false, htest]

theorem exec_engineBistComplete_testing {e : Fin 9} {o : Origin} (h : s.spare.restore = some (e.val, .test, o)) (pass : Bool) :
    exec (.engineBistComplete e pass) s = .next (if pass then s.modSpare fun x => { x with restore := some (e.val, .load, o) }
      else (s.modSpare fun x => { x with restore := none }).settle o (refusal stNoResource 2)) := by
  change execEngineBistComplete e pass s = _
  simp only [execEngineBistComplete, h, ne_eq, not_true_eq_false, if_false]

theorem exec_spareTestComplete_testing {o : Origin} (h : s.spare.test = some o) (pass : Bool) :
    exec (.spareTestComplete pass) s = .next (if pass
      then ((s.modSpare fun x => { x with test := none }).put ymxSpare_STATE 0).settle o (done 0 0)
      else ((s.modSpare fun x => { x with test := none }).put ymxSpare_STATE 5).settle o (refusal stNoResource 2)) := by
  change execSpareTestComplete pass s = _
  simp only [execSpareTestComplete, h]

end

/-! ### SPARE_ACTION (R136, R140) -/

section
variable {s : State} {o : Origin}

/-- A takeover that is asked for is decided as a fault of cause 4 of the engine it names. -/
theorem spareActionRun_takeover (h1 : o.u8 0 = 1) (h5 : s.get ymxSpare_STATE ≠ 5) (ht : s.spare.test = none) :
    spareActionRun s o = (s.engineFault (o.u8 1) 4 (some o), .later) := by
  simp only [spareActionRun, h1, h5, ht, Option.isSome_none, Bool.false_eq_true, or_self, if_false]

theorem spareActionRun_restore (h2 : o.u8 0 = 2) :
    spareActionRun s o = (s.modSpare fun x => { x with restore := some (o.u8 1, .test, o) }, .later) := by
  simp only [spareActionRun, h2]

theorem spareActionRun_test (h3 : o.u8 0 = 3) : spareActionRun s o =
    ((if s.get ymxSpare_STATE = 1 then s.put ymxSpare_STATE 0 else s).modSpare fun x => { x with test := some o }, .later) := by
  simp only [spareActionRun, h3, when_beq]

end

/-- Settles O15: a fault by the engine, the spare and AUTO; each self-test by its result; SPARE_ACTION by its action. -/
theorem warmSpare : Obligations.WarmSpare := by
  refine ⟨fun s e hc hlive hlt hs hst hauto ht => ?takeover, fun s e hc hlive hlt hs hst hauto ht => ?noEngine,
    fun s hlive hst ht => congrArg _ ((if_pos hlive).trans (spareFault_idle hst ht 1)),
    fun s e o h => exec_engineBistComplete_testing h true, fun s e o h => exec_engineBistComplete_testing h false,
    fun s pass o h => exec_spareTestComplete_testing h pass, fun s p h => ?spareSet, fun s p h => ?actionTakeover,
    fun s p h => ?actionRestore, fun s p h => ?actionTest⟩
  case takeover =>
    refine congrArg Host.Outcome.next ((if_pos hlive).trans ?_)
    rw [engineFault_serving (canonical_regs hc) hlt hs hst ht (by decide), if_neg (by omega), beginTakeover_eq (canonical_regs hc)]
  case noEngine =>
    refine congrArg Host.Outcome.next ((if_pos hlive).trans ?_)
    exact (engineFault_serving (canonical_regs hc) hlt hs hst ht (by decide)).trans (if_pos hauto)
  case spareSet => exact packet_answer h rfl nofun rfl
  case actionTakeover =>
    intro o u h1 h5 ht
    exact packet_later h rfl nofun (spareActionRun_takeover h1 h5 ht)
  case actionRestore =>
    intro o h2
    exact packet_later h rfl nofun (spareActionRun_restore h2)
  case actionTest =>
    intro o u h3
    exact packet_later h rfl nofun (spareActionRun_test h3)

end Sys2Proof.Machine

/-! Proofs of the obligations of 05_layers.md: layer opcodes, underruns and tie groups, head output, gamma and write-back. -/
namespace Sys2Proof.Machine

/-! ### Layer opcodes that land (R143, R175, R220) -/

section
variable {s t : State} {o : Origin}

/-- No composition holds ADDR0 of the pipe, so the pipe takes the whole layer of the payload (R220). -/
theorem payloadLayer_unbound (h : s.compBound o.tgt = none) : s.payloadLayer o = carriedLayer o :=
  if_neg (by rw [h]; decide)

/-- A LAYER_SET writes the shadow of its pipe field by field, then the four rectangle registers (R175). -/
theorem landLayerSet_unbound (h : t.compBound o.tgt = none) :
    let n := o.tgt
    t.landLayerSet o =
      [0, 1, 2, 3].foldl (fun t k => t.wr (layerRect n k) (BitVec.ofNat 64 (o.u32 (36 + 4 * k))))
        ((((((((((((((((t.putBit (layerCtrl_EN n) (o.u8 0 == 1)).put (layerCtrl_FORMAT n) (o.u8 1)).putBit (layerCtrl_TILED n)
          (o.u8 2 % 2 == 1)).putBit (layerCtrl_HFLIP n) (o.u8 2 / 2 % 2 == 1)).putBit (layerCtrl_VFLIP n)
          (o.u8 2 / 4 % 2 == 1)).put (layerCtrl_FILTER n) (o.u8 3)).put (layerCtrl_GANG n) (o.u8 4)).put (layerCtrl_Z n)
          (o.u8 5)).putBit (layerCtrl_PREMULT n) (o.u8 6 == 1)).put (layerCtrl_TIE n) (o.u8 7)).put (layerBlend_PALPHA n)
          (o.u16 8)).put (layerBind_HEAD n) (o.u8 10)).put (layerAddr_ADDR n 0) (o.u64 16 / 64)).put (layerAddr_ADDR n 1)
          (o.u64 24 / 64)).put (layerStride_STRIDE n) (o.u32 32 / 64))) := by
  unfold State.landLayerSet
  rw [payloadLayer_unbound h]
  rfl

/-- LAYER_LIST of a function with a tenant shows the pipes and write-back units of that tenant. -/
theorem layerList_tenant {x : Tenant} (h : s.tenant o.tgt = some x) :
    specLayerList.run s o = (s, .answer (done (maskOf x.pipes) (maskOf x.wbs))) := by
  simp only [specLayerList, h]

end

/-! ### Underruns (R165, R166) -/

section
variable {s : State} {pipe : Fin 48}

theorem Stamp.lt_irrefl (a : Stamp) : a.lt a = false := by simp [Stamp.lt]

/-- No time passes up to the present instant. -/
theorem advanceTo_present : s.advanceTo s.now = s := by
  rw [State.advanceTo, Nat.sub_self]; rfl

/-- A pipe that is no gang's partner stands for its own layer (R165). -/
theorem leadPipe_alone {m : Nat} (h : s.leadOf m scanPipe = none) : s.leadPipe m = m := by rw [State.leadPipe, h]; rfl

variable (hlead : s.leadOf pipe.val scanPipe = none) (hshown : s.layerShown pipe.val = true) (hoff : (s.pipe pipe.val).offAt = none)
include hlead hshown hoff

theorem exec_layerUnderrun_shown {line pixel : W16}
    (hin : (s.layer pipe.val scanPipe).dx ≤ pixel.toNat
      ∧ pixel.toNat < (s.layer pipe.val scanPipe).dx + (s.layer pipe.val scanPipe).dw
      ∧ (s.layer pipe.val scanPipe).dy ≤ line.toNat
      ∧ line.toNat < (s.layer pipe.val scanPipe).dy + (s.layer pipe.val scanPipe).dh) :
    exec (.layerUnderrun pipe line pixel) s = .next (s.underrun pipe.val line.toNat pixel.toNat 40) := by
  change execLayerUnderrun pipe line pixel s = _
  simp only [execLayerUnderrun, leadPipe_alone hlead, hshown, hoff, hin, and_self, decide_true, Option.isNone_none, Bool.and_self,
    if_true]

/-- At a layer's first line only its readiness decides (R166). -/
theorem exec_layerFirstLine_due (hsend : s.sending (s.layer pipe.val scanPipe).head = true) (hat : s.mirageAt pipe.val = s.now)
    (ready : Bool) : exec (.layerFirstLine pipe ready) s = .next (if ready then s
      else s.underrun pipe.val (s.layer pipe.val scanPipe).dy (s.layer pipe.val scanPipe).dx 41) := by
  change execLayerFirstLine pipe ready s = _
  simp only [execLayerFirstLine, leadPipe_alone hlead, hshown, hsend, hat, Stamp.lt_irrefl, advanceTo_present, hoff, Bool.not_true,
    Bool.or_self, Bool.false_eq_true, if_false, Bool.and_true, Option.isNone_none]
  cases ready <;> rfl

end

/-- Settles O16: a packet that lands as the member of its caravan, a query by its answer, an underrun by whether its layer is shown
and whether it is tied. -/
theorem layersAndUnderruns : Obligations.LayersAndUnderruns := by
  refine ⟨fun s p h => ⟨packet_lone h rfl, fun t hb => ?layerSet⟩,
    fun s p h => ⟨packet_lone h rfl, fun t => memberSpec_mem memberSpec_LayerAddr p s t⟩,
    fun s p h => ⟨packet_lone h rfl, fun t => memberSpec_mem memberSpec_LayerColour p s t⟩,
    fun t o cm off lo pre post => rfl, fun s p x h => ?layerList, fun s p h => ?layerQuery,
    fun s pipe line pixel => ?underrun, fun s pipe => ?firstLine,
    fun s m line pixel event => ⟨fun h => if_pos h, fun h => if_neg h⟩, fun s m line pixel => rfl⟩
  case layerSet => exact (memberSpec_mem memberSpec_LayerSet p s t).trans (landLayerSet_unbound hb)
  case layerList =>
    intro o ht
    exact packet_answer h rfl nofun (layerList_tenant ht)
  case layerQuery => exact packet_answer h rfl nofun rfl
  case underrun =>
    intro m l hlead hshown hoff hx hx' hy hy'
    exact exec_layerUnderrun_shown hlead hshown hoff ⟨hx, hx', hy, hy'⟩
  case firstLine =>
    intro m l hlead hshown hoff hsend hat
    exact ⟨exec_layerFirstLine_due hlead hshown hoff hsend hat false, exec_layerFirstLine_due hlead hshown hoff hsend hat true⟩

/-! ### Write-back captures (R169 to R172) -/

section
variable {s : State}

theorem when_not (s : State) (b : Bool) (g : State → State) : s.when (!b) g = if b then s else g s := by cases b <;> rfl

variable {unit : Fin 4} {start : Stamp} (h : (s.wb unit.val).capture = some start)
include h

theorem exec_wbCaptureComplete_capturing : exec (.wbCaptureComplete unit) s = .next
    ((((((s.writeLines unit.val (s.head (s.get ((layerWbCtrl_HEAD unit.val).shift actWb))).tm.vactive).wr (layerWbStamp unit.val)
      start.word).bump (layerWbCnt_COUNT unit.val)).put (layerWbStatus_INCOMPLETE unit.val) 0).wbEnd unit.val).raise 44
      (unit.val * 256 + s.get ((layerWbCtrl_HEAD unit.val).shift actWb))) := by
  change execWbCaptureComplete unit s = _
  simp only [execWbCaptureComplete, h]

theorem exec_wbOverflow_capturing (lines : W16) : exec (.wbOverflow unit lines) s = .next
    ((((s.writeLines unit.val lines.toNat).put (layerWbStatus_INCOMPLETE unit.val) 1).wbEnd unit.val).raise 45
      (unit.val * 256 + s.get ((layerWbCtrl_HEAD unit.val).shift actWb))) := by
  change execWbOverflow unit lines s = _
  simp only [execWbOverflow, h]

end

/-- Settles O17: a packet that lands as the member of its caravan, a capture by how it ends, its end by whether it was one-shot. -/
theorem headColourAndWriteBack : Obligations.HeadColourAndWriteBack := by
  refine ⟨fun s p h => ⟨packet_lone h rfl, fun t => memberSpec_mem memberSpec_HeadOutputSet p s t⟩,
    fun s p h => ⟨packet_lone h rfl, fun t => memberSpec_mem memberSpec_HeadGammaSet p s t⟩,
    fun s p h => ⟨packet_lone h rfl, fun t => memberSpec_mem memberSpec_WbSet p s t⟩,
    fun s p h => packet_answer h rfl nofun rfl, fun s unit start h => exec_wbCaptureComplete_capturing h,
    fun s unit lines start h => exec_wbOverflow_capturing h lines, fun s u lines => rfl,
    fun s u => ⟨fun h => if_neg h, fun h => ?oneShot⟩⟩
  case oneShot =>
    refine (if_pos h).trans ?_
    rw [when_not]

end Sys2Proof.Machine

/-! Proofs of the obligations of 06_freshness_integrity.md: integrity opcodes, the Ember store, C0 checks, verdicts and receiver
tests. -/
namespace Sys2Proof.Machine

/-! ### Integrity opcodes that land (R206) -/

/-- Settles O18: each packet lands as the member of its caravan. -/
theorem integrityPackets : Obligations.IntegrityPackets := by
  refine ⟨fun s p h => ⟨packet_lone h rfl, fun t => ?guardSet⟩, fun s p h => ⟨packet_lone h rfl, fun t => ?freshTime⟩,
    fun s p h => ⟨packet_lone h rfl, fun t => ?rectSet⟩, fun s p h => ⟨packet_lone h rfl, fun t => ?rectExpect⟩,
    fun s p h => ⟨packet_lone h rfl, fun t => ?emberSet⟩, fun s p h => ⟨packet_lone h rfl, fun t => ?emberPalette⟩,
    fun s p h => ⟨packet_lone h rfl, fun t => ?emberExpect⟩, fun s p h => ⟨packet_lone h rfl, fun t => ?integCfg⟩⟩
  case guardSet => exact memberSpec_mem memberSpec_GuardSet p s t
  case freshTime => exact memberSpec_mem memberSpec_FreshTime p s t
  case rectSet => exact memberSpec_mem memberSpec_RectSet p s t
  case rectExpect => exact memberSpec_mem memberSpec_RectExpect p s t
  case emberSet => exact memberSpec_mem memberSpec_EmberSet p s t
  case emberPalette => exact memberSpec_mem memberSpec_EmberPalette p s t
  case emberExpect => exact memberSpec_mem memberSpec_EmberExpect p s t
  case integCfg => exact memberSpec_mem memberSpec_IntegCfg p s t

/-! ### The Ember store and the end of a hold (R188, R201) -/

section
variable {s : State} {o : Origin}

/-- The oldest copy of a ring stores what its source holds then (R188). -/
theorem exec_emberLoadComplete_oldest {ring : Fin 34} {off len src : Nat} {rest : List (Nat × Nat × Nat × Origin)}
    (h : s.display.emberLoads = (off, len, src, o) :: rest) (hr : o.ring = ring.val) :
    exec (.emberLoadComplete ring) s = .next (((s.modDisplay fun d => { d with emberLoads := rest }).store (emberBase + off)
      (s.load src len)).settle o (done 0 0)) := by
  have hfind : s.display.emberLoads.find? (fun x => x.2.2.2.ring == ring.val) = some (off, len, src, o) := by simp [h, hr]
  have herase : (s.modDisplay fun d => { d with emberLoads := d.emberLoads.erase (off, len, src, o) }) =
      s.modDisplay fun d => { d with emberLoads := rest } := by
    simp only [State.modDisplay, h, List.erase_cons_head]
  change execEmberLoadComplete ring s = _
  simp only [execEmberLoadComplete, hfind, herase]
  rfl

/-- INTEG_RESUME ends the hold of its head and waits for the picture. -/
theorem integResume_held (h : s.get (integVstate_HOLD o.tgt) ≠ 0) : specIntegResume.run s o =
    ((s.put (integVstate_HOLD o.tgt) 0).modHead o.tgt fun h => { h with resuming := true, resumers := h.resumers ++ [o] }, .later) := by
  have hflag : s.flag (integVstate_HOLD o.tgt) = true := bne_iff_ne.mpr h
  simp only [specIntegResume, hflag, if_true, State.endHold, State.modHead_modHead]

theorem integResume_resuming (h : s.get (integVstate_HOLD o.tgt) = 0) (hr : (s.head o.tgt).resuming = true) :
    specIntegResume.run s o = (s.modHead o.tgt fun h => { h with resumers := h.resumers ++ [o] }, .later) := by
  simp only [specIntegResume, flag_of_get_zero h, hr, Bool.false_eq_true, if_false, if_true]

theorem integResume_shown (h : s.get (integVstate_HOLD o.tgt) = 0) (hr : (s.head o.tgt).resuming = false) :
    specIntegResume.run s o = (s, .answer (done 0 0)) := by
  simp only [specIntegResume, flag_of_get_zero h, hr, Bool.false_eq_true, if_false]

end

/-- Settles O19: each packet passes its checks, so its effect decides, that of INTEG_RESUME by the hold of its head. -/
theorem emberStoreAndIntegrityActions : Obligations.EmberStoreAndIntegrityActions := by
  refine ⟨fun s p h => packet_answer_flip h rfl rfl rfl, fun s p h => packet_later_flip h rfl rfl rfl,
    fun s ring off len src o rest h hr => exec_emberLoadComplete_oldest h hr,
    fun s p h => ⟨fun hh => ?held, fun hh hr => ?resuming, fun hh hr => ?shown⟩, fun s p h => packet_later h rfl nofun rfl,
    fun s p h => packet_answer h rfl nofun rfl, fun s p h => packet_answer h rfl nofun rfl⟩
  case held => exact packet_later h rfl nofun (integResume_held hh)
  case resuming => exact packet_later h rfl nofun (integResume_resuming hh hr)
  case shown => exact packet_answer h rfl nofun (integResume_shown hh hr)

/-! ### The C0 check (R189, R190) -/

section
variable {s : State} {n p err : Nat}

/-- Plane `p` of head `n` once its check has computed a CRC, with its result. -/
def State.c0Got (s : State) (n p crc : Nat) (ok : Bool) : State :=
  (s.put (integEmbGot_CRC n p) crc).modFrame n fun f => { f with planes := f.planes.set p (some ok) }

/-- A match ends the plane's run of failures and extends its run of matches. -/
def State.c0Matched (s : State) (n p crc : Nat) : State :=
  ((s.c0Got n p crc true).put (c0Run n p) 0).modHead n fun h => { h with matchRuns := modAt h.matchRuns p (· + 1) }

/-- A mismatch extends the plane's run of failures, ends its run of matches and raises 69. -/
def State.c0Failed (s : State) (n p crc : Nat) : State :=
  (((s.c0Got n p crc false).bump (c0Run n p)).modHead n fun h => { h with matchRuns := h.matchRuns.set p 0 }).raise 69 (n * 256 + p)

variable (hdue : s.c0Due n p = true)
include hdue

theorem c0Check_match (hcrc : s.planeCrc n p ^^^ err = s.get ((integEmbExp_EXPECT n p).shift scanWin)) :
    let u := s.c0Matched n p (s.planeCrc n p ^^^ err)
    s.c0Check n p err = if u.get (integVstate_HOLD n) = 1 ∧ (u.head n).holdPlane = p ∧ 4 ≤ (u.head n).matchRuns.getD p 0
      ∧ u.flag ((integCfg_AUTO_RESUME n).shift scanWin) = true then u.endHold n else u := by
  simp only [State.c0Check, hdue, beq_iff_eq.mpr hcrc, Bool.not_true, Bool.false_eq_true, if_false, if_true]
  rfl

theorem c0Check_mismatch (hcrc : s.planeCrc n p ^^^ err ≠ s.get ((integEmbExp_EXPECT n p).shift scanWin)) :
    let u := s.c0Failed n p (s.planeCrc n p ^^^ err)
    s.c0Check n p err = if 2 ≤ u.get (c0Run n p) ∧ u.get (integVstate_HOLD n) = 0 then u.startHold n 1 70 p else u := by
  simp only [State.c0Check, hdue, beq_eq_false_iff_ne.mpr hcrc, Bool.not_true, Bool.false_eq_true, if_false]
  rfl

end

/-- At the position of a plane its check is of the present state. -/
theorem exec_c0CheckComplete_due {s : State} {head : Fin 8} {plane : Fin 2} (hdue : s.c0Due head.val plane.val = true)
    (hsend : s.sending head.val = true) (hat : s.c0At head.val plane.val = s.now) (err : W32) :
    exec (.c0CheckComplete head plane err) s = .next (s.c0Check head.val plane.val err.toNat) := by
  change execC0CheckComplete head plane err s = _
  simp only [execC0CheckComplete, hdue, hsend, hat, advanceTo_present, Bool.and_self, if_true]

/-! ### Verdicts (R194 to R200) -/

section
variable {s : State} {n : Nat}

/-- At the position of a verdict it is of the present state. -/
theorem exec_headVerdict_owed {head : Fin 8} (howed : s.verdictOwed head.val = true) (hat : s.verdictAt head.val = s.now)
    (pin tap spare : List W32) (lost : Bool) : exec (.headVerdict head pin tap spare lost) s =
      .next (s.headVerdict head.val (pin.map (·.toNat)) (tap.map (·.toNat)) (spare.map (·.toNat)) lost) := by
  change execHeadVerdict head pin tap spare lost s = _
  simp only [execHeadVerdict, howed, hat, advanceTo_present, if_true]

/-- The verdict of a frame that has ended is of what was measured of it. -/
theorem headVerdict_ended {f : FrameFacts} {seen : List RectSeen × Nat} (hlast : (s.head n).last = some f) (hseen : f.seen = some seen)
    (hrun : s.running n = true) (hwarm : s.power.warm = none) (pin tap spare : List Nat) (lost : Bool) :
    s.headVerdict n pin tap spare lost = (s.modHead n fun h => { h with last := none }).verdictOf n f seen pin tap spare lost := by
  simp only [State.headVerdict, hrun, hwarm, hlast, hseen, Option.isSome_none, Bool.not_true, Bool.or_self, Bool.false_eq_true,
    if_false, Option.getD_some]

/-- The records of a good frame: VERIFIED, its bit and its counter (R199). -/
def State.verified (s : State) (n : Nat) : State :=
  ((s.put (integVstate_VERIFIED n) 1).putBitAt integVerified_VERIFIED n true).bump (integVcnt_COUNT n)

/-- The records of a frame that failed for a reason (R199). -/
def State.unverified (s : State) (n reason : Nat) : State :=
  (((s.put (integVstate_VERIFIED n) 0).putBitAt integVerified_VERIFIED n false).bump (integUcnt_COUNT n)).put
    (integVstate_REASON n) reason

theorem when_true (s : State) (g : State → State) : s.when true g = g s := rfl

/-- A good frame raises 73 unless the one before it was good. -/
theorem recordVerdict_good (s : State) (n : Nat) : s.recordVerdict n 0 =
    (if s.flag (integVstate_VERIFIED n) then s.verified n else (s.verified n).raise 73 n).superviseVerdict n true := by
  have hgood : (0 == 0) = true := beq_self_eq_true 0
  unfold State.recordVerdict State.verified
  rw [hgood]
  cases s.flag (integVstate_VERIFIED n) <;> rfl

/-- A bad frame raises 74 if the one before it was good. -/
theorem recordVerdict_bad (s : State) (n : Nat) {reason : Nat} (h : reason ≠ 0) : s.recordVerdict n reason =
    (if s.flag (integVstate_VERIFIED n) then (s.unverified n reason).raise 74 (n * 256 + reason)
      else s.unverified n reason).superviseVerdict n false := by
  have hbad : (reason == 0) = false := beq_eq_false_iff_ne.mpr h
  unfold State.recordVerdict State.unverified
  rw [hbad]
  simp only [Bool.not_false, when_true, Bool.false_and, Bool.true_and, Bool.false_eq_true, if_false, State.putBit]

end

/-! ### Receivers and sinks (R197, R198) -/

theorem raise_link (s : State) (e d p : Nat) : (s.raise e d).link p = s.link p := by
  unfold State.link; rw [State.raise_display]

section
variable {s : State}

theorem exec_rbSelftestDue_trained {port : Fin 8} (hdp : s.dpEnabled port.val = true)
    (ht : s.get (ymxPortStatus_TRAINED port.val) = 1) :
    exec (.rbSelftestDue port) s = .next (s.modLink port.val fun l => { l with rbDue := true }) :=
  congrArg Host.Outcome.next (if_pos (by simp [hdp, flag_of_get_one ht]))

/-- Receiver `p` after its test: the result is recorded. -/
def State.receiverTested (s : State) (p : Nat) (pass : Bool) : State :=
  ((s.putBitAt integRbStatus_TESTING p false).putBitAt integRbStatus_FAIL p (!pass)).putBit (integVstate_RB_FAIL p) (!pass)

theorem link_receiverTested (s : State) (p : Nat) (pass : Bool) (q : Nat) : (s.receiverTested p pass).link q = s.link q := rfl

/-- Receiver `p` after its test: a failure raises 75, a pass after a failure 76. -/
def State.receiverJudged (s : State) (p : Nat) (pass : Bool) : State :=
  if !pass then (s.receiverTested p pass).raise 75 p
  else if s.bit integRbStatus_FAIL p then (s.receiverTested p pass).raise 76 p
  else s.receiverTested p pass

theorem link_receiverJudged (s : State) (p : Nat) (pass : Bool) (q : Nat) : (s.receiverJudged p pass).link q = s.link q := by
  unfold State.receiverJudged
  split_ifs <;> simp only [raise_link, link_receiverTested]

section
variable {port : Fin 8} (hw : (s.link port.val).rbWaiters = []) (ht : s.bit integRbStatus_TESTING port.val = true)
include hw ht

/-- With nobody waiting for it a test only records its result and raises its event. -/
theorem exec_rbSelftestComplete_noWaiters (pass : Bool) : exec (.rbSelftestComplete port pass) s =
    .next ((s.receiverJudged port.val pass).modLink port.val fun l => { l with rbWaiters := [] }) := by
  have hwaiters : ((s.receiverJudged port.val pass).link port.val).rbWaiters = [] := by rw [link_receiverJudged, hw]
  have htesting : ¬ (!s.bit integRbStatus_TESTING port.val) = true := by simp [ht]
  refine congrArg Host.Outcome.next ((if_neg htesting).trans ?_)
  exact congrArg (State.each _ · _) hwaiters

end

section
variable {head : Fin 8} (hasked : s.sinkAsked head.val = true) (hwarm : s.power.warm = none)
include hasked hwarm

/-- A sink without CRCs is found so once, and raises 78. -/
theorem exec_sinkCrcSample_unsupported (hnone : (s.head head.val).sinkCrcs = none) (crc : BitVec 48) :
    exec (.sinkCrcSample head false true crc) s = .next
      ((s.modHead head.val fun h => { h with sinkCrcs := some false }).raise 78 head.val) := by
  change execSinkCrcSample head false true crc s = _
  simp [execSinkCrcSample, hasked, hwarm, hnone]

/-- A sample that comes before SINK_EVERY frames have passed is not compared. -/
theorem exec_sinkCrcSample_early (hsome : (s.head head.val).sinkCrcs = some true) (crc : BitVec 48)
    (hearly : ((s.modHead head.val fun h => { h with sinkCrcs := some true }).head head.val).sinceSample <
      s.get ((integCfg_SINK_EVERY head.val).shift scanWin)) :
    exec (.sinkCrcSample head true true crc) s = .next (s.modHead head.val fun h => { h with sinkCrcs := some true }) := by
  change execSinkCrcSample head true true crc s = _
  simp [execSinkCrcSample, hasked, hwarm, hsome, hearly]

end

end

/-- Settles O20: a check by whether the CRC is the expected one, a verdict by its reason, a receiver's test by its result, a sample by
whether the sink has CRCs. -/
theorem checksAndVerdicts : Obligations.ChecksAndVerdicts := by
  refine ⟨fun s head plane err hdue hsend hat => exec_c0CheckComplete_due hdue hsend hat err,
    fun s n p err hdue => ⟨fun hcrc => ⟨fun hh => ?matched, fun hh hp h4 ha => ?resumes⟩,
      fun hcrc => ⟨fun hrun => ?failed, fun hrun hh => ?holds⟩⟩,
    fun s head pin tap spare lost howed hat => exec_headVerdict_owed howed hat pin tap spare lost,
    fun s n f seen pin tap spare hlast hseen hrun hwarm => headVerdict_ended hlast hseen hrun hwarm pin tap spare false,
    fun s n => ⟨recordVerdict_good s n, fun reason h => recordVerdict_bad s n h⟩,
    fun s port hdp ht => exec_rbSelftestDue_trained hdp ht,
    fun s port hw ht => ⟨exec_rbSelftestComplete_noWaiters hw ht false, exec_rbSelftestComplete_noWaiters hw ht true⟩,
    fun s head crc hasked hwarm hnone => exec_sinkCrcSample_unsupported hasked hwarm hnone crc,
    fun s head crc hasked hwarm hsome hearly => exec_sinkCrcSample_early hasked hwarm hsome crc hearly⟩
  case matched => exact (c0Check_match hdue hcrc).trans (if_neg fun h => hh h.1)
  case resumes => exact (c0Check_match hdue hcrc).trans (if_pos ⟨hh, hp, h4, ha⟩)
  case failed => exact (c0Check_mismatch hdue hcrc).trans (if_neg fun h => absurd h.1 (Nat.not_le.mpr hrun))
  case holds => exact (c0Check_mismatch hdue hcrc).trans (if_pos ⟨hrun, hh⟩)

end Sys2Proof.Machine

/-! Proofs of the obligations of 07_gpu_contexts.md about contexts: their opcodes, tails and compilations, the scheduler, preemption and
fences, and composition jobs. -/
namespace Sys2Proof.Machine

/-! ### The context opcodes (R210 to R213, R228, R230) -/

section
variable {s : State} {o : Origin}

/-- The settings of a context that a CTX_SET carries (R210). -/
def State.takeCtxSettings (s : State) (o : Origin) : State :=
  ((((s.put (gfxCtxCtrl_EN o.tgt) (o.u8 0)).put (gfxCtxCtrl_PRIO o.tgt) (o.u8 1)).put (gfxCtxCtrl_QLOG2 o.tgt) (o.u8 2)).put
    (gfxCtxQbase_ADDR o.tgt) (o.u64 8 / 4096)).put (gfxCtxSave_ADDR o.tgt) (o.u64 24 / mib2)

theorem ctxSetRun_disables (h : o.u8 0 = 0) :
    ctxSetRun s o = ((s.takeCtxSettings o).stopCtx o.tgt, .answer (done 0 0)) := if_pos h

theorem ctxSetRun_enables (h : o.u8 0 ≠ 0) (hst : (s.takeCtxSettings o).ctxState o.tgt = ctxDisabled) :
    ctxSetRun s o = (((s.takeCtxSettings o).setCtx o.tgt ctxIdle).wakeCtx o.tgt, .answer (done 0 0)) :=
  (if_neg h).trans (congrArg (fun t : State => (t.wakeCtx o.tgt, Effect.answer (done 0 0))) (if_pos hst))

/-- A context that is already enabled keeps its state until it is woken. -/
theorem ctxSetRun_enabled (h : o.u8 0 ≠ 0) (hst : (s.takeCtxSettings o).ctxState o.tgt ≠ ctxDisabled) :
    ctxSetRun s o = ((s.takeCtxSettings o).wakeCtx o.tgt, .answer (done 0 0)) :=
  (if_neg h).trans (congrArg (fun t : State => (t.wakeCtx o.tgt, Effect.answer (done 0 0))) (if_neg hst))

/-- An enabled idle context becomes READY exactly when its queue holds work (R211). -/
theorem wakeCtx_idle {c : Nat} (hen : s.get (gfxCtxCtrl_EN c) = 1) (hst : s.ctxState c = ctxIdle) (hm : s.mode ≠ modeBanked) :
    s.wakeCtx c = if s.get (gfxCtxQhead_POS c) = s.get (gfxCtxQtail_POS c) then s
      else (s.put (gfxCtxState_STATE c) ctxReady).schedule false := by
  unfold State.wakeCtx
  by_cases hq : s.get (gfxCtxQhead_POS c) = s.get (gfxCtxQtail_POS c)
  · simp [hq]
  · simp [flag_of_get_one hen, hst, hm, hq, State.setCtx]

/-- Only the running context takes the engine with it when it stops (R228). -/
theorem stopCtx_eq (s : State) (c : Nat) :
    let t := s.countClusters
    let u := if t.runningCtx = c then (t.put gfxStatus_RUNNING 0).modGfx fun g => { g with preempting := none } else t
    s.stopCtx c = (u.put (gfxCtxState_STATE c) (if u.flag (gfxCtxCtrl_EN c) then ctxIdle else ctxDisabled)).modGctx c fun x =>
      { x with stack := [], loaded := false, pass := none, signals := [], waiting := none } := by
  unfold State.stopCtx
  dsimp only
  rw [when_beq]
  rfl

/-- GFX_QUERY of a function with a tenant sums the cluster time of that tenant's contexts. -/
theorem gfxQuery_tenant {t : Tenant} (h : s.tenant o.tgt = some t) : specGfxQuery.run s o = (s, .answer (done
    ((s.rd gfxStatus).toNat + 0x100000000 * ((t.contexts.map fun c => s.get (gfxCtxUsed_CLUSTER_US c)).sum % 2 ^ 32))
    (if o.ring = 32 then s.get gfxPreemptMax_MAX else 0))) := by
  simp only [specGfxQuery, h]

end

/-! ### A write of a queue tail (R213) -/

theorem tailBad_eq_true {s : State} {c v : Nat} : s.tailBad c v = true ↔ v % 16 ≠ 0 ∨ s.queueSize c ≤ v := by
  simp [State.tailBad]

theorem tailBad_eq_false {s : State} {c v : Nat} : s.tailBad c v = false ↔ v % 16 = 0 ∧ v < s.queueSize c := by
  simp [State.tailBad]

section
variable {s : State} {who : Requester} {ctx : Fin 64} {value : W32} (hm : s.mayWrite who = true) (hw : worldOf who = .sealed)
  (hc : ctx.val ≠ 0)
include hm hw hc

theorem exec_qtailWrite_bad (h : s.tailBad ctx.val (value.toNat % 2 ^ 20) = true) :
    exec (.qtailWrite who ctx value) s = .next (s.emit (.busError (agentOf who) (gfxCtxQtail ctx.val).addr)) :=
  congrArg Host.Outcome.next (if_pos (by simp only [hm, hw, bne_iff_ne.mpr hc, h, decide_true, Bool.and_self]))

theorem exec_qtailWrite_good (h : s.tailBad ctx.val (value.toNat % 2 ^ 20) = false)
    (hb : s.writeBarred who (gfxCtxQtail ctx.val).addr = false) :
    exec (.qtailWrite who ctx value) s = .next ((s.kick ctx.val (value.toNat % 2 ^ 20)).noteWrite who (gfxCtxQtail ctx.val).addr
      value.toNat (s.rd (gfxCtxQtail ctx.val)).toNat) := by
  refine congrArg Host.Outcome.next ((if_neg (by simp only [h, Bool.and_false, Bool.false_eq_true, not_false_eq_true])).trans ?_)
  rw [sealedWrite_sealed hw hm hb, if_neg hc]

end

/-! ### Compilations (R227) -/

section
variable {s : State} {j : CompileJob} {rest : List CompileJob} {f : Fin 32} {job : W16}
  (hq : s.gfx.compiles = j :: rest) (hf : j.f = f.val) (hn : j.number = job.toNat)

/-- The machine once a compilation has left the queue, those behind it as they were. -/
def State.compiled (s : State) (rest : List CompileJob) (f : Fin 32) (job : W16) : State :=
  s.modGfx fun g => { g with compiles := rest.filter fun x => !(x.f == f.val && x.number == job.toNat) }

include hq hf hn

theorem find_compiles : s.gfx.compiles.find? (fun x => x.f == f.val && x.number == job.toNat) = some j := by
  simp [hq, hf, hn]

theorem filter_compiles :
    (s.modGfx fun g => { g with compiles := g.compiles.filter fun x => !(x.f == f.val && x.number == job.toNat) }) =
      s.compiled rest f job := by
  simp [State.modGfx, State.compiled, hq, hf, hn]

/-- An object that fits its output space is stored, and the record says DONE and its length. -/
theorem exec_compileComplete_done {object : List Byte} (hfit : object.length ≤ j.capacity) (size : W32) :
    exec (.compileComplete f job 0 size object) s = .next ((((s.compiled rest f job).store j.out object).store j.record
      (leBytes 2 stDone ++ leBytes 2 0 ++ leBytes 4 object.length ++ leBytes 8 s.now.word.toNat)).raise 199 (f.val * 256)) := by
  have hlt : ¬ j.capacity < object.length := Nat.not_lt.mpr hfit
  change execCompileComplete f job 0 size object s = _
  simp only [execCompileComplete, find_compiles hq hf hn, filter_compiles hq hf hn, hlt, Fin.val_zero, and_false, if_false, if_true,
    Nat.add_zero]
  rfl

/-- A compilation that fails stores no object. -/
theorem exec_compileComplete_failed {detail : Fin 5} (hd : detail.val ≠ 0) (size : W32) (object : List Byte) :
    exec (.compileComplete f job detail size object) s = .next (((s.compiled rest f job).store j.record
      (leBytes 2 stNoResource ++ leBytes 2 detail.val ++ leBytes 4 size.toNat ++ leBytes 8 s.now.word.toNat)).raise 199
        (f.val * 256 + detail.val)) := by
  change execCompileComplete f job detail size object s = _
  simp only [execCompileComplete, find_compiles hq hf hn, filter_compiles hq hf hn, hd, false_and, if_false]
  rfl

end

/-- Settles O21: each packet passes its checks, so its effect decides, that of CTX_SET by its enable and the context's state; a tail
write by whether the tail is bad, the end of a compilation by its detail. -/
theorem contexts : Obligations.Contexts := by
  refine ⟨fun s p h => ⟨fun h0 => ?disables, fun h0 hst => ?enables, fun h0 hst => ?enabled⟩,
    fun s p h => packet_answer_flip h rfl rfl rfl, fun s who ctx value hm hw hc => ⟨fun hv => ?badTail, fun h16 hlt hb => ?goodTail⟩,
    fun s c hen hst hm => ⟨fun hq => (wakeCtx_idle hen hst hm).trans (if_pos hq),
      fun hq => (wakeCtx_idle hen hst hm).trans (if_neg hq)⟩,
    fun s p h => packet_answer h rfl nofun rfl, fun s c => rfl, stopCtx_eq, fun s p h => packet_answer h rfl nofun rfl,
    fun s p h => packet_answer h rfl nofun rfl,
    fun s j rest f job size object hq hf hn => ⟨fun hfit => exec_compileComplete_done hq hf hn hfit size,
      fun detail hd => exec_compileComplete_failed hq hf hn hd size object⟩,
    fun s p t h => ?gfxQuery, fun s p h => packet_answer h rfl nofun rfl⟩
  case disables => exact packet_answer h rfl nofun (ctxSetRun_disables h0)
  case enables => exact packet_answer h rfl nofun (ctxSetRun_enables h0 hst)
  case enabled => exact packet_answer h rfl nofun (ctxSetRun_enabled h0 hst)
  case badTail => exact exec_qtailWrite_bad hm hw hc (tailBad_eq_true.mpr hv)
  case goodTail => exact exec_qtailWrite_good hm hw hc (tailBad_eq_false.mpr ⟨h16, hlt⟩) hb
  case gfxQuery =>
    intro o u ht
    exact packet_answer h rfl nofun (gfxQuery_tenant ht)

/-! ### Decisions of the scheduler (R217, R218) -/

section
variable {s : State} {c : Nat}

/-- With no guest running, the context chosen among those that wait starts. -/
theorem dispatchNext_starts (hch : s.changing = false) (hr : s.runningCtx = 0) (hg : s.guestClusters ≠ 0) (hm : s.mode ≠ modeBanked)
    (hw : s.power.warm = none) (hc : s.chooseCtx s.waitingCtxs = some c) : s.dispatchNext = s.startCtx c := by
  simp [State.dispatchNext, hch, hr, hg, hm, hw, hc]

theorem schedule_noGuest (hch : s.countClusters.changing = false) (hr : s.countClusters.runningCtx = 0) (ended : Bool) :
    s.schedule ended = s.countClusters.dispatchNext := by
  simp only [State.schedule, hch, hr, Bool.false_eq_true, if_false, if_true]

section
variable (hch : s.countClusters.changing = false) (hr : s.countClusters.runningCtx ≠ 0)
  (hp : s.countClusters.gfx.preempting = none)
include hch hr hp

/-- A composition that takes all clusters preempts the guest as a whole (R223). -/
theorem schedule_noClusters (hg : s.countClusters.guestClusters = 0) (ended : Bool) :
    s.schedule ended = s.countClusters.modGfx fun g => { g with preempting := some true } := by
  simp only [State.schedule, hch, hr, hp, hg, Option.isSome_none, Bool.false_eq_true, if_false, if_true]

/-- At the end of its slice the running context competes with those that wait, and goes on if it is chosen again. -/
theorem schedule_sliceEnded (hg : s.countClusters.guestClusters ≠ 0)
    (hc : s.countClusters.chooseCtx ((List.range 64).filter fun c =>
      c == s.countClusters.runningCtx || s.countClusters.waitingCtxs.contains c) = some c) :
    s.schedule true = if c = s.countClusters.runningCtx then s.countClusters.startCtx s.countClusters.runningCtx
      else s.countClusters.modGfx fun g => { g with preempting := some true } := by
  simp only [State.schedule, hch, hr, hp, hg, hc, Option.isSome_none, Bool.false_eq_true, if_false, Bool.true_or, if_true]

end

end

/-! ### Preemption, hangs and faults (R215, R219) -/

section
variable {s : State}

/-- The machine once a preemption has ended: it is counted, and the longest is kept. -/
def State.preemptionEnded (s : State) (tenths : W16) : State :=
  ((s.countClusters.bump gfxPreemptCnt_COUNT).put gfxPreemptMax_MAX (max (s.get gfxPreemptMax_MAX) tenths.toNat)).modGfx fun g =>
    { g with preempting := none }

theorem exec_preemptionComplete_whole (h : s.gfx.preempting = some true) (tenths : W16) (saved : List Byte) :
    let t := s.preemptionEnded tenths
    exec (.preemptionComplete tenths saved) s = .next
      (((((t.store (t.get (gfxCtxSave_ADDR t.runningCtx) * mib2) (saved.take mib2)).put (gfxCtxState_STATE t.runningCtx)
        ctxPreempted).put gfxStatus_RUNNING 0).showGfx).dispatchNext) := by
  change execPreemptionComplete tenths saved s = _
  simp only [execPreemptionComplete, h, if_true]
  rfl

/-- A guest that gave up some clusters goes on with those left to it (R222). -/
theorem exec_preemptionComplete_partial (h : s.gfx.preempting = some false) {tenths : W16}
    (hg : (s.preemptionEnded tenths).guestClusters ≠ 0) (saved : List Byte) :
    exec (.preemptionComplete tenths saved) s = .next ((s.preemptionEnded tenths).modGfx fun g =>
      { g with clusters := (s.preemptionEnded tenths).guestClusters }) := by
  change execPreemptionComplete tenths saved s = _
  simp only [execPreemptionComplete, h, Bool.false_eq_true, if_false]
  exact congrArg Host.Outcome.next (if_neg hg)

theorem ctxActive_running {c : Nat} (hc : c ≠ 0) (hr : s.runningCtx = c) (hst : s.ctxState c = ctxRunning) : s.ctxActive c = true := by
  simp [State.ctxActive, hc, hr, hst]

theorem exec_ctxHang_active {ctx : Fin 64} (hc : ctx.val ≠ 0) (ha : s.ctxActive ctx.val = true) :
    exec (.ctxHang ctx) s = .next ((s.raise 193 ctx.val).ctxFaults ctx.val 6 (s.packetAddr ctx.val)) :=
  congrArg Host.Outcome.next (if_pos (by simp only [hc, ha, ne_eq, not_false_eq_true, decide_true, Bool.and_self]))

end

/-! ### Fences (R216) -/

section
variable {s : State} {c value : Nat}

theorem signalFence_rises (h : s.fence c < value) (hc : c ≠ 0) (event : Bool) : s.signalFence c value event =
    if event then (s.wr (gfxCtxFence c) (BitVec.ofNat 64 value)).raise 195 c else s.wr (gfxCtxFence c) (BitVec.ofNat 64 value) := by
  simp only [State.signalFence, Nat.not_le.mpr h, hc, if_false]

/-- A signal that does not raise its counter leaves it and raises FENCE_BACK. -/
theorem signalFence_back (h : value ≤ s.fence c) (event : Bool) : s.signalFence c value event =
    if event then (s.raise 194 c).raise 195 c else s.raise 194 c := by
  simp only [State.signalFence, h, if_true]

theorem exec_fenceCounterUpdate_oldest {ctx : Fin 64} {event : Bool} {rest : List (Nat × Bool)}
    (h : (s.gctx ctx.val).signals = (value, event) :: rest) : exec (.fenceCounterUpdate ctx) s =
      .next ((s.modGctx ctx.val fun x => { x with signals := rest }).signalFence ctx.val value event) := by
  change execFenceCounterUpdate ctx s = _
  simp only [execFenceCounterUpdate, h]

/-- A context that waits becomes READY once the counter it waits for has reached its value. -/
theorem exec_fenceWaitSatisfied_waiting {ctx : Fin 64} {w v : Nat} (h : (s.gctx ctx.val).waiting = some (w, v))
    (hst : s.ctxState ctx.val = ctxWaiting) : exec (.fenceWaitSatisfied ctx) s = .next (if v ≤ s.fence w then
      ((s.modGctx ctx.val fun x => { x with waiting := none }).put (gfxCtxState_STATE ctx.val) ctxReady).schedule false else s) := by
  change execFenceWaitSatisfied ctx s = _
  simp only [execFenceWaitSatisfied, h, hst, true_and, State.setCtx]

end

/-! ### Command buffers that are complete (R213, R214) -/

section
variable {s : State} {ctx : Fin 64} (hc : ctx.val ≠ 0) (ha : s.ctxActive ctx.val = true) (hd : s.bufferDone ctx.val = true)
include hc ha hd

theorem exec_commandBufferComplete_inPass (hp : (s.gctx ctx.val).pass ≠ none) :
    exec (.commandBufferComplete ctx) s = .next (s.ctxFaults ctx.val 7 (s.packetAddr ctx.val)) := by
  change execCommandBufferComplete ctx s = _
  simp [execCommandBufferComplete, hc, ha, hd, Option.isSome_iff_ne_none.mpr hp]

theorem exec_commandBufferComplete_noPass (hp : (s.gctx ctx.val).pass = none) :
    let t := ((s.countClusters.signalAll ctx.val).put (gfxCtxQhead_POS ctx.val)
      ((s.get (gfxCtxQhead_POS ctx.val) + 16) % s.queueSize ctx.val)).modGctx ctx.val fun x => { x with stack := [], loaded := false }
    exec (.commandBufferComplete ctx) s = .next
      (if t.get (gfxCtxQhead_POS ctx.val) = t.get (gfxCtxQtail_POS ctx.val) then t.leaveRunning ctx.val ctxIdle else t) := by
  change execCommandBufferComplete ctx s = _
  simp only [execCommandBufferComplete, hc, ha, hd, hp, Option.isSome_none, decide_false, Bool.not_true, Bool.or_self,
    Bool.false_eq_true, if_false]

end

/-- Settles O22: a decision by whether a guest runs and which context is chosen; the end of a preemption by whether it was whole; a
signal and a wait by the counter; a buffer by whether its pass has ended. -/
theorem schedulerAndFences : Obligations.SchedulerAndFences := by
  refine ⟨fun s hr => congrArg _ (if_neg hr),
    fun s ended hch hr hp => ⟨fun hg => schedule_noClusters hch hr hp hg ended, fun hg hc => ?goesOn, fun c hg hne hc => ?preempted⟩,
    fun s ended c hch hr hg hm hw hc => (schedule_noGuest hch hr ended).trans (dispatchNext_starts hch hr hg hm hw hc),
    fun s tenths saved => ⟨fun h => exec_preemptionComplete_whole h tenths saved,
      fun h hg => exec_preemptionComplete_partial h hg saved⟩,
    fun s ctx hc hr hst => exec_ctxHang_active hc (ctxActive_running hc hr hst), fun s c code addr hc => if_neg hc,
    fun s ctx value event rest h => ⟨fun hlt hc => ?rises, fun hle => ?back⟩,
    fun s ctx w v h hst => ⟨fun hle => ?satisfied, fun hlt => ?waits⟩,
    fun s ctx hc ha hd => ⟨fun hp => exec_commandBufferComplete_inPass hc ha hd hp,
      fun hp => exec_commandBufferComplete_noPass hc ha hd hp⟩⟩
  case goesOn => exact (schedule_sliceEnded hch hr hp hg hc).trans (if_pos rfl)
  case preempted => exact (schedule_sliceEnded hch hr hp hg hc).trans (if_neg hne)
  case rises => exact (exec_fenceCounterUpdate_oldest h).trans (congrArg _ (signalFence_rises hlt hc event))
  case back => exact (exec_fenceCounterUpdate_oldest h).trans (congrArg _ (signalFence_back hle event))
  case satisfied => exact (exec_fenceWaitSatisfied_waiting h hst).trans (congrArg _ (if_pos hle))
  case waits => exact (exec_fenceWaitSatisfied_waiting h hst).trans (congrArg _ (if_neg (Nat.not_le.mpr hlt)))

/-! ### Composition jobs (R220 to R226) -/

section
variable {s : State} {n : Nat}

theorem compFence_signalled (h : s.compGet (gfxCompCtrl_FENCE_CTX n) = 0 ∨
    s.compGet (gfxCompFence_VALUE n) ≤ s.fence (s.compGet (gfxCompCtrl_FENCE_CTX n))) : s.compFence n = true := by
  simpa [State.compFence] using h

/-- A job that waits for its fence becomes ready once the fence is signalled. -/
theorem jobReady_awaiting (hph : (s.job n).phase = .awaiting) (hf : s.compFence n = true) : s.jobReady n =
    ((s.setJob n .ready).modJob n fun j => { j with
      ctime := BitVec.ofNat 64 (s.compGet (gfxCompCtime_WALLTIME n)), full := (s.warnAt n).le s.now }).nextJob.shareClusters := by
  simp only [State.jobReady, hph, hf, beq_self_eq_true, Bool.and_self, if_true]

/-- A job that enters another phase than ready no longer asks for all clusters. -/
theorem modJob_notReady {p : JobPhase} (hp : (p == .ready) = false) :
    (s.modJob n fun j => { j with phase := p, full := j.full && p == .ready }) =
      s.modJob n fun j => { j with phase := p, full := false } := by
  simp only [hp, Bool.and_false]

theorem setJob_ready (s : State) (n : Nat) :
    s.setJob n .ready = (s.modJob n fun j => { j with phase := .ready }).put (gfxCompStatus_JOB n) 2 := by
  simp only [State.setJob, beq_self_eq_true, Bool.and_true]

theorem exec_compJobComplete_done {head : Fin 8} (hcur : s.gfx.current = some head.val) (hd : s.bufferDone 0 = true)
    (hp : (s.gctx 0).pass = none) : exec (.compJobComplete head) s = .next ((s.signalAll 0).swap head.val) := by
  change execCompJobComplete head s = _
  simp [execCompJobComplete, hcur, hd, hp]

/-- A swap of a head whose tenant is on function `f` counts a flip of that function. -/
theorem swap_owned {f : Nat} {t : State}
    (ht : t = ((s.put (layerAddr_ADDR (s.compGet (gfxCompCtrl_PIPE n)) 0) (s.surface n (s.job n).target / 64)).wr
      (layerCtime (s.compGet (gfxCompCtrl_PIPE n))) (s.job n).ctime).putBitAt headWallArm_ARM n true)
    (hown : t.headOwner n = some f) : s.swap n = (({ t with peat := { t.peat with
      flips := modAt t.peat.flips 2 (· + 1), flipFns := setField t.peat.flipFns f 1 1 } } : State).setJob n .swapped).releaseJob n := by
  simp only [State.swap, ← ht, hown]

theorem compWarn_awaiting (h : (s.job n).phase = .awaiting) : s.compWarn n = s.raise 196 n := by simp only [State.compWarn, h]

theorem compWarn_ready (h : (s.job n).phase = .ready) :
    s.compWarn n = ((s.raise 196 n).modJob n fun j => { j with full := true }).shareClusters := by simp only [State.compWarn, h]

theorem compWarn_over (h : (s.job n).phase = .swapped ∨ (s.job n).phase = .none) : s.compWarn n = s := by
  rcases h with h | h <;> simp only [State.compWarn, h]

theorem compDeadline_ready (h : (s.job n).phase = .ready) : s.compDeadline n = s.jobMiss n 1 := by simp only [State.compDeadline, h]

/-- A miss tells a job whose fence was never signalled from one that had no time to start. -/
theorem compDeadline_awaiting (h : (s.job n).phase = .awaiting) :
    s.compDeadline n = s.jobMiss n (if s.compFence n then 1 else 2) := by simp only [State.compDeadline, h]

theorem compDeadline_over (h : (s.job n).phase = .swapped ∨ (s.job n).phase = .none) : s.compDeadline n = s := by
  rcases h with h | h <;> simp only [State.compDeadline, h]

end

/-- Settles O23: a packet lands as the member of its caravan, a job by its phase. -/
theorem composition : Obligations.Composition := by
  refine ⟨fun s p h => ⟨packet_lone h rfl, fun t => memberSpec_mem memberSpec_DeadlineSet p s t⟩,
    fun s p h => ⟨packet_lone h rfl, fun t => memberSpec_mem memberSpec_CompSet p s t⟩,
    fun s p h => ⟨packet_lone h rfl, fun t => memberSpec_mem memberSpec_CompTime p s t⟩,
    fun s head hph hf => congrArg _ (jobReady_awaiting hph (compFence_signalled hf)),
    fun s n => ⟨congrArg (State.put · _ 0) (modJob_notReady rfl), congrArg (State.put · _ 1) (modJob_notReady rfl), setJob_ready s n,
      congrArg (State.put · _ 3) (modJob_notReady rfl)⟩,
    fun s head hcur hd hp => exec_compJobComplete_done hcur hd hp, fun s n f _ hown => swap_owned rfl hown,
    fun s n => ⟨compWarn_awaiting, compWarn_ready, compDeadline_ready, fun h hf => ?notSignalled, fun h hf => ?late,
      fun h => ⟨compWarn_over h, compDeadline_over h⟩⟩,
    fun s n cause => rfl⟩
  case notSignalled => rw [compDeadline_awaiting h, hf]; rfl
  case late => rw [compDeadline_awaiting h, hf]; rfl

end Sys2Proof.Machine

/-! Proofs of the obligations of 07_gpu_contexts.md about draw packets: flow, binding and order, stores in memory, draws and dispatches,
passes and ray batches. -/
namespace Sys2Proof.Machine

/-! ### Jumps, calls, bindings and waits (R214, R216) -/

section
variable {s : State} {d : DrawAt}

theorem branchTarget_misaligned (h : d.u32 16 % 8 ≠ 0) : s.branchTarget d = .error 3 := if_pos h

theorem branchTarget_outside (h : d.u32 16 % 8 = 0) (hm : s.gfxMay d.ctx (d.u64 8) (d.u32 16) = false) :
    s.branchTarget d = .error 2 := by
  simp only [State.branchTarget, h, hm, ne_eq, not_true_eq_false, if_false, Bool.not_false, if_true]

theorem branchTarget_inside (h : d.u32 16 % 8 = 0) (hm : s.gfxMay d.ctx (d.u64 8) (d.u32 16) = true) :
    s.branchTarget d = .ok (d.u64 8, d.u64 8 + d.u32 16) := by
  simp only [State.branchTarget, h, hm, ne_eq, not_true_eq_false, if_false, Bool.not_true, Bool.false_eq_true]

theorem bindAt_inside (hm : s.gfxMay d.ctx (d.u64 8) 1 = true) (i : Nat) :
    s.bindAt d i = (s.past d).modGctx d.ctx fun x => { x with bound := x.bound.set i (d.u64 8) } := if_neg (by simp [hm])

theorem bindAt_outside (hm : s.gfxMay d.ctx (d.u64 8) 1 = false) (i : Nat) : s.bindAt d i = s.ctxFaults d.ctx 2 d.addr :=
  if_pos (by simp [hm])

end

section
variable {s : State} {ctx : Fin 64} {d : DrawAt}

theorem exec_jump_enters {b : Nat × Nat} (h : stands s ctx.val 0x0001 d) (hb : (s.looking ctx.val).branchTarget d = .ok b) :
    exec (.jump ctx) s = .next ((s.looking ctx.val).modGctx d.ctx fun x => { x with stack := b :: x.stack.tail }) := by
  refine (draw_taken h _).trans ?_
  rw [hb]

theorem exec_jump_faults {code : Nat} (h : stands s ctx.val 0x0001 d) (hb : (s.looking ctx.val).branchTarget d = .error code) :
    exec (.jump ctx) s = .next ((s.looking ctx.val).ctxFaults d.ctx code d.addr) := by
  refine (draw_taken h _).trans ?_
  rw [hb]
  rfl

/-- A CALL into a buffer that may be entered is taken up to 4 calls deep. -/
theorem exec_callList_inside (h : stands s ctx.val 0x0002 d) (h8 : d.u32 16 % 8 = 0)
    (hm : (s.looking ctx.val).gfxMay d.ctx (d.u64 8) (d.u32 16) = true) : exec (.callList ctx) s =
      .next (if 5 ≤ ((s.looking ctx.val).gctx d.ctx).stack.length then (s.looking ctx.val).ctxFaults d.ctx 3 d.addr
        else ((s.looking ctx.val).past d).modGctx d.ctx fun x => { x with stack := (d.u64 8, d.u64 8 + d.u32 16) :: x.stack }) := by
  refine (draw_taken h _).trans ?_
  simp only [branchTarget_inside h8 hm]
  rfl

/-- A pipeline whose check fails is not bound (R215). -/
theorem exec_setPipeline_inside (h : stands s ctx.val 0x0010 d) (hm : (s.looking ctx.val).gfxMay d.ctx (d.u64 8) 1 = true)
    (good : Bool) : exec (.setPipeline ctx good) s = .next (if good then ((s.looking ctx.val).past d).modGctx d.ctx fun x =>
      { x with bound := x.bound.set 0 (d.u64 8) } else (s.looking ctx.val).ctxFaults d.ctx 5 d.addr) := by
  refine (draw_taken h _).trans ?_
  simp only [hm, bindAt_inside hm]
  cases good <;> rfl

section
variable (h : stands s ctx.val 0x0061 d)
include h

/-- A wait for a context that is not one of the same tenant's is fault 4. -/
theorem exec_fenceWait_foreign (hw : d.ctx = 0 ∨ d.u8 4 = 0 ∨ 63 < d.u8 4 ∨
    (s.looking ctx.val).ctxOwner (d.u8 4) ≠ (s.looking ctx.val).ctxOwner d.ctx) :
    exec (.fenceWait ctx) s = .next ((s.looking ctx.val).ctxFaults d.ctx 4 d.addr) :=
  (draw_taken h _).trans (congrArg _ (if_pos hw))

theorem exec_fenceWait_own (hc : d.ctx ≠ 0) (h0 : d.u8 4 ≠ 0) (h63 : d.u8 4 ≤ 63)
    (how : (s.looking ctx.val).ctxOwner (d.u8 4) = (s.looking ctx.val).ctxOwner d.ctx) : exec (.fenceWait ctx) s =
      .next (if d.u64 8 ≤ ((s.looking ctx.val).past d).fence (d.u8 4) then (s.looking ctx.val).past d
        else (((s.looking ctx.val).past d).modGctx d.ctx fun x => { x with waiting := some (d.u8 4, d.u64 8) }).leaveRunning d.ctx
          ctxWaiting) := by
  refine (draw_taken h _).trans (congrArg _ (if_neg ?_))
  rintro (hn | hn | hn | hn)
  · exact hc hn
  · exact h0 hn
  · omega
  · exact hn how

end

end

/-- Settles O24: a context that stands at a packet takes it, so the packet's effect decides, that of a branch by the buffer it names,
that of a binding by the object's place, that of a wait by the counter. -/
theorem flowPackets : Obligations.FlowPackets := by
  refine ⟨fun s d => rfl, fun s ctx d h => draw_taken h _, fun s ctx d h => draw_taken h _,
    fun s ctx d h => ⟨fun h8 hm => ?jumps, fun h8 => ?misaligned, fun h8 hm => ?outside⟩,
    fun s ctx d h h8 hm => ⟨fun hlen => ?calls, fun hlen => ?tooDeep⟩,
    fun s ctx d h hm => ⟨exec_setPipeline_inside h hm true, exec_setPipeline_inside h hm false⟩,
    fun s ctx d h => ⟨fun hm => ?binds, fun hm => ?unreached⟩, fun s ctx d h hm => ?buffers, fun s ctx d h hm => ?dynamic,
    fun s ctx d h => draw_taken h _,
    fun s ctx d h => ⟨exec_fenceWait_foreign h, fun hc h0 h63 how => ⟨fun hle => ?reached, fun hlt => ?waits⟩⟩⟩
  case jumps => exact exec_jump_enters h (branchTarget_inside h8 hm)
  case misaligned => exact exec_jump_faults h (branchTarget_misaligned h8)
  case outside => exact exec_jump_faults h (branchTarget_outside h8 hm)
  case calls => exact (exec_callList_inside h h8 hm).trans (congrArg _ (if_neg (by omega)))
  case tooDeep => exact (exec_callList_inside h h8 hm).trans (congrArg _ (if_pos hlen))
  case binds => exact (draw_taken h _).trans (congrArg _ (bindAt_inside hm _))
  case unreached => exact (draw_taken h _).trans (congrArg _ (bindAt_outside hm _))
  case buffers => exact (draw_taken h _).trans (congrArg _ (bindAt_inside hm _))
  case dynamic => exact (draw_taken h _).trans (congrArg _ (bindAt_inside hm _))
  case reached => exact (exec_fenceWait_own h hc h0 h63 how).trans (congrArg _ (if_pos hle))
  case waits => exact (exec_fenceWait_own h hc h0 h63 how).trans (congrArg _ (if_neg (Nat.not_le.mpr hlt)))

/-! ### Packets that store in memory (R214) -/

section
variable {s : State} {ctx : Fin 64} {d : DrawAt}

theorem exec_timestamp_misaligned (h : stands s ctx.val 0x0070 d) (h8 : d.u64 8 % 8 ≠ 0) :
    exec (.timestamp ctx) s = .next ((s.looking ctx.val).ctxFaults d.ctx 1 d.addr) :=
  (draw_taken h _).trans (congrArg _ (if_pos h8))

theorem exec_timestamp_inside (h : stands s ctx.val 0x0070 d) (h8 : d.u64 8 % 8 = 0)
    (hm : (s.looking ctx.val).gfxMay d.ctx (d.u64 8) 8 = true) : exec (.timestamp ctx) s =
      .next (((s.looking ctx.val).store (d.u64 8) (leBytes 8 (s.looking ctx.val).now.word.toNat)).past d) := by
  refine (draw_taken h _).trans ?_
  simp only [h8, hm, ne_eq, not_true_eq_false, if_false, Bool.not_true, Bool.false_eq_true]

theorem exec_copy_inside (h : stands s ctx.val 0x0080 d) (hsrc : (s.looking ctx.val).gfxMay d.ctx (d.u64 8) (d.u32 24) = true)
    (hdst : (s.looking ctx.val).gfxMay d.ctx (d.u64 16) (d.u32 24) = true) : exec (.copy ctx) s =
      .next (((s.looking ctx.val).store (d.u64 16) ((s.looking ctx.val).load (d.u64 8) (d.u32 24))).past d) := by
  refine (draw_taken h _).trans ?_
  simp only [hsrc, hdst, Bool.not_true, Bool.or_self, Bool.false_eq_true, if_false]

theorem exec_fill_inside (h : stands s ctx.val 0x0081 d) (ha : d.u64 8 % 4 = 0) (hl : d.u32 16 % 4 = 0)
    (hm : (s.looking ctx.val).gfxMay d.ctx (d.u64 8) (d.u32 16) = true) : exec (.fill ctx) s =
      .next (((s.looking ctx.val).store (d.u64 8) ((List.range (d.u32 16 / 4)).flatMap fun _ => bytesAt d.bytes 4 4)).past d) := by
  refine (draw_taken h _).trans ?_
  simp only [ha, hl, hm, ne_eq, not_true_eq_false, or_self, if_false, Bool.not_true, Bool.false_eq_true]

end

/-! ### Draws and dispatches (R214, R215, R238) -/

section
variable {s : State} {d : DrawAt} {w : Work}

theorem doWork_noPass (hp : (s.gctx d.ctx).pass = none) : s.doWork d w = s.ctxFaults d.ctx 7 d.addr := by
  simp only [State.doWork, hp, State.packetFault]

theorem doWork_exception {p : PassRun} (hp : (s.gctx d.ctx).pass = some p) (he : w.exception = true) :
    s.doWork d w = s.ctxFaults d.ctx 8 d.addr := by
  simp only [State.doWork, hp, he, Bool.true_or, if_true, State.packetFault]

/-- What a pass has counted after work with `n` flushes (R238, R252). -/
def PassRun.counting (p : PassRun) (w : Work) (n : Nat) : PassRun :=
  { p with flushes := p.flushes + n, prims := p.prims + w.prims.toNat, culled := p.culled + w.culled.toNat,
           frags := p.frags + w.frags.toNat, bin := max p.bin w.bin.toNat }

/-- What the shaders of a pass wrote is stored, and the pass counts it; its first flush raises BIN_FLUSH. -/
theorem doWork_inPass {p : PassRun} (hp : (s.gctx d.ctx).pass = some p) (he : w.exception = false)
    (hmay : ∀ x ∈ w.writes, s.gfxMay d.ctx x.1.toNat x.2.length = true) :
    let n := if p.tiled then w.flushes.toNat else 0
    let t := w.writes.foldl (fun t x => t.store x.1.toNat x.2) s
    s.doWork d w = ((if n ≠ 0 ∧ p.flushes = 0 then t.raise 201 d.ctx else t).past d).modGctx d.ctx fun x =>
      { x with pass := some (p.counting w n) } := by
  have hin : (w.writes.any fun x => !s.gfxMay d.ctx x.1.toNat x.2.length) = false := by simpa using hmay
  simp only [State.doWork, PassRun.counting, hp, he, hin, State.when, State.each, Bool.or_self, Bool.false_eq_true, if_false,
    Bool.and_eq_true, bne_iff_ne, beq_iff_eq]

end

section
variable {s : State} {ctx : Fin 64} {d : DrawAt} {w : Work}

/-- The argument blocks of an indirect draw lie in the tenant's DRAM, or there are none. -/
theorem exec_drawIndirect_inside (h : stands s ctx.val 0x0032 d) (ha : d.u64 8 % 4 = 0)
    (hm : d.u32 16 = 0 ∨ (s.looking ctx.val).gfxMay d.ctx (d.u64 8)
      ((d.u32 16 - 1) * d.u32 20 + if d.u8 4 % 2 = 1 then 20 else 16) = true) :
    exec (.drawIndirect ctx w) s = .next ((s.looking ctx.val).doWork d w) := by
  refine (draw_taken h _).trans (congrArg _ ((if_neg (absurd ha)).trans (if_neg ?_)))
  rintro ⟨hn, hout⟩
  rcases hm with hm | hm
  · exact hn hm
  · simp only [hm, Bool.not_true, Bool.false_eq_true] at hout

theorem exec_dispatch_counted (h : stands s ctx.val 0x0040 d) (hn : ∀ i ∈ [8, 12, 16], 1 ≤ d.u32 i ∧ d.u32 i ≤ 65535) :
    exec (.dispatch ctx w) s = .next ((s.looking ctx.val).doWork d w) := by
  refine (draw_taken h _).trans (congrArg _ (if_neg ?_))
  simp only [List.any_eq_true, Bool.or_eq_true, beq_iff_eq, decide_eq_true_eq, not_exists, not_and]
  intro i hi
  have := hn i hi
  omega

theorem exec_dispatch_miscounted (h : stands s ctx.val 0x0040 d) (hn : ∃ i ∈ [8, 12, 16], d.u32 i = 0 ∨ 65535 < d.u32 i) :
    exec (.dispatch ctx w) s = .next ((s.looking ctx.val).ctxFaults d.ctx 1 d.addr) := by
  refine (draw_taken h _).trans (congrArg _ (if_pos ?_))
  simpa only [List.any_eq_true, Bool.or_eq_true, beq_iff_eq, decide_eq_true_eq] using hn

theorem exec_dispatchIndirect_inside (h : stands s ctx.val 0x0041 d) (ha : d.u64 8 % 4 = 0)
    (hm : (s.looking ctx.val).gfxMay d.ctx (d.u64 8) 12 = true) :
    exec (.dispatchIndirect ctx w) s = .next ((s.looking ctx.val).doWork d w) := by
  refine (draw_taken h _).trans ?_
  simp only [ha, hm, ne_eq, not_true_eq_false, if_false, Bool.not_true, Bool.false_eq_true]

end

/-! ### Passes (R233 to R236, R252) -/

section
variable {s : State} {b : List Byte} {force : Nat} {marked : Bool}

theorem selectStep_multisampled (h : leAt b 2 1 = 4) : s.selectStep b force marked = 1 := if_pos h

section
variable (h : leAt b 2 1 ≠ 4)
include h

theorem selectStep_forcedTiled (hf : force % 2 = 1) : s.selectStep b force marked = 2 := (if_neg h).trans (if_pos hf)

theorem selectStep_forcedImmediate (hf : force = 2) : s.selectStep b force marked = 3 := by
  subst hf; exact if_neg h

/-- Without a force bit the bin memory, the number of tiles and the pass history decide. -/
theorem selectStep_free (hf : force = 0) : s.selectStep b force marked = if leAt b 16 4 = 0 then 4
    else if tileCols b * tileRows b < s.get gfxTileCfg_TILED_MIN then 5 else if marked then 6 else 7 := by
  subst hf; exact if_neg h

end

end

section
variable {s : State} {ctx : Fin 64} {d : DrawAt}

/-- The selection step of the pass that a BEGIN_PASS names (R235). -/
def State.passStep (s : State) (d : DrawAt) : Nat :=
  s.selectStep (s.load (d.u64 8) 192) (d.u8 4) (markedIn (s.gctx d.ctx).history (d.u64 8))

/-- Whether that pass runs tiled. -/
def State.passTiled (s : State) (d : DrawAt) : Bool := stepTiled (s.passStep d) (s.load (d.u64 8) 192)

/-- The context moves past a BEGIN_PASS, its pass open in the mode that selection gives and its signature tables read. -/
def State.openPass (s : State) (d : DrawAt) : State :=
  let b := s.load (d.u64 8) 192
  let t := s.openTables d.ctx b (s.passTiled d)
  (t.1.past d).modGctx d.ctx fun x => { x with
    history := enterHistory x.history (d.u64 8),
    pass := some { desc := d.u64 8, bytes := b, tiled := s.passTiled d, step := s.passStep d, usable := t.2, flushes := 0,
                   prims := 0, culled := 0, frags := 0, bin := 0, begun := t.1.now, used := 0 } }

/-- A force that selection obeys raises no event. -/
theorem exec_beginPass_obeyed (h : stands s ctx.val 0x0020 d) (hp : ((s.looking ctx.val).gctx d.ctx).pass = none)
    (ha : d.u64 8 % 64 = 0) (hm : (s.looking ctx.val).gfxMay d.ctx (d.u64 8) 192 = true)
    (hbad : descriptorBad ((s.looking ctx.val).load (d.u64 8) 192) (d.u8 4) = false)
    (hout : (s.looking ctx.val).descriptorOutside d.ctx ((s.looking ctx.val).load (d.u64 8) 192) = false)
    (hf : ¬ (((s.looking ctx.val).passStep d = 1 ∧ d.u8 4 / 2 = 1)
      ∨ ((s.looking ctx.val).passStep d = 2 ∧ (s.looking ctx.val).passTiled d = false))) :
    exec (.beginPass ctx) s = .next ((s.looking ctx.val).openPass d) := by
  have hobeyed : (((s.looking ctx.val).passStep d == 1 && d.u8 4 / 2 == 1)
      || ((s.looking ctx.val).passStep d == 2 && !(s.looking ctx.val).passTiled d)) = false := by simpa using hf
  simp only [State.passTiled, State.passStep] at hobeyed
  refine (draw_taken h _).trans ?_
  simp only [hp, ha, hm, hbad, hout, hobeyed, State.when, Option.isSome_none, ne_eq, not_true_eq_false, Bool.not_true,
    Bool.false_eq_true, if_false]
  rfl

theorem exec_endPass_inPass {p : PassRun} (h : stands s ctx.val 0x0021 d) (hp : ((s.looking ctx.val).gctx d.ctx).pass = some p)
    (tiles : List TileData) : exec (.endPass ctx tiles) s = .next (((s.looking ctx.val).endPass d.ctx p tiles).past d) := by
  refine (draw_taken h _).trans ?_
  simp only [hp]

theorem exec_endPass_noPass (h : stands s ctx.val 0x0021 d) (hp : ((s.looking ctx.val).gctx d.ctx).pass = none)
    (tiles : List TileData) : exec (.endPass ctx tiles) s = .next ((s.looking ctx.val).ctxFaults d.ctx 7 d.addr) := by
  refine (draw_taken h _).trans ?_
  simp only [hp, State.packetFault]

/-- A pass without attachments that never flushed stores nothing but its statistics. -/
theorem endPass_bare {p : PassRun} (ha : attachments p.bytes = []) (hfl : p.flushes = 0) (c : Nat) (tiles : List TileData) :
    s.endPass c p tiles = (s.passStats c p 0 0).modGctx c fun x => { x with pass := none } := by
  simp only [State.endPass, ha, hfl, List.map_nil, List.filter_nil, List.foldl_nil, bne_self_eq_false, Bool.and_false,
    Bool.false_eq_true, if_false]

end

/-! ### Ray batches (R263) -/

/-- A well-formed batch in the tenant's DRAM, of a scene there, casts its rays. -/
theorem exec_rayBatch_inside {s : State} {ctx : Fin 64} {d : DrawAt} {sc : Scene} (h : stands s ctx.val 0x0090 d)
    (hwf : ¬ (d.u8 4 % 4 = 3 ∨ d.u32 24 = 0 ∨ 1048576 < d.u32 24 ∨ d.u64 8 % 64 ≠ 0 ∨ d.u64 16 % 32 ≠ 0 ∨ d.u64 32 % 32 ≠ 0))
    (hdesc : (s.looking ctx.val).gfxMay d.ctx (d.u64 8) 64 = true)
    (hrays : (s.looking ctx.val).gfxMay d.ctx (d.u64 16) (32 * d.u32 24) = true)
    (hres : (s.looking ctx.val).gfxMay d.ctx (d.u64 32) (32 * d.u32 24) = true)
    (hsc : (s.looking ctx.val).sceneAt (d.u64 8) = some sc) (hin : (s.looking ctx.val).gfxMay d.ctx sc.base sc.size = true) :
    exec (.rayBatch ctx) s = .next (((s.looking ctx.val).castBatch (some sc) d).past d) := by
  refine (draw_taken h _).trans (congrArg _ ((if_neg hwf).trans ?_))
  simp only [hdesc, hrays, hres, hsc, hin, Option.elim_some, Bool.not_true, Bool.or_self, Bool.false_eq_true, if_false]

/-- Settles O25: a context that stands at a packet takes it, so the packet's effect decides, that of a draw by its pass and its
shaders, that of BEGIN_PASS by the mode that selection gives. -/
theorem memoryAndShaderPackets : Obligations.MemoryAndShaderPackets := by
  refine ⟨fun s ctx d h => ⟨exec_timestamp_misaligned h, exec_timestamp_inside h⟩, fun s ctx d h => exec_copy_inside h,
    fun s ctx d h => exec_fill_inside h, fun s d w p hp he hmay => doWork_inPass hp he hmay,
    fun s d w => ⟨doWork_noPass, fun hp he => ?exception⟩, fun s ctx d w h => draw_taken h _, fun s ctx d w h => draw_taken h _,
    fun s ctx d w h => exec_drawIndirect_inside h, fun s ctx d w h => ⟨exec_dispatch_counted h, exec_dispatch_miscounted h⟩,
    fun s ctx d w h => exec_dispatchIndirect_inside h,
    fun s ctx d h => fun hp ha hm hbad hout hf => exec_beginPass_obeyed h hp ha hm hbad hout hf,
    fun s b force marked => ⟨selectStep_multisampled, selectStep_forcedTiled, selectStep_forcedImmediate, fun h4 hf h0 => ?noBins,
      fun h4 hf h0 hlt => ?fewTiles, fun h4 hf h0 hle => ⟨?marked, ?unmarked⟩⟩,
    fun s ctx d tiles h => ⟨fun p hp => exec_endPass_inPass h hp tiles, fun hp => exec_endPass_noPass h hp tiles⟩,
    fun s c p tiles ha hfl => endPass_bare ha hfl c tiles, fun s c p written skipped hrec => if_neg (by omega),
    fun s ctx d sc h => fun h3 h0 hmax ha8 ha16 ha32 hdesc hrays hres hsc hin =>
      exec_rayBatch_inside h (by omega) hdesc hrays hres hsc hin⟩
  case exception =>
    obtain ⟨p, hp⟩ := Option.ne_none_iff_exists'.mp hp
    exact doWork_exception hp he
  case noBins => rw [selectStep_free h4 hf, if_pos h0]
  case fewTiles => rw [selectStep_free h4 hf, if_neg h0, if_pos hlt]
  case marked => rw [selectStep_free h4 hf, if_neg h0, if_neg (Nat.not_lt.mpr hle)]; rfl
  case unmarked => rw [selectStep_free h4 hf, if_neg h0, if_neg (Nat.not_lt.mpr hle)]; rfl

end Sys2Proof.Machine

/-! Proofs of the obligations of 09_ray_picking.md: the pick opcodes, the launch of a pick and its end. -/
namespace Sys2Proof.Machine

/-! ### The end of a pick (R266 to R269) -/

section
variable {s : State} {p : Pick} {rest : List Pick}

/-- An end of the contact that the pick at the front belongs to finds that pick. -/
theorem find_pick_front {port contact : Nat} (h : s.gfx.picks = p :: rest) (hport : p.port = port) (hcontact : p.contact = contact) :
    (s.gfx.picks.find? fun p => p.port == port && p.contact == contact) = some p := by
  simp [h, hport, hcontact]

theorem erase_pick_front (h : s.gfx.picks = p :: rest) :
    (s.modGfx fun g => { g with picks := g.picks.erase p }) = s.modGfx fun g => { g with picks := rest } := by
  simp only [State.modGfx, h, List.erase_cons_head]

theorem when_beq_or (s : State) (n j k : Nat) (g : State → State) :
    s.when (n == j || n == k) g = if n = j ∨ n = k then g s else s := by
  simp only [State.when, Bool.or_eq_true, beq_iff_eq]

theorem when_decide (s : State) (c : Prop) [Decidable c] (g : State → State) : s.when (decide c) g = if c then g s else s := by
  simp only [State.when, decide_eq_true_eq]

end

/-- Settles O26: a packet that lands as the member of its caravan, a query by its answer, an end by the pick that it finds at the front,
a launch by the guards that its contact passes. -/
theorem picks : Obligations.Picks := by
  refine ⟨fun s p h => ⟨packet_lone h rfl, fun t => memberSpec_mem memberSpec_PickSet p s t⟩,
    fun s p h => ⟨packet_lone h rfl, fun t => memberSpec_mem memberSpec_PickScene p s t⟩,
    fun s p h => ⟨packet_lone h rfl, fun t => memberSpec_mem memberSpec_PickClasses p s t⟩,
    fun s p h => packet_answer h rfl nofun rfl, fun s p rest port contact spent h hport hcontact => ?completes,
    fun s p r latency => rfl, fun s port contact px py f zoned howner hen hreset hx hx' hy hy' hfree => ?launches⟩
  case completes =>
    change execPickComplete port contact spent s = _
    simp only [execPickComplete, find_pick_front h hport hcontact, erase_pick_front h, State.modGfx_get, when_beq, when_beq_or,
      when_decide]
  case launches =>
    have hin : s.get (gfxPickMin_X port) ≤ px ∧ px ≤ s.get (gfxPickMax_X port) ∧ s.get (gfxPickMin_Y port) ≤ py ∧
        py ≤ s.get (gfxPickMax_Y port) := ⟨hx, hx', hy, hy'⟩
    have hroom : ¬ 16 ≤ s.get (gfxPickStatus_IN_FLIGHT port) := Nat.not_le.mpr hfree
    simp only [State.launchPick, howner, flag_of_get_one hen, hin, hreset, hroom, and_self, decide_true, Option.isSome_none,
      Bool.not_true, Bool.or_self, Bool.false_eq_true, if_false]

end Sys2Proof.Machine

/-! Proofs of the obligations of 10_touch.md: the touch opcodes, integration and listen windows, self-tests and baseline stores. -/
namespace Sys2Proof.Machine

/-! ### The touch opcodes (R275, R284, R292, R294 to R296) -/

section
variable {s : State} {o : Origin}

theorem flag_of_get_ne_zero {f : RF} (h : s.get f ≠ 0) : s.flag f = true := bne_iff_ne.mpr h

/-- A self-test begins at once on a port that is enabled (R292). -/
theorem touchSelftest_run : specTouchSelftest.run s o =
    (let t := s.modPort o.tgt fun t => { t with tests := t.tests ++ [o] }
    if s.get (touchCtrl_EN o.tgt) = 0 then t else t.put (touchStatus_STATE o.tgt) 1, .later) := by
  simp only [specTouchSelftest, State.flag, State.modPort_get, when_bne_zero]

/-- The first BASELINE_STORE of a port begins a store on set 0 (R284). -/
theorem baselineStore_begins (h : (s.tport o.tgt).store = none) : specBaselineStore.run s o =
    (((s.modPort o.tgt fun t => { t with store := some ⟨0, [], [], s.get (touchStatus_COMB_CUR o.tgt), [o]⟩ }).put
      (touchStatus_STATE o.tgt) 3).put (touchStatus_COMB_CUR o.tgt) 0, .later) := by
  simp only [specBaselineStore, h, Option.getD_none, beq_self_eq_true, when_true, List.nil_append]

theorem baselineReset_disabled (h : s.get (touchCtrl_EN o.tgt) = 0) : specBaselineReset.run s o = (s, .answer (done 0 0)) := by
  simp only [specBaselineReset, flag_of_get_zero h, Bool.false_eq_true, if_false]

/-- An enabled port starts anew on a snapshot, and its contacts end as ups (R295). -/
theorem baselineReset_enabled (h : s.get (touchCtrl_EN o.tgt) ≠ 0) : specBaselineReset.run s o =
    ((s.startScan o.tgt .snapshot).modPort o.tgt fun t => { t with ups := t.ups ++ (s.tport o.tgt).contacts },
      .answer (done 0 0)) := by
  simp only [specBaselineReset, flag_of_get_ne_zero h, if_true]

theorem touchQuery_run {x y : Nat} (h : s.touchWords o.tgt (o.u8 0) = (x, y)) :
    specTouchQuery.run s o = (s, .answer (done x y)) := by
  simp only [specTouchQuery, h]

end

/-- Settles O27: a packet that lands as the member of its caravan; each other packet passes its checks, so its effect decides, that
of BASELINE_RESET by the port's enable and that of TOUCH_QUERY by its selector. -/
theorem touchPackets : Obligations.TouchPackets := by
  refine ⟨fun s p h => ⟨packet_lone h rfl, fun t => memberSpec_mem memberSpec_TouchSet p s t⟩, fun s line en v => ⟨rfl, rfl⟩,
    fun s p h => ⟨packet_lone h rfl, fun t => memberSpec_mem memberSpec_ZoneSet p s t⟩,
    fun s p h => packet_later h rfl nofun touchSelftest_run, fun s p h hstore => ?stores,
    fun s p h => ⟨fun hen => ?disabled, fun hen => ?enabled⟩, fun s p how => rfl,
    fun s p h => ⟨fun h0 => ?status, fun h1 => ?drive, fun h2 => ?sense, fun h3 => ?noise⟩⟩
  case stores => exact packet_later h rfl nofun (baselineStore_begins hstore)
  case disabled => exact packet_answer h rfl nofun (baselineReset_disabled hen)
  case enabled => exact packet_answer h rfl nofun (baselineReset_enabled hen)
  case status => exact packet_answer h rfl nofun (touchQuery_run (if_pos h0))
  case drive => exact packet_answer h rfl nofun (touchQuery_run ((if_neg (by omega)).trans (if_pos h1)))
  case sense =>
    exact packet_answer h rfl nofun (touchQuery_run ((if_neg (by omega)).trans ((if_neg (by omega)).trans (if_pos h2))))
  case noise =>
    exact packet_answer h rfl nofun (touchQuery_run ((if_neg (by omega)).trans ((if_neg (by omega)).trans (if_neg (by omega)))))

/-! ### Integration windows and contacts (R273, R277, R280, R281) -/

section
variable {s : State} {port : Fin 4} {slot : Fin 8}

/-- At the position of its window a port takes the counts of the present instant. -/
theorem exec_touchWindowEnd_due (hs : s.scans port.val = true) (hen : s.get (touchWin_EN port.val slot.val) = 1)
    (hat : s.upcoming (s.addGrains ⟨s.now.frame, s.get (touchWin_LINE port.val slot.val), 0⟩ s.windowGrains) = s.now)
    (raw : List W16) (clipped : BitVec 112) (monitor : List W16) :
    exec (.touchWindowEnd port slot raw clipped monitor) s = .next (s.touchWindow port.val slot.val raw clipped monitor) := by
  change execTouchWindowEnd port slot raw clipped monitor s = _
  simp only [execTouchWindowEnd, hs, flag_of_get_one hen, hat, advanceTo_present, Bool.not_true, Bool.or_self, Bool.false_eq_true,
    if_false]

/-- A window without clipped converters, outside a baseline store, is processed on a scanning port and kept on any other. -/
theorem touchWindow_unclipped {p j : Nat} (hs : s.scans p = true) (hen : s.get (touchWin_EN p j) = 1)
    (hstore : (s.tport p).store = none) (raw monitor : List W16) : s.touchWindow p j raw 0 monitor =
      if s.get (touchStatus_STATE p) = 2 then s.scanWindow p (windowRaws raw 0) monitor else s.setRaws p (windowRaws raw 0) := by
  have hnone : ((List.range senses).filter fun c => (0 : BitVec 112).getLsbD c) = [] :=
    List.filter_eq_nil_iff.mpr fun c _ => by simp
  simp only [State.touchWindow, hs, flag_of_get_one hen, hnone, State.each, List.foldl_nil, hstore, Bool.not_true, Bool.or_self,
    Bool.false_eq_true, if_false]

theorem exec_longTouch_down {contact : Fin 16} {c : Contact} (hs : s.scans port.val = true) (hc : c ∈ (s.tport port.val).contacts)
    (hid : c.id = contact.val) : exec (.longTouch port contact) s = .next ((s.modPort port.val fun t => { t with
      contacts := t.contacts.map fun c => if c.id = contact.val then { c with long := true } else c }).raise 261
        (port.val * 256 + contact.val)) := by
  have hdown : ((s.tport port.val).contacts.any fun c => c.id == contact.val) = true :=
    List.any_eq_true.mpr ⟨c, hc, beq_iff_eq.mpr hid⟩
  exact congrArg Host.Outcome.next (if_pos (by simp only [hs, hdown, Bool.and_self]))

end

/-! ### Baseline tracking (R278, R282, R283) -/

section
variable {t : TouchPort} {shift neg frames hold i base raw : Nat} {delta : Int}

theorem trackNode_excluded (h : t.out i = true) : trackNode t shift neg frames hold i base raw delta = (base, false) := if_pos h

variable (hout : t.out i = false)
include hout

theorem trackNode_frozen (hf : frozen t.contacts i = true) : trackNode t shift neg frames hold i base raw delta = (base, false) :=
  (if_neg (by simp [hout])).trans (if_pos hf)

variable (hf : frozen t.contacts i = false)
include hf

/-- A run of negative windows resets a node's baseline to its raw count. -/
theorem trackNode_negative (hn : frames ≤ (sget t.negative i).toNat) :
    trackNode t shift neg frames hold i base raw delta = (raw * 256, true) :=
  (if_neg (by simp [hout])).trans ((if_neg (by simp [hf])).trans (if_pos hn))

/-- A node that nothing freezes or resets moves towards its raw count by a sixteenth while it recovers, and by TRACK_SHIFT while it is
quiet. -/
theorem trackNode_free (hn : (sget t.negative i).toNat < frames) : trackNode t shift neg frames hold i base raw delta =
    let gap : Int := (raw * 256 : Nat) - (base : Int)
    if sget t.recovering i ≠ 0 then (((base : Int) + gap.fdiv 16).toNat, false)
    else if -(neg : Int) < delta ∧ 2 * delta < (hold : Int) then (((base : Int) + gap.fdiv (2 ^ shift : Nat)).toNat, false)
    else (base, false) :=
  (if_neg (by simp [hout])).trans ((if_neg (by simp [hf])).trans (if_neg (Nat.not_le.mpr hn)))

end

/-! ### Noise and hopping (R285) -/

section
variable {s : State} {p : Nat}

/-- A port with the noise of its four sets. -/
def State.withNoise (s : State) (p n0 n1 n2 n3 : Nat) : State :=
  (((s.put (touchNoise_N_LO p 0) n0).put (touchNoise_N_HI p 0) n1).put (touchNoise_N_LO p 1) n2).put (touchNoise_N_HI p 1) n3

/-- A port that has heard another noisy listen window. -/
def State.noisier (s : State) (p : Nat) : State := s.modPort p fun t => { t with noisyRun := (s.tport p).noisyRun + 1 }

/-- A port whose noisy run is long enough decides a hop to a better set, or is noisy. -/
def State.hopOrNoisy (s : State) (p cur : Nat) : State :=
  match s.betterSet p with
  | some c => (s.modPort p fun t => { t with hop := some c, noisyRun := 0 }).put (touchStatus_NOISY p) 0
  | none => if s.flag (touchStatus_NOISY p) then s else (s.put (touchStatus_NOISY p) 1).raise 263 (p * 256 + cur)

theorem hopOrNoisy_better {c : Nat} (h : s.betterSet p = some c) (cur : Nat) : s.hopOrNoisy p cur =
    (s.modPort p fun t => { t with hop := some c, noisyRun := 0 }).put (touchStatus_NOISY p) 0 := by
  simp only [State.hopOrNoisy, h]

theorem hopOrNoisy_stuck (h : s.betterSet p = none) (hq : s.get (touchStatus_NOISY p) = 0) (cur : Nat) :
    s.hopOrNoisy p cur = (s.put (touchStatus_NOISY p) 1).raise 263 (p * 256 + cur) := by
  simp only [State.hopOrNoisy, h, flag_of_get_zero hq, Bool.false_eq_true, if_false]

/-- A port that may not hop, has not been noisy for long enough or is about to hop decides nothing. -/
theorem hopBarred_iff {run : Nat} : (!s.flag (touchCtrl_HOP_EN p) || decide (run < s.get (touchHop_HOP_FRAMES p))
    || (s.tport p).hop.isSome) = true ↔
      s.get (touchCtrl_HOP_EN p) = 0 ∨ run < s.get (touchHop_HOP_FRAMES p) ∨ (s.tport p).hop ≠ none := by
  simp [State.flag, or_assoc, Option.isSome_iff_ne_none]

end

section
variable {s : State} {port : Fin 4} (hs : s.scans port.val = true) (hen : s.get (touchListen_EN port.val) = 1)
  (hst : s.get (touchStatus_STATE port.val) = 2) (n0 n1 n2 n3 : W16)
include hs hen hst

/-- A listen window of a scanning port keeps the noise; the noise of the active set and the noisy run decide what follows. -/
theorem exec_listenWindowEnd_scanning :
    let p := port.val
    let t := s.withNoise p n0.toNat n1.toNat n2.toNat n3.toNat
    let cur := t.get (touchStatus_COMB_CUR p)
    let u := t.noisier p
    exec (.listenWindowEnd port n0 n1 n2 n3) s = .next
      (if t.noise p cur ≤ t.get (touchHop_HOP_THRESH p) then
        (t.modPort p fun t => { t with noisyRun := 0 }).put (touchStatus_NOISY p) 0
      else if !u.flag (touchCtrl_HOP_EN p) || decide ((t.tport p).noisyRun + 1 < u.get (touchHop_HOP_FRAMES p))
        || (u.tport p).hop.isSome then u
      else u.hopOrNoisy p cur) :=
  congrArg Host.Outcome.next (if_neg (by simp [hs, flag_of_get_one hen, hst]))

theorem exec_listenWindowEnd_decides :
    let p := port.val
    let t := s.withNoise p n0.toNat n1.toNat n2.toNat n3.toNat
    let cur := t.get (touchStatus_COMB_CUR p)
    let u := t.noisier p
    t.get (touchHop_HOP_THRESH p) < t.noise p cur → u.get (touchCtrl_HOP_EN p) ≠ 0 →
    u.get (touchHop_HOP_FRAMES p) ≤ (t.tport p).noisyRun + 1 → (u.tport p).hop = none →
    exec (.listenWindowEnd port n0 n1 n2 n3) s = .next (u.hopOrNoisy p cur) := by
  intro p t cur u hlt hhop hrun hnone
  have hfree : ¬ (u.get (touchCtrl_HOP_EN p) = 0 ∨ (t.tport p).noisyRun + 1 < u.get (touchHop_HOP_FRAMES p) ∨
      (u.tport p).hop ≠ none) := by
    rintro (h | h | h)
    · exact hhop h
    · exact Nat.not_le.mpr h hrun
    · exact h hnone
  exact (exec_listenWindowEnd_scanning hs hen hst n0 n1 n2 n3).trans
    (congrArg _ ((if_neg (Nat.not_le.mpr hlt)).trans (if_neg (mt hopBarred_iff.mp hfree))))

end

/-! ### Self-tests and baseline stores (R284, R290 to R292) -/

section
variable {s : State} {p : Nat} {b : BaselineStore}

/-- A port whose means are in flash: its factory baselines are valid, and it is back on its set (R284). -/
def State.flashed (s : State) (p : Nat) (b : BaselineStore) : State :=
  (((({ s with touch := { s.touch with factory := sput s.touch.factory (4 * p * nodes) (b.means.map (BitVec.ofNat 16)) } } :
    State).put touchFactory_VALID (setField (s.get touchFactory_VALID) (4 * p) 4 15)).modPort p fun t => { t with store := none }).put
    (touchStatus_COMB_CUR p) b.home)

theorem get_flashed_STATE (h : swf s.regs = true) : (s.flashed p b).get (touchStatus_STATE p) = s.get (touchStatus_STATE p) := by
  have haddr : (touchStatus_STATE p).reg.addr ≠ touchFactory_VALID.reg.addr := by
    simp only [touchStatus_STATE, touchStatus, touchFactory_VALID, touchFactory]
    omega
  exact (get_put_r (swf_put h _ _) rfl rfl _).trans (get_put_ne h haddr _)

theorem exec_baselineStoreComplete_whole {port : Fin 4} (hb : (s.tport port.val).store = some b) (h64 : 64 ≤ b.windows)
    (hst : s.get (touchStatus_STATE port.val) = 3) (hc : s.canonical = true) :
    exec (.baselineStoreComplete port) s = .next (b.origins.foldl (fun t o => t.settle o (done 0 0))
      ((s.flashed port.val b).put (touchStatus_STATE port.val) 2)) := by
  have hwhen : (s.flashed port.val b).when ((s.flashed port.val b).get (touchStatus_STATE port.val) == 3)
      (fun t => t.put (touchStatus_STATE port.val) 2) = (s.flashed port.val b).put (touchStatus_STATE port.val) 2 :=
    (when_beq _ _ _ _).trans (if_pos ((get_flashed_STATE (canonical_regs hc)).trans hst))
  change execBaselineStoreComplete port s = _
  simp only [execBaselineStoreComplete, hb, Nat.not_lt.mpr h64, if_false, ← hwhen]
  rfl

end

/-- Settles O28: a window by the state of its port, a node by the rules of tracking in their order, a listen window by the noise and
the run of its port, the ends of a self-test and of a baseline store by the state that awaits them. -/
theorem touchScanning : Obligations.TouchScanning := by
  refine ⟨fun s port slot raw monitor clipped hs hen hat => exec_touchWindowEnd_due hs hen hat raw clipped monitor,
    fun s p slot raw monitor hs hen hstore => ⟨fun hst => ?processed, fun hst => ?kept⟩,
    fun t shift neg frames hold i base raw delta => ⟨trackNode_excluded, trackNode_frozen, trackNode_negative,
      fun hout hf hn => ⟨fun hr => ?recovers, fun hr hlo hhi => ?follows, fun hr hfar => ?stays⟩⟩,
    fun s port contact c l hs hl hc hid => ?long,
    fun s port n0 n1 n2 n3 hs hen hst => ⟨fun hle => ?quiet, fun hlt => ⟨fun hshort => ?waits, fun hhop hrun hnone =>
      ⟨fun c hc => ?hops, fun hstuck hquiet => ?noisy⟩⟩⟩,
    fun s port raw monitor clipped bias hs hst => ?tested,
    fun s port b hb h64 hst hc => exec_baselineStoreComplete_whole hb h64 hst hc⟩
  case processed => exact (touchWindow_unclipped hs hen hstore raw monitor).trans (if_pos hst)
  case kept => exact (touchWindow_unclipped hs hen hstore raw monitor).trans (if_neg hst)
  case recovers => exact (trackNode_free hout hf hn).trans (if_pos hr)
  case follows => exact (trackNode_free hout hf hn).trans ((if_neg (absurd hr)).trans (if_pos ⟨hlo, hhi⟩))
  case stays => exact (trackNode_free hout hf hn).trans ((if_neg (absurd hr)).trans (if_neg (by omega)))
  case long =>
    subst hl
    exact exec_longTouch_down hs hc hid
  case quiet => exact (exec_listenWindowEnd_scanning hs hen hst n0 n1 n2 n3).trans (congrArg _ (if_pos hle))
  case waits =>
    exact (exec_listenWindowEnd_scanning hs hen hst n0 n1 n2 n3).trans
      (congrArg _ ((if_neg (Nat.not_le.mpr hlt)).trans (if_pos (hopBarred_iff.mpr (hshort.imp_right .inl)))))
  case hops =>
    exact (exec_listenWindowEnd_decides hs hen hst n0 n1 n2 n3 hlt hhop hrun hnone).trans (congrArg _ (hopOrNoisy_better hc _))
  case noisy =>
    exact (exec_listenWindowEnd_decides hs hen hst n0 n1 n2 n3 hlt hhop hrun hnone).trans
      (congrArg _ (hopOrNoisy_stuck hstuck hquiet _))
  case tested => exact congrArg Host.Outcome.next (if_neg (by simp [hs, hst]))

end Sys2Proof.Machine

/-! Proofs of the obligations of 11_haptics.md: the haptic opcodes, and the plays, triggers, faults and checks of a channel. -/
namespace Sys2Proof.Machine

/-! ### Channel setup (R298, R311, R312) -/

/-- A channel without a power stage acts only on a change of TYPE: to 0 it is off, from 0 it is checked. -/
theorem typeChanged_unshared {s : State} {n : Nat} (hn : n < 6) (old : Nat) : s.typeChanged n old =
    if s.get (hapCfg_TYPE n) = old then s
    else if s.get (hapCfg_TYPE n) = 0 then (s.clearPending n).hapRest n hapOff
    else if old = 0 then s.startCheck n else s := by
  have hshared : ¬ 6 ≤ n := Nat.not_le.mpr hn
  simp only [State.typeChanged, hshared, decide_false, Bool.false_and, State.when, Bool.false_eq_true, if_false]

/-- Settles O29: a packet that lands as the member of its caravan; each other packet passes its checks, so its effect decides; a stop by
the state of the channel. -/
theorem hapticPackets : Obligations.HapticPackets := by
  refine ⟨fun s p h => ⟨packet_lone h rfl, fun t => memberSpec_mem memberSpec_HapChannelSet p s t⟩,
    fun s n old hn => ⟨fun hsame => ?same, fun hoff hold => ?turnedOff, fun hon hold => ?turnedOn⟩,
    fun s p h => ⟨packet_lone h rfl, fun t => memberSpec_mem memberSpec_HapEffectSet p s t⟩,
    fun s p h => packet_answer h rfl nofun rfl, fun s p h => packet_later_flip h rfl rfl rfl,
    fun s p h => packet_answer_flip h rfl rfl rfl,
    fun s n => ⟨fun hdrive => if_pos hdrive, fun hgap => ?gap, fun hdrive hgap => (if_neg hdrive).trans (if_neg hgap)⟩,
    fun s p h => packet_later h rfl nofun rfl, fun s p h => packet_answer h rfl nofun rfl⟩
  case same => exact (typeChanged_unshared hn old).trans (if_pos hsame)
  case turnedOff =>
    have hne : s.get (hapCfg_TYPE n) ≠ old := hoff ▸ hold.symm
    exact (typeChanged_unshared hn old).trans ((if_neg hne).trans (if_pos hoff))
  case turnedOn =>
    have hne : s.get (hapCfg_TYPE n) ≠ old := hold ▸ hon
    exact (typeChanged_unshared hn old).trans ((if_neg hne).trans ((if_neg hon).trans (if_pos hold)))
  case gap => exact (if_neg (by rw [hgap]; decide)).trans (if_pos hgap)

/-! ### The course of a play (R304, R305) -/

section
variable {s : State} {n : Nat} {p : HapPlay} (hp : (s.chan n).play = some p)
include hp

theorem endDrive_of_play : s.endDrive n =
    if fxFlag p.record 1 then ((s.learnK n p).hapEnter n hapBrake).hapSetLevel n else (s.learnK n p).finishPlay n := by
  simp only [State.endDrive, hp]

/-- A play with its pending effect: the effect starts from rest, after the last repeat with HAP_END. -/
theorem finishPlay_pending {e : Nat} {r : List Byte} :
    let t := if p.left = 0 then s.raise 325 (n * 256 + p.effect) else s
    (t.chan n).pending = some (e, r) → s.finishPlay n = (t.clearPending n).startPlay n (restPlay e r false) := by
  intro t hpend
  unfold t at *
  simp only [State.finishPlay, hp, when_beq, hpend]

/-- A play without a pending effect: the channel rests after the last repeat, and otherwise goes on after the gap. -/
theorem finishPlay_unpended :
    let t := if p.left = 0 then s.raise 325 (n * 256 + p.effect) else s
    (t.chan n).pending = none → s.finishPlay n =
      if p.left = 0 then t.hapRest n hapIdle
      else if fxGap p.record = 0 then t.startPlay n { p with left := p.left - 1, positive := true, od := fxOd p.record }
      else (t.hapEnter n hapGap).hapSetLevel n := by
  intro t hnone
  unfold t at *
  simp only [State.finishPlay, hp, when_beq, hnone]

end

section
variable {s : State} {ch : Fin 8} {p : HapPlay} (hp : (s.chan ch.val).play = some p)
include hp

theorem exec_repeatGapEnd_gap (hst : s.get (hapStatus_STATE ch.val) = hapGap) : exec (.repeatGapEnd ch) s =
    .next (s.startPlay ch.val { p with left := p.left - 1, positive := true, od := fxOd p.record }) := by
  change execRepeatGapEnd ch s = _
  simp only [execRepeatGapEnd, hp, State.hapState, hst, if_true]

/-! ### Float windows (R300, R304, R305) -/

variable (vb current : W16) (forward : Bool) (tm : W32)

/-- A channel that has heard the back-EMF and the direction of a float window. -/
def State.heard (s : State) (n vb : Nat) (forward : Bool) : State :=
  s.modChan n fun c => { c with vb := vb, motion := forward }

/-- A float window of a resonant drive ends a half-cycle, and one of a channel that brakes may end the braking. -/
theorem exec_backEmfWindow_of_play : exec (.backEmfWindow ch vb forward tm current) s = .next (
    let t := s.heard ch.val vb.toNat forward
    let u := t.hapSetLevel ch.val
    if s.get (hapStatus_STATE ch.val) = hapDrive ∧ fxKind p.record = 1 then t.halfCycle ch.val vb.toNat tm.toNat current.toNat p
    else if s.get (hapStatus_STATE ch.val) = hapBrake then
      if u.vbBelow ch.val vb.toNat (u.get (hapLimits_BRAKE_STOP ch.val)) p then u.finishPlay ch.val else u
    else s) := by
  change execBackEmfWindow ch vb forward tm current s = _
  simp only [execBackEmfWindow, hp]
  rfl

end

/-! ### Checks (R311) -/

/-- A resistance that the pulse measures is judged after the bridge's temperature. -/
theorem checkCode_measured {s : State} {microamps : Nat} (h : microamps ≠ 0) (n tenths : Nat) : s.checkCode n microamps tenths =
    if 1300 < tenths then 5
    else if s.get (hapRes_R_MAX n) < openRound 10000000 microamps then 1
    else if openRound 10000000 microamps < s.get (hapRes_R_MIN n) then 4
    else 0 := by
  simp only [State.checkCode, if_neg h]

/-- A check that R_MEAS can hold ends with the resistance kept, the outcome decided and every HAP_CLEAR answered. -/
theorem exec_resistanceCheckComplete_measured {s : State} {ch : Fin 8} {microamps : W32} (tenths : W16)
    (hc : (s.chan ch.val).checking = true) (h : microamps ≠ 0) (hr : openRound 10000000 microamps.toNat ≤ 65535) :
    let n := ch.val
    let code := s.checkCode n microamps.toNat tenths.toNat
    let t := (s.put (hapFault_R_MEAS n) (openRound 10000000 microamps.toNat)).modChan n fun c => { c with checking := false, clears := [] }
    let u := if t.get (hapStatus_STATE n) ≠ hapCheck then t
      else if code = 0 then ((t.put (hapStatus_STATE n) hapIdle).put (hapFault_CODE n) 0).raise 321 n else t.hapFail n code
    exec (.resistanceCheckComplete ch microamps tenths) s = .next
      ((s.chan n).clears.foldl (fun u o => u.settle o ⟨stDone, code, 0, 0⟩) u) := by
  have hheld : ¬ (microamps = 0 ∨ 65535 < openRound 10000000 microamps.toNat) := not_or.mpr ⟨h, Nat.not_lt.mpr hr⟩
  change execResistanceCheckComplete ch microamps tenths s = _
  simp only [execResistanceCheckComplete, hc, Bool.not_true, Bool.false_eq_true, if_false, if_neg hheld]
  rfl

/-! ### Triggers (R306) -/

/-- A trigger acts on a channel whose block works, while the bridges are driven, by the channel's state and the effect's record. -/
theorem hapAct_of_works {s : State} {n : Nat} (hb : s.bridges = true) (hu : s.chanUp n = true) (e : Nat) (urgent : Bool) :
    s.hapAct n e urgent =
      let st := s.get (hapStatus_STATE n)
      let r := s.effect n e
      if st = hapOff ∨ st = hapCheck then (s.hapDrop n 2, 2)
      else if st = hapFaulted then (s.hapDrop n 3, 3)
      else if 63 < e ∨ (fxKind r ≠ 1 ∧ fxKind r ≠ 2) ∨ (fxKind r = 1 ∧ s.get (hapCfg_TYPE n) = 2) then (s.hapDrop n 4, 4)
      else if st = hapIdle ∨ st = hapGap then ((s.clearPending n).startPlay n (restPlay e r urgent), hapStarted)
      else if urgent then ((s.replacePending n).urgentCut n e r, hapStarted)
      else ((((s.replacePending n).modChan n fun c => { c with pending := some (e, r) }).put (hapStatus_PENDING n) 1).put
        (hapStatus_PEND_FX n) e, hapPending) := by
  simp only [State.hapAct, State.hapState, hb, hu, Bool.not_true, Bool.false_eq_true, or_false]

theorem replacePending_none {s : State} {n : Nat} (h : (s.chan n).pending = none) : s.replacePending n = s := by
  simp only [State.replacePending, h, Option.isSome_none, Bool.false_eq_true, if_false]

section
variable {s : State} {n e : Nat} (hb : s.bridges = true) (hu : s.chanUp n = true) (he : e ≤ 63)
  (hk : fxKind (s.effect n e) = 1 ∨ fxKind (s.effect n e) = 2) (hty : s.get (hapCfg_TYPE n) ≠ 2)
include hb hu he hk hty

/-- An effect that its channel can play is not dropped for its record (R306). -/
theorem hapAct_playable (hst : s.get (hapStatus_STATE n) = hapIdle ∨ s.get (hapStatus_STATE n) = hapGap ∨
    s.get (hapStatus_STATE n) = hapDrive ∨ s.get (hapStatus_STATE n) = hapBrake) (urgent : Bool) : s.hapAct n e urgent =
      let st := s.get (hapStatus_STATE n)
      let r := s.effect n e
      if st = hapIdle ∨ st = hapGap then ((s.clearPending n).startPlay n (restPlay e r urgent), hapStarted)
      else if urgent then ((s.replacePending n).urgentCut n e r, hapStarted)
      else ((((s.replacePending n).modChan n fun c => { c with pending := some (e, r) }).put (hapStatus_PENDING n) 1).put
        (hapStatus_PEND_FX n) e, hapPending) := by
  have hoff : ¬ (s.get (hapStatus_STATE n) = hapOff ∨ s.get (hapStatus_STATE n) = hapCheck) := by
    unfold hapIdle hapGap hapDrive hapBrake hapOff hapCheck at *; omega
  have hfault : s.get (hapStatus_STATE n) ≠ hapFaulted := by
    unfold hapIdle hapGap hapDrive hapBrake hapFaulted at *; omega
  have hplays : ¬ (63 < e ∨ (fxKind (s.effect n e) ≠ 1 ∧ fxKind (s.effect n e) ≠ 2) ∨
      (fxKind (s.effect n e) = 1 ∧ s.get (hapCfg_TYPE n) = 2)) := by omega
  exact (hapAct_of_works hb hu e urgent).trans ((if_neg hoff).trans ((if_neg hfault).trans (if_neg hplays)))

/-- On a busy channel without a pending effect an urgent trigger cuts the play, and any other waits. -/
theorem hapAct_busy (hst : s.get (hapStatus_STATE n) = hapDrive ∨ s.get (hapStatus_STATE n) = hapBrake)
    (hnone : (s.chan n).pending = none) (urgent : Bool) : s.hapAct n e urgent =
      if urgent then (s.urgentCut n e (s.effect n e), hapStarted)
      else (((s.modChan n fun c => { c with pending := some (e, s.effect n e) }).put (hapStatus_PENDING n) 1).put
        (hapStatus_PEND_FX n) e, hapPending) := by
  have hbusy : ¬ (s.get (hapStatus_STATE n) = hapIdle ∨ s.get (hapStatus_STATE n) = hapGap) := by
    unfold hapIdle hapGap hapDrive hapBrake at *; omega
  refine (hapAct_playable hb hu he hk hty (.inr (.inr hst)) urgent).trans ((if_neg hbusy).trans ?_)
  rw [replacePending_none hnone]

end

/-- Settles O30: each end of a part of a play by the state of the channel, a play that is over by what waits for it, a window by the
state that hears it, a fault by its criterion, a check by its measure, a trigger by the state that it finds. -/
theorem hapticPlays : Obligations.HapticPlays := by
  refine ⟨fun s ch p hst hp => ?driven, fun s n p => ⟨fun hk hh ha => if_pos ⟨hk, hh, ha⟩, fun hshort => ?unlearned⟩,
    fun s ch hst => congrArg Host.Outcome.next (if_pos hst), fun s ch p hst hp => exec_repeatGapEnd_gap hp hst,
    fun s n p => rfl, fun s n p hp => ⟨fun e r hpend => ?next, fun hnone => ⟨fun hleft => ?ended, fun hleft hgap => ?repeats,
      fun hleft hgap => ?waits⟩⟩,
    fun s ch vb current forward tm p hp => ⟨fun hst hk => ?turns, fun hst => ?brakes⟩,
    fun s ch code h => congrArg Host.Outcome.next (if_pos h),
    fun s ch microamps tenths hc h hr => exec_resistanceCheckComplete_measured tenths hc h hr,
    fun s n microamps tenths h => ⟨fun hhot => ?hot, fun hcool hmax => ?missing, fun hcool hmax hmin => ?short,
      fun hcool hmax hmin => ?passes⟩,
    fun s n e urgent hb hu => ⟨fun hst => ?off, fun hst => ?faulted, fun hst he hk hty => ?starts,
      fun hst he hk hty hnone => ⟨?cuts, ?pends⟩⟩⟩
  case driven => exact congrArg Host.Outcome.next ((if_pos hst).trans (endDrive_of_play hp))
  case unlearned => exact if_neg (by omega)
  case next => exact finishPlay_pending hp hpend
  case ended => exact (finishPlay_unpended hp hnone).trans (if_pos hleft)
  case repeats => exact (finishPlay_unpended hp hnone).trans ((if_neg hleft).trans (if_pos hgap))
  case waits => exact (finishPlay_unpended hp hnone).trans ((if_neg hleft).trans (if_neg hgap))
  case turns => exact (exec_backEmfWindow_of_play hp vb current forward tm).trans (congrArg _ (if_pos ⟨hst, hk⟩))
  case brakes =>
    have hdrive : ¬ (s.get (hapStatus_STATE ch.val) = hapDrive ∧ fxKind p.record = 1) :=
      fun h => absurd (hst.symm.trans h.1) (by decide)
    exact (exec_backEmfWindow_of_play hp vb current forward tm).trans (congrArg _ ((if_neg hdrive).trans (if_pos hst)))
  case hot => exact (checkCode_measured h n tenths).trans (if_pos hhot)
  case missing => exact (checkCode_measured h n tenths).trans ((if_neg (Nat.not_lt.mpr hcool)).trans (if_pos hmax))
  case short =>
    exact (checkCode_measured h n tenths).trans
      ((if_neg (Nat.not_lt.mpr hcool)).trans ((if_neg (Nat.not_lt.mpr hmax)).trans (if_pos hmin)))
  case passes =>
    exact (checkCode_measured h n tenths).trans
      ((if_neg (Nat.not_lt.mpr hcool)).trans ((if_neg (Nat.not_lt.mpr hmax)).trans (if_neg (Nat.not_lt.mpr hmin))))
  case off => exact (hapAct_of_works hb hu e urgent).trans (if_pos hst)
  case faulted =>
    exact (hapAct_of_works hb hu e urgent).trans ((if_neg (by rw [hst]; decide)).trans (if_pos hst))
  case starts =>
    exact (hapAct_playable hb hu he hk hty (hst.imp_right .inl) urgent).trans (if_pos hst)
  case cuts => exact hapAct_busy hb hu he hk hty hst hnone true
  case pends => exact hapAct_busy hb hu he hk hty hst hnone false

end Sys2Proof.Machine

/-! Proofs of the obligations of 12_audio.md: the audio opcodes, and the samples, steps and tones of the engine. -/
namespace Sys2Proof.Machine

/-! ### The audio opcodes (R319, R321 to R325, R330, R331, R333, R339, R340) -/

section
variable {s : State}

/-- A sink of a line or of the TDM port has no power stage: to enable it is to start it on its bus. -/
theorem sinkEnabled_line {k : Nat} (hk : k < 4) (old : Bool) : s.sinkEnabled k old =
    if s.get (audSinkCtrl_EN k) = 0 then s
    else if old then s
    else s.modSink k fun u => { u with bus := s.get (audSinkCtrl_SINK_BUS k), phase := 0, wait := 0 } := by
  have hline : speakerOf k = none := if_neg (by omega)
  unfold State.sinkEnabled
  by_cases hen : s.get (audSinkCtrl_EN k) = 0
  · rw [flag_of_get_zero hen, if_pos hen]
    exact if_neg Bool.false_ne_true
  · rw [flag_of_get_ne_zero hen, if_neg hen, hline]
    rfl

/-- What a query shows of a resource, by the range of numbers that its kind has (R318, R340). -/
theorem audioWords_eq (t : Nat) : s.audioWords t =
    if t < 32 then ((s.rd (audStrCtrl t)).toNat, if t = 0 then s.audNow else (s.rd (audStrPos t)).toNat)
    else if 32 ≤ t ∧ t < 40 then
      ((s.rd (audToneCfg (t - 32))).toNat + 0x100000000 * (s.rd (audToneFreq (t - 32))).toNat,
        (s.rd (audToneTime (t - 32))).toNat + 0x100000000 * (s.rd (audToneOff (t - 32))).toNat)
    else if 64 ≤ t ∧ t < 80 then ((s.rd (audBusCtrl (t - 64))).toNat + 0x100000000 * (s.rd (audBusDyn (t - 64))).toNat, 0)
    else if 96 ≤ t ∧ t < 110 then ((s.rd (audSinkCtrl (t - 96))).toNat, 0)
    else ((s.rd (audOwner t)).toNat, 0) := by
  simp only [State.audioWords, isStream, isTone, isBus, isSink, decide_eq_true_eq, Bool.and_eq_true]

theorem audQuery_run {o : Origin} {x y : Nat} (h : s.audioWords o.tgt = (x, y)) :
    specAudQuery.run s o = (s, .answer (done x y)) := by
  simp only [specAudQuery, h]

end

/-- Settles O31: a packet that lands as the member of its caravan; each other packet passes its checks, so its effect decides, that of
AUD_QUERY by the kind of its target. -/
theorem audioPackets : Obligations.AudioPackets := by
  refine ⟨fun s p h => packet_answer h rfl nofun rfl,
    fun s p h => ⟨packet_lone h rfl, fun t => memberSpec_mem memberSpec_RouteSet p s t⟩,
    fun s p h => ⟨packet_lone h rfl, fun t => memberSpec_mem memberSpec_BusSet p s t⟩,
    fun s p h => ⟨packet_lone h rfl, fun t => memberSpec_mem memberSpec_EqSet p s t⟩,
    fun s p h => ⟨packet_lone h rfl, fun t => memberSpec_mem memberSpec_SinkSet p s t⟩,
    fun s k old hk => ⟨fun hen => ?disabled, fun hen => ⟨?runs, ?starts⟩⟩,
    fun s p h => ⟨packet_lone h rfl, fun t => memberSpec_mem memberSpec_StreamSet p s t⟩,
    fun s p h => packet_answer_flip h rfl rfl rfl,
    fun s p h => ⟨packet_lone h rfl, fun t => memberSpec_mem memberSpec_ToneSet p s t⟩,
    fun s p h hstart => ⟨packet_lone h rfl, fun t => (memberSpec_mem memberSpec_TonePlay p s t).trans (if_pos hstart)⟩,
    fun s p h hstop => ⟨packet_lone h rfl, fun t => (memberSpec_mem memberSpec_TonePlay p s t).trans (if_neg ?stops)⟩,
    fun s p h => packet_answer h rfl nofun rfl,
    fun s p h => ⟨fun hzero => ?first, fun hlo hhi => ?stream, fun hlo hhi => ?tone, fun hlo hhi => ?input, fun hlo hhi => ?bus,
      fun hlo hhi => ?sink⟩⟩
  case disabled => exact (sinkEnabled_line hk old).trans (if_pos hen)
  case runs => exact (sinkEnabled_line hk true).trans (if_neg hen)
  case starts => exact (sinkEnabled_line hk false).trans (if_neg hen)
  case stops => exact fun hstart => absurd (hstop.symm.trans hstart) (by decide)
  case first =>
    exact packet_answer h rfl nofun (audQuery_run ((audioWords_eq _).trans ((if_pos (by omega)).trans (by rw [hzero]; rfl))))
  case stream =>
    exact packet_answer h rfl nofun (audQuery_run ((audioWords_eq _).trans ((if_pos hhi).trans (by rw [if_neg (by omega)]))))
  case tone =>
    exact packet_answer h rfl nofun (audQuery_run ((audioWords_eq _).trans ((if_neg (by omega)).trans (if_pos ⟨hlo, hhi⟩))))
  case input =>
    exact packet_answer h rfl nofun (audQuery_run ((audioWords_eq _).trans
      ((if_neg (by omega)).trans ((if_neg (by omega)).trans ((if_neg (by omega)).trans (if_neg (by omega)))))))
  case bus =>
    exact packet_answer h rfl nofun (audQuery_run ((audioWords_eq _).trans
      ((if_neg (by omega)).trans ((if_neg (by omega)).trans (if_pos ⟨hlo, hhi⟩)))))
  case sink =>
    exact packet_answer h rfl nofun (audQuery_run ((audioWords_eq _).trans
      ((if_neg (by omega)).trans ((if_neg (by omega)).trans ((if_neg (by omega)).trans (if_pos ⟨hlo, hhi⟩))))))

/-! ### Steps at their timeout (R327, R328) -/

section
variable {s : State}

theorem countTimeout_true : s.countTimeout true = s.bump audZcToCnt_COUNT := rfl

theorem exec_zcTimeoutExpiry_crosspoint {index : Fin 800}
    (h : s.xpGain (index.val / 16) (index.val % 16) ≠ s.get (audXp_GAIN (index.val / 16) (index.val % 16))) :
    exec (.zcTimeoutExpiry 0 index) s = .next ((s.modAud fun a => { a with
      gains := sset a.gains index.val (BitVec.ofNat 8 (s.get (audXp_GAIN (index.val / 16) (index.val % 16)))),
      waits := sset a.waits index.val 0 }).bump audZcToCnt_COUNT) :=
  congrArg Host.Outcome.next (if_neg h)

theorem stepBus_timeout {b : Nat} (h : (s.bus b).gain ≠ s.get (audBusCtrl_GAIN b)) : s.stepBus b (true, true) =
    (s.modBus b fun u => { u with gain := s.get (audBusCtrl_GAIN b), gainWait := 0 }).bump audZcToCnt_COUNT := if_neg h

/-- A bus that returns from a change of BYPASS has made it (R328). -/
theorem switchBus_returns {b : Nat} (h : (s.bus b).phase = 3) : s.switchBus b (true, true) =
    ((s.modBus b fun u => { u with phase := 0, wait := 0 }).bump audZcToCnt_COUNT).raise 360
      (b * 256 + if (s.bus b).bypass then 1 else 0) := by
  simp [State.switchBus, h, countTimeout_true]

/-- A sink that returns from a move has made it (R328). -/
theorem stepSink_returns {k : Nat} (h : (s.sink k).phase = 3) : s.stepSink k (true, true) =
    ((s.modSink k fun u => { u with phase := 0, gain := s.get (audSinkCtrl_GAIN k), wait := 0 }).bump audZcToCnt_COUNT).raise 359
      (k * 256 + (s.sink k).bus) := by
  simp [State.stepSink, h, countTimeout_true]

end

/-! ### Samples, sinks and tones (R320, R330, R331, R335) -/

section
variable {s : State}

variable {t i : Nat} (h : s.get (audToneCfg_RUN t) ≠ 0)
include h

theorem partEnd_nextPart (hnext : s.partFrom t ((s.tone t).part + 1) = some i) : s.partEnd t = s.enterPart t i := by
  simp only [State.partEnd, flag_of_get_ne_zero h, hnext, Bool.not_true, Bool.false_eq_true, if_false]

variable (hnone : s.partFrom t ((s.tone t).part + 1) = none)
include hnone

/-- The last cadence of a tone has run. -/
theorem partEnd_last (hleft : (s.tone t).repeats = some 0) : s.partEnd t = s.endTone t := by
  simp only [State.partEnd, flag_of_get_ne_zero h, hnone, hleft, Bool.not_true, Bool.false_eq_true, if_false]

theorem partEnd_nextCadence {k : Nat} (hfirst : s.partFrom t 0 = some i) (hleft : (s.tone t).repeats = some (k + 1)) :
    s.partEnd t = (s.modTone t fun x => { x with repeats := some k }).enterPart t i := by
  simp only [State.partEnd, flag_of_get_ne_zero h, hnone, hfirst, hleft, Bool.not_true, Bool.false_eq_true, if_false,
    Option.map_some, Nat.add_sub_cancel]

end

/-- Settles O32: a sample by whether the engine runs, a sink by whether it drives its contact, a part of a tone by what follows it, a
step at its timeout by its point, a speaker by its fault. -/
theorem audioEngine : Obligations.AudioEngine := by
  refine ⟨fun s line0 line1 tdm limited => ?sample, fun s n line tdm limited => fun h => ?stopped,
    fun s k => ⟨fun h => ?silent, fun h hphase => ?drives⟩, fun s i hen hper => ?position,
    fun s t => fun hrun => ⟨fun i hnext => ?nextPart, fun hnone hlast => ?ends, fun i k hnone hfirst hleft => ?nextCadence⟩,
    fun s index => ⟨exec_zcTimeoutExpiry_crosspoint, fun h => congrArg _ (stepBus_timeout h), fun h => ?bypass, fun h => ?moved,
      fun h => ?toneStops⟩,
    fun s speaker code hcode hdrives => ?fault⟩
  case sample =>
    intro n hdue hup
    have hpresent : s.advance (s.sampleGrains n - s.grains s.now) = s := by rw [Nat.sub_eq_zero_of_le hdue]; rfl
    change Host.Outcome.next (if (s.advance (s.sampleGrains n - s.grains s.now)).blockUp 35 28 then _ else _) = _
    rw [hpresent, if_pos hup]
  case stopped => exact if_pos (congrArg (!·) h)
  case silent =>
    unfold State.runSink
    simp only [h, Bool.not_false, or_true, if_true]
  case drives =>
    unfold State.runSink
    simp only [h, Nat.not_le.mpr hphase, Bool.not_true, Bool.false_eq_true, or_self, if_false]
  case position => exact congrArg Host.Outcome.next (if_pos ⟨flag_of_get_ne_zero hen, flag_of_get_ne_zero hper⟩)
  case nextPart => exact congrArg Host.Outcome.next (partEnd_nextPart hrun hnext)
  case ends => exact congrArg Host.Outcome.next (partEnd_last hrun hnone hlast)
  case nextCadence => exact congrArg Host.Outcome.next (partEnd_nextCadence hrun hnone hfirst hleft)
  case bypass =>
    refine congrArg Host.Outcome.next ((if_neg ?_).trans (switchBus_returns h))
    omega
  case moved =>
    refine congrArg Host.Outcome.next ((if_neg ?_).trans (stepSink_returns h))
    omega
  case toneStops => exact congrArg Host.Outcome.next (if_pos (Option.isSome_iff_ne_none.mpr h))
  case fault => exact congrArg Host.Outcome.next (if_neg (by simp [hcode, hdrives]))

end Sys2Proof.Machine

/-! Proofs of the obligations of 13_mailboxes_queues_locks.md: mailboxes, report queues and locks. -/
namespace Sys2Proof.Machine

/-! ### Requesters (R40, R344, R362) -/

section
variable {s : State} {k : Fin 4} {w : World}

theorem mayWrite_core : s.mayWrite (.core k w) = true := rfl

theorem agentGen_core : s.agentGen (agentOf (.core k w)) = 0 := if_neg (by cases w <;> simp only [agentOf] <;> omega)

theorem openBarred_sealed (owner : Nat) : openBarred (.core k .sealed) owner = false := rfl

theorem openBarred_opened (owner : Nat) : openBarred (.core k .opened) owner = (owner != 62) := rfl

/-! ### Mailboxes (R344 to R349) -/

theorem txBank_core (window : Nat) : txBank (.core k w) window = some (2 * k.val + if w = .sealed then 0 else 1) := by
  cases w <;> rfl

theorem exec_mailboxPost_core (window : Fin 8) (value : W32) : exec (.mailboxPost (.core k w) window value) s =
    .next (s.post (.core k w) (2 * k.val + if w = .sealed then 0 else 1) value.toNat) := by
  change execMailboxPost _ _ _ _ = _
  simp only [execMailboxPost, txBank_core]

theorem exec_mailboxPost_host {f : Fin 32} {window : Fin 8} {m : Nat} (hl : s.onLink f.val = true) (hw : s.power.warm = none)
    (hr : s.resetting f.val = false) (hm : s.windowBox f.val window.val = some m) (value : W32) :
    exec (.mailboxPost (.host f) window value) s = .next (s.post (.host f) (8 + 8 * f.val + window.val) value.toNat) := by
  change execMailboxPost _ _ _ _ = _
  simp [execMailboxPost, txBank, State.barWrite, hl, hw, hr, hm]

/-- A post of a control core by its result, which its send port shows (R345). -/
theorem post_core (bank value : Nat) : s.post (.core k w) bank value =
    let m := value % 64
    let len := value / 256 % 64
    let result := s.postResult (.core k w) m len (value / 64 % 4 == 0)
    let t := (s.put (mbqTxStatus_RESULT bank) result).put (mbqTxStatus_MB bank) m
    if result = 1 then
      t.setBox m (t.box m ++ [message (agentOf (.core k w)) 0 len s.now.word (t.txStaged bank)])
    else (t.emit (.busError (agentOf (.core k w)) (mbqTxStatus bank).addr)).raise 464 (m * 256 + result) := by
  unfold State.post
  dsimp only
  rw [agentGen_core]
  rfl

/-- The checks of a post in their order (R345). -/
theorem postResult_named (who : Requester) (m len : Nat) : s.postResult who m len true =
    if s.admits m who = false then 3 else if 48 < len then 4 else if 8 ≤ (s.box m).length then 2 else 1 := by
  simp only [State.postResult, Bool.not_true, Bool.false_eq_true, if_false, Bool.not_eq_true']

/-- A receiver that is no host is told nothing but by its flag (R347). -/
theorem setBox_internal {m : Nat} {l : List (List Byte)}
    (h : 32 ≤ (((s.modMbq fun b => { b with boxes := b.boxes.set m l }).put (mbqMbFlag_COUNT m) l.length).putBit (mbqMbFlag_FULL m)
      (l.length == 8)).get (mbqMbCfg_RX m)) : s.setBox m l =
    ((s.modMbq fun b => { b with boxes := b.boxes.set m l }).put (mbqMbFlag_COUNT m) l.length).putBit (mbqMbFlag_FULL m)
      (l.length == 8) := if_neg (Nat.not_lt.mpr h)

theorem pop_nonempty {m : Nat} {first : List Byte} {rest : List (List Byte)} (h : s.box m = first :: rest) :
    s.pop m = s.setBox m rest := by
  simp only [State.pop, h, List.isEmpty_cons, Bool.false_eq_true, if_false, List.tail_cons]

theorem pop_empty {m : Nat} (h : s.box m = []) : s.pop m = s := by
  simp only [State.pop, h, List.isEmpty_nil, if_true]

/-- A core pops a mailbox that its world may use with a write of an odd value (R347, R362). -/
theorem exec_mailboxPop_core {unit : Fin 64} (h : openBarred (.core k w) (s.get (mbqMbCfg_RX unit.val)) = false) (value : W32) :
    exec (.mailboxPop (.core k w) unit value) s = .next (if value.toNat % 2 = 1 then s.pop unit.val else s) :=
  congrArg Host.Outcome.next ((if_neg (by simp [mayWrite_core])).trans (if_neg (by simp [h])))

theorem exec_mailboxPop_barred {unit : Fin 64} (h : openBarred (.core k w) (s.get (mbqMbCfg_RX unit.val)) = true) (value : W32) :
    exec (.mailboxPop (.core k w) unit value) s = .next (s.refuseWrite (.core k w) (mbqMbPop unit.val).addr value.toNat 0 stWorld) :=
  congrArg Host.Outcome.next ((if_neg (by simp [mayWrite_core])).trans (if_pos h))

end

/-- Settles O33: a post by the result of its checks, a pop by who asks for it and by what the mailbox holds; each packet passes its
checks, so its effect decides. -/
theorem mailboxes : Obligations.Mailboxes := by
  refine ⟨fun s k w window value => ⟨fun h => ?admitted, fun h => ?refused⟩,
    fun s who m len => ⟨fun ha => ?barred, fun ha hl => ?long, fun ha hl hb => ?full, fun ha hl hb => ?room, rfl⟩,
    fun s f window value m hl hw hr hm => exec_mailboxPost_host hl hw hr hm value,
    fun s m l hrx => fun hsame => setBox_internal (hsame ▸ hrx),
    fun s k unit value first rest hbox hodd => ⟨?popSealed, fun hrx => ?popOpened, fun hrx => ?popBarred⟩,
    fun s k unit value h => ?nothing, fun s p h => packet_answer h rfl nofun rfl, fun s p h => packet_answer h rfl nofun rfl⟩
  case admitted => exact (exec_mailboxPost_core window value).trans (congrArg _ ((post_core _ _).trans (if_pos h)))
  case refused => exact (exec_mailboxPost_core window value).trans (congrArg _ ((post_core _ _).trans (if_neg h)))
  case barred => exact (postResult_named who m len).trans (if_pos ha)
  case long => exact (postResult_named who m len).trans ((if_neg (by simp [ha])).trans (if_pos hl))
  case full =>
    exact (postResult_named who m len).trans ((if_neg (by simp [ha])).trans ((if_neg (Nat.not_lt.mpr hl)).trans (if_pos hb)))
  case room =>
    exact (postResult_named who m len).trans
      ((if_neg (by simp [ha])).trans ((if_neg (Nat.not_lt.mpr hl)).trans (if_neg (Nat.not_le.mpr hb))))
  case popSealed => rw [exec_mailboxPop_core (openBarred_sealed _), if_pos hodd, pop_nonempty hbox]
  case popOpened => rw [exec_mailboxPop_core (by simp [openBarred_opened, hrx]), if_pos hodd, pop_nonempty hbox]
  case popBarred => exact exec_mailboxPop_barred (by simp [openBarred_opened, hrx]) value
  case nothing =>
    rw [exec_mailboxPop_core (openBarred_sealed _)]
    rcases h with hbox | heven
    · rw [pop_empty hbox, ite_self]
    · rw [if_neg (by omega)]

/-! ### Report queues (R350 to R356) -/

section
variable {s : State} {k : Fin 4}

theorem exec_queueRead_sealed (q : Fin 32) (width : Width) : exec (.queueRead (.core k .sealed) q width) s =
    .next (if width ≠ .w64 then s.emit (.busError (agentOf (.core k .sealed)) (mbqQRead q.val).addr)
      else (s.takeItem q.val).1.emit (.readValue (agentOf (.core k .sealed)) (mbqQRead q.val).addr (s.takeItem q.val).2)) := rfl

variable {q : Nat}

theorem takeItem_broken (h : (s.queue q).broken ≠ 0) : s.takeItem q =
    (s.setQueue q { s.queue q with broken := 0 }, breakItem (s.queue q).broken) := if_pos h

theorem takeItem_idle (h : (s.queue q).broken = 0) (hp : (s.queue q).packets = []) : s.takeItem q = (s, 0) := by
  simp only [State.takeItem, h, hp, ne_eq, not_true_eq_false, if_false]

theorem takeItem_oldest {i : W64} {p : List W64} {rest : List (List W64)} (h : (s.queue q).broken = 0)
    (hp : (s.queue q).packets = (i :: p) :: rest) : s.takeItem q =
      (s.setQueue q { s.queue q with packets := if p = [] then rest else p :: rest }, i) := by
  simp only [State.takeItem, h, hp, ne_eq, not_true_eq_false, if_false, List.isEmpty_iff]

/-- A sealed core writes to any queue (R351, R362). -/
theorem exec_queueItemWrite_sealed (q : Fin 32) (item : W64) : exec (.queueItemWrite (.core k .sealed) q item) s =
    .next (s.writeItem (.core k .sealed) (2 * k.val) q.val item) := rfl

/-- The first item of a packet names its length; a continuing item only has to be no gap (R351). -/
theorem writeItem_valid {who : Requester} {bank : Nat} {item : W64} (h : 2 ^ 63 ≤ item.toNat)
    (hk : s.staging (bank * 32 + q) ≠ [] ∨ (0x70 ≤ itemKind item ∧ itemKind item ≤ 0x7E)) : s.writeItem who bank q item =
      let items := s.staging (bank * 32 + q) ++ [item]
      if 1 + (items.headD 0).toNat / 2 ^ 48 % 16 ≤ items.length then (s.setStaging (bank * 32 + q) []).appendPacket q items
      else s.setStaging (bank * 32 + q) items := if_neg (by
        rw [decide_eq_true h, Bool.true_and]
        rcases hk with hk | hk <;> simp [hk])

theorem writeItem_invalid {who : Requester} {bank : Nat} {item : W64} (h : item.toNat < 2 ^ 63) : s.writeItem who bank q item =
    ((s.setStaging (bank * 32 + q) []).emit (.busError (agentOf who) (mbqQWrite q).addr)).raise 467 q :=
  if_pos (by rw [decide_eq_false (Nat.not_le.mpr h), Bool.false_and]; rfl)

/-- Where there is room no packet is discarded (R353). -/
theorem makeRoomFor_fits {n : Nat} (h : (s.queue q).fill + n ≤ 4096) : ∀ fuel, State.makeRoomFor q n fuel s = s
  | 0 => rfl
  | _ + 1 => if_neg (Nat.not_lt.mpr h)

theorem appendPacket_fits {items : List W64} (h : (s.queue q).fill + items.length ≤ 4096) :
    s.appendPacket q items = s.setQueue q { s.queue q with packets := (s.queue q).packets ++ [items] } := by
  unfold State.appendPacket
  rw [makeRoomFor_fits h]

end

/-! ### Locks (R357 to R361) -/

section
variable {s : State} {l agent : Nat}

theorem readLock_held (h : s.get (mbqLockPeek_HELD l) ≠ 0) : s.readLock l agent = (s, s.lockWord l) :=
  if_pos (flag_of_get_ne_zero h)

/-- A free lock becomes its reader's own (R358). -/
theorem readLock_free (h : s.get (mbqLockPeek_HELD l) = 0) : s.readLock l agent =
    let t := ((s.put (mbqLockPeek_HOLDER l) agent).put (mbqLockPeek_GEN l) (s.agentGen agent)).put (mbqLockPeek_HELD l) 1
    (t, t.lockWord l + 0x80000000) := if_neg (by simp [flag_of_get_zero h])

theorem exec_lockRead_core (k : Fin 4) (w : World) (unit : Fin 64) : exec (.lockRead (.core k w) unit) s =
    .next ((s.readLock unit.val (agentOf (.core k w))).1.emit (.readValue (agentOf (.core k w)) (mbqLock unit.val).addr
      (BitVec.ofNat 64 (s.readLock unit.val (agentOf (.core k w))).2))) := rfl

theorem exec_lockReleaseWrite_core (k : Fin 4) (w : World) (unit : Fin 64) : exec (.lockReleaseWrite (.core k w) unit) s =
    .next (if s.holds unit.val (agentOf (.core k w)) then s.freeLock unit.val
      else (s.emit (.busError (agentOf (.core k w)) (mbqLock unit.val).addr)).raise 468 unit.val) := rfl

theorem holds_of_holder (h : s.get (mbqLockPeek_HELD l) = 1) (ha : s.get (mbqLockPeek_HOLDER l) = agent) :
    s.holds l agent = true := by
  simp [State.holds, flag_of_get_one h, ha]

theorem holds_of_other (h : s.get (mbqLockPeek_HELD l) = 0 ∨ s.get (mbqLockPeek_HOLDER l) ≠ agent) : s.holds l agent = false := by
  rcases h with h | h <;> simp [State.holds, State.flag, h]

theorem lockGive_holder {o : Origin} (h : s.holds o.tgt o.mbqAgent = true) :
    specLockGive.run s o = (s.freeLock o.tgt, .answer (done 0 0)) := if_pos h

theorem lockGive_other {o : Origin} (h : s.holds o.tgt o.mbqAgent = false) :
    specLockGive.run s o = (s.raise 468 o.tgt, .answer (refusal stConflict 1)) := if_neg (by simp [h])

end

/-- Settles O34: a read by what its queue holds, an item by whether it may stand where it comes, a lock by whether its reader or writer
holds it; each packet passes its checks, so its effect decides. -/
theorem queuesAndLocks : Obligations.QueuesAndLocks := by
  refine ⟨fun s k q width => ⟨fun hw => ?narrow, fun hb => ?broken, fun hb hp => ?idle, fun i p rest hb hp => ?oldest⟩,
    fun s k q item => ⟨fun h hk => ?staged, fun h => ?gap⟩, fun s q items h => appendPacket_fits h, fun s q u => rfl,
    fun s q => fun hhost hf hread => ?delivered,
    fun s k w l => ⟨fun h => ?held, fun h => ?taken⟩, fun s k w l => ⟨fun h ha => ?released, fun h => ?notHeld⟩,
    fun s p h => ?qSet, fun s p h => packet_answer h rfl nofun rfl, fun s p h => packet_answer h rfl nofun rfl,
    fun s p h => ⟨fun hh ha => ?given, fun hh => ?kept⟩⟩
  case narrow => exact congrArg Host.Outcome.next (if_pos hw)
  case broken => rw [exec_queueRead_sealed, takeItem_broken hb]; rfl
  case idle => rw [exec_queueRead_sealed, takeItem_idle hb hp]; rfl
  case oldest => rw [exec_queueRead_sealed, takeItem_oldest hb hp]; rfl
  case staged => exact congrArg Host.Outcome.next (writeItem_valid h hk)
  case gap => exact congrArg Host.Outcome.next (writeItem_invalid h)
  case delivered => exact congrArg Host.Outcome.next (if_neg (by simp [flag_of_get_one hhost, hf, hread]))
  case held => rw [exec_lockRead_core, readLock_held h]; rfl
  case taken => rw [exec_lockRead_core, readLock_free h, agentGen_core]; rfl
  case released => rw [exec_lockReleaseWrite_core, if_pos (holds_of_holder h ha)]; rfl
  case notHeld => rw [exec_lockReleaseWrite_core, if_neg (by simp [holds_of_other h])]
  case qSet => exact packet_answer h rfl nofun (congrArg (·, Effect.answer (done 0 0)) (when_beq _ _ _ _))
  case given => exact packet_answer h rfl nofun (lockGive_holder (holds_of_holder hh ha))
  case kept => exact packet_answer h rfl nofun (lockGive_other (holds_of_other hh))

end Sys2Proof.Machine

/-! Proofs of the obligations of 14_memory.md: refresh, temperature and errors, changes of set point, training and the settings. -/
namespace Sys2Proof.Machine

/-! ### Refresh (R380, R381) -/

section
variable {s : State}

theorem each_eq_self {α : Type} {l : List α} {f : State → α → State} (h : ∀ x ∈ l, f s x = s) : s.each l f = s := by
  induction l with
  | nil => rfl
  | cons x l ih =>
    obtain ⟨hx, hl⟩ := List.forall_mem_cons.mp h
    exact (congrArg (fun t : State => t.each l f) hx).trans (ih hl)

/-- A slot that its line's mask names, outside a change of set point, serves each channel that no RT request holds back. -/
theorem exec_refreshSlot_masked {waiting : Byte} (hm : s.bit dramcRefPlan_MASK s.now.grain = true) (hc : s.dramc.change = none) :
    exec (.refreshSlot waiting) s = .next (s.each (List.range 8) fun s c =>
      if waiting.toNat / 2 ^ c % 2 == 1 && !s.forcing c && s.get (dramcChStatus_OWED c) != 128 then s
      else s.refreshChannel c) :=
  congrArg Host.Outcome.next (if_neg (by simp [hm, hc]))

theorem refreshChannel_eq (c : Nat) : s.refreshChannel c =
    let t := s.put (dramcChStatus_OWED c) (s.get (dramcChStatus_OWED c) - s.get dramcRefCfg_PER_SLOT)
    if t.forcing c = true ∧ 2 * t.get (dramcChStatus_OWED c) < t.get dramcRefCfg_FORCE_AT then t.setForcing c false else t := by
  have hmin : s.get (dramcChStatus_OWED c) - min (s.get (dramcChStatus_OWED c)) (s.get dramcRefCfg_PER_SLOT) =
      s.get (dramcChStatus_OWED c) - s.get dramcRefCfg_PER_SLOT := by omega
  simp only [State.refreshChannel, hmin, Bool.and_eq_true, decide_eq_true_eq]

theorem exec_refreshDue_eq (c : Fin 8) : exec (.refreshDue c) s = .next
    (let t := s.put (dramcChStatus_OWED c.val) (min 128 (s.get (dramcChStatus_OWED c.val) + 1))
    if s.forcing c.val = false ∧ t.get dramcRefCfg_FORCE_AT ≤ t.get (dramcChStatus_OWED c.val) then
      (t.setForcing c.val true).raise 388 c.val else t) := by
  change execRefreshDue c s = _
  simp only [execRefreshDue, Bool.and_eq_true, decide_eq_true_eq, Bool.not_eq_true']
  rfl

/-! ### Temperature and errors (R373, R375, R377, R382) -/

theorem exec_mr4TempRead_eq (c : Fin 8) (temp : Byte) : exec (.mr4TempRead c temp) s = .next
    (let t := s.put (dramcChStatus_TEMP c.val) temp.toNat
    if t.get (dramcChStatus_DERATE c.val) = 0 ∧ 85 < temp.toInt then
      (t.put (dramcChStatus_DERATE c.val) 1).raise 389 (c.val * 256 + 1)
    else if t.get (dramcChStatus_DERATE c.val) ≠ 0 ∧ temp.toInt ≤ 80 then
      (t.put (dramcChStatus_DERATE c.val) 0).raise 389 (c.val * 256)
    else t) := by
  change execMr4TempRead c temp s = _
  simp only [execMr4TempRead, State.flag, Bool.and_eq_true, decide_eq_true_eq, Bool.not_eq_true', bne_eq_false_iff_eq, bne_iff_ne]

/-- The patrol reads a line of usable DRAM once DRAM is clear and while scrubbing is on (R377). -/
theorem exec_patrolScrub_dram {line : BitVec 42} (hlo : dramBase ≤ line.toNat * 64) (hhi : line.toNat * 64 < dramBase + s.usable)
    (hi : s.get dramcStatus_INIT_DONE = 1) (hs : s.get dramcScrub_SCRUB_H ≠ 0) (kind : Fin 4) :
    exec (.patrolScrub 7 line kind) s = .next (s.freeUsed.syndrome line.toNat kind.val (0xE020 + s.free.toNat % 16)) :=
  congrArg Host.Outcome.next ((if_pos rfl).trans (if_pos (by simp [hlo, hhi, flag_of_get_one hi, flag_of_get_ne_zero hs])))

/-- The sixteen DMA channels of the scrubber are of one class of agents (R41). -/
theorem scrubber_class (n : Nat) : (0xE020 + n % 16) / 0x1000 % 8 = 6 := by omega

/-- What a line with an error leaves of it: its address, the agent that read it and whether it could be corrected (R375). -/
def State.showError (s : State) (line agent ue : Nat) : State :=
  let c := s.channelOf (line * 64)
  (((s.wr (dramcChEccLast c) 0).put (dramcChEccLast_LINE c) line).put (dramcChEccLast_AGENT c) agent).put (dramcChEccLast_UE c) ue

theorem syndrome_corrected (line agent : Nat) : s.syndrome line 1 agent =
    ((s.showError line agent 0).raise 384 (s.channelOf (line * 64) * 256 + agent / 0x1000 % 8)).bump
      (dramcChCeCnt_COUNT (s.channelOf (line * 64))) := rfl

theorem syndrome_uncorrected (line agent : Nat) : s.syndrome line 2 agent =
    ((s.showError line agent 1).raise 385 (s.channelOf (line * 64) * 256 + agent / 0x1000 % 8)).bump
      (dramcChUeCnt_COUNT (s.channelOf (line * 64))) := rfl

theorem syndrome_misaddressed (line agent : Nat) : s.syndrome line 3 agent =
    ((((s.showError line agent 1).raise 386 (s.channelOf (line * 64))).put (dramcChEccLast_ADDR_FAULT (s.channelOf (line * 64))) 1).raise
      385 (s.channelOf (line * 64) * 256 + agent / 0x1000 % 8)).bump (dramcChUeCnt_COUNT (s.channelOf (line * 64))) := rfl

theorem exec_patrolScrub_sram {r : Fin 8} (hr : r ≠ 7) (line : BitVec 42) (kind : Fin 4) : exec (.patrolScrub r line kind) s =
    .next (if kind.val = 0 then s else s.raise 395 (r.val * 256 + (if kind.val = 1 then 1 else 2))) :=
  congrArg Host.Outcome.next (if_neg fun h => hr (Fin.ext h))

end

/-- Settles O35: a refresh and a slot by what a channel owes, a temperature by its limits, a line by what its check bytes show, a
channel of a second by whether it is and was hot. -/
theorem refreshAndErrors : Obligations.RefreshAndErrors := by
  refine ⟨fun s c => ⟨fun hf hr => ?forces, fun h => ?owes⟩,
    fun s waiting => ⟨fun hm => ?unmasked, fun hm hc hw => ?issues, fun hm hc hq hw => ?heldBack⟩,
    fun s c => ⟨fun h => ?stays, fun hf hl => ?relaxes⟩,
    fun s c temp => ⟨fun hd ht => ?derates, fun hd ht => ?restores, fun hlo hhi => ?between⟩,
    fun s line hlo hhi hi hs => ?patrol,
    fun s r line hr => ⟨exec_patrolScrub_sram hr line 0, exec_patrolScrub_sram hr line 1, exec_patrolScrub_sram hr line 2,
      exec_patrolScrub_sram hr line 3⟩,
    fun s c => rfl, fun s accesses last busy traffic => ?hot⟩
  case forces => exact (exec_refreshDue_eq c).trans (congrArg _ (if_pos ⟨hf, hr⟩))
  case owes =>
    refine (exec_refreshDue_eq c).trans (congrArg _ (if_neg fun hb => ?_))
    rcases h with h | h
    · exact absurd (h.symm.trans hb.1) (by decide)
    · exact h hb.2
  case unmasked => exact congrArg Host.Outcome.next (if_pos (by simp [hm]))
  case issues =>
    rw [exec_refreshSlot_masked hm hc]
    simp only [hw, Nat.zero_div, Nat.zero_mod, Nat.reduceBEq, Bool.false_and, Bool.false_eq_true, if_false]
  case heldBack =>
    refine (exec_refreshSlot_masked hm hc).trans (congrArg _ (each_eq_self fun c hc => if_pos ?_))
    have hc8 := List.mem_range.mp hc
    have hall : 255 / 2 ^ c % 2 = 1 := by interval_cases c <;> rfl
    simp [hw, hall, hq c hc8]
  case stays =>
    refine (refreshChannel_eq c).trans (if_neg fun hb => ?_)
    rcases h with h | h
    · exact absurd (h.symm.trans hb.1) (by decide)
    · exact Nat.not_lt.mpr h hb.2
  case relaxes => exact (refreshChannel_eq c).trans (if_pos ⟨hf, hl⟩)
  case derates => exact (exec_mr4TempRead_eq c temp).trans (congrArg _ (if_pos ⟨hd, ht⟩))
  case restores =>
    exact (exec_mr4TempRead_eq c temp).trans (congrArg _ ((if_neg (by omega)).trans (if_pos ⟨by omega, ht⟩)))
  case between => exact (exec_mr4TempRead_eq c temp).trans (congrArg _ ((if_neg (by omega)).trans (if_neg (by omega))))
  case patrol =>
    have hread := exec_patrolScrub_dram hlo hhi hi hs
    have hclass := scrubber_class s.free.toNat
    refine ⟨hread 0, (hread 1).trans (congrArg _ ((syndrome_corrected _ _).trans ?_)),
      (hread 2).trans (congrArg _ ((syndrome_uncorrected _ _).trans ?_)),
      (hread 3).trans (congrArg _ ((syndrome_misaddressed _ _).trans ?_))⟩ <;> rw [hclass] <;> rfl
  case hot =>
    refine congrArg (fun f => Host.Outcome.next (State.each _ (List.range 8) f)) (funext fun t => funext fun c => ?_)
    simp only [State.putBit, State.flag, Bool.and_eq_true, decide_eq_true_eq, beq_iff_eq, Bool.not_eq_true', bne_eq_false_iff_eq]

/-! ### Changes of set point (R383 to R386, R389, R390) -/

section
variable {s : State}

theorem askChange_eq (t line : Nat) (origin : Option Origin) : s.askChange t line origin =
    let u := (((s.put dramcFchg_LINE line).put dramcFchg_TARGET t).put dramcStatus_FCHG_PENDING 1).modDramc fun d =>
      { d with change := some ⟨.waiting, ⟨0, 0, 0⟩, origin⟩ }
    if s.dramc.training = [] then u else u.raise 391 2 := by
  simp only [State.askChange, List.isEmpty_iff]
  rfl

section
variable {k : Fin 4} {value : W32}

/-- GO is refused where MEM_FREQ_SET would be (R390). -/
theorem exec_fchgGoWrite_refused (hgo : value.toNat / 2 ^ 31 = 1)
    (h : s.mode ∉ modesFreq ∨ s.changeFault (value.toNat / 2 ^ 16 % 4) (value.toNat % 2 ^ 14) ≠ none) :
    exec (.fchgGoWrite (.core k .sealed) value) s = .next
      (s.refuseWrite (.core k .sealed) dramcFchg.addr value.toNat (s.rd dramcFchg).toNat stConflict) := by
  refine congrArg Host.Outcome.next (if_pos ?_)
  have hw : worldOf (.core k .sealed) = .sealed := rfl
  rw [hgo, mayWrite_core, hw]
  rcases h with h | h
  · simp [h]
  · rw [Option.isSome_iff_ne_none.mpr h]
    simp

/-- A write that asks for nothing, or for a change that may be, takes effect where the log has room. -/
theorem exec_fchgGoWrite_passed (hb : s.writeBarred (.core k .sealed) dramcFchg.addr = false)
    (h : value.toNat / 2 ^ 31 = 1 → s.mode ∈ modesFreq ∧ s.changeFault (value.toNat / 2 ^ 16 % 4) (value.toNat % 2 ^ 14) = none) :
    exec (.fchgGoWrite (.core k .sealed) value) s = .next
      ((if value.toNat / 2 ^ 31 = 1 then s.askChange (value.toNat / 2 ^ 16 % 4) (value.toNat % 2 ^ 14) none
        else (s.put dramcFchg_LINE (value.toNat % 2 ^ 14)).put dramcFchg_TARGET (value.toNat / 2 ^ 16 % 4)).noteWrite
          (.core k .sealed) dramcFchg.addr value.toNat (s.rd dramcFchg).toNat) := by
  refine congrArg Host.Outcome.next ((if_neg ?_).trans (sealedWrite_sealed rfl mayWrite_core hb value.toNat _))
  by_cases hgo : value.toNat / 2 ^ 31 = 1
  · obtain ⟨hmode, hfault⟩ := h hgo
    rw [hfault]
    simp [hmode]
  · rw [beq_false_of_ne hgo]
    simp

end

theorem owesMany_iff : ((List.range 8).any fun k => decide (16 < s.get (dramcChStatus_OWED k))) = true ↔
    ∃ k < 8, 16 < s.get (dramcChStatus_OWED k) := by simp only [List.any_eq_true, List.mem_range, decide_eq_true_eq]

section
variable {c : SetPointChange} (hc : s.dramc.change = some c)
include hc

/-- While training gathers data no change arms (R386). -/
theorem changeArms_waiting (ht : s.dramc.training = []) (hph : c.phase = .waiting) :
    s.changeArms = s.modDramc fun d => { d with change := some { c with phase := .armed } } := by
  simp only [State.changeArms, State.modDramc, ht, hc, hph, List.isEmpty_nil, if_true, Option.map_some, beq_self_eq_true]

/-- At line L an armed change stops issue, or is held where a channel owes more than 16 refreshes (R383). -/
theorem changeLine_armed (hph : c.phase = .armed) : s.changeLine =
    if (List.range 8).any fun k => decide (16 < s.get (dramcChStatus_OWED k)) then
      ((s.modDramc fun d => { d with change := some { c with phase := .waiting } }).raise 391 1).takeDeferred
    else s.modDramc fun d => { d with change := some { c with phase := .stopped, line := ⟨s.now.frame, s.now.line, 0⟩ } } := by
  have harmed : ¬ (c.phase != .armed) = true := by rw [hph]; decide
  simp only [State.changeLine, hc, if_neg harmed]

theorem exec_freqChangeComplete_stopped (hph : c.phase = .stopped) : exec .freqChangeComplete s = .next
    ((((s.put dramcStatus_SETPOINT (s.get dramcFchg_TARGET)).raise 390 (s.get dramcFchg_TARGET)).endChange
      (done (s.get dramcFchg_TARGET) 0)).takeDeferred) :=
  congrArg Host.Outcome.next (if_pos (by rw [hc, Option.any_some, hph]; rfl))

/-- A change that has stopped issue is answered with the stamp of its line. -/
theorem endChange_stopped (hph : c.phase = .stopped) (a : Answer) : s.endChange a =
    let u := (s.modDramc fun d => { d with change := none }).put dramcStatus_FCHG_PENDING 0
    match c.origin with
    | some o => u.settleAt o a c.line.word
    | none => u := by
  simp only [State.endChange, hc, hph, beq_self_eq_true, if_true] <;> rfl

end

theorem exec_freqChangeComplete_running (h : ∀ c, s.dramc.change = some c → c.phase ≠ .stopped) :
    exec .freqChangeComplete s = .next s :=
  congrArg Host.Outcome.next (if_neg (by simpa [Option.any_eq_true] using h))

end

/-- Settles O36: a change by its phase, a write of DRAMC_FCHG by what it asks for, and the packet passes its checks, so its effect
decides. -/
theorem setPointChanges : Obligations.SetPointChanges := by
  refine ⟨fun s p h => packet_later h rfl nofun rfl,
    fun s t line origin => ⟨fun h => (askChange_eq t line origin).trans (if_pos h),
      fun h => (askChange_eq t line origin).trans (if_neg h)⟩,
    fun s k value => ⟨fun hv hb => ?settings, fun hv hm hf hb => ?asked, fun hv h => ?refused⟩,
    fun s c ht hc hph => changeArms_waiting hc ht hph,
    fun s c hc hph => ⟨fun h => ?stops, fun h => (changeLine_armed hc hph).trans (if_pos (owesMany_iff.mpr h))⟩,
    fun s c hc hph => exec_freqChangeComplete_stopped hc hph, fun s h => exec_freqChangeComplete_running h,
    fun s c a hc hph => ⟨fun ho => ?unasked, fun o ho => ?answered⟩⟩
  case settings =>
    have hgo : ¬ value.toNat / 2 ^ 31 = 1 := by omega
    exact (exec_fchgGoWrite_passed hb fun h => absurd h hgo).trans (by rw [if_neg hgo])
  case asked =>
    have hgo : value.toNat / 2 ^ 31 = 1 := by omega
    exact (exec_fchgGoWrite_passed hb fun _ => ⟨hm, hf⟩).trans (by rw [if_pos hgo])
  case refused => exact exec_fchgGoWrite_refused (by omega) h
  case stops =>
    refine (changeLine_armed hc hph).trans (if_neg (mt owesMany_iff.mp ?_))
    rintro ⟨k, hk, howed⟩
    exact absurd (h k hk) (Nat.not_le.mpr howed)
  case unasked => rw [endChange_stopped hc hph, ho]
  case answered => rw [endChange_stopped hc hph, ho]

/-! ### Training and the initial clear (R378, R379, R389) -/

section
variable {s : State}

/-- The lanes of a set point take the runs that their training found. -/
def State.trainLanes (s : State) (runs : List ((Byte × Byte) × (Byte × Byte))) (sp : Nat) : State :=
  s.each (List.range 16) fun s i =>
    s.trainLane (i / 2) (i % 2) sp (runs.getD i ((1, 0), (1, 0))).1 (runs.getD i ((1, 0), (1, 0))).2

/-- Every channel passes at a set point. -/
def State.setPointPassed (s : State) (sp : Nat) : Bool := (List.range 8).all fun c => s.channelPassed c sp

/-- A set point whose lanes have their results is usable or not (R378). -/
def State.judged (s : State) (sp : Nat) : State := (s.putBitAt dramcStatus_USABLE sp (s.setPointPassed sp)).raise 392 sp

/-- The first training of those that wait ends, with `rest` still to come. -/
def State.trainedNext (s : State) (runs : List ((Byte × Byte) × (Byte × Byte))) (sp : Nat) (rest : List (Nat × Option Origin)) : State :=
  ((s.modDramc fun d => { d with training := rest }).putBit dramcStatus_TRAINING (!rest.isEmpty)).trainLanes runs sp

/-- A set point that MEM_RETRAIN asked for answers whether it is usable. -/
def State.answerTraining (s : State) (origin : Option Origin) (passed : Bool) : State :=
  match origin with
  | some o => s.settle o ⟨stDone, if passed then 0 else 1, 0, 0⟩
  | none => s

/-- A change that waits for a set point now found unusable is refused (R386). -/
def State.refuseUnusable (s : State) (last : Bool) : State :=
  if last && s.dramc.change.isSome && !s.bit dramcStatus_USABLE (s.get dramcFchg_TARGET) then s.endChange (refusal stNoResource 1)
  else s

theorem refuseUnusable_unasked (h : s.dramc.change = none) (last : Bool) : s.refuseUnusable last = s :=
  if_neg (by simp [h])

variable {runs : List ((Byte × Byte) × (Byte × Byte))} {sp : Nat}

/-- The first set point of those that wait for their training: its results, what the end of the boot's training selects, its answer. -/
theorem exec_trainingSetPointDone_first {origin : Option Origin} {rest : List (Nat × Option Origin)}
    (h : s.dramc.training = (sp, origin) :: rest) : exec (.trainingSetPointDone runs) s = .next
      (let booted := origin.isNone && !rest.any fun x => x.2.isNone
      ((((((s.trainedNext runs sp rest).judged sp).when booted fun s => s.put dramcStatus_SETPOINT s.bestSetPoint).when
        (booted || origin.isSome) State.loseChannels).answerTraining origin
          ((s.trainedNext runs sp rest).setPointPassed sp)).refuseUnusable rest.isEmpty)) := by
  change execTrainingSetPointDone runs s = _
  unfold execTrainingSetPointDone
  rw [h]
  rfl

/-- A set point of the boot with another to follow. -/
theorem exec_trainingSetPointDone_more {x : Nat × Option Origin} {rest : List (Nat × Option Origin)}
    (h : s.dramc.training = (sp, none) :: x :: rest) (hx : x.2 = none) :
    exec (.trainingSetPointDone runs) s = .next ((s.trainedNext runs sp (x :: rest)).judged sp) := by
  rw [exec_trainingSetPointDone_first h, List.any_cons, hx]
  rfl

/-- The last set point of the boot: the highest usable one is selected (R379). -/
theorem exec_trainingSetPointDone_booted (h : s.dramc.training = [(sp, none)]) :
    exec (.trainingSetPointDone runs) s = .next (((((s.trainedNext runs sp []).judged sp).put dramcStatus_SETPOINT
      ((s.trainedNext runs sp []).judged sp).bestSetPoint).loseChannels).refuseUnusable true) :=
  exec_trainingSetPointDone_first h

/-- The last set point of those that MEM_RETRAIN asked for. -/
theorem exec_trainingSetPointDone_asked {o : Origin} (h : s.dramc.training = [(sp, some o)]) :
    exec (.trainingSetPointDone runs) s = .next (((((s.trainedNext runs sp []).judged sp).loseChannels).settle o
      ⟨stDone, if (s.trainedNext runs sp []).setPointPassed sp then 0 else 1, 0, 0⟩).refuseUnusable true) :=
  exec_trainingSetPointDone_first h

/-- A lane passes where both its runs are 16 taps wide (R378). -/
theorem trainLane_eq (c l : Nat) (rd wt : Byte × Byte) : s.trainLane c l sp rd wt =
    let t := ((s.put (dramcTrn_RD_LEFT c l sp) rd.1.toNat).put (dramcTrn_RD_RIGHT c l sp) rd.2.toNat).put (dramcTrn_RD_CENTRE c l sp)
      ((rd.1.toNat + rd.2.toNat) / 2)
    let t := ((t.put (dramcTrn_WR_LEFT c l sp) wt.1.toNat).put (dramcTrn_WR_RIGHT c l sp) wt.2.toNat).put (dramcTrn_WR_CENTRE c l sp)
      ((wt.1.toNat + wt.2.toNat) / 2)
    if 16 ≤ runWidth rd ∧ 16 ≤ runWidth wt then t.put (dramcTrn_PASS c l sp) 1
    else (t.put (dramcTrn_PASS c l sp) 0).raise 393 (c * 256 + l * 16 + sp) := by
  by_cases h : 16 ≤ runWidth rd ∧ 16 ≤ runWidth wt <;> simp only [State.trainLane, State.putBit, h, and_self, decide_true, decide_false,
    Bool.false_eq_true, if_true, if_false]

theorem exec_dramInitClearDone_clears (hi : s.get dramcStatus_INIT_DONE = 0) (ht : s.dramc.training = [])
    (hl : s.get dramcStatus_CH_LOST = 0) (hm : s.mode = modeKindling) : exec .dramInitClearDone s =
      .next ((s.zeroMem dramBase (dramBase + s.usable)).put dramcStatus_INIT_DONE 1) :=
  congrArg Host.Outcome.next (if_neg (by simp [flag_of_get_zero hi, flag_of_get_zero hl, ht, hm]))

end

/-- Settles O37: a training by what waits behind it and by who asked for it, a lane by the width of its runs; each packet passes its
checks, so its effect decides, that of MEM_QUERY by its target. -/
theorem trainingAndMemorySettings : Obligations.TrainingAndMemorySettings := by
  refine ⟨fun s runs => ⟨fun h => ?none, fun sp x rest h hx hc => exec_trainingSetPointDone_more h hx, fun sp h _ => ?booted,
      fun sp o h => ?asked⟩,
    fun s c l sp rd wt => ⟨fun hr hw => (trainLane_eq c l rd wt).trans (if_pos ⟨hr, hw⟩), fun hn => ?narrow⟩,
    fun s hi ht hl hm => exec_dramInitClearDone_clears hi ht hl hm, fun s p h => packet_later h rfl nofun rfl,
    fun s p h => packet_answer h rfl nofun rfl, fun s p h => packet_answer h rfl nofun rfl,
    fun s p h => ⟨fun hc => ?channel, fun hc => ?controller, fun hc hr => ?traffic⟩⟩
  case none =>
    change execTrainingSetPointDone runs s = _
    simp only [execTrainingSetPointDone, h]
  case booted =>
    intro t u hc
    exact (exec_trainingSetPointDone_booted h).trans (congrArg _ (refuseUnusable_unasked hc true))
  case asked =>
    intro t u hc
    exact (exec_trainingSetPointDone_asked h).trans (congrArg _ (refuseUnusable_unasked hc true))
  case narrow =>
    have hwidth : runWidth rd < 16 ∨ runWidth wt < 16 := hn
    exact (trainLane_eq c l rd wt).trans (if_neg (by omega))
  case channel => exact packet_answer h rfl nofun (if_pos hc)
  case controller => exact packet_answer h rfl nofun ((if_neg (by omega)).trans (if_pos hc))
  case traffic =>
    refine packet_answer h rfl nofun ((if_neg (by omega)).trans ((if_neg (by omega)).trans ((if_pos hc).trans ?_)))
    rw [if_pos hr]

end Sys2Proof.Machine

/-! Proofs of the obligations of 15_worlds.md: clock and power requests, claims, debug and fuses. -/
namespace Sys2Proof.Machine

/-! ### Clock and power requests (R407, R408, R486) -/

section
variable {s : State}

/-- A control core's request is answered with its result, which decides what follows. -/
theorem cpcRequest_core {k : Fin 4} {w : World} (hb : s.writeBarred (.core k w) worldCpcReq.addr = false) (d action : Nat) :
    s.cpcRequest (.core k w) d action =
      let agent := agentOf (.core k w)
      let result := s.cpcResult (.core k w) d action
      let t := (((s.put worldCpcStatus_RESULT result).put worldCpcStatus_DOMAIN d).put worldCpcStatus_ACTION action).put
        worldCpcStatus_AGENT agent
      if result = 1 then
        ({ t with world := { t.world with cpcDue := t.world.cpcDue ++ [(d, action)] } } : State).noteWrite (.core k w) worldCpcReq.addr
          (d + 64 * action) 0
      else
        let t := (t.emit (.busError agent worldCpcReq.addr)).raise 417 (d * 256 + result)
        if result = 2 ∨ result = 3 then t.cpcRecord d result agent else t := by
  simp only [State.cpcRequest, mayWrite_core, hb, Bool.not_true, Bool.or_self, Bool.false_eq_true, if_false, when_beq_or]

theorem worldOf_sealed_not_opened {who : Requester} (h : worldOf who = .sealed) : ¬ worldOf who = .opened := by
  rw [h]; decide

/-- The rows of R407's table for a number of the table, in their order. -/
theorem cpcResult_domain {d : Nat} (hd : cpcDomain d = true) (who : Requester) (action : Nat) : s.cpcResult who d action =
    if worldOf who = .opened ∧ coreDomain d = true then 3
    else if worldOf who = .opened ∧ s.bit worldClaim_CLAIM d = true then 2
    else if action % 2 = 0 ∧ s.domainBusy d = true then 4 else 1 := if_neg (by simp [hd])

theorem cpcResult_sealed {who : Requester} {d : Nat} (hd : cpcDomain d = true) (hw : worldOf who = .sealed) (action : Nat) :
    s.cpcResult who d action = if action % 2 = 0 ∧ s.domainBusy d = true then 4 else 1 :=
  have ho := worldOf_sealed_not_opened hw
  (cpcResult_domain hd who action).trans ((if_neg fun h => ho h.1).trans (if_neg fun h => ho h.1))

theorem cpcResult_unclaimed {who : Requester} {d : Nat} (hd : cpcDomain d = true) (hc : coreDomain d = false)
    (hf : s.bit worldClaim_CLAIM d = false) (action : Nat) :
    s.cpcResult who d action = if action % 2 = 0 ∧ s.domainBusy d = true then 4 else 1 :=
  (cpcResult_domain hd who action).trans ((if_neg (by simp [hc])).trans (if_neg (by simp [hf])))

/-- A start, or a stop of a domain that is not busy, is carried out. -/
theorem not_busyStop {d action : Nat} (h : action % 2 = 1 ∨ s.domainBusy d = false) :
    ¬ (action % 2 = 0 ∧ s.domainBusy d = true) := by
  rcases h with h | h
  · omega
  · simp [h]

theorem cpcApply_powerOn {d : Nat} (hp : s.bit worldCpcPwr_ON d = false) (hq : d ∉ s.world.cpcSlots) :
    s.cpcApply d 3 = { s with world := { s.world with cpcSlots := s.world.cpcSlots ++ [d] } } := if_neg (by simp [hp, hq])

/-- The domain at the front is powered in its slot; a block that SYS_SWRST does not hold is about to be released (R486). -/
theorem exec_domainPowerSlot_front {d : Fin 64} {rest : List Nat} (h : s.world.cpcSlots = d.val :: rest) :
    exec (.domainPowerSlot d) s = .next
      (let t := (({ s with world := { s.world with cpcSlots := rest } } : State).putBitAt worldCpcPwr_ON d.val true).raise 12 d.val
      match swrstOf d.val with
      | some bit => if t.blockBit sysSwrst bit then t else t.putBlockBit sysSwrstPend bit true
      | none => t) := by
  change execDomainPowerSlot d s = _
  unfold execDomainPowerSlot
  rw [h]
  exact congrArg Host.Outcome.next (if_neg (by simp))

end

/-- Settles O38: a request by the row of the table that applies, a slot by the block of its domain; each packet passes its checks, so
its effect decides. -/
theorem clockAndPowerRequests : Obligations.ClockAndPowerRequests := by
  refine ⟨fun s k w d => fun hb => ?request,
    fun s who d action => ⟨fun hd => if_pos (by simp [hd]), fun hd hw hc => ?core, fun hd hw hc hf => ?claimed,
      fun hd hw ha hbusy => (cpcResult_sealed hd hw action).trans (if_pos ⟨ha, hbusy⟩),
      fun hd hw hc hf ha hbusy => (cpcResult_unclaimed hd hc hf action).trans (if_pos ⟨ha, hbusy⟩),
      fun hd hw h => (cpcResult_sealed hd hw action).trans (if_neg (not_busyStop h)),
      fun hd hw hc hf h => (cpcResult_unclaimed hd hc hf action).trans (if_neg (not_busyStop h))⟩,
    fun s d => ⟨rfl, rfl, rfl, cpcApply_powerOn⟩,
    fun s d rest bit h => ⟨fun hn => ?noBlock, fun hs hheld => ?held, fun hs hfree => ?released⟩,
    fun s p h => packet_answer h rfl nofun rfl, fun s p h => packet_answer h rfl nofun rfl⟩
  case request =>
    exact ⟨congrArg _ (cpcRequest_core hb _ 0), congrArg _ (cpcRequest_core hb _ 1), congrArg _ (cpcRequest_core hb _ 2),
      congrArg _ (cpcRequest_core hb _ 3)⟩
  case core => exact (cpcResult_domain hd who action).trans (if_pos ⟨hw, hc⟩)
  case claimed => exact (cpcResult_domain hd who action).trans ((if_neg (by simp [hc])).trans (if_pos ⟨hw, hf⟩))
  case noBlock => rw [exec_domainPowerSlot_front h, hn]
  case held =>
    rw [exec_domainPowerSlot_front h, hs]
    exact congrArg _ (if_pos hheld)
  case released =>
    rw [exec_domainPowerSlot_front h, hs]
    exact congrArg _ (if_neg (by simp [hfree]))

/-! ### Debug and fuses (R409 to R411) -/

section
variable {s : State}

/-- Effective enables that change are reported, and end the sessions that lost theirs (R409). -/
theorem refreshDebug_changed (h : s.get debugEn_EFFECTIVE ≠ s.debugEffective) : s.refreshDebug =
    ((s.put debugEn_EFFECTIVE s.debugEffective).raise 419 s.debugEffective).each (List.range 4) fun t n =>
      if t.get (debugSess_ACTIVE n) ≠ 0 ∧ sessionAdmitted s.debugEffective (decide (0x8000 ≤ t.get (debugSess_AGENT n)))
        (t.flag (debugSess_INV n)) = false then t.cold (debugSess n) else t := by
  refine (if_neg h).trans (congrArg (State.each _ (List.range 4)) (funext fun t => funext fun n =>
    if_congr ?_ rfl rfl))
  simp only [State.flag, Bool.and_eq_true, bne_iff_ne, Bool.not_eq_true']

theorem debugEffective_eq : s.debugEffective =
    let sealed := s.get debugEn_SEALED_NI ≠ 0 ∧ (s.mode = modeTest ∨ s.mode = modeRecovery)
    (if s.get debugEn_OPEN_NI ≠ 0 then 1 else 0) + (if s.get debugEn_OPEN_INV ≠ 0 ∧ s.get debugEn_OPEN_NI ≠ 0 then 2 else 0)
    + (if sealed ∧ s.get debugFuse_SNI_CLOSED = 0 then 4 else 0)
    + (if sealed ∧ s.get debugEn_SEALED_INV ≠ 0 ∧ s.get debugFuse_SI_CLOSED = 0 then 8 else 0) := by
  simp only [State.debugEffective, State.flag, sealedDebugMode, Bool.and_eq_true, Bool.or_eq_true, bne_iff_ne, beq_iff_eq,
    Bool.not_eq_true', bne_eq_false_iff_eq, and_assoc]

theorem exec_debugSessionAttach_eq (n : Fin 4) (w : World) (invasive : Bool) :
    exec (.debugSessionAttach n w invasive) s = .next
      (if s.get sysStrap_TAPSEL ≠ 0 ∧
          s.get debugEn_EFFECTIVE / 2 ^ ((if w = .sealed then 2 else 0) + (if invasive then 1 else 0)) % 2 = 1 then
        (((s.put (debugSess_AGENT n.val) (agentOf (.debug n w))).put (debugSess_ACTIVE n.val) 1).put (debugSess_INV n.val)
          (if invasive then 1 else 0)).raise 420 (n.val * 256 + (if invasive then 2 else 1))
      else s) := by
  change execDebugSessionAttach n w invasive s = _
  simp only [execDebugSessionAttach, State.flag, State.putBit, sessionAdmitted, Bool.and_eq_true, bne_iff_ne, beq_iff_eq]

theorem exec_fuseBlowComplete_first {select steps : Nat} {o : Origin} {rest : List (Nat × Nat × Origin)}
    (h : s.world.fuseBlow = (select, steps, o) :: rest) : exec .fuseBlowComplete s = .next
      ((((({ s with world := { s.world with fuseBlow := rest } } : State).blowFuse select steps).refreshDebug).raise 423 select).settle
        o (done 0 0)) := by
  change execFuseBlowComplete s = _
  simp only [execFuseBlowComplete, h]

end

/-- Settles O39: the effective enables by the bits, the mode and the fuses that make them, a session by the strap and its enable; each
packet passes its checks, so its effect decides. -/
theorem debugAndFuses : Obligations.DebugAndFuses := by
  refine ⟨fun s p h => packet_answer h rfl nofun rfl,
    fun s => ⟨fun h => if_pos h, refreshDebug_changed⟩, fun s => debugEffective_eq,
    fun s n w invasive => ⟨fun hs he => ?admitted, fun h => ?kept⟩, fun s p h => packet_later h rfl nofun rfl,
    fun s select steps o rest h _ => exec_fuseBlowComplete_first h, fun s p h => packet_answer h rfl nofun rfl⟩
  case admitted => exact (exec_debugSessionAttach_eq n w invasive).trans (congrArg _ (if_pos ⟨hs, he⟩))
  case kept =>
    refine (exec_debugSessionAttach_eq n w invasive).trans (congrArg _ (if_neg ?_))
    rintro ⟨hs, he⟩
    rcases h with h | h
    · exact hs h
    · exact absurd (h.symm.trans he) (by decide)

end Sys2Proof.Machine

/-! Proofs of the obligations of 16_check_units.md: jobs, descriptors, completion and direct use of the check-value units. -/
namespace Sys2Proof.Machine

/-! ### Jobs and descriptors (R423 to R428) -/

section
variable {s : State} {u : Fin 8} {j : CuJob}

theorem exec_cuDispatch_takes (hn : s.cuNext = some j) (hf : s.cuFree u.val = true) :
    exec (.cuDispatch u) s = .next (s.cuTake u.val j) := by
  change execCuDispatch u s = _
  simp only [execCuDispatch, hn, hf, if_true]

theorem exec_cuDispatch_waits (h : s.cuNext = none ∨ s.cuFree u.val = false) : exec (.cuDispatch u) s = .next s := by
  change execCuDispatch u s = _
  unfold execCuDispatch
  cases hn : s.cuNext with
  | none => rfl
  | some j => exact congrArg Host.Outcome.next (if_neg (by simpa [hn] using h))

theorem cuUnit_setUnit (hl : s.cu.units.length = 8) (x : Option CuJob) : (s.setUnit u.val x).cuUnit u.val = x := by
  simp [State.cuUnit, State.setUnit, State.modCu, List.getD_eq_getElem?_getD, hl]

/-- A descriptor of a job that no tenant owns passes through the unit without a charge (R425, R427). -/
theorem cuProcess_uncharged (ho : 32 ≤ j.owner) (src len : Nat) : s.cuProcess u.val j src len false =
    ((s.setUnit u.val (some { j with index := j.index + 1, run := crcRun (crcAlg j.alg) j.run (s.load src len), bytes := j.bytes + len })).put
      (cuRun_VALUE u.val) (crcRun (crcAlg j.alg) j.run (s.load src len))).put (cuBytes_COUNT u.val) (min (j.bytes + len) 0xFFFFFFFF) := by
  simp only [State.cuProcess, State.cuCharge, Nat.not_lt.mpr ho, Bool.or_false, Bool.false_eq_true, if_false, State.when]

/-- Only a tenant's job gives way. -/
theorem cuYields_false (ho : 32 ≤ j.owner) : s.cuYields j = false := by
  simp [State.cuYields, Nat.not_lt.mpr ho]

variable (hj : s.cuUnit u.val = some j)
include hj

/-- A unit whose job has a descriptor left takes it by what the descriptor is (R425). -/
theorem exec_cuDescriptorComplete_ok (hl : s.cu.units.length = 8) (hs : j.stop = none) (hi : j.index < j.count) {src len : Nat}
    (hd : s.cuDescriptor j = .ok (src, len)) (ho : 32 ≤ j.owner) :
    exec (.cuDescriptorComplete u false) s = .next (s.cuProcess u.val j src len false) := by
  have hu : (s.cuProcess u.val j src len false).cuUnit u.val = some { j with
      index := j.index + 1, run := crcRun (crcAlg j.alg) j.run (s.load src len), bytes := j.bytes + len } := by
    rw [cuProcess_uncharged ho]
    exact cuUnit_setUnit hl _
  change execCuDescriptorComplete u false s = _
  simp only [execCuDescriptorComplete, hj, hs, hd, hu, Nat.not_le.mpr hi, Option.isSome_none, decide_false, Bool.or_self,
    Bool.false_eq_true, if_false]
  exact congrArg _ (if_neg (Bool.eq_false_iff.mp (cuYields_false (by exact ho))))

theorem exec_cuDescriptorComplete_error (hs : j.stop = none) (hi : j.index < j.count) {a : Nat} {outside : Bool}
    (hd : s.cuDescriptor j = .error (a, outside)) (ue : Bool) : exec (.cuDescriptorComplete u ue) s = .next
      (let t := s.setUnit u.val (some { j with stop := some (1 + j.index) })
      if outside then t.violation (j.agent u.val) a false else t) := by
  change execCuDescriptorComplete u ue s = _
  simp only [execCuDescriptorComplete, hj, hs, hd, Nat.not_le.mpr hi, Option.isSome_none, decide_false, Bool.or_self,
    Bool.false_eq_true, if_false, State.when]

/-- A job at its end shows its result (R428). -/
theorem exec_cuJobComplete_done (hs : j.stop = none) (hi : j.count ≤ j.index) (hue : j.ue = false) :
    exec (.cuJobComplete u) s = .next (((((s.setUnit u.val none).put (cuState_STATE u.val) 2).put (cuState_DETAIL u.val) 0).put
      (cuResult_VALUE u.val) (j.run ^^^ (crcAlg j.alg).xorOut)).cuRecord j) := by
  change execCuJobComplete u s = _
  simp only [execCuJobComplete, hj, hs, hue, Nat.not_lt.mpr hi, decide_false, Bool.and_false, Option.isSome_none, Option.isNone_none,
    Option.getD_none, Bool.false_eq_true, if_false, State.when, if_true]

/-- A job that stopped shows where, and raises 449 (R428). -/
theorem exec_cuJobComplete_stopped {d : Nat} (hs : j.stop = some d) (hue : j.ue = false) :
    exec (.cuJobComplete u) s = .next (((((s.setUnit u.val none).put (cuState_STATE u.val) 3).put (cuState_DETAIL u.val) d).raise 449
      (u.val * 256 + cuSource j.owner)).cuRecord j) := by
  change execCuJobComplete u s = _
  simp only [execCuJobComplete, hj, hs, hue, Bool.false_and, Option.isSome_some, Option.isNone_some, Option.getD_some,
    Bool.false_eq_true, if_false, State.when, if_true]

end

/-- A record of the sealed or the open ring where it may be written (R428). -/
theorem cuRecord_internal {s : State} {j : CuJob} (ho : j.owner = 32 ∨ j.owner = 33) (hm : s.cuMay j j.record 32 = true) :
    s.cuRecord j = (s.store j.record (j.completion s.now.word)).raise 448
      (cuSource j.owner * 256 + (if j.stop.isSome then stNoResource else stDone)) := by
  have hlive : ¬ (j.owner = 34 ∨ (j.owner < 32 && s.ringGen j.owner != j.gen) = true) := by
    rcases ho with ho | ho <;> simp [ho]
  exact (if_neg hlive).trans (by rw [if_pos hm])

/-! ### Direct use (R424, R426, R431) -/

section
variable {s : State} {k : Fin 4} {u : Fin 8}

theorem when_bne (s : State) (n k : Nat) (g : State → State) : s.when (n != k) g = if n = k then s else g s := by
  by_cases h : n = k <;> simp [State.when, h]

/-- A sealed write of the control register of a unit without a job: it starts one, is refused, or is kept. -/
theorem exec_cuDirectGo_idle (hu : s.cuUnit u.val = none) (hb : s.writeBarred (.core k .sealed) (cuCtrl u.val).addr = false)
    (value : W32) : exec (.cuDirectGo (.core k .sealed) u value) s = .next
      (let new := value.toNat &&& 0x11E
      let old := (s.rd (cuCtrl u.val)).toNat
      let t := s.wr (cuCtrl u.val) (BitVec.ofNat 64 new)
      let t := if new = old then t else t.noteWrite (.core k .sealed) (cuCtrl u.val).addr value.toNat old
      if value.toNat % 2 = 1 ∧ new / 256 = 1 then
        if new / 8 % 4 = 3 then s.emit (.busError (agentOf (.core k .sealed)) (cuCtrl u.val).addr) else t.cuGo u.val
      else t) := by
  change execCuDirectGo _ _ _ _ = _
  generalize hnew : value.toNat &&& 0x11E = new
  by_cases hstart : value.toNat % 2 = 1 ∧ new / 256 = 1
  · obtain ⟨hgo, hdirect⟩ := hstart
    simp only [execCuDirectGo, hnew, hu, hb, hgo, hdirect, mayWrite_core, worldOf, when_bne, Option.isSome_none, Bool.not_true,
      Bool.not_false, Bool.false_eq_true, Bool.false_and, Bool.and_false, Bool.and_self, Bool.true_and, beq_self_eq_true, beq_iff_eq,
      reduceCtorEq, and_self, if_true, if_false]
  · have hidle : (value.toNat % 2 == 1 && new / 256 == 1) = false := by simpa using hstart
    simp only [execCuDirectGo, hnew, hu, hb, hidle, hstart, mayWrite_core, worldOf, when_bne, Option.isSome_none, Bool.not_true,
      Bool.not_false, Bool.false_eq_true, Bool.false_and, Bool.and_false, reduceCtorEq, if_false]

end

/-- Settles O40: a unit by the job that it may take, a descriptor by whether it is one that its job may read, a job by how it ended, a
write of a control register by whether it starts a job; each packet passes its checks, so its effect decides. -/
theorem checkUnits : Obligations.CheckUnits := by
  refine ⟨fun s p h => packet_answer h rfl nofun rfl, fun s p h => packet_answer h rfl nofun rfl,
    fun alg fold word run => ⟨rfl, rfl, rfl⟩,
    fun s u j => ⟨exec_cuDispatch_takes, exec_cuDispatch_waits⟩,
    fun s u j src len hj hl hs hi hd ho => ?passes,
    fun s u ue j a outside hj hs hi hd => exec_cuDescriptorComplete_error hj hs hi hd ue,
    fun s u j hj => ⟨exec_cuJobComplete_done hj, fun d hs hue => exec_cuJobComplete_stopped hj hs hue⟩,
    fun s j ho hm => cuRecord_internal ho hm,
    fun s k u value => fun hu hb => ⟨fun hgo hd hc => ?starts, fun hgo hd hc => ?conflicts, fun h => ?kept⟩⟩
  case passes => exact (exec_cuDescriptorComplete_ok hj hl hs hi hd ho).trans (congrArg _ (cuProcess_uncharged ho src len))
  case starts => exact (exec_cuDirectGo_idle hu hb value).trans (congrArg _ ((if_pos ⟨hgo, hd⟩).trans (if_neg hc)))
  case conflicts => exact (exec_cuDirectGo_idle hu hb value).trans (congrArg _ ((if_pos ⟨hgo, hd⟩).trans (if_pos hc)))
  case kept =>
    refine (exec_cuDirectGo_idle hu hb value).trans (congrArg _ (if_neg fun hs => ?_))
    rcases h with h | h
    · exact absurd (h.symm.trans hs.1) (by decide)
    · exact h hs.2

end Sys2Proof.Machine

/-! Proofs of the obligations of 17_peat_log.md: commits, summaries, the policy, releases, marks and exports of the log. -/
namespace Sys2Proof.Machine

/-! ### Commits (R434, R435, R442, R445) -/

theorem length_leBytes (n v : Nat) : (leBytes n v).length = n := by
  induction n generalizing v with
  | zero => rfl
  | succ n ih => exact congrArg (· + 1) (ih _)

theorem length_bytesAt (p : List Byte) (off len : Nat) : (bytesAt p off len).length = len := by
  simp only [bytesAt, List.length_append, List.length_replicate]
  have := List.length_take_le len (p.drop off)
  omega

theorem length_recordBytes (r : PeatRec) (n boot : Nat) : (recordBytes r n boot).length = 60 := by
  simp only [recordBytes, List.length_append, length_leBytes, length_bytesAt]

section
variable {s : State}

theorem swf_fillMark (h : swf s.regs = true) (threshold detail : Nat) (raised : Bool) (set : Bool → PeatState → PeatState) :
    swf (s.fillMark threshold detail raised set).regs = true := by
  unfold State.fillMark
  repeat' split
  · exact h
  · exact h
  · exact swf_raise (s := s.modPeat (set true)) h _ _

theorem get_fillMark (h : swf s.regs = true) {f : RF} (hf : f.offEvents = true) (threshold detail : Nat) (raised : Bool)
    (set : Bool → PeatState → PeatState) : (s.fillMark threshold detail raised set).get f = s.get f := by
  unfold State.fillMark
  repeat' split
  · rfl
  · rfl
  · exact get_raise (s := s.modPeat (set true)) h hf (by decide) _

/-- A log with its status flags, where a log that is not full may raise 454 again (R441). -/
def State.showFill (s : State) (full out : Bool) : State :=
  ((s.putBit peatStatus_FULL full).putBit peatStatus_RESERVE_OUT out).when (!full) fun s =>
    s.modPeat fun p => { p with raisedOut := false }

theorem regs_showFill (full out : Bool) :
    (s.showFill full out).regs = ((s.putBit peatStatus_FULL full).putBit peatStatus_RESERVE_OUT out).regs := by
  cases full <;> rfl

theorem swf_showFill (h : swf s.regs = true) (full out : Bool) : swf (s.showFill full out).regs = true := by
  rw [regs_showFill]
  exact swf_put (swf_put h _ _) _ _

theorem get_showFill (h : swf s.regs = true) {f : RF} (hs : f.reg.addr ≠ peatStatus.addr) (full out : Bool) :
    (s.showFill full out).get f = s.get f :=
  (congrArg (· / 2 ^ f.lsb % 2 ^ f.width) (congrArg BitVec.toNat (rd_congr (regs_showFill full out) f.reg))).trans
    ((get_put_ne (swf_put h _ _) hs _).trans (get_put_ne h hs _))

/-- The fill of the log shows in PEAT_STATUS and in events alone. -/
theorem get_refill (h : swf s.regs = true) {f : RF} (hf : f.offEvents = true) (hs : f.reg.addr ≠ peatStatus.addr) :
    s.refill.get f = s.get f := by
  unfold State.refill
  extract_lets t u stop full was v w
  have hu : swf u.regs = true := swf_fillMark (swf_fillMark h _ _ _ _) _ _ _ _
  have hget : u.get f = s.get f :=
    (get_fillMark (swf_fillMark h _ _ _ _) hf _ _ _ _).trans (get_fillMark h hf _ _ _ _)
  have hw : w.get f = s.get f := (get_showFill hu hs full _).trans hget
  split
  · exact (get_raise (swf_showFill hu full _) hf (by decide) 0).trans hw
  · exact hw

theorem logHeld_eq : s.logHeld = s.get peatNext_VALUE - s.get peatOldest_VALUE := rfl

/-- In a full bank the oldest record gives its slot, which is reported once (R442). -/
theorem makeSlot_full (h : logSlots ≤ s.logHeld) : s.makeSlot =
    let past := s.put peatOldest_VALUE (s.get peatOldest_VALUE + 1)
    if s.peat.raisedWrap then past else (past.modPeat fun p => { p with raisedWrap := true }).raise 453 0 :=
  if_neg (Nat.not_lt.mpr h)

/-- A record that is committed: its bytes and CRC stand in its slot, NEXT and LAST_CRC follow (R435, R445). -/
theorem commitRecord_eq (r : PeatRec) : s.commitRecord r =
    let u := s.makeSlot
    let n := u.get peatNext_VALUE
    let bytes := recordBytes r n (u.get peatBoot_VALUE)
    let crc := recordCrc (if n = 0 then 0 else u.get peatLastCrc_VALUE) bytes
    (((u.modPeat fun p => { p with bank := storeBytes p.bank (slotAddr n) (bytes ++ leBytes 4 crc) }).put peatNext_VALUE (n + 1)).put
      peatLastCrc_VALUE crc).refill := rfl

theorem get_committed (h : swf s.regs = true) (next crc : Nat) :
    ((s.put peatNext_VALUE next).put peatLastCrc_VALUE crc).refill.get peatLastCrc_VALUE = crc % 2 ^ 32 ∧
      ((s.put peatNext_VALUE next).put peatLastCrc_VALUE crc).refill.get peatNext_VALUE = next % 2 ^ 32 := by
  have hp : swf ((s.put peatNext_VALUE next).put peatLastCrc_VALUE crc).regs = true := swf_put (swf_put h _ _) _ _
  rw [get_refill hp (by decide) (by decide), get_refill hp (by decide) (by decide)]
  exact ⟨get_put (swf_put h _ _) (by decide) _, (get_put_c (swf_put h _ _) rfl rfl _).trans (get_put h (by decide) _)⟩

theorem get_commitRecord (h : s.canonical = true) (r : PeatRec) :
    let u := s.makeSlot
    let n := u.get peatNext_VALUE
    (s.commitRecord r).get peatLastCrc_VALUE =
        recordCrc (if n = 0 then 0 else u.get peatLastCrc_VALUE) (recordBytes r n (u.get peatBoot_VALUE)) % 2 ^ 32 ∧
      (s.commitRecord r).get peatNext_VALUE = (n + 1) % 2 ^ 32 := by
  have hu : swf s.makeSlot.regs = true := canonical_regs (State.makeSlot_canonical s h)
  exact get_committed (s := s.makeSlot.modPeat _) hu _ _

/-! ### Summaries and the policy (R440, R442) -/

/-- The summary of a master frame start, where a count is not zero and the log has room (R440, R441). -/
theorem summary_due (hdue : s.now.line = 0 ∧ s.now.grain = 0 ∧ s.now.frame % s.get peatCtrl_SUM_FRAMES = 0) : s.summary =
    if (s.peat.counts.all (· == 0)) || s.logRefuses 1 then s
    else (s.log { time := s.now.word, origin := 0x8FFF, kind := 3, gen := s.get wallStatus_RASTER_GEN, status := 0,
                  aux := min 65535 ((s.peat.elapsed + 500000000000) / 1000000000000), caravan := 0, target := 0,
                  data := s.peat.counts, order := 900, reserve := false, reply := none }).1.modPeat fun p =>
        { p with flips := [0, 0, 0, 0], violations := 0, flipFns := 0, unwritten := 0, elapsed := 0 } :=
  if_neg (by omega)

theorem summary_undue (hdue : ¬ (s.now.line = 0 ∧ s.now.grain = 0 ∧ s.now.frame % s.get peatCtrl_SUM_FRAMES = 0)) :
    s.summary = s := if_pos (by omega)

theorem setPolicy_wrap (h : s.get peatCtrl_WRAP = 0) (agent order : Nat) : s.setPolicy true agent order =
    (((s.put peatCtrl_WRAP 1).modPeat fun p => { p with raisedWrap := false }).marker 3 agent [] order).refill :=
  if_neg (by simp [flag_of_get_zero h])

theorem setPolicy_stop (h : s.get peatCtrl_WRAP ≠ 0) (agent order : Nat) : s.setPolicy false agent order =
    ((s.put peatCtrl_WRAP 0).marker 3 agent [] order).refill :=
  if_neg (by simp [flag_of_get_ne_zero h])

/-! ### Releases, marks and exports (R444, R446, R448) -/

section
variable {o : Origin}

theorem release_positive {n : Nat} (h : n ≠ 0) : s.release n o =
    ((((s.put peatOldest_VALUE n).refill).marker 4 o.agent (leBytes 4 (n - 1) ++
      leBytes 4 ((s.put peatOldest_VALUE n).storedCrc (n - 1))) (packetOrder o.ring)).raise 456
        (min (n - s.get peatOldest_VALUE) 0xFFFF)) := by
  simp only [State.release, when_beq, h, if_false]

theorem markRun_full (h : s.logRefuses 1 = true) :
    markRun s o = (s.bump peatRefused_COUNT, .answer (refusal stLogFull 0)) := if_pos h

/-- An export of records that are all held writes each of them (R448). -/
theorem exec_logExportComplete_whole {ring : Fin 34} {first count dest : Nat}
    (hf : (s.peat.exports.find? fun e => e.2.2.2.ring == ring.val) = some (first, count, dest, o))
    (hheld : s.recordsHeld first count = true) (hg : s.ringGen o.ring = o.gen) (hc : 0 < count) :
    let t := (s.modPeat fun p => { p with exports := p.exports.erase (first, count, dest, o) }).copyRecords o first count dest
    exec (.logExportComplete ring) s = .next (t.settle o ⟨stDone, 0, BitVec.ofNat 64 count,
      BitVec.ofNat 64 (t.storedCrc (first + count - 1))⟩) := by
  intro t
  have hlive (f : PeatState → PeatState) : ((s.modPeat f).ringGen o.ring != o.gen) = false := bne_eq_false_iff_eq.mpr hg
  change execLogExportComplete ring s = _
  simp only [execLogExportComplete, hf, hheld, if_true, Bool.not_true, State.when, Bool.false_eq_true, if_false, hlive, hc.ne']
  rfl

end

end

/-- Settles O42: a commit by the record at the front and by the slot that it finds, a summary by what is due, a change of policy by
the policy in force, an export by what is held of it; each packet passes its checks, so its effect decides. -/
theorem peatLog : Obligations.PeatLog := by
  refine ⟨fun s r rest h => ⟨fun hr => ?silent, fun d hr => ?replies⟩, fun s h => ?empty,
    fun s r => ⟨length_recordBytes _ _ _, commitRecord_eq r, fun h => get_commitRecord h r⟩,
    fun s => ⟨fun h => if_pos h, fun h hr => ?overAgain, fun h hr => ?overFirst⟩,
    fun s => ⟨fun hdue hn hl => ?due, fun hdue => congrArg _ (summary_undue hdue), fun hz => ?nothing⟩,
    fun s k value => rfl,
    fun s agent order => ⟨fun h => setPolicy_wrap h agent order, fun h => ⟨setPolicy_stop h agent order, ?wraps⟩, fun h => ?stops⟩,
    fun s p h => packet_answer h rfl nofun rfl, fun s p h => fun hn => ?release,
    fun s p h => ⟨fun hl => ?marks, fun hl => packet_answer h rfl nofun (markRun_full hl)⟩,
    fun s p h => packet_later h rfl nofun rfl,
    fun s ring first count dest o hf hheld hg hc => exec_logExportComplete_whole hf hheld hg hc,
    fun s p h => packet_answer h rfl nofun rfl⟩
  case silent =>
    refine congrArg Host.Outcome.next ?_
    simp only [State.commitNext, h, hr]
  case replies =>
    refine congrArg Host.Outcome.next ?_
    simp only [State.commitNext, h, hr]
  case empty =>
    refine congrArg Host.Outcome.next ?_
    simp only [State.commitNext, h]
  case overAgain => exact (makeSlot_full h).trans (if_pos hr)
  case overFirst => exact (makeSlot_full h).trans (if_neg (by simp [hr]))
  case due =>
    obtain ⟨b, hb, hne⟩ := hn
    refine congrArg Host.Outcome.next ((summary_due hdue).trans (if_neg ?_))
    have hsome : s.peat.counts.all (· == 0) = false := List.all_eq_false.mpr ⟨b, hb, by simpa using hne⟩
    rw [hsome, hl]
    decide
  case nothing =>
    by_cases hdue : s.now.line = 0 ∧ s.now.grain = 0 ∧ s.now.frame % s.get peatCtrl_SUM_FRAMES = 0
    · refine congrArg Host.Outcome.next ((summary_due hdue).trans (if_pos ?_))
      have hall : s.peat.counts.all (· == 0) = true := List.all_eq_true.mpr fun b hb => beq_iff_eq.mpr (hz b hb)
      rw [hall]
      rfl
    · exact congrArg _ (summary_undue hdue)
  case wraps => exact if_pos (flag_of_get_ne_zero h)
  case stops => exact if_pos (flag_of_get_zero h)
  case release => exact packet_answer h rfl nofun (congrArg (·, Effect.answer (done 0 0)) (release_positive hn))
  case marks => exact packet_silent h rfl rfl (if_neg (by simp [hl]))

end Sys2Proof.Machine

/-! Proofs of the obligations of 18_supervision_events.md: event sources and records, their delivery and opcodes, supervision. -/
namespace Sys2Proof.Machine

/-! ### Event delivery and the event opcodes (R455 to R458, R471 to R473) -/

section
variable {s : State}

/-- A function with records that wait and a ring takes them: the records, the header, then the vectors (R457). -/
theorem exec_eventHostDelivery_enabled {f : Fin 32} (hr : s.evt.outbound.getD f.val [] ≠ [])
    (hen : s.get (evtFnRcfg_EN f.val) = 1) :
    let recs := s.evt.outbound.getD f.val []
    let t : State := { s with evt := { s.evt with outbound := s.evt.outbound.set f.val [] } }
    let base := s.get (evtFnRing_ADDR f.val) * 4096
    let u := t.writeRecords f.val base (s.get (evtFnRcfg_LOG2 f.val)) recs (s.get (evtFnDeliv_COUNT f.val))
    let u := u.put (evtFnDeliv_COUNT f.val) (u.get (evtFnDeliv_COUNT f.val) + recs.length)
    let u := u.emit (.hostWrite f.val base (leBytes 8 (u.get (evtFnDeliv_COUNT f.val)) ++ leBytes 56 0))
    exec (.eventHostDelivery f) s = .next
      (u.each ((recs.map fun r => u.eventVector f.val r.event).eraseDups) fun s v => s.signalRouted f.val v) := by
  intro recs t base u _ _
  have hflag : t.flag (evtFnRcfg_EN f.val) = true := flag_of_get_one (s := t) hen
  exact congrArg Host.Outcome.next ((if_neg (by simpa using hr)).trans (if_neg (show ¬ (!t.flag _) = true by rw [hflag]; decide)))

theorem exec_eventHostDelivery_disabled {f : Fin 32} (hr : s.evt.outbound.getD f.val [] ≠ [])
    (hen : s.get (evtFnRcfg_EN f.val) = 0) : exec (.eventHostDelivery f) s = .next
      { s with evt := { s.evt with outbound := s.evt.outbound.set f.val [] } } := by
  have hflag : ({ s with evt := { s.evt with outbound := s.evt.outbound.set f.val [] } } : State).flag (evtFnRcfg_EN f.val) = false :=
    flag_of_get_zero (s := { s with evt := _ }) hen
  exact congrArg Host.Outcome.next ((if_neg (by simpa using hr)).trans (if_pos (by simp [hflag])))

theorem evtRingSet_run {o : Origin} : specEvtRingSet.run s o =
    (let t := ((s.put (evtFnRcfg_LOG2 o.tgt) (o.u8 1)).put (evtFnRing_ADDR o.tgt) (o.u64 8 / 4096)).put (evtFnRcfg_EN o.tgt) (o.u8 0)
    if o.u8 0 = 1 then t.enableDelivery o.tgt else t, .answer (done 0 0)) :=
  congrArg (·, Effect.answer (done 0 0)) (when_beq _ _ _ _)

section
variable {k : Fin 4} {value : W32}

theorem exec_evtRingEnableWrite_sealed (hb : s.writeBarred (.core k .sealed) (evtIrSize 0).addr = false) :
    exec (.evtRingEnableWrite (.core k .sealed) .sealed value) s = .next ((s.writeEventRing 0 value.toNat).noteWrite
      (.core k .sealed) (evtIrSize 0).addr value.toNat (s.rd (evtIrSize 0)).toNat) :=
  congrArg Host.Outcome.next (if_neg (show ¬ s.writeBarred (.core k .sealed) (evtIrSize 0).addr = true by rw [hb]; decide))

/-- No log holds back a write of the open world, and none records it (R436). -/
theorem exec_evtRingEnableWrite_opened :
    exec (.evtRingEnableWrite (.core k .opened) .opened value) s = .next (s.writeEventRing 1 value.toNat) := rfl

end

/-! ### Supervision (R460 to R467) -/

theorem exec_supvKickWrite_sealed (k : Fin 4) (value : W32) : exec (.supvKickWrite (.core k .sealed) value) s =
    .next (if value.toNat % 256 = 0xC3 then s.modSupv fun v => { v with kickAt := s.now } else s) := rfl

theorem not_supervised (h : s.supervised = false) : (!s.supervised) = true := by rw [h]; rfl

theorem supervised_not (h : s.supervised = true) : ¬ (!s.supervised) = true := by rw [h]; decide

section
variable (h : s.supervised = true)
include h

theorem exec_oscCompare_supervised (ppm : Nat) : exec (.oscCompare ppm) s =
    .next (if 1000 < ppm then (s.put supvStatus_OSC_BAD 1).raise 485 (min ppm 0xFFFF) else s) := by
  change execOscCompare ppm s = _
  simp only [execOscCompare, h, Bool.true_and, decide_eq_true_eq]

/-- The wave of HEALTH_A at a half-period: it stops, or its level turns (R466). -/
theorem exec_healthAHalfPeriod_waving (ha : s.get supvStatus_HEALTH_A = 1) : exec .healthAHalfPeriod s = .next
    (if s.supv.stopA = true ∨ s.allVerified = false then
      (((s.modSupv fun v => { v with levelA := false, stopA := false, cleanFrames := 0 }).emit (.contact "HEALTH_A" 0)).put
        supvStatus_HEALTH_A 0).raise 486 0
    else (s.modSupv fun v => { v with levelA := !v.levelA }).emit (.contact "HEALTH_A" (if s.supv.levelA then 0 else 1))) := by
  have hlevel : (if (s.modSupv fun v => { v with levelA := !v.levelA }).supv.levelA = true then 1 else 0) =
      (if s.supv.levelA = true then 0 else 1) := by
    change (if (!s.supv.levelA) = true then 1 else 0) = _
    cases s.supv.levelA <;> rfl
  change execHealthAHalfPeriod s = _
  simp only [execHealthAHalfPeriod, h, flag_of_get_one ha, Bool.not_true, Bool.false_eq_true, if_false, if_true, Bool.or_eq_true,
    Bool.not_eq_true', hlevel]

/-- While HEALTH_A is low the wave resumes after enough clean frames (R466). -/
theorem exec_healthAHalfPeriod_low (ha : s.get supvStatus_HEALTH_A = 0) : exec .healthAHalfPeriod s = .next
    (if s.allVerified = true ∧ s.get supvCtrl_RESUME ≤ s.supv.cleanFrames then
      (((s.modSupv fun v => { v with levelA := true, stopA := false }).emit (.contact "HEALTH_A" 1)).put supvStatus_HEALTH_A 1).raise
        486 1
    else s) := by
  change execHealthAHalfPeriod s = _
  simp only [execHealthAHalfPeriod, h, flag_of_get_zero ha, Bool.not_true, Bool.false_eq_true, if_false, Bool.and_eq_true,
    decide_eq_true_eq]

end

end

/-- Settles O43: a delivery by what waits and by the ring's EN, a write of an internal ring by its world; each packet passes its checks,
so its effect decides. -/
theorem eventDelivery : Obligations.EventDelivery := by
  refine ⟨fun s f => ⟨fun h => ?nothing, exec_eventHostDelivery_disabled, exec_eventHostDelivery_enabled⟩,
    fun s f base log2 n r l => ⟨rfl, rfl⟩, fun s p h => packet_answer h rfl nofun rfl,
    fun s p h => ⟨fun he => ?kept, fun he => ?anew⟩, fun s p h => packet_answer h rfl nofun rfl,
    fun s p h => packet_answer h rfl nofun rfl,
    fun s k value => ⟨exec_evtRingEnableWrite_sealed, exec_evtRingEnableWrite_opened, rfl⟩⟩
  case nothing => exact congrArg Host.Outcome.next (if_pos (by simpa using h))
  case kept => exact packet_answer h rfl nofun (evtRingSet_run.trans (congrArg (·, Effect.answer (done 0 0)) (if_neg he)))
  case anew => exact packet_answer h rfl nofun (evtRingSet_run.trans (congrArg (·, Effect.answer (done 0 0)) (if_pos he)))

/-- Settles O44: each step of the supervisor by whether it runs, a half-period by the wave and by whether every head is verified. -/
theorem supervision : Obligations.Supervision := by
  refine ⟨fun s p h => packet_answer h rfl nofun rfl,
    fun s k value => ⟨fun hv => ?kicks, fun hv => ?ignored, rfl⟩, fun s h => ?mismatch,
    fun s h => ⟨congrArg _ (if_pos h), fun ppm hp => (exec_oscCompare_supervised h ppm).trans (congrArg _ (if_pos hp)),
      fun ppm hp => (exec_oscCompare_supervised h ppm).trans (congrArg _ (if_neg (Nat.not_lt.mpr hp)))⟩,
    fun s h => ⟨?noStall, fun ppm => ?noFault, congrArg _ (if_pos (not_supervised h)), congrArg _ (if_pos (not_supervised h))⟩,
    fun s h ha => ⟨fun hstop => ?stops, fun hgo hv => ?waves⟩, fun s h ha => ⟨fun hv hc => ?resumes, fun hlow => ?stays⟩,
    fun s h => congrArg _ (if_neg (supervised_not h)), fun s => rfl⟩
  case kicks => exact (exec_supvKickWrite_sealed k value).trans (congrArg _ (if_pos hv))
  case ignored => exact (exec_supvKickWrite_sealed k value).trans (congrArg _ (if_neg hv))
  case mismatch => exact congrArg Host.Outcome.next (if_neg (by simp [h]))
  case noStall => exact congrArg Host.Outcome.next (if_neg (by simp [h]))
  case noFault => exact congrArg Host.Outcome.next (if_neg (by simp [h]))
  case stops => exact (exec_healthAHalfPeriod_waving h ha).trans (congrArg _ (if_pos hstop))
  case waves => exact (exec_healthAHalfPeriod_waving h ha).trans (congrArg _ (if_neg (by simp [hgo, hv])))
  case resumes => exact (exec_healthAHalfPeriod_low h ha).trans (congrArg _ (if_pos ⟨hv, hc⟩))
  case stays =>
    refine (exec_healthAHalfPeriod_low h ha).trans (congrArg _ (if_neg ?_))
    rintro ⟨hv, hc⟩
    rcases hlow with hlow | hlow
    · exact absurd (hv.symm.trans hlow) (by decide)
    · exact Nat.not_le.mpr hlow hc

end Sys2Proof.Machine

/-! Proofs of the obligations of 19_power_reset_modes.md: block software reset, supplies, starts, boot, resets, power packets. -/
namespace Sys2Proof.Machine

/-! ### Block software reset (R500, R501) -/

section
variable {s : State}

/-- A busy block among those that a write would newly hold. -/
theorem any_domainBusy {set : List Nat} :
    (set.any fun b => match domainOf b with
      | some d => s.domainBusy d
      | none => false) = true ↔ ∃ b ∈ set, ∃ d, domainOf b = some d ∧ s.domainBusy d = true := by
  rw [List.any_eq_true]
  refine exists_congr fun b => and_congr_right fun _ => ?_
  cases domainOf b with
  | none => simp
  | some d => simp

section
variable {k : Fin 4} {value : W64}

theorem exec_swrstWrite_free
    (hfree : ∀ b ∈ swrstBits (value.toNat % 2 ^ 40 &&& (swrstMask ^^^ (s.rd sysSwrst).toNat)), ∀ d, domainOf b = some d →
      s.domainBusy d = false) (hb : s.writeBarred (.core k .sealed) sysSwrst.addr = false) :
    exec (.swrstWrite (.core k .sealed) value) s = .next
      (((s.each (swrstBits (value.toNat % 2 ^ 40 &&& (swrstMask ^^^ (s.rd sysSwrst).toNat))) State.holdBlock).each
        (swrstBits ((s.rd sysSwrst).toNat &&& (swrstMask ^^^ value.toNat % 2 ^ 40))) State.releaseBlock).noteWrite
          (.core k .sealed) sysSwrst.addr value.toNat (s.rd sysSwrst).toNat) := by
  have hidle := mt any_domainBusy.mp fun ⟨b, hmem, d, hd, hbusy⟩ =>
    Bool.false_ne_true ((hfree b hmem d hd).symm.trans hbusy)
  refine congrArg Host.Outcome.next ((if_neg fun h => hidle ?_).trans (sealedWrite_sealed rfl mayWrite_core hb _ _))
  exact (Bool.and_eq_true_iff.mp (Bool.and_eq_true_iff.mp h).1).1

theorem exec_swrstWrite_busy
    (hbusy : ∃ b ∈ swrstBits (value.toNat % 2 ^ 40 &&& (swrstMask ^^^ (s.rd sysSwrst).toNat)), ∃ d, domainOf b = some d ∧
      s.domainBusy d = true) :
    exec (.swrstWrite (.core k .sealed) value) s = .next
      (s.refuseWrite (.core k .sealed) sysSwrst.addr value.toNat (s.rd sysSwrst).toNat stConflict) :=
  congrArg Host.Outcome.next (if_pos (Bool.and_eq_true_iff.mpr ⟨Bool.and_eq_true_iff.mpr ⟨any_domainBusy.mpr hbusy, mayWrite_core⟩, rfl⟩))

end

/-- Whether the clock of a block is good: HPA and HPB have no domain, and theirs always is. -/
theorem clockGood_iff {bit : Nat} :
    (match domainOf bit with
      | some d => s.bit worldCpcPwr_ON d && s.bit worldCpcClk_ON d
      | none => true) = true ↔ ∀ d, domainOf bit = some d → s.bit worldCpcPwr_ON d = true ∧ s.bit worldCpcClk_ON d = true := by
  cases domainOf bit with
  | none => simp
  | some d => simp

section
variable {bit : Fin 40} (h : s.blockBit sysSwrstPend bit.val = true)
include h

theorem exec_swrstRelease_good
    (hgood : ∀ d, domainOf bit.val = some d → s.bit worldCpcPwr_ON d = true ∧ s.bit worldCpcClk_ON d = true) :
    let t := (s.coldBlock bit.val).putBlockBit sysSwrstPend bit.val false
    exec (.swrstRelease bit) s = .next { t with power := { t.power with stuck := setField t.power.stuck bit.val 1 0 } } :=
  congrArg Host.Outcome.next (if_pos (Bool.and_eq_true_iff.mpr ⟨h, clockGood_iff.mpr hgood⟩))

omit h in
theorem exec_swrstRelease_stopped {d : Nat} (hd : domainOf bit.val = some d)
    (hoff : s.bit worldCpcPwr_ON d = false ∨ s.bit worldCpcClk_ON d = false) : exec (.swrstRelease bit) s = .next s := by
  refine congrArg Host.Outcome.next (if_neg fun hc => ?_)
  obtain ⟨hp, hk⟩ := clockGood_iff.mp (Bool.and_eq_true_iff.mp hc).2 d hd
  simp [hp, hk] at hoff

theorem exec_swrstStuck_first (hs : s.power.stuck / 2 ^ bit.val % 2 = 0) : exec (.swrstStuck bit) s = .next
    (({ s with power := { s.power with stuck := setField s.power.stuck bit.val 1 1 } } : State).raise 13 bit.val) :=
  congrArg Host.Outcome.next (if_pos (Bool.and_eq_true_iff.mpr ⟨h, decide_eq_true hs⟩))

omit h in
theorem exec_swrstStuck_reported (hs : s.power.stuck / 2 ^ bit.val % 2 = 1) : exec (.swrstStuck bit) s = .next s :=
  congrArg Host.Outcome.next (if_neg (by simp [hs]))

end

/-- The state in which `holdBlock` leaves every block but HPA and HPB, whose link goes down as well. -/
theorem holdBlock_eq (bit : Nat) : s.holdBlock bit =
    (let t := (s.putBlockBit sysSwrst bit true).putBlockBit sysSwrstPend bit false
    let t : State := { t with power := { t.power with stuck := setField t.power.stuck bit 1 0 } }
    if bit = 30 then t.dropLink 0 else if bit = 31 then t.dropLink 1 else t) := rfl

end

/-- Settles O41: a write by whether a block it newly holds is busy, a release by the clock of its block, a report by whether it was
made. -/
theorem softwareReset : Obligations.SoftwareReset :=
  ⟨fun _ _ _ => ⟨exec_swrstWrite_free, exec_swrstWrite_busy⟩,
    fun _ bit => ⟨fun h => (holdBlock_eq bit).trans ((if_neg (by omega)).trans (if_neg (by omega))),
      fun h => (holdBlock_eq bit).trans (if_pos h), fun h => (holdBlock_eq bit).trans ((if_neg (by omega)).trans (if_pos h)), rfl⟩,
    fun _ _ h => ⟨exec_swrstRelease_good h, fun _ => exec_swrstRelease_stopped⟩,
    fun _ _ h => ⟨exec_swrstStuck_first h, exec_swrstStuck_reported⟩⟩

end Sys2Proof.Machine

/-! Proof of the obligation on event sources and event records (R453, R454). -/
namespace Sys2Proof.Machine

/-! ### Bits of a register field -/

theorem mod_pow_bit {v w i : Nat} (hi : i < w) : v % 2 ^ w / 2 ^ i % 2 = v / 2 ^ i % 2 := by
  obtain ⟨d, rfl⟩ := Nat.exists_eq_add_of_lt hi
  rw [show i + d + 1 = i + (d + 1) by ring, pow_add, Nat.mod_mul_right_div_self, pow_succ', Nat.mod_mul_right_mod]

section
variable {s : State} (h : swf s.regs = true) {f : RF} (hf : f.lsb + f.width ≤ 64) {i : Nat}
include h hf

theorem bit_putBitAt_same (hi : i < f.width) (b : Bool) : (s.putBitAt f i b).bit f i = b := by
  unfold State.bit State.putBitAt
  have hread := setField_read (old := s.get f) (lsb := i) (w := 1) (v := if b then 1 else 0)
  rw [get_put h hf, mod_pow_bit hi]
  rw [pow_one] at hread
  rw [hread]
  cases b <;> rfl

theorem bit_putBitAt_ne {j : Nat} (hj : j < f.width) (hne : j ≠ i) (b : Bool) : (s.putBitAt f i b).bit f j = s.bit f j := by
  have happart := setField_apart (old := s.get f) (v := if b then 1 else 0) (l := j) (k := 1) (lsb := i) (w := 1) (by omega)
  unfold State.bit State.putBitAt
  rw [get_put h hf, mod_pow_bit hj]
  exact congrArg (· == 1) happart

end

/-! ### Occurrences of a grain -/

/-- An event that the grain does not hold yet takes a record of its own behind the others. -/
theorem addOccurrence_new {l : List EventNow} {e d : Nat} (h : ∀ x ∈ l, x.event ≠ e) :
    addOccurrence l e d = l ++ [⟨e, 1, d, false, false⟩] := by
  induction l with
  | nil => rfl
  | cons x l ih =>
    have hne := h x (by simp)
    simp only [addOccurrence, if_neg hne, ih fun y hy => h y (by simp [hy]), List.cons_append]

/-- An event that the grain holds is counted in its record, whose detail stays that of the first occurrence. -/
theorem addOccurrence_again {before after : List EventNow} {x : EventNow} {e d : Nat} (h : ∀ y ∈ before, y.event ≠ e)
    (hx : x.event = e) : addOccurrence (before ++ x :: after) e d = before ++ { x with count := x.count + 1 } :: after := by
  induction before with
  | nil => simp only [List.nil_append, addOccurrence, if_pos hx]
  | cons y l ih =>
    have hne := h y (by simp)
    simp only [List.cons_append, addOccurrence, if_neg hne, ih fun z hz => h z (by simp [hz])]

section
variable {s : State} {e : Nat} (d : Nat)

theorem occur_first (hnew : ∀ x ∈ s.evt.grain, x.event ≠ e) : s.occur e d =
    { (s.putBitAt (evtPend_PEND (e / 32)) (e % 32) true).bump (evtSrc_OCC e) with
      evt := { s.evt with grain := s.evt.grain ++ [⟨e, 1, d, false, false⟩] } } := by
  have hnone : ¬ (s.evt.grain.any fun x => x.event == e) = true := by simpa using hnew
  unfold State.occur
  dsimp only
  rw [if_neg hnone, ← addOccurrence_new hnew]
  rfl

theorem occur_again {before after : List EventNow} {x : EventNow} (hg : s.evt.grain = before ++ x :: after)
    (hb : ∀ y ∈ before, y.event ≠ e) (hx : x.event = e) : s.occur e d =
    { (s.putBitAt (evtPend_PEND (e / 32)) (e % 32) true).bump (evtSrc_COLL e) with
      evt := { s.evt with grain := before ++ { x with count := x.count + 1 } :: after } } := by
  have hsome : (s.evt.grain.any fun x => x.event == e) = true := by simp [hg, hx]
  unfold State.occur
  dsimp only
  rw [if_pos hsome, ← addOccurrence_again (d := d) hb hx, ← hg]
  rfl

end

section
variable {s : State} (h : swf s.regs = true)
include h

theorem swf_putBitAt (f : RF) (i : Nat) (b : Bool) : swf (s.putBitAt f i b).regs = true := swf_put h _ _

theorem get_bump_same {f : RF} (hf : f.lsb + f.width ≤ 64) : (s.bump f).get f = min (s.get f + 1) (2 ^ f.width - 1) := by
  refine (get_put h hf _).trans (Nat.mod_eq_of_lt ?_)
  have hpos : 0 < 2 ^ f.width := by positivity
  omega

omit h in
/-- What a grain has collected is not in the register file. -/
theorem get_withEvt (t : State) (x : EvtState) (f : RF) : ({ t with evt := x } : State).get f = t.get f := rfl

omit h in
theorem bit_withEvt (t : State) (x : EvtState) (f : RF) (i : Nat) : ({ t with evt := x } : State).bit f i = t.bit f i := rfl

variable {e : Nat} (he : e < 512)
include he

omit h in
/-- The pending bits of a source and its counter lie in two registers. -/
theorem evtPend_ne_evtSrc : (evtPend (e / 32)).addr ≠ (evtSrc e).addr := by
  simp only [evtPend, evtSrc]
  omega

theorem bit_pending_bump {c : RF} (hc : c.reg = evtSrc e) (i : Nat) :
    (s.bump c).bit (evtPend_PEND (e / 32)) i = s.bit (evtPend_PEND (e / 32)) i := by
  unfold State.bit State.bump State.bumpBy
  rw [get_put_ne h (by rw [hc]; exact evtPend_ne_evtSrc he)]

theorem get_counter_putBitAt {c : RF} (hc : c.reg = evtSrc e) (i : Nat) (b : Bool) :
    (s.putBitAt (evtPend_PEND (e / 32)) i b).get c = s.get c :=
  get_put_ne h (by rw [hc]; exact (evtPend_ne_evtSrc he).symm) _

/-- Which counter of the source advances makes no difference to its pending bits. -/
theorem bit_pending_occur (d i : Nat) : (s.occur e d).bit (evtPend_PEND (e / 32)) i =
    (s.putBitAt (evtPend_PEND (e / 32)) (e % 32) true).bit (evtPend_PEND (e / 32)) i := by
  have hp := swf_putBitAt h (evtPend_PEND (e / 32)) (e % 32) true
  unfold State.occur
  dsimp only
  rw [bit_withEvt]
  split
  · rw [bit_pending_bump hp he rfl]
  · rw [bit_pending_bump hp he rfl]

end

/-- The two counters of a source share its register, 16 bits each. -/
theorem occ_coll_fit (e : Nat) : (evtSrc_OCC e).lsb + (evtSrc_OCC e).width ≤ 64 ∧ (evtSrc_COLL e).lsb + (evtSrc_COLL e).width ≤ 64 := by
  simp [evtSrc_OCC, evtSrc_COLL]

theorem coll_apart_occ (e : Nat) : (evtSrc_COLL e).apart (evtSrc_OCC e) :=
  Or.inr ⟨rfl, by simp [evtSrc_OCC, evtSrc_COLL]⟩

theorem occ_apart_coll (e : Nat) : (evtSrc_OCC e).apart (evtSrc_COLL e) :=
  Or.inr ⟨rfl, by simp [evtSrc_OCC, evtSrc_COLL]⟩

/-- Settles O58: an occurrence by whether the grain holds the event, the record by its definition, the rank by the ranges of R27. -/
theorem eventRecords : Obligations.EventRecords := by
  refine ⟨fun s e d hcan he => ⟨?pends, fun i hi hne => ?others, fun hnew => ?first, fun before x after hg hb hx => ?again⟩,
    fun s e d => ⟨fun he => if_neg (Nat.not_lt.mpr he), fun he => if_pos he⟩, fun s x hx => ?routed, fun r => rfl, fun e he => ?rank⟩
  case pends =>
    exact (bit_pending_occur (canonical_regs hcan) he d _).trans
      (bit_putBitAt_same (canonical_regs hcan) (by simp [evtPend_PEND]) (Nat.mod_lt e (by decide : 0 < 32)) true)
  case others =>
    exact (bit_pending_occur (canonical_regs hcan) he d i).trans (bit_putBitAt_ne (canonical_regs hcan) (by simp [evtPend_PEND]) hi hne true)
  case first =>
    have hregs := canonical_regs hcan
    have hp := swf_putBitAt hregs (evtPend_PEND (e / 32)) (e % 32) true
    rw [occur_first d hnew]
    refine ⟨?_, ?_, rfl⟩
    · rw [get_withEvt, get_bump_same hp (occ_coll_fit e).1, get_counter_putBitAt hregs he rfl]
    · rw [get_withEvt, State.bump, State.bumpBy, get_put_apart hp (occ_coll_fit e).1 (coll_apart_occ e), get_counter_putBitAt hregs he rfl]
  case again =>
    have hregs := canonical_regs hcan
    have hp := swf_putBitAt hregs (evtPend_PEND (e / 32)) (e % 32) true
    rw [occur_again d hg hb hx]
    refine ⟨?_, ?_, rfl⟩
    · rw [get_withEvt, State.bump, State.bumpBy, get_put_apart hp (occ_coll_fit e).2 (occ_apart_coll e), get_counter_putBitAt hregs he rfl]
    · rw [get_withEvt, get_bump_same hp (occ_coll_fit e).2, get_counter_putBitAt hregs he rfl]
  case routed =>
    refine if_neg ?_
    rcases hx with hx | hx
    · simp [hx]
    · simp [hx]
  case rank =>
    unfold eventRank
    split_ifs <;> omega

end Sys2Proof.Machine

/-! Proofs of the obligations of 19_power_reset_modes.md: supplies, temperature and starts. -/
namespace Sys2Proof.Machine

section
variable {s : State}

/-! ### Supplies (R482) -/

section
variable (hp : s.powered = true)
include hp

theorem exec_vmainLowDetect_above (mv10 : BitVec 12) (h : s.get sysPower_LOW = 0) : exec (.vmainLowDetect mv10) s = .next
    ((((s.put sysPower_VMAIN mv10.toNat).put sysPower_LOW 1).put sysPower_VMAIN_OK 0).raise 5 (openRound mv10.toNat 10)) :=
  congrArg Host.Outcome.next (if_neg (by simp [hp, flag_of_get_zero h]))

theorem exec_vmainRecovery_low (mv10 : BitVec 12) (h : s.get sysPower_LOW = 1) : exec (.vmainRecovery mv10) s = .next
    ((((s.put sysPower_VMAIN mv10.toNat).put sysPower_LOW 0).put sysPower_VMAIN_OK 1).raise 6 (openRound mv10.toNat 10)) :=
  congrArg Host.Outcome.next (if_neg (by simp [hp, flag_of_get_one h]))

theorem coldSource_powered (code : Nat) (cycled : Bool) : s.coldSource code cycled = s.coldReset code cycled := if_pos hp

omit hp in
theorem coldSource_unpowered (hoff : s.powered = false) (code : Nat) (cycled : Bool) : s.coldSource code cycled = s :=
  if_neg (by rw [hoff]; decide)

/-- Where VMAIN is lost a powered module rests in Dormant on VSTBY, or has no supply (R477, R487). -/
theorem exec_brownOut_vmainLost : exec (.brownOut true) s = .next
    (let t := s.modPower fun p => { p with vmainGood := false }
    if s.power.vstbyGood = true then t.powerOff 2 .dormant else (t.powerOff 2 .unpowered).alwaysOnLost) := by
  change execBrownOut true s = _
  simp only [execBrownOut, hp, if_true, Bool.not_true, Bool.false_eq_true, if_false]
  rfl

theorem exec_vstbyLossDetect_powered (hv : s.power.vstbyGood = true) : exec .vstbyLossDetect s = .next
    (((s.modPower fun p => { p with vstbyGood := false }).put sysPower_VSTBY_OK 0).raise 7 0) :=
  congrArg Host.Outcome.next ((if_neg (by simp [hv])).trans (if_pos hp))

theorem exec_vstbyGoodDetect_powered (hv : s.power.vstbyGood = false) : exec .vstbyGoodDetect s = .next
    (((s.modPower fun p => { p with vstbyGood := true }).put sysPower_VSTBY_OK 1).raise 8 0) :=
  congrArg Host.Outcome.next ((if_neg (by simp [hv])).trans (if_pos hp))

/-! ### Temperature (R492) -/

/-- A sample warns at WARN_C and takes the warning back 5 °C below it. -/
theorem exec_dieTempSample_powered (die plate : Byte) : exec (.dieTempSample die plate) s = .next
    (let t := (s.put sysTherm_DIE die.toNat).put sysTherm_PLATE plate.toNat
    let warn : Int := t.get sysTherm_WARN_C
    if t.flag sysTherm_WARN = false ∧ warn ≤ die.toInt then (t.put sysTherm_WARN 1).raise 9 die.toNat
    else if t.flag sysTherm_WARN = true ∧ die.toInt ≤ warn - 5 then (t.put sysTherm_WARN 0).raise 10 (die.signExtend 32).toNat
    else t) := by
  change execDieTempSample die plate s = _
  simp only [execDieTempSample, hp, Bool.not_true, Bool.false_eq_true, if_false, Bool.and_eq_true, Bool.not_eq_true',
    decide_eq_true_eq]

end

/-! ### Power-up slots (R483 to R485) -/

theorem exec_powerSlotEnd_slot {n : Nat} {cycled : Bool} (h : s.power.stage = .slot n cycled) (recLow tapSel : Bool) :
    exec (.powerSlotEnd recLow tapSel) s = .next
      (let t := if n = 1 then s.putBit sysStrap_TAPSEL tapSel else s
      let u := if n = 6 then (t.putBit sysStrap_REC recLow).modPower fun p => { p with recN := recLow } else t
      if 16 ≤ n then u.slotsDone else u.modPower fun p => { p with stage := .slot (n + 1) cycled }) := by
  change execPowerSlotEnd recLow tapSel s = _
  simp only [execPowerSlotEnd, h, when_beq]

theorem exec_railFaultTimeout_slot {n : Nat} (h : s.power.stage = .slot n true) : exec .railFaultTimeout s = .next
    (((s.powerOff 9 (if 3 ≤ s.power.railFaults + 1 then .lockout else .retry)).put sysResetCause_SLOT n).modPower fun p =>
      { p with railFaults := s.power.railFaults + 1, railFaultSlot := some n }) := by
  change execRailFaultTimeout s = _
  simp only [execRailFaultTimeout, h]

/-- A start without an earlier rail fault enters Kindling, reports it and checks the log (R446, R476, R508). -/
theorem slotsDone_noRailFault (h : s.power.railFaultSlot = none) : s.slotsDone =
    (let t := ((s.modPower fun p => { p with stage := .boot }).put sysPower_VMAIN_OK (if s.power.vmainGood then 1 else 0)).put
      sysPower_VSTBY_OK (if s.power.vstbyGood then 1 else 0)
    let t := (t.raise 0 ((t.rd sysResetCause).toNat % 0x10000)).raise 3 1
    let t := t.modPower fun p => { p with railFaults := 0, railFaultSlot := none }
    t.peatColdStart (t.get sysResetCause_CODE)) := by
  unfold State.slotsDone
  simp only [State.raise_power, State.putBit_power, State.modPower_power, h]
  rfl

end

/-- Settles O45: a supply or a sample by what it crosses, a slot by its number, a start by the stage it begins from. -/
theorem suppliesAndStarts : Obligations.SuppliesAndStarts := by
  refine ⟨fun s mv10 hp => ⟨exec_vmainLowDetect_above hp mv10, exec_vmainRecovery_low hp mv10⟩,
    fun s => ⟨rfl, fun hp => congrArg _ (coldSource_powered hp 2 true), fun hp => congrArg _ (coldSource_unpowered hp 2 true),
      fun hp hv => (exec_brownOut_vmainLost hp).trans (congrArg _ (if_pos hv)),
      fun hp hv => (exec_brownOut_vmainLost hp).trans (congrArg _ (if_neg (by simp [hv]))),
      exec_vstbyLossDetect_powered, exec_vstbyGoodDetect_powered, fun hp => congrArg Host.Outcome.next (if_pos hp),
      fun h => congrArg Host.Outcome.next (if_pos h)⟩,
    fun s die plate hp => ⟨fun hw h => ?warns, fun hw h => ?cools, fun hlo hhi => ?between⟩,
    fun s n cycled recLow tapSel h _ => ⟨fun h1 h6 hn => ?plain, fun h1 => ?strap, fun h6 => ?recovery, fun hn hr => ?last⟩,
    fun s n h => exec_railFaultTimeout_slot h, fun s h => congrArg Host.Outcome.next (if_pos h),
    fun s code stage => ⟨rfl, rfl, rfl, rfl, rfl⟩⟩
  case warns => exact (exec_dieTempSample_powered hp die plate).trans (congrArg _ (if_pos ⟨flag_of_get_zero hw, h⟩))
  case cools =>
    refine (exec_dieTempSample_powered hp die plate).trans (congrArg _ ((if_neg ?_).trans (if_pos ⟨flag_of_get_one hw, h⟩)))
    exact fun hcold => absurd ((flag_of_get_one hw).symm.trans hcold.1) (by decide)
  case between =>
    refine (exec_dieTempSample_powered hp die plate).trans (congrArg _ ((if_neg fun hc => ?_).trans (if_neg fun hc => ?_)))
    · exact absurd hc.2 (Int.not_le.mpr hhi)
    · exact absurd hc.2 (Int.not_le.mpr hlo)
  case plain =>
    refine (exec_powerSlotEnd_slot h recLow tapSel).trans (congrArg _ ?_)
    simp only [if_neg h1, if_neg h6, if_neg (Nat.not_le.mpr hn)]
  case strap =>
    subst h1
    exact exec_powerSlotEnd_slot h recLow tapSel
  case recovery =>
    subst h6
    exact exec_powerSlotEnd_slot h recLow tapSel
  case last =>
    subst hn
    exact (exec_powerSlotEnd_slot h recLow tapSel).trans (congrArg _ (slotsDone_noRailFault hr))

end Sys2Proof.Machine

/-! Proof of the obligation on boot, Dormant and wake (R414, R419, R477, R487, R488, R495, R503). -/
namespace Sys2Proof.Machine

/-! ### Images (R414, R419) -/

theorem imageFault_pass {x y : Fin 6} (k1 k2 : Nat) (hx : x = 0) (hy : y = 0) : imageFault k1 x.val k2 y.val = none := by
  subst hx hy
  rfl

/-- The first of two images that fails gives the detail. -/
theorem imageFault_fail {x y : Fin 6} (k1 k2 : Nat) (h : x ≠ 0 ∨ y ≠ 0) : imageFault k1 x.val k2 y.val =
    some (if x.val ≠ 0 then k1 * 256 + x.val else k2 * 256 + y.val) := by
  unfold imageFault
  by_cases hx : x.val ≠ 0
  · rw [if_pos hx, if_pos hx]
  · have hy : y.val ≠ 0 := fun hy => h.elim (fun h => h (Fin.ext (not_not.mp hx))) fun h => h (Fin.ext hy)
    rw [if_neg hx, if_neg hx, if_pos hy]

section
variable {s : State}

section
variable (hs : s.power.stage = .boot) (hp : s.power.pending = none) (hb : s.power.bootRom = false)
include hs hp hb

/-- The boot ROM has the chain to run once its start has come to it. -/
theorem chain_runs : ¬ (s.power.stage ≠ .boot ∨ s.power.pending.isSome = true ∨ s.power.bootRom = true) := by
  simp [hs, hp, hb]

variable (a1 a2 b1 b2 : Fin 6) (hash0 : Bool) (version : W32)

theorem exec_bootRomChain_recN (hr : s.power.recN = true) :
    exec (.bootRomChain a1 a2 b1 b2 hash0 version) s = .next (s.romRecovery 4) :=
  congrArg Host.Outcome.next ((if_neg (chain_runs hs hp hb)).trans (if_pos hr))

variable (hr : s.power.recN = false)
include hr

theorem exec_bootRomChain_slotA (ha1 : a1 = 0) (ha2 : a2 = 0) :
    exec (.bootRomChain a1 a2 b1 b2 hash0 version) s = .next (s.startFirmware false hash0 version) := by
  change execBootRomChain a1 a2 b1 b2 hash0 version s = _
  simp only [execBootRomChain, if_neg (chain_runs hs hp hb), hr, Bool.false_eq_true, if_false, imageFault_pass _ _ ha1 ha2]

theorem exec_bootRomChain_slotB (ha : a1 ≠ 0 ∨ a2 ≠ 0) (hb1 : b1 = 0) (hb2 : b2 = 0) :
    exec (.bootRomChain a1 a2 b1 b2 hash0 version) s = .next
      (((s.raise 421 (if a1.val ≠ 0 then 1 * 256 + a1.val else 2 * 256 + a2.val)).raise 422 0).startFirmware true hash0 version) := by
  change execBootRomChain a1 a2 b1 b2 hash0 version s = _
  simp only [execBootRomChain, if_neg (chain_runs hs hp hb), hr, Bool.false_eq_true, if_false, imageFault_fail _ _ ha,
    imageFault_pass _ _ hb1 hb2]

theorem exec_bootRomChain_neither (ha : a1 ≠ 0 ∨ a2 ≠ 0) (hb' : b1 ≠ 0 ∨ b2 ≠ 0) :
    exec (.bootRomChain a1 a2 b1 b2 hash0 version) s = .next
      (((s.raise 421 (if a1.val ≠ 0 then 1 * 256 + a1.val else 2 * 256 + a2.val)).raise 421
        (if b1.val ≠ 0 then 1 * 256 + b1.val else 2 * 256 + b2.val)).romRecovery 1) := by
  change execBootRomChain a1 a2 b1 b2 hash0 version s = _
  simp only [execBootRomChain, if_neg (chain_runs hs hp hb), hr, Bool.false_eq_true, if_false, imageFault_fail _ _ ha,
    imageFault_fail _ _ hb']

end

section
variable (hs : s.power.stage = .working) (hm : s.mode = modeKindling) (hi : s.get dramcStatus_INIT_DONE = 1)
include hs hm hi

/-- Sealed firmware checks its images in Kindling, once DRAM is trained. -/
theorem check_runs : ¬ (s.power.stage ≠ .working ∨ s.mode ≠ modeKindling ∨ (!s.flag dramcStatus_INIT_DONE) = true) := by
  simp [hs, hm, flag_of_get_one hi]

variable {k4 k3 : Fin 6}

theorem exec_firmwareImageCheck_pass (h4 : k4 = 0) (h3 : k3 = 0) :
    exec (.firmwareImageCheck k4 k3) s = .next (s.modPower fun p => { p with imagesPassed := true }) := by
  change execFirmwareImageCheck k4 k3 s = _
  simp only [execFirmwareImageCheck, if_neg (check_runs hs hm hi), imageFault_pass _ _ h4 h3]

theorem exec_firmwareImageCheck_fail (hk : k4 ≠ 0 ∨ k3 ≠ 0) (hp : s.power.pending = none) :
    exec (.firmwareImageCheck k4 k3) s = .next
      (((s.raise 421 (if k4 ≠ 0 then 4 * 256 + k4.val else 3 * 256 + k3.val)).modPower fun p => { p with cause := 2 }).beginMode
        modeRecovery none) := by
  change execFirmwareImageCheck k4 k3 s = _
  simp only [execFirmwareImageCheck, if_neg (check_runs hs hm hi), imageFault_fail _ _ hk, Fin.val_ne_zero_iff, State.modPower_power, State.raise_power, hp,
    Option.isSome_none, Bool.false_eq_true, if_false]

end

/-! ### Wake (R487, R488) -/

section
variable (hd : s.power.stage = .dormant)
include hd

theorem exec_wakeNAssert_dormant : exec .wakeNAssert s = .next (if s.flag sysWakeCfg_ON_WAKE_N = true then s.latchWake 1 else s) := by
  change execWakeNAssert s = _
  simp only [execWakeNAssert, hd, reduceCtorEq, if_false, true_and]

theorem exec_perstRisingEdge_dormant (port : Fin 2) : exec (.perstRisingEdge port) s = .next
    (if s.flag sysWakeCfg_ON_PERST = true then s.latchWake (3 + port.val) else s) := by
  change execPerstRisingEdge port s = _
  simp only [execPerstRisingEdge, hd, true_and]

/-- VMAIN wakes where the setting lets it, or where no request for Dormant came before. -/
theorem exec_vmainWake_dormant (h : s.get sysWakeCfg_ON_VMAIN = 1 ∨ s.get sysResetCause_CODE ≠ 8) :
    exec .vmainWake s = .next ((s.modPower fun p => { p with vmainGood := true }).latchWake 2) := by
  change execVmainWake s = _
  have hwake : s.flag sysWakeCfg_ON_VMAIN = true ∨ s.get sysResetCause_CODE ≠ 8 := h.imp_left flag_of_get_one
  simp only [execVmainWake, State.modPower_power, hd, reduceCtorEq, if_false, ne_eq, not_true_eq_false, State.modPower_flag,
    State.modPower_get, if_pos hwake]

end

theorem latchWake_first (hw : s.power.wake = none) (source : Nat) : s.latchWake source =
    if s.power.vmainGood = true then s.startFrom source else s.modPower fun p => { p with wake := some source } := by
  unfold State.latchWake
  simp only [hw, Option.getD_none]

theorem exec_vmainWake_lockout (h : s.power.stage = .lockout) :
    exec .vmainWake s = .next ((s.modPower fun p => { p with vmainGood := true }).leaveLockout 0) :=
  congrArg Host.Outcome.next (if_pos h)

end

/-- Settles O46: the chain by which images pass, a wake source by whether SYS_WAKE_CFG allows it, the module off after rail faults by
the start that any of three signals gives it. -/
theorem bootAndWake : Obligations.BootAndWake := by
  refine ⟨fun s a1 a2 b1 b2 hash0 version hs hp hb => ⟨exec_bootRomChain_recN hs hp hb a1 a2 b1 b2 hash0 version,
      exec_bootRomChain_slotA hs hp hb a1 a2 b1 b2 hash0 version, exec_bootRomChain_slotB hs hp hb a1 a2 b1 b2 hash0 version,
      exec_bootRomChain_neither hs hp hb a1 a2 b1 b2 hash0 version⟩,
    fun s k4 k3 hs hm hi => ⟨exec_firmwareImageCheck_pass hs hm hi, exec_firmwareImageCheck_fail hs hm hi⟩,
    fun s h => congrArg Host.Outcome.next (if_pos h),
    fun s hd => ⟨fun hon => ?wakes, fun hoff => ?sleeps, fun port => ⟨fun hon => ?portWakes, fun hoff => ?portSleeps⟩,
      exec_vmainWake_dormant hd⟩,
    fun s source hw => ⟨fun hv => (latchWake_first hw source).trans (if_pos hv),
      fun hv => (latchWake_first hw source).trans (if_neg (by simp [hv]))⟩,
    fun s h => ⟨congrArg Host.Outcome.next (if_pos h), congrArg Host.Outcome.next (if_pos h), exec_vmainWake_lockout h⟩⟩
  case wakes => exact (exec_wakeNAssert_dormant hd).trans (congrArg _ (if_pos (flag_of_get_one hon)))
  case sleeps => exact (exec_wakeNAssert_dormant hd).trans (congrArg _ (if_neg (by simp [flag_of_get_zero hoff])))
  case portWakes => exact (exec_perstRisingEdge_dormant hd port).trans (congrArg _ (if_pos (flag_of_get_one hon)))
  case portSleeps => exact (exec_perstRisingEdge_dormant hd port).trans (congrArg _ (if_neg (by simp [flag_of_get_zero hoff])))

end Sys2Proof.Machine

/-! Proof of the obligation on resets of the module (R460, R461, R489 to R497, R505, R506). -/
namespace Sys2Proof.Machine

section
variable {s : State}

/-! ### Warm sources (R490) -/

/-- Before firmware runs a warm source is a cold reset with its code + 80h. -/
theorem warmSource_starting (h : (∃ n c, s.power.stage = .slot n c) ∨ s.power.stage = .boot) (code : Nat) :
    s.warmSource code = s.coldReset (code + 0x80) false := by
  unfold State.warmSource
  rcases h with ⟨n, c, h⟩ | h
  · simp only [h]
  · simp only [h]

theorem warmSource_working (h : s.power.stage = .working) (code : Nat) : s.warmSource code =
    if s.mode = modeKindling ∨ (s.mode = modeRecovery ∧ s.power.bootRom = true) then s.coldReset (code + 0x80) false
    else if s.power.warm.isSome = true then s.bump sysResetCause_MERGED
    else s.beginWarm code := by
  unfold State.warmSource
  simp only [h]

theorem exec_warmResetReady_waiting {w : WarmReset} (hw : s.power.warm = some w) (hr : w.ready = false)
    (hf : ∀ x ∈ s.fns, x.reset = none) (k3 : Fin 6) : exec (.warmResetReady k3) s = .next
      (let t := s.modPower fun p => { p with warm := some { w with ready := true, recovery := decide (k3.val ≠ 0) } }
      if k3.val ≠ 0 then t.raise 421 (3 * 256 + k3.val) else t) := by
  have hnone : s.fns.any (fun x => x.reset.isSome) = false := by simpa using hf
  change execWarmResetReady k3 s = _
  simp only [execWarmResetReady, hw, hr, hnone, Bool.or_false, Bool.false_eq_true, if_false]

/-! ### Watchdogs (R461, R493) -/

theorem exec_sysCcKickWrite_core (k : Fin 4) (w : World) (value : W32) : exec (.sysCcKickWrite (.core k w) value) s = .next
    (if value.toNat % 256 = 0x5A then s.modPower fun p => { p with ccKick := s.now } else s) := rfl

/-! ### SYS_RESET_CMD (R505) -/

section
variable {k : Fin 4} {key : Byte} (hb : s.writeBarred (.core k .sealed) sysResetCmd.addr = false)
include hb

theorem resetCommand_sealed (key kind : Nat) : s.resetCommand (.core k .sealed) key kind =
    s.noteWrite (.core k .sealed) sysResetCmd.addr (key + 0x100 * kind) (s.rd sysResetCmd).toNat :=
  sealedWrite_sealed rfl mayWrite_core hb _ _

/-- The command acts if its key is A5h. -/
theorem resetCommand_acts : (s.mayWrite (.core k .sealed) && worldOf (.core k .sealed) == .sealed &&
    !s.writeBarred (.core k .sealed) sysResetCmd.addr && key.toNat == 0xA5) = true ↔ key.toNat = 0xA5 := by
  have hworld : (worldOf (.core k .sealed) == .sealed) = true := rfl
  simp only [mayWrite_core, hworld, hb, Bool.not_false, Bool.and_true, Bool.true_and, beq_iff_eq]

theorem exec_resetCmdWarm_sealed : exec (.resetCmdWarm (.core k .sealed) key) s = .next
    (let t := s.noteWrite (.core k .sealed) sysResetCmd.addr (key.toNat + 0x100 * 1) (s.rd sysResetCmd).toNat
    if key.toNat = 0xA5 then t.warmSource 0x14 else t) := by
  change execResetCmdWarm (.core k .sealed) key s = _
  simp only [execResetCmdWarm, resetCommand_acts hb, resetCommand_sealed hb]

theorem exec_resetCmdCold_sealed : exec (.resetCmdCold (.core k .sealed) key) s = .next
    (let t := s.noteWrite (.core k .sealed) sysResetCmd.addr (key.toNat + 0x100 * 2) (s.rd sysResetCmd).toNat
    if key.toNat = 0xA5 then t.coldSource 6 false else t) := by
  change execResetCmdCold (.core k .sealed) key s = _
  simp only [execResetCmdCold, resetCommand_acts hb, resetCommand_sealed hb]

end

/-! ### MODULE_RESET (R506) -/

/-- The record of the packet is durable before the reset follows; no reply does. -/
theorem moduleReset_run (o : Origin) : specModuleReset.run s o =
    (let t := s.recordPacket { o with logged := true, reserve := true } stDone none
    let t := State.commitAll t.peat.queue.length t
    if o.u8 0 = 2 then t.coldSource 6 false else t.warmSource 0x14, .silent) := rfl

end

/-- Settles O47: a source by the stage of the start and the mode, a register write by its key, the packet by its kind. -/
theorem moduleResets : Obligations.ModuleResets := by
  refine ⟨fun s hs hp => congrArg Host.Outcome.next ((if_neg hs).trans (if_pos hp)), fun s => rfl,
    fun s code => ⟨fun h => warmSource_starting h code, fun hs hm => (warmSource_working hs code).trans (if_pos hm),
      fun hs hk hr hw => ?merged, fun hs hk hr hw => ?begins⟩,
    fun s w k3 hw hr hf => ⟨fun hk => ?ready, fun hk => ?failed⟩,
    fun s hv he => congrArg Host.Outcome.next (if_pos (Bool.and_eq_true_iff.mpr ⟨hv, he⟩)),
    fun s hh hp => congrArg Host.Outcome.next ((if_pos hh).trans (if_pos hp)),
    fun s k w value => ⟨fun hv => ?kicks, fun hv => ?ignored⟩, fun s hen hw he => ?expires,
    fun s k key hb => ⟨fun hkey => ⟨?warm, ?cold⟩, fun hkey => ⟨?noWarm, ?noCold⟩⟩,
    fun s p h => ⟨fun hk => ?packetWarm, fun hk => ?packetCold⟩⟩
  case merged =>
    refine (warmSource_working hs code).trans ((if_neg ?_).trans (if_pos (Option.isSome_iff_ne_none.mpr hw)))
    exact fun hc => hc.elim hk fun hc => hr hc.1
  case begins =>
    refine (warmSource_working hs code).trans ((if_neg ?_).trans (if_neg (by simp [hw])))
    exact fun hc => hc.elim hk fun hc => hr hc.1
  case ready =>
    subst hk
    exact exec_warmResetReady_waiting hw hr hf 0
  case failed =>
    have hk' : k3.val ≠ 0 := Fin.val_ne_zero_iff.mpr hk
    refine (exec_warmResetReady_waiting hw hr hf k3).trans (congrArg _ ?_)
    rw [decide_eq_true hk']
    exact if_pos hk'
  case kicks => exact (exec_sysCcKickWrite_core k w value).trans (congrArg _ (if_pos hv))
  case ignored => exact (exec_sysCcKickWrite_core k w value).trans (congrArg _ (if_neg hv))
  case expires => exact congrArg Host.Outcome.next (if_pos (by simp [flag_of_get_one hen, hw, he]))
  case warm => exact (exec_resetCmdWarm_sealed hb).trans (congrArg _ (if_pos hkey))
  case cold => exact (exec_resetCmdCold_sealed hb).trans (congrArg _ (if_pos hkey))
  case noWarm => exact (exec_resetCmdWarm_sealed hb).trans (congrArg _ (if_neg hkey))
  case noCold => exact (exec_resetCmdCold_sealed hb).trans (congrArg _ (if_neg hkey))
  case packetWarm =>
    refine packet_silent h rfl rfl ((moduleReset_run _).trans (congrArg (·, Effect.silent) (if_neg ?_)))
    exact fun h2 => absurd (hk.symm.trans h2) (by decide)
  case packetCold =>
    exact packet_silent h rfl rfl ((moduleReset_run _).trans (congrArg (·, Effect.silent) (if_pos hk)))

end Sys2Proof.Machine

/-! Proof of the obligation on Recovery loads, wake settings, GPIO and the power query (R502, R504, R506, R507). -/
namespace Sys2Proof.Machine

section
variable {s : State}

/-! ### GPIO (R502) -/

theorem gpioRun_held {o : Origin} (h : s.teHolds (o.u8 0) = true) : gpioRun s o = (s, .refuseLogged (refusal stPinTaken 0)) :=
  if_pos h

theorem gpioRun_release {o : Origin} (h : s.teHolds (o.u8 0) = false) (hk : o.u8 1 = 0) :
    gpioRun s o = (s.modPower fun p => { p with gpioDue := p.gpioDue ++ [(o.u8 0, some o)] }, .later) :=
  (if_neg (by simp [h])).trans (if_pos hk)

theorem gpioRun_claim {o : Origin} (h : s.teHolds (o.u8 0) = false) (hk : o.u8 1 ≠ 0) :
    gpioRun s o = (s.setGpio (o.u8 0) (o.u8 1), .answer (done 0 0)) :=
  (if_neg (by simp [h])).trans (if_neg hk)

/-! ### Recovery loads (R504) -/

/-- The oldest load of a ring ends: it is taken from those that wait, and its slot is left, erased or written. -/
theorem exec_recoveryLoadComplete_found {ring : Fin 34} {l : RecoveryJob}
    (h : (s.power.loads.find? fun l => l.origin.ring == ring.val) = some l) (kind : Fin 5) (cause : Fin 6) (readBack : Bool)
    (image : List Byte) : exec (.recoveryLoadComplete ring kind cause readBack image) s = .next
      (let t := s.modPower fun p => { p with loads := p.loads.erase l }
      let base := slotBase l.slot
      let erased := sclear t.power.flash base (base + slotBytes)
      let bytes := if ring.val < 32 then bytesAt image 0 l.length else t.load l.source l.length
      if cause.val ≠ 0 then
        let u := if kind.val = 0 then t else t.raise 421 (kind.val * 256 + cause.val)
        u.settle l.origin (refusal stNoResource (if kind.val = 0 then 0xFF else kind.val * 256 + cause.val))
      else if readBack = false then
        (t.modPower fun p => { p with flash := erased }).settle l.origin (refusal stNoResource 0xFE)
      else
        (t.modPower fun p => { p with flash := sput erased base bytes }).settle l.origin (done l.length 0)) := by
  change execRecoveryLoadComplete ring kind cause readBack image s = _
  simp only [execRecoveryLoadComplete, h, when_bne_zero, Bool.not_eq_true']

end

/-- Settles O48: a load by what its images and its read-back give, a GPIO packet by whether TE holds its contact and by its operation. -/
theorem powerPackets : Obligations.PowerPackets := by
  refine ⟨fun s p h => packet_later h rfl nofun rfl,
    fun s ring kind cause readBack image l hl => ⟨fun hc hk => ?missing, fun hc hk => ?fails, fun hc hr => ?erased, fun hc hr => ?written⟩,
    fun s p h => packet_answer h rfl nofun rfl, fun s p h => packet_answer h rfl nofun rfl,
    fun s p h => ⟨fun ht hk => packet_later h rfl nofun (gpioRun_release ht hk), fun ht hk => packet_answer h rfl nofun (gpioRun_claim ht hk),
      fun ht => ?taken⟩,
    fun s i op => ⟨fun hop => if_pos hop, fun hop => ?low, fun hop => ?high⟩⟩
  case missing =>
    subst hk
    exact (exec_recoveryLoadComplete_found hl 0 cause readBack image).trans (congrArg _ (if_pos (Fin.val_ne_zero_iff.mpr hc)))
  case fails =>
    refine (exec_recoveryLoadComplete_found hl kind cause readBack image).trans (congrArg _ ((if_pos (Fin.val_ne_zero_iff.mpr hc)).trans ?_))
    have hk' := Fin.val_ne_zero_iff.mpr hk
    simp only [if_neg hk']
  case erased =>
    subst hc
    exact (exec_recoveryLoadComplete_found hl kind 0 readBack image).trans (congrArg _ (if_pos hr))
  case written =>
    subst hc
    exact (exec_recoveryLoadComplete_found hl kind 0 readBack image).trans (congrArg _ (if_neg (show ¬ readBack = false by rw [hr]; decide)))
  case taken => exact packet_refuseLogged h rfl nofun (gpioRun_held ht)
  case low =>
    subst hop
    rfl
  case high =>
    subst hop
    rfl

end Sys2Proof.Machine

/-! Proofs that the open world changes nothing where it may not (R395, R400, R549, R552), and that a step runs the command at the front
of the queue. -/
namespace Sys2Proof.Machine

/-! ### What a refused access may change -/

/-- Whether a register lies outside the blocks that report a refused access: EVT, WORLD and PEAT. -/
def offReports (r : Reg) : Prop :=
  (r.addr < 0x40200000 ∨ 0x40300000 ≤ r.addr) ∧ (r.addr < 0x45000000 ∨ 0x45100000 ≤ r.addr) ∧
    (r.addr < 0x47000000 ∨ 0x48000000 ≤ r.addr)

/-- From `s` to `t` nothing changes but what reports a refused access, which ends in a bus error. -/
def heldFrom (s t : State) (agent addr : Nat) : Prop :=
  t.mem = s.mem ∧ t.now = s.now ∧ t.pending = s.pending ∧ (∀ r, offReports r → t.rd r = s.rd r) ∧ .busError agent addr ∈ t.out

/-- Raising an event changes EVT alone, but for the count of records that are lost, which is in PEAT. -/
theorem offEvents_of_offReports {r : Reg} (h : offReports r) : RF.offEvents ⟨r, 0, 64⟩ = true := by
  obtain ⟨hevt, _, hpeat⟩ := h
  simp only [RF.offEvents, Bool.and_eq_true, Bool.or_eq_true, Nat.ble_eq, Bool.not_eq_true', ← Bool.not_eq_true, Nat.beq_eq]
  omega

section
variable {s : State} {agent addr : Nat}

theorem mem_out_emit (o : Output) : o ∈ (s.emit o).out := by simp [State.emit]

theorem heldFrom_emit : heldFrom s (s.emit (.busError agent addr)) agent addr :=
  ⟨rfl, rfl, rfl, fun _ _ => rfl, mem_out_emit _⟩

/-- The registers of the WORLD block that show the last violation and count it (R400). -/
def State.showViolation (s : State) (agent addr : Nat) (write : Bool) : State :=
  (((s.put worldViolLast_PAGE (addr / 0x10000)).putBit worldViolLast_WRITE write).put worldViolLast_AGENT agent).bump
    worldViolCnt_COUNT

theorem violation_eq (write : Bool) : s.violation agent addr write =
    ((s.showViolation agent addr write).modPeat fun p => { p with violations := p.violations + 1 }).raise 416 agent := rfl

section
variable (h : swf s.regs = true)
include h

theorem swf_showViolation (write : Bool) : swf (s.showViolation agent addr write).regs = true :=
  swf_put (swf_put (swf_put (swf_put h _ _) _ _) _ _) _ _

variable {r : Reg} (hr : offReports r)
include hr

theorem rd_showViolation (write : Bool) : (s.showViolation agent addr write).rd r = s.rd r := by
  have hlast : r.addr ≠ worldViolLast.addr := fun e => by simp [offReports, e, worldViolLast] at hr
  have hcount : r.addr ≠ worldViolCnt.addr := fun e => by simp [offReports, e, worldViolCnt] at hr
  have hpage := swf_put h worldViolLast_PAGE (addr / 0x10000)
  have hwrite := swf_put hpage worldViolLast_WRITE (if write then 1 else 0)
  have hagent := swf_put hwrite worldViolLast_AGENT agent
  unfold State.showViolation State.bump State.bumpBy State.putBit
  rw [rd_put_ne hagent hcount, rd_put_ne hwrite hlast, rd_put_ne hpage hlast, rd_put_ne h hlast]

theorem rd_violation (write : Bool) : (s.violation agent addr write).rd r = s.rd r := by
  have hpeat (f : PeatState → PeatState) : swf ((s.showViolation agent addr write).modPeat f).regs = true := swf_showViolation h write
  rw [violation_eq, rd_raise (hpeat _) (offEvents_of_offReports hr) (by decide), State.modPeat_rd, rd_showViolation h hr]

theorem rd_writeRecord (kind value old status : Nat) : (s.writeRecord kind agent addr value old status).rd r = s.rd r :=
  rd_of_get (get_log h (offEvents_of_offReports hr) _)

end

/-- A violation counts and reports; it leaves what a held access must leave. -/
theorem heldFrom_violation (h : swf s.regs = true) (write : Bool) :
    heldFrom s ((s.emit (.busError agent addr)).violation agent addr write) agent addr := by
  refine ⟨?_, ?_, ?_, fun r hr => rd_violation (s := s.emit (.busError agent addr)) h hr write, ?_⟩
  · exact State.raise_mem _ _ _
  · exact State.raise_now _ _ _
  · exact State.raise_pending _ _ _
  · exact (State.raise_out _ _ _).symm ▸ mem_out_emit (s := s) _

/-- The record of a refused write goes to the log, or is counted as lost. -/
theorem heldFrom_refuseWrite (h : swf s.regs = true) (k : Fin 4) (value old status : Nat) :
    heldFrom s (s.refuseWrite (.core k .opened) addr value old status) (agentOf (.core k .opened)) addr := by
  refine ⟨?_, ?_, ?_, fun r hr => rd_writeRecord (s := s.emit (.busError _ addr)) h hr 4 value old status, ?_⟩
  · exact State.log_mem _ _
  · exact State.log_now _ _
  · exact State.log_pending _ _
  · exact (State.log_out _ _).symm ▸ mem_out_emit (s := s) _

/-- An access outside the reach of a core, or one that leaves memory before its end, is held. -/
theorem heldFrom_accessMemory (h : swf s.regs = true) {k : Fin 4} {n : Nat} (hr : s.mayAccess (.core k.val) addr n = false)
    (write : Bool) (effect : State → State) :
    heldFrom s (s.accessMemory (.core k .opened) addr n write effect) (agentOf (.core k .opened)) addr := by
  cases hend : s.inMemory (addr + n - 1) with
  | false =>
    rw [accessMemory_leaves hend]
    exact heldFrom_emit
  | true =>
    rw [accessMemory_barred (who := .core k .opened) hend hr]
    exact heldFrom_violation h write

end

/-- Settles O60: a register write is refused, a register read is a violation, and an access of memory either leaves it or is a
violation. -/
theorem openWorldIsHeld : Obligations.OpenWorldIsHeld := by
  intro s t k addr width value hcan
  have hregs := canonical_regs hcan
  refine ⟨fun hwin hrow hopen hexec => ?write, fun hwin hrow hopen hexec => ?read,
    fun hmem hacc => ⟨fun hexec => ?memoryWrite, fun hexec => ?memoryRead⟩⟩
  case write =>
    rw [exec_registerWrite_core hrow, busWrite_forbidden hwin hopen] at hexec
    obtain rfl := Host.Outcome.next.inj hexec
    exact heldFrom_refuseWrite hregs k _ _ _
  case read =>
    rw [exec_registerRead_core hrow, busRead_forbidden hwin hopen] at hexec
    obtain rfl := Host.Outcome.next.inj hexec
    exact heldFrom_violation hregs false
  case memoryWrite =>
    rw [exec_registerWrite_memory hmem] at hexec
    obtain rfl := Host.Outcome.next.inj hexec
    exact heldFrom_accessMemory hregs hacc true _
  case memoryRead =>
    rw [exec_registerRead_memory hmem] at hexec
    obtain rfl := Host.Outcome.next.inj hexec
    exact heldFrom_accessMemory hregs hacc false _

/-! ### Steps -/

/-- A command that waits is taken from the front of the queue. -/
theorem step_pending {s : State} {c : Instr} {rest : List Instr} (h : s.pending = c :: rest) :
    step s = exec c { s with pending := rest } := by
  unfold step
  rw [h]

/-- Settles O53: a step by whether a command waits; the opcode table spells none. -/
theorem stepsRunCommands : Obligations.StepsRunCommands :=
  ⟨fun _ _ _ h => step_pending h, fun _ _ => rfl, fun s h => by unfold step; rw [h], fun _ _ _ => ⟨rfl, rfl⟩⟩

end Sys2Proof.Machine
